-- ==== Sys2Proof/Word.lean ====
section
/-! DEFINITION. The word types of the model and the finite map that every sparse table and store of the block is kept in. -/

namespace Sys2Proof

/-- One byte. -/
abbrev Byte := BitVec 8

/-- One setup register (R13). -/
abbrev Word := BitVec 32

/-- A finite map from natural numbers: a list of (key, value) pairs whose keys rise strictly; an absent key has the
default value of the table it stands for. -/
abbrev FMap (α : Type) := List (Nat × α)

end Sys2Proof
end

