-- ==== Sys2Proof/Types/Base.lean ====
section
/-! DEFINITION. The enumerations, descriptors and operand types that commands carry and the state stores. -/

namespace Sys2Proof

/-- The operating modes, in the encoding order of R41. -/
inductive Mode where
  | bringup | vigil | acquire | retain | calibrate | safe
  deriving DecidableEq, Repr

/-- Status codes of R397, in code order 0x00 to 0x0F. -/
inductive Status where
  | ok | rsvdField | badOpcode | range | notOwner | stale | quota | busy | tooFar | late | aborted | mode
  | noResource | jumpRefused | link | fault
  deriving DecidableEq, Repr

/-- Who makes a register access (R540, R545): a host function, the JTAG REGACC instruction, TW0 or the steward. -/
inductive Requester where
  | fn (f : Fin 8)
  | regacc
  | tw0
  | steward
  deriving DecidableEq, Repr

/-- How a register write reaches the block (R544): one DW, with its four byte enables; a two-DW request aligned on a _LO
and _HI pair; any longer request. -/
inductive WriteShape where
  | dw (enables : BitVec 4) (value : Word)
  | pair (lo hi : Word)
  | long (first : Word)
  deriving DecidableEq, Repr

/-- A command descriptor of R381 as it stands on a command ring of a function, less its opcode byte, which is the row's:
`flags` are bits [23:0] of bytes 0 to 3, `body` is bytes 16 to 63 (byte 16 in the low bits). [DESIGN CHOICE, log 27] -/
structure Desc where
  func : Fin 8
  ring : Fin 64
  flags : BitVec 24
  expVersion : BitVec 32
  cookie : BitVec 64
  body : BitVec 384
  deriving DecidableEq, Repr

/-- FW_SWITCH and how it goes: `good` tells whether the boot record's new copy passes its check (R478, R498). -/
structure FwSwitch where
  d : Desc
  good : Bool
  deriving DecidableEq, Repr

/-- Where an accepted command came from, as its completion and later entries name it (R398, R399). `epoch` tells the
function's ring state apart from the one after a reset (R351). -/
structure Src where
  func : Nat
  ring : Nat
  index : Nat
  cookie : BitVec 64
  jseq : Nat
  opcode : Nat
  epoch : Nat
  reg : Bool := false
  deriving DecidableEq, Repr

/-- A position of a time base: whole nanoseconds (64 bits) and pips (16 bits) (R9, R108). -/
structure Stamp where
  ns : Nat
  pips : Nat
  deriving DecidableEq, Repr

/-- A tagged 40-bit word of an engine (R157): four tag bits above 36 payload bits. -/
abbrev EWord := BitVec 40

/-- One trigger primitive (R241): four 32-bit words, as 128 bits, word 0 lowest. -/
abbrev TpWord := BitVec 128

end Sys2Proof
end

