-- ==== Sys2Proof/Types/Host.lean ====
section
/-! DEFINITION. The state of the host interface, its rings, the commands in flight and the journal (11_host_rings.md, 12_commands_journal.md). -/

namespace Sys2Proof

/-- A write of RING_CTL with resume, and the host index that the doorbell page then holds (R354, R357). -/
structure Resume where
  value : Word
  word : BitVec 64
  deriving DecidableEq, Repr

/-- One ring slot of a function (R352–R358, R370). The programmed settings are in the ring table registers of R380. -/
structure RingSt where
  /-- RING_CTL.en as taken (R354). -/
  en : Bool := false
  /-- The status code of the stop, while the ring is STOPPED (R355). -/
  stopped : Option Status := none
  /-- The state and the code of the last stop in the status word as last written (R355). -/
  shown : Nat := 0
  code : Status := .ok
  /-- The host index the device has read (R356). -/
  host : Nat := 0
  /-- The device index (R352). -/
  dev : Nat := 0
  /-- Entries produced since the last interrupt (R370). -/
  cnt : Nat := 0
  /-- Device tick of the oldest uninterrupted entry (R370). -/
  oldest : Option Nat := none
  /-- Posts of an event ring reserved for records beyond the device index, and records written whose posts it has not passed: first
  index and posts (R361, R374). -/
  resv : Nat := 0
  written : List (Nat × Nat) := []
  /-- The interrupt of a journal ring full has been sent for this occurrence (R358). -/
  fullSent : Bool := false
  /-- The host index read while the ring was stopped, or that stopped it: it is judged at resume (R357). -/
  seen : Option Nat := none
  /-- The next descriptor has been read, and is ORDERED (R375). -/
  ordered : Bool := false
  deriving DecidableEq, Repr

/-- Kinds of completion entry (R399). -/
inductive ComplKind where
  | cmd | free | trap | reply
  deriving DecidableEq, Repr

/-- A completion entry of R398. -/
structure Compl where
  kind : ComplKind
  late : Bool := false
  partialFlag : Bool := false
  status : Status
  opcode : Nat
  ring : Nat
  index : Nat
  aux : Nat := 0
  cookie : BitVec 64
  jseq : Nat
  result : Nat := 0
  deriving DecidableEq, Repr

/-- An object of R385: its type and 24-bit identifier. -/
structure ObjId where
  type : Nat
  id : Nat
  deriving DecidableEq, Repr

/-- A journal entry of R401. -/
structure JEntry where
  seq : Nat
  epoch : Nat
  opcode : Nat
  outcome : Status
  func : Nat
  reg : Bool
  ring : Nat
  index : Nat
  descCrc : BitVec 32
  dataCrc : BitVec 32
  cookie : BitVec 64
  obj0 : ObjId
  ver0 : Nat
  obj1 : ObjId
  ver1 : Nat
  tAccept : Nat
  entryCrc : BitVec 32
  deriving DecidableEq, Repr

/-- What an accepted command that has not completed waits for (R394). -/
inductive Wait where
  /-- A fence: kinds still to be satisfied (bits of R376), the host indices F_FUNC read at acceptance by command ring, and the F_TIME
  target. -/
  | fence (mask : Nat) (upTo : List (Nat × Nat)) (tb : Nat) (time : Nat)
  | modeSet
  | taskCancel (engine slot : Nat)
  | launch
  | fastApply (fasts outs : List Nat)
  | recallLocal (id : Nat)
  | castle (kind quadrant : Nat)
  | flash
  | streamCfg (quadrant slot : Nat)
  | other
  deriving DecidableEq, Repr

/-- An accepted command that has not completed (R358). -/
structure Pend where
  src : Src
  wait : Wait
  deriving DecidableEq, Repr

/-- One host function (R348). [PRESUMED, log 9] -/
structure FnSt where
  d3hot : Bool := false
  /-- MSI-X enable of the function's capability (R471). -/
  msixEn : Bool := false
  /-- ATS enabled for the function (R346). -/
  ats : Bool := false
  /-- WAKE_N asserted and PME sent, not yet answered by a return to D0 (R48). -/
  wake : Bool := false
  /-- Device tick of the last poll of the function's doorbell lines (R366). -/
  polled : Option Nat := none
  /-- Raised by every reset of the function's ring state (R351). -/
  epoch : Nat := 0
  rings : FMap RingSt := []
  /-- The command ring that is first in the function's round robin (R359). -/
  turn : Nat := 0
  /-- Completions that wait for a free entry of their ring or for their journal entry (R358). -/
  cqWait : List (Nat × Compl) := []
  /-- Journal entries that wait for the function's journal ring (R358, R403). -/
  jrnlWait : List JEntry := []
  deriving DecidableEq, Repr

/-- The host interface: link, functions, commands in flight (R345, R351, R379). -/
structure HostSt where
  linkUp : Bool := false
  /-- The link is in L1.2 (R48, R371). -/
  l12 : Bool := false
  /-- The function that is first in the round robin (R359). -/
  turn : Nat := 0
  flit : Bool := false
  cxl : Bool := false
  cxlCache : Bool := false
  gen : Nat := 0
  width : Nat := 0
  fns : FMap FnSt := []
  deriving DecidableEq, Repr

/-- The journal and the objects' versions and owners (R385, R386, R401–R406). -/
structure JrnlSt where
  /-- The latest entries, newest first, at most 4,096 (R403). -/
  entries : List JEntry := []
  /-- The latest sequence number given; 0 before the first (R405). -/
  head : Nat := 0
  epoch : Nat := 0
  /-- Object versions by type × 2^24 + id (R386). -/
  vers : FMap Nat := []
  /-- Object owners, by the same key: the owning function (R350). -/
  owners : FMap Nat := []
  /-- Commands accepted and not completed, oldest first (R358). -/
  inflight : List Pend := []
  deriving DecidableEq, Repr

end Sys2Proof
end

