-- ==== Sys2Proof/Types/Time.lean ====
section
/-! DEFINITION. The state of the time unit: time bases, reference inputs, synthesizers and PTP ports (04_time_bases.md). -/

namespace Sys2Proof

/-- Servo states, in the encoding order of R122. -/
inductive Servo where
  | free | acquiring | locked | holdover
  deriving DecidableEq, Repr

/-- One time base (R108, R112, R121–R126). [DESIGN CHOICE, log 6] -/
structure TbSt where
  /-- Nanoseconds since the epoch, 64 bits (R108). -/
  ns : Nat := 0
  /-- The fraction, in 2^-32 ns (R112). -/
  frac : Nat := 0
  /-- The residual accumulator, in 2^-48 ns (R112). -/
  resid : Nat := 0
  /-- The integral term, in 2^-32 ppb (R121). -/
  integ : Int := 0
  /-- The frequency in use, in 2^-8 ppb (R121). -/
  freq : Int := 0
  servo : Servo := .free
  valid : Bool := false
  /-- Consecutive accepted offsets within lock_thr, 0 to 8 (R122). -/
  run : Nat := 0
  /-- Device tick from which the holdover timer runs (R124). -/
  holdFrom : Nat := 0
  /-- Servo frequencies since the last source change, newest first, at most 16 (R124). -/
  hist : List Int := []
  /-- The latest offset, in pips, with refused and held (R123, R125). -/
  ofs : Int := 0
  ofsTime : Nat := 0
  /-- Device tick at which it was measured (R125). -/
  ofsTick : Int := 0
  refused : Bool := false
  held : Bool := false
  /-- Device tick of the last forced step (R126). -/
  stepTick : Option Nat := none
  /-- Edges counted toward one in div + 1 (R143). -/
  trigDiv : Nat := 0
  /-- Frequency of the recovered clock while layer-1 syntonization is in force, in 2^-8 ppb (R136). -/
  l1 : Option Int := none
  /-- TBn_STATUS flags that a write of one clears (R153). -/
  jumpSeen : Bool := false
  holdSeen : Bool := false
  l1Lost : Bool := false
  /-- Received UTC offset and leap flags (R135). -/
  utc : Nat := 0
  leap61 : Bool := false
  leap59 : Bool := false
  steps : Nat := 0
  deriving DecidableEq, Repr

/-- Where a synthesizer stands (R146–R148): running or off, a relock or a switch-off asked for while the output is high, relocking, or held
by the gate. -/
inductive SynStage where
  | idle | asked | relock | gate
  deriving DecidableEq, Repr

/-- One synthesizer (R145–R148). -/
structure SynSt where
  /-- Period and phase of the last commit, in pips (R146). -/
  period : Nat := 0
  phase : Nat := 0
  stage : SynStage := .idle
  /-- Device tick the stage began. -/
  since : Nat := 0
  locked : Bool := false
  gated : Bool := false
  relocks : Nat := 0
  /-- The level of REFOUTm, and the device tick at which the present high phase ends (R145, R146). -/
  level : Bool := false
  fallAt : Nat := 0
  deriving DecidableEq, Repr

/-- PTP port states, in the encoding order of R137 from 1. -/
inductive PtpState where
  | initializing | faulty | disabled | listening | preTransmitter | transmitter | passive | uncalibrated | receiver
  deriving DecidableEq, Repr

/-- The data set an Announce message carries (R129, IEEE 1588-2019). -/
structure Announce where
  priority1 : Nat
  clockClass : Nat
  accuracy : Nat
  variance : Nat
  priority2 : Nat
  gmId : Nat
  stepsRemoved : Nat
  /-- Sender's clock identity × 65,536 + port number. -/
  sender : Nat
  utcOffset : Nat
  leap61 : Bool
  leap59 : Bool
  /-- The other flags of the Announce flag octet, bits 2 to 7, and timeSource. -/
  flags : Nat := 0
  timeSource : Nat := 0
  /-- Types of the TLVs it carries. -/
  tlvs : List Nat := []
  deriving DecidableEq, Repr

/-- A foreign master of a port: its latest Announce, the device tick it came, and that of the one before (R129, IEEE 1588-2019). -/
structure Foreign where
  ann : Announce
  last : Nat
  prev : Option Nat
  deriving DecidableEq, Repr

/-- PTP message types (R128–R134, IEEE 1588-2019). -/
inductive PtpType where
  | sync | followUp | delayReq | delayResp | pdelayReq | pdelayResp | pdelayRespFollowUp | announce
  deriving DecidableEq, Repr

/-- A PTP message: its type and sequence number, its time stamp in the IEEE 1588 view (R110), its correction field in pips, the two-step
flag, the sender's clock identity and port, domain and sdoId, the requesting port of a response, and the data set of an Announce. -/
structure PtpMsg where
  type : PtpType
  seq : Nat
  sec : Nat
  nsec : Nat
  corr : Int
  twoStep : Bool
  sender : Nat
  domain : Nat
  sdo : Nat
  req : Nat := 0
  ann : Option Announce := none
  /-- Not on the line: the request's correction, kept for the Pdelay_Resp_Follow_Up of a two-step Pdelay_Resp. -/
  carry : Int := 0
  deriving DecidableEq, Repr

/-- How a PTP message reached a port (R130, R131): transport 0 L2, 1 UDP over IPv4, 2 UDP over IPv6, and the sender's IP address. -/
structure PtpFrom where
  transport : Fin 3
  addr : BitVec 128
  deriving DecidableEq, Repr

/-- One PTP port instance (R129–R138). -/
structure PtpSt where
  state : PtpState := .initializing
  /-- Filtered mean path delay, in pips (R134). -/
  mpd : Int := 0
  /-- The next path delay sample is taken as is (R134). -/
  fresh : Bool := true
  /-- A Sync waiting for its Follow_Up: sequence, receive time and correction in pips, device tick (R134). -/
  sync : Option (Nat × Int × Int × Nat) := none
  /-- t1 and t2 of the latest Sync, for the delay sample (R134). -/
  t1 : Int := 0
  t2 : Int := 0
  /-- The delay request sent: sequence and departure stamp in pips (R133). -/
  req : Option (Nat × Int) := none
  /-- A two-step Pdelay_Resp that waits for its Pdelay_Resp_Follow_Up: sequence, its arrival in pips, the receipt stamp and the correction
  it carries, in pips (R134). -/
  presp : Option (Nat × Int × Int × Int) := none
  /-- The foreign masters heard (R129). -/
  foreign : List Foreign := []
  /-- The port identity of the transmitter that the port follows; 0 for any (R129). -/
  parent : Nat := 0
  /-- Device tick at which LISTENING or PRE_TIME_TRANSMITTER was entered (R137). -/
  preAt : Nat := 0
  seqSync : Nat := 0
  seqAnnounce : Nat := 0
  seqDelay : Nat := 0
  /-- Device ticks of the last Sync, Announce and delay request originated (R133). -/
  syncAt : Nat := 0
  annAt : Nat := 0
  delayAt : Nat := 0
  /-- Entries of the transmit stamp queue that wait for their Follow_Up, each the message sent and its transmit stamp in pips; at most 16
  (R133, R537). -/
  stamps : List (PtpMsg × Int) := []
  unsupported : Nat := 0
  deriving DecidableEq, Repr

/-- The time unit (R112, R141–R148). [DESIGN CHOICE, log 6] -/
structure TimeSt where
  /-- Released from reset: the time bases count (R44). -/
  running : Bool := false
  /-- Phase of the five-increment sequence (R112). -/
  phase : Nat := 0
  refinPresent : Bool := false
  pllLock : Bool := false
  refinLost : Bool := false
  tbs : FMap TbSt := []
  syns : FMap SynSt := []
  ptps : FMap PtpSt := []
  /-- Device tick of the last PPSIN edge taken (R142). -/
  ppsIn : Option Nat := none
  ppsEdges : Nat := 0
  ppsIgnored : Nat := 0
  /-- Level of PPSOUT; high by its pull-up until enabled (R144, R479). -/
  ppsOut : Bool := true
  /-- Device tick of the last PPSOUT rise (R144). -/
  ppsRise : Option Nat := none
  deriving DecidableEq, Repr

end Sys2Proof
end

