-- ==== Sys2Proof/Types/Output.lean ====
section
/-! DEFINITION. What the block drives to the outside: entries in host memory, messages, frames, pulses and bus transactions. -/

namespace Sys2Proof

/-- One thing driven to the outside. [DESIGN CHOICE, log 4] -/
inductive Output where
  /-- An entry written to a completion or the journal ring: function, ring and index, its host address and bytes (R352, R353, R398, R401). -/
  | compl (func ring index addr : Nat) (entry : Compl) (bytes : List Nat)
  | jentry (func index addr : Nat) (entry : JEntry) (bytes : List Nat)
  /-- A changed device index, and a ring status word, in the shadow page: function, slot, host address, and the index, or the state and the
  code of the last stop (R355). -/
  | shadow (func slot addr index : Nat)
  | ringStatus (func slot addr state : Nat) (status : Status)
  | msix (func vector : Nat)
  /-- WAKE_N asserted and PME sent (R48). -/
  | wakePme (func : Nat)
  /-- Bytes written to host memory (R396). -/
  | hostWrite (func : Nat) (addr : Nat) (bytes : List Nat)
  /-- A register or window read answered to a requester (R545). -/
  | readData (who : Requester) (offset : Nat) (value : Word)
  /-- A PTP message leaves a port at a stamp, in a frame (R130, R133). -/
  | ptp (port : Nat) (msg : PtpMsg) (bytes : List Nat) (at_ : Int)
  /-- A frame leaves a port: the bytes from destination address to payload end (R101). -/
  | frame (port : Nat) (bytes : List Nat)
  /-- The same, ended with an inverted FCS (R290). -/
  | stomp (port : Nat) (bytes : List Nat)
  /-- PPSOUT and REFOUTm levels, with the time of the edge in pips of their time base (R139, R144, R145); TRIGOUT and TMR pin levels. -/
  | pps (level : Bool) (at_ : Int)
  | refout (m : Nat) (level : Bool) (at_ : Int)
  | trigOut (line : Nat) (level : Bool)
  | tmrPin (pin : Nat) (level : Bool)
  /-- A PMBus transaction of TW1: address, page, command code, written value or none for a read (R417–R420). -/
  | pmbus (addr page code : Nat) (value : Option Nat)
  /-- SPI bits out: port, chip select, value, bit count (R486). -/
  | spi (port cs value nbits : Nat)
  /-- A flash command on SPI0: chip select, opcode, byte offset where it has one, bytes written (R491, R492, R498). -/
  | flash (cs op : Nat) (offset : Option Nat) (bytes : List Nat)
  /-- TW0 answers with bytes, or does not acknowledge (R513, R514). -/
  | tw0 (bytes : List Nat)
  | tw0Nack
  /-- TW0 holds SDA low as an attention request (R519). -/
  | attn
  /-- TW1 sends SCL pulses and a STOP (R522). -/
  | busClear (pulses : Nat)
  /-- The answer to JTAG REGACC (R540). -/
  | regacc (value : Word)
  /-- Unsupported Request or Configuration Request Retry Status to a host access (R45). -/
  | ur (func : Nat)
  deriving DecidableEq, Repr

end Sys2Proof
end

