-- ==== Sys2Proof/Types/Frames.lean ====
section
/-! DEFINITION. What arrives at the block from outside: received frames and messages, as operands of commands. -/

namespace Sys2Proof

/-- A frame as received at a port (R67, R74): its bytes from the destination address to the payload end, whether its FCS is
good and it was not cut short, the error of its stamp in pips (R139: at most 0.8 ns either way), and the FEC codewords corrected and
uncorrectable since the frame before it (R105). -/
structure RxFrame where
  bytes : List Byte
  fcsOk : Bool
  stampErr : Int
  fecCorr : Nat := 0
  fecUncorr : Nat := 0
  deriving DecidableEq, Repr

end Sys2Proof
end

