-- ==== Sys2Proof/Types/Rst.lean ====
section
/-! DEFINITION. The state of the operating modes and of the reset controller (02_operating_modes.md, 15_reset_bringup.md). -/

namespace Sys2Proof

/-- A monitored rail is outside its window, or none is; `core`: the rail is VCOREC and has failed (R20, R51). -/
structure SupplyEvent where
  outside : Bool
  core : Bool
  deriving DecidableEq, Repr

/-- The automatic causes of Safe and the command (R51, R62). -/
structure SafeCause where
  cmd : Bool := false
  supply : Bool := false
  therm : Bool := false
  deriving DecidableEq, Repr

/-- A transition in progress (R42, R54, R58). -/
structure Transit where
  target : Mode
  /-- Still in the drain of R58, begun at this device tick. -/
  drain : Option Nat
  /-- Entered by an automatic cause (R51). -/
  auto : Bool
  /-- The Vigil set read at the request, for a transition to Vigil: quadrant, ports, engines (R46, R62). -/
  vigil : Nat × Nat × Nat
  deriving DecidableEq, Repr

/-- The MODE state (R42, R51, R62). [DESIGN CHOICE, log 5] -/
structure ModeSt where
  current : Mode := .bringup
  transit : Option Transit := none
  cause : SafeCause := {}
  /-- The calibration set in force (R49). -/
  calSet : BitVec 128 := 0
  /-- The Vigil set in force, or the last one: quadrant, ports, engines (R46, R62). -/
  vigilQ : Nat := 0
  vigilPorts : Nat := 0
  vigilEngines : Nat := 0
  /-- Safe was entered from Vigil: ports and quadrants outside the Vigil set stay as Vigil left them (R54). -/
  vigilSafe : Bool := false
  /-- VCOREC has failed: the steward, the CCU and the central fabric stand still (R20). -/
  coreFail : Bool := false
  /-- Device tick since which the hottest sensor has been above therm_warn (R51). -/
  hotSince : Option Nat := none
  /-- Device tick since which a monitored rail has been outside its window (R51). -/
  railSince : Option Nat := none
  /-- Hottest on-die sensor, and the five sensors of the TEMP answer, °C (R51, R461, R513). -/
  hottest : Int := 25
  sensors : FMap Int := []
  deriving DecidableEq, Repr

/-- What keeps a reset asserted (R459, R464, R465). -/
inductive HoldBy where
  | power | sysrst | perst | thermal | minimum
  deriving DecidableEq, Repr

/-- What a flash reports in its SFDP (R491): density and page as log2 bytes, the erase opcodes, the widest fast read with its dummy and mode
clocks, and whether it takes 4-byte addresses. -/
structure Sfdp where
  log2Size : Fin 256
  log2Page : Fin 256
  op4k : Byte
  op32k : Byte
  op64k : Byte
  readMode : Fin 5
  dummy : Fin 32
  modeClk : Fin 8
  readOp : Byte
  addr4 : Bool
  deriving DecidableEq, Repr

/-- A reset being carried out (R455, R467). Target: 0 the whole, else 1 + the quadrant, engine or function. -/
structure Reset where
  level : Nat
  target : Nat
  /-- The bit of RST_CAUSE of its source (R481). -/
  cause : Nat
  hold : Option HoldBy
  /-- Domains still to be released, by the numbers of R481 (1 AON to 11 host interface). -/
  todo : List Nat
  /-- Device tick of the assertion, or of the last release (R465, R469). -/
  since : Nat
  /-- Device tick its bring-up began (R470). -/
  began : Nat
  deriving DecidableEq, Repr

/-- A request held by R467. -/
structure ResetReq where
  level : Nat
  target : Nat
  cause : Nat
  hold : HoldBy
  deriving DecidableEq, Repr

/-- The fuses of R483, R525 and the repair fuses of R445. -/
structure Fuses where
  rstMap : Nat := 0
  rstTiming : Nat := 0
  prog : Nat := 0
  revoked : Nat := 0
  tw0 : Nat := 0
  keyHash : FMap (BitVec 384) := []
  /-- Burnt repair entries, in index order (R447). -/
  repair : List (BitVec 32) := []
  deriving DecidableEq, Repr

/-- The reset controller (R459–R483). -/
structure RstSt where
  cur : Option Reset := none
  held : List ResetReq := []
  cause : Nat := 0
  flr : Nat := 0
  l3 : Nat := 0
  l4Seen : Bool := false
  l4Engine : Nat := 0
  lastUs : Nat := 0
  level : Nat := 0
  bootSlot : Nat := 0
  fallback : Bool := false
  bootFail : Bool := false
  /-- Pin levels of SYSRST_N and PERST_N as the filter sees them, and the device tick of the last raw change. -/
  sysrstLow : Bool := false
  perstLow : Bool := false
  /-- The watchdog: running, and the device tick of its last restart (R462). -/
  wdogOn : Bool := false
  wdogFrom : Nat := 0
  /-- The supplies of R464 are in range. -/
  powered : Bool := false
  deriving DecidableEq, Repr

/-! ### Pins (R479) -/

/-- A pin or pair of the block, by its group: the pins of a serial port, of a two-wire bus, a timer pin, WAKE_N, CLKREQ_N, PPSOUT, a TRIGOUT
or REFOUT pair, a port's transmitters, and the inputs. -/
inductive Pin where
  | spi (n : Fin 2) | tw (n : Fin 2) | tmr (p : Fin 8) | wake | clkreq | ppsout | trigout (n : Fin 8) | refout (m : Fin 4)
  | serdes (port : Fin 128) | input
  deriving DecidableEq, Repr

/-- What holds a pin (R479): its weak pull-up; released, open drain; LVDS off; electrical idle; or its block drives it. -/
inductive PinState where
  | pulledUp | released | zeroDiff | idle | driven
  deriving DecidableEq, Repr

end Sys2Proof
end

