-- ==== Sys2Proof/Types/Port.lean ====
section
/-! DEFINITION. The state of the ports and the sample streams (03_sample_ingest.md). -/

namespace Sys2Proof

/-- An entry of a timed-launch queue (R102, R149). -/
structure Launch where
  time : Stamp
  tb : Nat
  sendLate : Bool
  /-- Declared late and waiting to be sent (R150, R152). -/
  late : Bool
  frame : List Nat
  src : Src
  deriving DecidableEq, Repr

/-- A GCM that waits on a link port (R282, R290): its frame, whether it is a HELLO and a link HELLO, and whether it ends with an inverted
FCS. -/
structure GcmItem where
  bytes : List Nat
  hello : Bool
  link : Bool
  stomp : Bool
  deriving DecidableEq, Repr

/-- A waiting transmit item below the launch queue (R101). -/
inductive TxItem where
  | ptp (msg : PtpMsg)
  | gcm (g : GcmItem)
  | reply (bytes : List Nat)
  /-- An event frame and the staging buffer its bytes stand in (R322, R337). -/
  | event (buf : Nat) (bytes : List Nat)
  deriving DecidableEq, Repr

/-- One Ethernet port (R63–R66, R101–R104). -/
structure PortSt where
  linkUp : Bool := false
  training : Bool := false
  /-- Device tick the present link attempt began (R570). -/
  attempt : Nat := 0
  txSettle : Bool := false
  speed : Nat := 0
  laneLock : Nat := 0
  /-- Transmit is paused until this device tick (R64). -/
  pause : Nat := 0
  launchQ : List Launch := []
  /-- Waiting items, oldest first within each class of R101. -/
  txQ : List TxItem := []
  /-- A frame is being transmitted until this device tick (R101). -/
  busyUntil : Nat := 0
  /-- Event frame sequence of R337. -/
  frameSeq : Nat := 0
  /-- A calibration port loops its lane back (R49); no command sets it. [DEDUCED, log 141] -/
  loopback : Bool := false
  deriving DecidableEq, Repr

/-- One sample component: its value and its flag of R83. -/
abbrev Comp := Int × Nat

/-- A batch or GAP marker as the router builds it (R89). Times are in pips. -/
structure Batch where
  gap : Bool
  complex : Bool
  w16 : Bool
  tb : Nat
  stream : Nat
  seq : Nat
  tFirst : Nat
  arrivalTime : Bool
  afterGap : Bool
  clip : Bool
  suspect : Bool
  cut : Bool
  period : Nat
  n : Nat
  comps : List Comp
  /-- Arrival of the first contributing frame, in pips. -/
  arr : Nat
  gapId : Nat
  deriving DecidableEq, Repr

/-- An input instant as the pre-filter holds it (R82, R89): its components, the arrival of its frame in pips, and whether that
frame failed TIME_SKEW and was kept. -/
structure InSamp where
  comps : List Comp
  arr : Nat
  suspect : Bool
  deriving DecidableEq, Repr

/-- An output instant that zero suppression has removed so far (R85): its time base, time and spacing in pips, and components. -/
structure ZsInst where
  tb : Nat
  t : Nat
  period : Nat
  comps : List Comp
  deriving DecidableEq, Repr

/-- A stream's parameters (R87, R390). -/
structure StreamCfg where
  en : Bool := false
  port : Nat := 0
  format : Nat := 0
  w8 : Bool := false
  timeSrc : Bool := false
  latComp : Nat := 0
  latMin : Int := 0
  latMax : Int := 0
  drop : Bool := false
  timeTol : Nat := 0
  limLo : Int := 0
  limHi : Int := 0
  decim : Nat := 1
  mean : Bool := false
  fir : Bool := false
  h : List Int := []
  shift : Nat := 0
  engThr : Nat := 0
  gatePoison : Bool := false
  zsThr : Nat := 0
  zsPre : Nat := 0
  zsPost : Nat := 0
  batch : Nat := 128
  batchUs : Nat := 1
  gapUs : Nat := 1
  resync : Bool := false
  hist : Bool := false
  prio : Nat := 0
  maxLoans : Nat := 1
  /-- Subscribers 0 to 7: local logical engine and task slot, or none (R390). -/
  subs : List (Option (Nat × Nat)) := []
  deriving DecidableEq, Repr

/-- An open gap of a stream (R94, R95): its cause, its index n in the gap log, and whether a resynchronisation or a
rebase was recorded. -/
structure Gap where
  cause : Nat
  n : Nat
  resynced : Bool
  rebased : Bool
  deriving DecidableEq, Repr

/-- One entry of a quadrant's stream table (R86–R98). -/
structure Stream where
  id : Nat
  cfg : StreamCfg
  exp : Nat := 0
  fresh : Bool := true
  ended : Bool := false
  silent : Bool := false
  /-- The last arrival, in pips of the port's time base, and the device tick it came (R96). -/
  lastArr : Nat := 0
  lastTick : Nat := 0
  /-- The next frame's expected time, in pips (R78). -/
  expTime : Nat := 0
  /-- Sender time of the last taken frame, in ns (R100). -/
  lastSend : Nat := 0
  /-- Input instants since the stream was fresh or its last gap (R82). -/
  index : Nat := 0
  /-- The last input instants, newest first, for decimation and the FIR (R82). -/
  line : List InSamp := []
  /-- A frame with clip set waits for the output instant that takes its first sample (R80). -/
  clipPend : Bool := false
  /-- Zero suppression at the last batch edge (R85): output instants since the last one kept by itself, 256 for none that
  counts, and the removed ones that end the stream so far, newest first, at most 255. -/
  zsSince : Nat := 256
  zsTail : List ZsInst := []
  /-- The time of x[mD] of the output in progress, in pips (R82). -/
  groupTime : Nat := 0
  batchSeq : Nat := 0
  open_ : Option Batch := none
  /-- Device tick of the first sample of the open batch (R90). -/
  openTick : Nat := 0
  gap : Option Gap := none
  /-- A NO_BUFFER gap is open on the engine path (R92). -/
  noBuf : Option Gap := none
  afterGap : Bool := false
  gapId : Nat := 0
  gaps : Nat := 0
  framesTaken : Nat := 0
  batches : Nat := 0
  gated : Nat := 0
  silences : Nat := 0
  shed : Nat := 0
  skipped : FMap Nat := []
  /-- A STREAM_CFG accepted and not yet in effect (R88). -/
  newCfg : Option (StreamCfg × Src) := none
  deriving DecidableEq, Repr

/-- An entry of a quadrant's gap log (R100). -/
structure GapEntry where
  cause : Nat
  rebased : Bool
  resynced : Bool
  open_ : Bool
  stream : Nat
  exp : Nat
  rcv : Nat
  marker : Nat
  start : Nat
  resume : Nat
  lastArr : Nat
  resumeArr : Nat
  deriving DecidableEq, Repr

end Sys2Proof
end

