-- ==== Sys2Proof/Types/Hist.lean ====
section
/-! DEFINITION. The state of history and event building (10_history_events.md). -/

namespace Sys2Proof

/-- A batch, or a part of one, as HIST stores it (R307, R309): the stream, its grid, the instants it spans and the segments
kept, each a first instant and its components; bytes stored. Times in pips. -/
structure HBatch where
  id : Nat
  complex : Bool
  w16 : Bool
  tb : Nat
  first : Nat
  period : Nat
  n : Nat
  segs : List (Nat × List Comp)
  bytes : Nat
  deriving DecidableEq, Repr

/-- A 64 KiB block of a stream with what it holds (R309). -/
structure HBlock where
  id : Nat
  used : Nat
  bats : List HBatch
  deriving DecidableEq, Repr

/-- Why history did not write a stream's time (R310): shed, no space, an ingest gap with its cause of R94, or time spent outside Retain
and Calibrate (R56). -/
inductive HoleCause where
  | shed | space | ingest (cause : Nat) | away
  deriving DecidableEq, Repr

/-- Time of a stream that history did not write, with its cause (R310). -/
structure HHole where
  id : Nat
  first : Nat
  last : Nat
  cause : HoleCause
  deriving DecidableEq, Repr

/-- HIST of one quadrant (R306–R316). -/
structure HistSt where
  ring : List HBatch := []
  blocks : List HBlock := []
  holes : List HHole := []
  /-- Streams for which time outside Retain and Calibrate has begun since their last batch (R56). -/
  away : List Nat := []
  /-- Ingest gaps since a stream's last batch, by stream id: the cause and the gap start in pips (R95, R310). -/
  gapped : FMap (Nat × Nat) := []
  /-- Write buffer occupancy in bytes (R312). -/
  wb : Nat := 0
  shed : Nat := 0
  upTick : Option Nat := none
  /-- Device tick since which the write buffer has held less than 0.5 MiB (R313). -/
  lowSince : Option Nat := none
  /-- HBM writes are blocked by a refresh until this device tick, and refreshes postponed (R415). -/
  refreshUntil : Nat := 0
  /-- Bytes that a refresh has kept from draining and that the stack's surplus has yet to make up (R312). -/
  owed : Nat := 0
  postponed : Nat := 0
  deriving DecidableEq, Repr

/-- A readout profile (R325, R392). -/
structure Profile where
  en : Bool := false
  pre : Nat := 0
  post : Nat := 0
  sel : Nat := 0
  mask : Nat := 0
  attach : Bool := false
  maxUnits : Nat := 16384
  dest : Nat := 0
  func : Nat := 0
  ring : Nat := 0
  /-- Local port of each quadrant, or none. -/
  ports : List (Option Nat) := []
  v6 : Bool := false
  ip : Nat := 0
  mac : Nat := 0
  dport : Nat := 0
  sport : Nat := 0
  policy : Nat := 0
  hold : Nat := 1000
  deriving DecidableEq, Repr

/-- An attachment an EVB holds: its buffer, its TP's engine, tp_seq, short time, time base, stream and class, and the device
tick of the hand-off (R233, R242, R331). -/
structure Attach where
  buf : Nat
  engine : Nat
  seq : Nat
  time : Nat
  tb : Nat
  stream : Nat
  cls : Nat
  since : Nat
  deriving DecidableEq, Repr

/-- A trigger accept (R257). -/
structure Ta where
  trig : Nat
  tb : Nat
  system : Bool
  device : Nat
  t : Nat
  cond : Nat
  primary : Nat
  profile : Nat
  hits : Nat
  pips : Nat
  deriving DecidableEq, Repr

/-- A TA of the CCU's queue and the EVBs that have yet to take it (R258, R326). -/
structure TaQ where
  ta : Ta
  imported : Bool
  left : List Nat
  /-- An EVB has taken it: its record has begun, or will never (R326, R327). -/
  begun : Bool := false
  deriving DecidableEq, Repr

/-- Who asked for a RECALL: a command of a host function, or another device with its req_id (R300, R338). -/
inductive Asker where
  | host (src : Src) (self : Bool)
  | device (num : Nat) (reply : Bool)
  deriving DecidableEq, Repr

/-- A RECALL as it is built (R300, R338). -/
structure Recall where
  asker : Asker
  reqId : Nat
  trigValid : Bool
  deriving DecidableEq, Repr

/-- One fragment as sized (R329–R334). -/
structure Frag where
  attach : Bool
  quadrant : Nat
  stream : Nat
  complex : Bool
  w16 : Bool
  tb : Nat
  part : Bool
  gap : Bool
  poisoned : Bool
  count : Nat
  /-- ns × 65,536 + pips. -/
  start : Nat
  period : Nat
  /-- Components of the instants, or the bytes of an attachment. -/
  comps : List Comp
  bytes : List Nat
  seq : Nat
  engine : Nat
  cls : Nat
  deriving DecidableEq, Repr

/-- The part of one EVB in a build. -/
inductive Part where
  /-- Taken; waits for R328. -/
  | waiting
  | sized (frags : List Frag) (short : Bool)
  | done (frags : List Frag) (short : Bool)
  /-- Lost by L3 or Vigil after the record was laid out: its region stays empty, and its fragments are left out (R339). -/
  | gone (frags : List Frag)
  /-- Left out: gated, in reset, or lost by L3 (R326, R339). -/
  | out (lost : Bool)
  deriving DecidableEq, Repr

/-- A post descriptor and its segment list as host memory holds them when the device reads them (R360): 64 bytes, and entries of
16 bytes; none for a read that fails (R347). -/
structure Post where
  raw : Option (BitVec 512)
  segs : Option (List (BitVec 128))
  deriving DecidableEq, Repr

/-- A segment of host memory: address and bytes. -/
structure Seg where
  addr : Nat
  len : Nat
  deriving DecidableEq, Repr

/-- A post reserved for a record (R361). -/
structure PostUse where
  cookie : Nat
  segs : List Seg
  deriving DecidableEq, Repr

/-- Where the collector stands. -/
inductive BuildStage where
  | sizing
  /-- Laid out; the record waits since a device tick for quota or ring room (R324). -/
  | held (since : Nat)
  /-- Laid out and being written or sent; the flag tells that it spills to ports. -/
  | moving (spill : Bool)
  deriving DecidableEq, Repr

/-- A record being built (R325–R339). Times in ns. -/
structure Build where
  ta : Ta
  rcl : Option Recall
  prof : Profile
  start : Nat
  stop : Nat
  /-- Fixed when the build starts (R326). -/
  collector : Option Nat
  parts : FMap Part := []
  stage : BuildStage := .sizing
  /-- The host route's reserved posts and the index of the first (R361). -/
  posts : List PostUse := []
  first : Nat := 0
  /-- Staging buffers of a record that waits (R324). -/
  staged : List Nat := []
  /-- The HBM reads of the build were ended by a drain (R58, R327). -/
  drained : Bool := false
  truncated : Bool := false
  deriving DecidableEq, Repr

/-- A delivered record's handle and length (R323). -/
structure Delivered where
  handle : Nat
  func : Nat
  length : Nat
  deriving DecidableEq, Repr

/-- What a REPLY says (R302): status code, partial, fragment count, record length, and the low 32 bits of TB0 at completion. -/
structure ReplyRec where
  status : Nat
  part : Bool
  frags : Nat
  length : Nat
  time : Nat
  deriving DecidableEq, Repr

/-- A remembered request of another device (R301): its source and req_id, and its reply once completed. -/
structure Asked where
  device : Nat
  reqId : Nat
  reply : Option ReplyRec
  deriving DecidableEq, Repr

/-- History, event builders and their quotas (R306–R339). -/
structure EvtSt where
  hist : FMap HistSt := []
  /-- Retention quotas by stream id, in blocks (R314). -/
  quota : FMap Nat := []
  profiles : FMap Profile := []
  /-- Attachments by quadrant, oldest first (R331). -/
  attach : FMap (List Attach) := []
  /-- Records being built, by number, and the next number. -/
  builds : FMap Build := []
  nextBuild : Nat := 0
  /-- Work-buffer quotas by logical engine; byte and count quotas by function (R323). -/
  engQuota : FMap Nat := []
  byteQuota : FMap Nat := []
  cntQuota : FMap Nat := []
  delivered : List Delivered := []
  /-- Pending and remembered requests of R301. -/
  asked : List Asked := []
  /-- RECALLs issued to other devices: req_id and the command (R302). -/
  issued : List (Nat × Src) := []
  deriving DecidableEq, Repr

end Sys2Proof
end

