-- ==== Sys2Proof/Types/Trig.lean ====
section
/-! DEFINITION. The state of the coincidence units, of TRIGIO and of the joined system (08_trigger_decision.md, 09_system_coincidence.md). -/

namespace Sys2Proof

/-- A term of a condition (R249, R250). -/
structure Term where
  src : Nat := 0
  sel : Nat := 0
  qmask : Nat := 15
  mult : Nat := 1
  minScore : Nat := 0
  distinct : Bool := false
  veto : Bool := false
  deriving DecidableEq, Repr

/-- A hit of a term: the input's short time with its pips, in pips modulo 2^48 (R114), and its stream. -/
structure Hit where
  t : Nat
  stream : Nat
  deriving DecidableEq, Repr

/-- An input of the CCU (R250, R253): its source group (4 TRIGIN, 5 FAST, 1 LOCAL, 2 REMOTE, 6 RTA), its line, fast condition
or quadrant, the TP or the TA's condition mask, its short time and pips. -/
structure CcuInput where
  group : Nat
  index : Nat
  cls : Nat
  score : Nat
  stream : Nat
  cond : Nat
  tb : Nat
  t : Nat
  pips : Nat
  /-- Number of the input, by which occurrences of one input are joined (R256). -/
  num : Nat
  /-- Device tick it reached the CCU (R416). -/
  since : Nat := 0
  deriving DecidableEq, Repr

/-- A pending occurrence (R252): the input and the inputs the condition's non-veto terms counted at it. -/
structure Occ where
  x : CcuInput
  hits : Nat
  deriving DecidableEq, Repr

/-- The parameters of a condition (R249, R391). -/
structure CondCfg where
  en : Bool := false
  tb : Nat := 0
  window : Nat := 1
  terms : List Term := []
  vetoPre : Nat := 0
  vetoPost : Nat := 0
  minGap : Nat := 0
  prescale : Nat := 0x10000
  profile : Nat := 0
  deriving DecidableEq, Repr

/-- One definition of a condition (R249–R254, R261): the one in force, or a replaced one that still has occurrences to decide. -/
structure CondDef where
  cfg : CondCfg := {}
  /-- The definition in force. -/
  live : Bool := true
  /-- Inputs the definition takes that its watermark has not reached, in the order of R253. -/
  queue : List CcuInput := []
  /-- Hits of each term, newest first, at most 256. -/
  hits : List (List Hit) := []
  sat : Bool := false
  pending : List Occ := []
  acc : Nat := 0
  /-- last_accept while has_last is 1, in pips modulo 2^48 (R254). -/
  last : Option Nat := none
  /-- The watermark up to which inputs have been presented, in pips modulo 2^48. -/
  upTo : Option Nat := none
  deriving DecidableEq, Repr

/-- A condition: its parameters as last set (R249), and its definitions, oldest first. -/
structure Cond where
  cfg : CondCfg := {}
  defs : List CondDef := []
  deriving DecidableEq, Repr

/-- An accepting condition at an input: its number, the inputs counted and its readout profile (R256, R257). -/
structure Accepted where
  cond : Nat
  hits : Nat
  profile : Nat
  deriving DecidableEq, Repr

/-- An accepted input that waits for the other conditions at it (R256). -/
structure Joined where
  x : CcuInput
  accepted : List Accepted
  deriving DecidableEq, Repr

/-- A QCU (R243–R248). -/
structure QcuSt where
  buffer : List TpWord := []
  /-- Release marks by time base (R245). -/
  marks : FMap Nat := []
  /-- An engine of the quadrant is between the freeze and the resume of a castling, or not yet 10 µs past the resume, whose end is then known
  (R248). -/
  hold : Bool := false
  holdEnd : Option Nat := none
  /-- Short times of the marks at the freeze, kept whatever castle_hold says. -/
  holdMarks : FMap Nat := []
  /-- The engines were refused for a full buffer (R247). -/
  stalled : Bool := false
  /-- In an L3 reset, or not yet enabled again after it (R263). -/
  out : Bool := false
  deriving DecidableEq, Repr

/-- A time for which a line was stuck (R266): by time base, its start and its end in pips modulo 2^48, with the device tick of the end; no end
while it is stuck. -/
structure StuckSpan where
  starts : FMap Nat
  ends : Option (Nat × FMap Nat)
  deriving DecidableEq, Repr

/-- A level at a pin's balls and how long it stays, in twentieths of a nanosecond (R264). -/
structure PinLevel where
  high : Bool
  len : Nat
  deriving DecidableEq, Repr

/-- A TRIGIN line (R264–R266). -/
structure TrigIn where
  /-- Level at the balls (R264). -/
  pin : Bool := false
  /-- Edges that the minimum-width filter delays: when it puts them out, in twentieths of a nanosecond, the active level, and the error of the
  stamp (R264). -/
  filter : List (Nat × Bool × Int) := []
  /-- Active level at the filter's output. -/
  level : Bool := false
  /-- When the line was stuck, newest first, as far back as an occurrence can look (R266). -/
  spans : List StuckSpan := []
  stuck : Bool := false
  /-- Device tick of the last change of level. -/
  since : Nat := 0
  /-- Device tick of the last stamped edge (R265). -/
  last : Option Nat := none
  /-- Capture FIFO, oldest first, times in pips (R265). -/
  fifo : List Nat := []
  flushed : Bool := false
  deriving DecidableEq, Repr

/-- A fast condition (R267–R269), times in twentieths of a nanosecond: until when each required input (lines 0–7, strobes
8–11) and each veto input is stretched, required edges that req_delay still holds back (start, input), until when the output
is high and the dead time lasts, and the tap of its tracking loop (R268). -/
structure FastSt where
  req : FMap Nat := []
  veto : FMap Nat := []
  delayed : List (Nat × Nat) := []
  out : Option Nat := none
  dead : Option Nat := none
  tap : Int := 0
  deriving DecidableEq, Repr

/-- A TRIGOUT line (R272, R273). -/
structure TrigOut where
  /-- When the pulse ends, in twentieths of a nanosecond, and until when a TA is not pulsed. -/
  pulse : Option Nat := none
  quiet : Nat := 0
  queue : List Launch := []
  deriving DecidableEq, Repr

/-- A change of the fast path that waits (R274): the register writes, the fast conditions and TRIGOUT lines affected, the
command, and the objects a release frees. -/
structure FastChange where
  writes : List (Nat × Nat)
  fasts : List Nat
  outs : List Nat
  src : Option Src
  freed : List ObjId
  deriving DecidableEq, Repr

/-- Triggering (08_trigger_decision.md). -/
structure TrigSt where
  qcus : FMap QcuSt := []
  conds : FMap Cond := []
  /-- Accepted and undecided occurrences by input (R256). -/
  joined : List Joined := []
  /-- Inputs on their way to the CCU, in arrival order. -/
  arrivals : List CcuInput := []
  /-- Inputs the CCU has taken lately, for a condition that is set (R261). -/
  taken : List CcuInput := []
  /-- Number of the next CCU input. -/
  nextInput : Nat := 0
  taQueue : List TaQ := []
  /-- Step shadow of each time base: the device tick it ends (R262). -/
  shadow : FMap Nat := []
  ins : FMap TrigIn := []
  fasts : FMap FastSt := []
  /-- Until when each strobe's pulse is high, in twentieths of a nanosecond (R270). -/
  strobes : FMap Nat := []
  outs : FMap TrigOut := []
  changes : List FastChange := []
  deriving DecidableEq, Repr

/-- A GCM in the form of R287: kind, count, tb0_state, ttl, source, broadcast, destination, send time, sequence, record
bytes. -/
structure Gcm where
  version : Nat
  kind : Nat
  count : Nat
  tb0 : Nat
  ttl : Nat
  src : Nat
  bcast : Bool
  dst : Nat
  tSend : Nat
  seq : Nat
  /-- The header's reserved bits were not all 0. -/
  rsv : Bool
  body : List Byte
  deriving DecidableEq, Repr

/-- A link port (R284). -/
structure LinkSt where
  /-- The last link HELLO still holds: it came within 4 × hello_us, and the link has been up since. -/
  up : Bool := false
  /-- Device tick of the last link HELLO. -/
  last : Nat := 0
  /-- Device tick at which the device last sent one on the port (R283). -/
  sent : Option Nat := none
  deriving DecidableEq, Repr

/-- Exported TPs of one arbiter slot that wait to be packed, the device tick of the first, and whether one came while the egress was busy
(R296). -/
structure Pack where
  tps : List TpWord
  since : Nat
  busy : Bool
  deriving DecidableEq, Repr

/-- The joined system (09_system_coincidence.md). -/
structure SysSt where
  seq : Nat := 0
  links : FMap LinkSt := []
  /-- Device tick of the last beacon of each arbiter slot while alive, and of the primary (R296, R297). -/
  beacons : FMap Nat := []
  primary : Option Nat := none
  /-- Device tick of the last beacon sent (R289). -/
  beaconSent : Option Nat := none
  /-- Remote reorder buffer (R295). -/
  remote : List CcuInput := []
  /-- Exported TPs waiting to be packed, by arbiter slot (R296). -/
  pack : FMap Pack := []
  deriving DecidableEq, Repr

end Sys2Proof
end

