-- ==== Sys2Proof/Types/Units.lean ====
section
/-! DEFINITION. The state of the pace controller, the repair controller, the flash and its ports, the two-wire blocks and the timers
(13_fabric_pace.md, 14_spares_repair.md, 16_serial_port.md, 17_two_wire.md, 18_timers_fifos.md). -/

namespace Sys2Proof

/-- An EVB's region of the record of a TA is done; `errs` are the fragments and components that HIST read from HBM with an uncorrectable error
(R326, R429). -/
structure RegionDone where
  n : Nat
  errs : List (Nat × Nat)
  deriving DecidableEq, Repr

/-! ### Pace -/

/-- How one try of a TW1 transaction goes on the bus (R419, R520, R521): done, with the value a read returns; not acknowledged; a bad
PEC; arbitration lost. -/
inductive TwTry where
  | done (value : Nat)
  | nack
  | badPec
  | lost
  deriving DecidableEq, Repr

/-- A rail under the pace controller (R416–R421). Its voltages, backlog and energy are its registers and counters. -/
structure Rail where
  /-- Exponent of the linear format its regulator reported, if it reported one (R419). -/
  exp : Option Int := none
  /-- Quiet periods counted (R417). -/
  quiet : Nat := 0
  /-- Sum of the SKIPPED and LATE counts at the last period (R417). -/
  skips : Nat := 0
  /-- Worst backlog so far in the period, ns (R416). -/
  worst : Nat := 0
  /-- All tries of a transaction failed: the loop leaves the rail alone until tw1_fault is cleared (R419). -/
  lost : Bool := false
  deriving DecidableEq, Repr

/-- The pace controller and TW1 (R416–R423, R520–R522). -/
structure PaceSt where
  rails : FMap Rail := []
  /-- Exponents of the monitored rails' regulators (R423). -/
  mons : FMap Int := []
  /-- Device tick of the last period. -/
  last : Nat := 0
  /-- Address and page the last transaction used (R520). -/
  page : Option (Nat × Nat) := none
  deriving DecidableEq, Repr

/-! ### Repair -/

/-- What the repair controller starts again (R436, R449, R60), with the command that asked for it. -/
structure CastleAsk where
  kind : Nat
  quadrant : Nat
  unit : Nat
  src : Option Src := none
  deriving DecidableEq, Repr

/-- A castling in progress (R426, R433, R440–R443). Kinds as R426; BANK is 4, WIRE 5. -/
structure Castle where
  kind : Nat
  quadrant : Nat
  /-- As the CASTLE unit field; for BANK bit 7 central and the bank (R452). -/
  unit : Nat
  /-- Slot, position, pseudo-channel or bank that serves now, the spare that takes over, and the slot the map entry retires. -/
  old : Nat
  spare : Nat
  orig : Nat
  step : Nat
  /-- Device tick the step began. -/
  since : Nat
  src : Option Src
  suspended : Bool := false
  /-- An L4 reset that arrived while frozen takes effect at resume (R436). -/
  l4 : Bool := false
  deriving DecidableEq, Repr

/-- The repair controller (R426–R454). Wear readings, flags and the views of the map are its registers. -/
structure RepairSt where
  /-- Entries of the map in force, in the order they were applied (R447). -/
  map : List (BitVec 32) := []
  /-- Entries of castlings in force that could not be committed; the next L0 or L1 ends them (R448). -/
  live : List (BitVec 32) := []
  /-- The flash map in force: copy 0 A or 1 B, its seq and entries (R446). -/
  copy : Option Nat := none
  seq : Nat := 0
  entries : List (BitVec 32) := []
  castles : List Castle := []
  again : List CastleAsk := []
  /-- Device tick the power-loss warning began, while present (R450). -/
  warned : Option Nat := none
  /-- Units for which NO_SPARE has been counted (R430). -/
  starved : List (Nat × Nat × Nat) := []
  /-- Physical slots whose subscriptions ignore max_loans after a castling (R435). -/
  overLoans : List Nat := []
  /-- A steward castling holds command acceptance (R438). -/
  paused : Bool := false
  /-- Fabric links that have stopped: quadrant and link identifier (R444). -/
  stopped : List (Nat × Nat) := []
  deriving DecidableEq, Repr

/-- A wear monitor's reading (R427, R428): an engine slot's average slowdown; a slot's store errors in 24 h and whether an uncorrectable
one came again at a rewritten address; a pseudo-channel's corrected and uncorrectable errors in 24 h; a bank's corrected errors in 24 h and
whether an uncorrectable one came again; a fabric wire's completion delay against its set's, in 0.1%. Indices as R453. -/
inductive WearRead where
  | slot (i slowdown : Nat)
  | store (i corrected : Nat) (repeated : Bool)
  | pch (i corrected uncorrectable : Nat)
  | bank (i corrected : Nat) (repeated : Bool)
  | wire (slowdown : Nat)
  deriving DecidableEq, Repr

/-! ### Flash and serial ports -/

/-- One erase or page program (R492, R498): chip select, offset, and length or bytes. -/
inductive FlashStep where
  | erase (cs off len : Nat)
  | program (cs off : Nat) (bytes : List Nat)
  deriving DecidableEq, Repr

/-- What a flash job is for. -/
inductive FlashWork where
  | write
  | erase
  /-- An image staged into a slot (R478). -/
  | stage (slot len : Nat)
  deriving DecidableEq, Repr

/-- A flash job: its steps still to be done, first the one in the page buffer or in progress. -/
structure FlashJob where
  work : FlashWork
  steps : List FlashStep
  src : Option Src
  deriving DecidableEq, Repr

/-- SPI0's flash (R490–R499). The bytes of the four chip selects by select × 2^32 + offset; an unlisted byte is erased, 0xFF. [DESIGN CHOICE, log 10] -/
structure FlashSt where
  bytes : FMap Byte := []
  /-- Jobs, the running one first. -/
  jobs : List FlashJob := []
  /-- The step has been issued and the flash works on it since this device tick (R492). -/
  wip : Option Nat := none
  /-- Device tick of the issue, or of the last read of the status register since (R492). -/
  polled : Nat := 0
  /-- The configuration record in force: copy, seq, epoch, preferred slot (R495). -/
  copy : Option Nat := none
  seq : Nat := 0
  epoch : Nat := 0
  pref : Nat := 0
  /-- Device tick of the last change to the mode or a saved register that no record holds (R496). -/
  dirty : Option Nat := none
  /-- The new epoch is not committed yet (R497). -/
  epochWait : Bool := false
  /-- Slot of a verified staged image (R478). -/
  staged : Option Nat := none
  deriving DecidableEq, Repr

/-- A received word (R486, R502). -/
structure SpiWord where
  word : Nat
  part : Bool
  selEnd : Bool
  count : Nat
  deriving DecidableEq, Repr

/-- A controller transfer in progress (R487): chip select, bits still to be clocked, hold, which directions use the FIFOs, and the
device tick before which bits and post delay cannot have ended. -/
structure SpiXfer where
  cs : Nat
  left : Nat
  hold : Bool
  rxEn : Bool
  txEn : Bool
  stop : Nat
  deriving DecidableEq, Repr

/-- One serial port (R484–R503). -/
structure SpiSt where
  tx : List Nat := []
  rx : List SpiWord := []
  /-- A flush of the receive FIFO that the next read reports (R538). -/
  flushed : Bool := false
  xfer : Option SpiXfer := none
  /-- Chip select asserted, held or by a transfer (R487). -/
  sel : Option Nat := none
  /-- Device tick from which a select may be asserted again (R487). -/
  gapEnd : Nat := 0
  /-- SPI0: the command whose transfer waits for the window's operation (R493). -/
  waits : Option Nat := none
  /-- Target: selected, and the mode detected (R500). -/
  selected : Bool := false
  mode3 : Bool := false
  /-- Target: the request frame received so far (R517). -/
  frame : List Nat := []
  deriving DecidableEq, Repr

/-! ### Two-wire -/

/-- TW0 (R505–R519). Its settings, causes and status are its registers. -/
structure TwSt where
  awake : Bool := false
  /-- A stretch in progress: the device tick it began, before the address acknowledge (true) or later (R510, R512). -/
  stretch : Option (Nat × Bool) := none
  /-- TW0 takes part in the transfer on the bus: its address was acknowledged. -/
  active : Bool := false
  /-- The address of that transfer (R507, R516). -/
  addr : Nat := 0
  /-- Device tick from which the bus has been idle, both lines high. -/
  idle : Nat := 0
  /-- Device tick of the last attention request, and whether one is wanted (R519). -/
  attnAt : Nat := 0
  attnWant : Bool := false
  /-- TW0 is out of the bus after a stuck line (R522). -/
  stuck0 : Bool := false
  deriving DecidableEq, Repr

/-! ### Timers -/

/-- One timer (R526–R535). Its settings, buffers, captures and flags are its registers. -/
structure TmrSt where
  /-- Prescaler accumulator (R527). -/
  acc : Nat := 0
  count : Nat := 0
  /-- The active compare value (R529). -/
  cmp : Nat := 0
  /-- Ticks that have come and wait for a match or reload to be taken. -/
  due : Nat := 0
  /-- Device tick at which the first of them came (R531). -/
  dueAt : Nat := 0
  /-- TIME mode: armed (R534). -/
  armed : Bool := false
  deriving DecidableEq, Repr

/-- The timer unit (R526–R536). -/
structure TimersSt where
  tmrs : FMap TmrSt := []
  /-- The island sleeps since this device tick (R535), and the ticks since then during which REFIN was absent. -/
  slept : Option Nat := none
  refAway : Nat := 0
  /-- Phase of REFIN's edges against the 625 MHz ticks, in Hz × ticks. -/
  refPhase : Nat := 0
  deriving DecidableEq, Repr

end Sys2Proof
end

