-- ==== Sys2Proof/Syntax.lean ====
section
/-! DEFINITION. The commands of the block: one constructor per row of the table of operations and events, in its order, with the operands its meaning needs. -/

namespace Sys2Proof

/-- The commands. Each docstring names the governing rule and the row. -/
inductive Instr where
  /-- R54, MODE_SET: A MODE_SET command, or a MODE_CTL.target write, starts a transition to the target mode. -/
  | modeSet (d : Desc)
  /-- R42, MODE_TRANSITION_DONE: The last step of a transition completes; MODE_STATUS.current changes and busy returns to 0. -/
  | modeTransitionDone
  /-- R51, SAFE_ENTRY_THERMAL: The thermal reading has exceeded therm_warn for persist_ms, and the device enters Safe. -/
  | safeEntryThermal
  /-- R51, SAFE_ENTRY_SUPPLY: A monitored rail has been outside its window for 100 µs, and the device enters Safe. -/
  | safeEntrySupply (e : SupplyEvent)
  /-- R58, DRAIN_TIMEOUT: drain_max expires, and remaining HBM reads end with ABORTED and their fragments are marked PARTIAL. -/
  | drainTimeout
  /-- R52, SAFE_CAUSE_CLEAR: A write of one to a MODE_STATUS safe cause bit clears it, unless its condition still holds. -/
  | safeCauseClear (who : Requester) (value : Word)
  /-- R48, FUNCTION_D0_ENTRY: A host function returns to D0, and its waiting records and interrupts are delivered. -/
  | functionD0Entry (f : Fin 8)
  /-- R104, PORT_CFG: The PORT_CFG command writes port register pairs; a change of speed or an_en retrains the port. -/
  | portCfg (d : Desc)
  /-- R570, PORT_TRAINING_ATTEMPT_TIMEOUT: A link attempt has not reached FEC lock within the link-up maximum, and the next attempt begins. -/
  | portTrainingAttemptTimeout (p : Fin 128)
  /-- R66, LINK_UP: A port completes training and FEC lock, and link_up reads 1. -/
  | linkUp (p : Fin 128)
  /-- R96, LINK_DOWN: A port's link goes down; its streams open LINK gaps and its PTP port becomes FAULTY. -/
  | linkDown (p : Fin 128)
  /-- R67, FRAME_RECEIVE: A received frame is stamped, filtered and dispatched by EtherType and UDP port. -/
  | frameReceive (p : Fin 128) (f : RxFrame)
  /-- R90, BATCH_TIMEOUT: batch_timeout passes since a batch's first sample, and the batch closes. -/
  | batchTimeout (q : Fin 4) (slot : Fin 16384)
  /-- R96, SILENCE_TIMEOUT: A stream receives no frame for gap_timeout and opens a gap with cause SILENCE. -/
  | silenceTimeout (q : Fin 4) (slot : Fin 16384)
  /-- R92, NO_BUFFER_GAP_CLOSE: A work buffer becomes available and the stream's NO_BUFFER gap closes. -/
  | noBufferGapClose (q : Fin 4) (slot : Fin 16384)
  /-- R76, CAP_REARM: A write of one to a PORT_CAP_VALID bit re-arms that first-error capture. -/
  | capRearm (who : Requester) (p : Fin 128) (value : Word)
  /-- R86, STREAM_CFG: The STREAM_CFG command configures or reconfigures a stream between two frames. -/
  | streamCfg (d : Desc) (pb : Option (BitVec 1024))
  /-- R388, STREAM_RELEASE: STREAM_CFG with release removes the stream and frees its ownership. -/
  | streamRelease (d : Desc) (pb : Option (BitVec 1024))
  /-- R101, PORT_TX_SELECT: A port idle after a frame chooses its next frame by strict priority. -/
  | portTxSelect (p : Fin 128) (err : Int)
  /-- R150, LAUNCH_DUE: The head of a timed-launch queue falls due and its frame starts. -/
  | launchDue (p : Fin 128) (err : Int)
  /-- R150, LAUNCH_LATE: A launch entry has not started by its launch time plus 2 ns and its late policy applies. -/
  | launchLate (p : Fin 136)
  /-- R103, TX_SETTLE_DONE: The port's transmit synthesizer settles and waiting transmit items are sent. -/
  | txSettleDone (p : Fin 128)
  /-- R118, TB_CFG: The TB_CFG command writes time base register pairs. -/
  | tbCfg (d : Desc)
  /-- R388, TB_RELEASE: TB_CFG with release applies its pairs and frees the time base's ownership. -/
  | tbRelease (d : Desc)
  /-- R120, TB_OFFSET: The TB_OFFSET command delivers a measured offset to a time base of source OFFSET. -/
  | tbOffset (d : Desc)
  /-- R125, TB_STEP_SLEW: TB_STEP in SLEW mode hands an offset to the servo as one measurement. -/
  | tbStepSlew (d : Desc)
  /-- R125, TB_STEP_RELATIVE: TB_STEP in RELATIVE mode changes the count by a signed amount at one tick. -/
  | tbStepRelative (d : Desc)
  /-- R125, TB_STEP_ABSOLUTE: TB_STEP in ABSOLUTE mode sets the count to a stated value at the next tick. -/
  | tbStepAbsolute (d : Desc)
  /-- R125, TB_STEP_MEASURED: TB_STEP in MEASURED mode changes the count by the negative of the held offset. -/
  | tbStepMeasured (d : Desc)
  /-- R124, HOLDOVER_TIMEOUT: No offset has been accepted for TBn_HOLD_TIMEOUT and the time base enters HOLDOVER. -/
  | holdoverTimeout (n : Fin 8)
  /-- R134, PTP_SYNC_RECEIVE: A Sync message reaches the receiver port and the offset calculator produces an offset. -/
  | ptpSyncReceive (p : Fin 128) (m : PtpMsg) (err : Int) (from_ : PtpFrom)
  /-- R134, PTP_FOLLOW_UP_RECEIVE: A Follow_Up message supplies the Sync origin time for a two-step transmitter. -/
  | ptpFollowUpReceive (p : Fin 128) (m : PtpMsg) (from_ : PtpFrom)
  /-- R133, PTP_DELAY_REQ_RECEIVE: A Delay_Req message reaches a transmitter port, which answers with Delay_Resp. -/
  | ptpDelayReqReceive (p : Fin 128) (m : PtpMsg) (err : Int) (from_ : PtpFrom)
  /-- R134, PTP_DELAY_RESP_RECEIVE: A Delay_Resp message updates the filtered meanPathDelay. -/
  | ptpDelayRespReceive (p : Fin 128) (m : PtpMsg) (from_ : PtpFrom)
  /-- R133, PTP_PDELAY_REQ_RECEIVE: A peer delay request is answered on a P2P port. -/
  | ptpPdelayReqReceive (p : Fin 128) (m : PtpMsg) (err : Int) (from_ : PtpFrom)
  /-- R134, PTP_PDELAY_RESP_RECEIVE: A peer delay response updates the port's path delay. -/
  | ptpPdelayRespReceive (p : Fin 128) (m : PtpMsg) (err : Int) (from_ : PtpFrom)
  /-- R129, PTP_ANNOUNCE_RECEIVE: An Announce message is taken and the state decision algorithm runs for the time base's ports. -/
  | ptpAnnounceReceive (p : Fin 128) (m : PtpMsg) (from_ : PtpFrom)
  /-- R129, PTP_ANNOUNCE_TIMEOUT: Announce receipt times out and the port's state is decided again. -/
  | ptpAnnounceTimeout (p : Fin 128)
  /-- R133, PTP_SYNC_INTERVAL: The Sync interval elapses on a transmitter port and a Sync is originated. -/
  | ptpSyncInterval (p : Fin 128)
  /-- R133, PTP_ANNOUNCE_INTERVAL: The Announce interval elapses and an Announce is originated. -/
  | ptpAnnounceInterval (p : Fin 128)
  /-- R133, PTP_DELAY_REQ_INTERVAL: The delay request interval elapses and a Delay_Req or Pdelay_Req is sent. -/
  | ptpDelayReqInterval (p : Fin 128)
  /-- R133, PTP_FOLLOW_UP_SEND: A two-step event message's transmit stamp is ready and its Follow_Up is sent. -/
  | ptpFollowUpSend (p : Fin 128)
  /-- R136, LANE0_LOCK_LOSS: The receiver port's lane 0 loses lock and the time base switches to servo frequency. -/
  | lane0LockLoss (p : Fin 128)
  /-- R141, REFIN_LOSS: REFIN is detected lost; the PLL holds and locked time bases enter HOLDOVER. -/
  | refinLoss
  /-- R141, PLL_RELOCK: REFIN returns and the time-unit PLL locks again, so offsets are accepted again. -/
  | pllRelock
  /-- R142, PPSIN_EDGE: A PPSIN rising edge yields a phase offset for PPSIN-sourced time bases. -/
  | ppsinEdge (err : Int)
  /-- R144, PPSOUT_PULSE: A whole second of out_tb arrives and PPSOUT rises. -/
  | ppsoutPulse
  /-- R144, PPSOUT_PULSE_END: width_us elapses and PPSOUT falls. -/
  | ppsoutPulseEnd
  /-- R146, SYN_COMMIT: A SYNm_CTL write with en 1 commits period and phase and starts a relock. -/
  | synCommit (who : Requester) (m : Fin 4) (value : Word)
  /-- R148, SYN_RELOCK_DONE: A synthesizer completes lock and settle while its output is held low. -/
  | synRelockDone (m : Fin 4)
  /-- R147, SYN_GATE_RELEASE: After the A0 extra gate, the output rises at the next aligned edge. -/
  | synGateRelease (m : Fin 4)
  /-- R149, LAUNCH_FRAME: LAUNCH of kind port frame queues a frame at a launch time or applies its late policy. -/
  | launchFrame (d : Desc) (data : Option (List Byte))
  /-- R273, LAUNCH_PULSE: LAUNCH of kind TRIGOUT pulse queues a timed pulse on a TIMED line. -/
  | launchPulse (d : Desc)
  /-- R172, TASK_START: TASK_START places a task in a FREE slot and makes it READY. -/
  | taskStart (d : Desc)
  /-- R172, TASK_KICK: TASK_START with kick places a host message in a live task's inbox. -/
  | taskKick (d : Desc)
  /-- R177, TASK_CANCEL: TASK_CANCEL records a sticky cancel and the slot enters CANCELLING. -/
  | taskCancel (d : Desc)
  /-- R174, TASK_PRIO: TASK_PRIO changes a task's priority at the next boundary. -/
  | taskPrio (d : Desc)
  /-- R171, WAKE_TIME_FIRE: A time base reaches a slot's wake time and TIMER becomes pending. -/
  | wakeTimeFire (q : Fin 4) (k : Fin 52) (slot : Fin 16)
  /-- R173, MESSAGE_ARRIVE: A message reaches a slot's inbox, making MSG (and HOST for host senders) pending. -/
  | messageArrive (n : Nat)
  /-- R184, FENCE_COMPLETE: A fence's earlier operations become visible and the held operations of its task proceed. -/
  | fenceComplete (q : Fin 4) (k : Fin 52) (slot : Fin 16)
  /-- R184, FENCE_TIMEOUT: fence_to passes with a fence incomplete and the held chord raises FENCE_TIMEOUT. -/
  | fenceTimeout (q : Fin 4) (k : Fin 52) (slot : Fin 16)
  /-- R185, DEBUG_HALT: Setting ENG_DBG_CTL.halt stops chord issue at the next boundary. -/
  | debugHalt (who : Requester) (q : Fin 4) (k : Fin 52) (value : Word)
  /-- R185, DEBUG_RESUME: Clearing halt resumes chord issue at the boundary where the engine stopped. -/
  | debugResume (who : Requester) (q : Fin 4) (k : Fin 52) (value : Word)
  /-- R185, DEBUG_STEP: Writing step while halted executes one chord or micro-routine step and halts again. -/
  | debugStep (who : Requester) (q : Fin 4) (k : Fin 52) (value : Word)
  /-- R186, DEBUG_WRITE: A write of ENG_DBG_DATA_LO while halted commits a word or chunk to a store or stack. -/
  | debugWrite (who : Requester) (q : Fin 4) (k : Fin 52) (hi : Option Word) (lo : Word)
  /-- R167, SCRUB_PASS: The background scrubber reads every store word, correcting or poisoning errors. -/
  | scrubPass (q : Fin 4) (k : Fin 52) (fixed : Nat) (found later : List Nat) (bytes : List (Nat × Nat))
  /-- R235, MICRO_STEP: A micro-routine runs its next step from MRP; its writes take effect at step end. -/
  | microStep (q : Fin 4) (k : Fin 52)
  /-- R234, TP_QUEUE_ROOM: A TP queue entry frees and a chord or step waiting for it issues again. -/
  | tpQueueRoom (q : Fin 4) (k : Fin 52)
  /-- R203, S_DUP: S.DUP copies the top of S. -/
  | sDup (q : Fin 4) (k : Fin 52)
  /-- R203, S_DROP: S.DROP pops the top of S. -/
  | sDrop (q : Fin 4) (k : Fin 52)
  /-- R203, S_SWAP: S.SWAP exchanges the top two words of S. -/
  | sSwap (q : Fin 4) (k : Fin 52)
  /-- R203, S_OVER: S.OVER copies the second word of S to the top. -/
  | sOver (q : Fin 4) (k : Fin 52)
  /-- R203, S_ROT: S.ROT rotates the top three words of S. -/
  | sRot (q : Fin 4) (k : Fin 52)
  /-- R203, S_NIP: S.NIP removes the second word of S. -/
  | sNip (q : Fin 4) (k : Fin 52)
  /-- R203, S_PICK: S.PICK n copies word n below the top to the top. -/
  | sPick (q : Fin 4) (k : Fin 52)
  /-- R203, S_LIT8: S.LIT8 pushes a sign-extended 8-bit INT. -/
  | sLit8 (q : Fin 4) (k : Fin 52)
  /-- R203, S_LITI: S.LITI pushes a sign-extended INT from extension syllables. -/
  | sLiti (q : Fin 4) (k : Fin 52)
  /-- R203, S_LITU: S.LITU pushes a zero-extended UINT from extension syllables. -/
  | sLitu (q : Fin 4) (k : Fin 52)
  /-- R203, S_LITW: S.LITW pushes a whole 40-bit tagged word from three extension syllables. -/
  | sLitw (q : Fin 4) (k : Fin 52)
  /-- R203, S_TAG: S.TAG pushes the tag of the top word. -/
  | sTag (q : Fin 4) (k : Fin 52)
  /-- R203, S_ORIGIN: S.ORIGIN pushes the origin code of a POISON top word, or 0. -/
  | sOrigin (q : Fin 4) (k : Fin 52)
  /-- R203, S_TAGEQ: S.TAGEQ t pushes whether the top word's tag equals t. -/
  | sTageq (q : Fin 4) (k : Fin 52)
  /-- R204, S_TOINT: S.TOINT converts the top word to INT. -/
  | sToint (q : Fin 4) (k : Fin 52)
  /-- R204, S_TOUINT: S.TOUINT converts the top word to UINT. -/
  | sTouint (q : Fin 4) (k : Fin 52)
  /-- R204, S_TOFIX: S.TOFIX converts the top word to FIX. -/
  | sTofix (q : Fin 4) (k : Fin 52)
  /-- R204, S_TODUR: S.TODUR converts the top word to DUR. -/
  | sTodur (q : Fin 4) (k : Fin 52)
  /-- R204, S_TIMEU: S.TIMEU gives the low 32 bits of ns of a TIME as UINT. -/
  | sTimeu (q : Fin 4) (k : Fin 52)
  /-- R204, S_ADDRU: S.ADDRU gives the offset of an ADDR as UINT. -/
  | sAddru (q : Fin 4) (k : Fin 52)
  /-- R204, S_MKTIME: S.MKTIME tb makes a TIME of time base tb from a UINT. -/
  | sMktime (q : Fin 4) (k : Fin 52)
  /-- R204, S_MKADDR: S.MKADDR sp makes an ADDR in space sp from a UINT. -/
  | sMkaddr (q : Fin 4) (k : Fin 52)
  /-- R204, S_MKCLASS: S.MKCLASS makes a CLASS word from a class and a score. -/
  | sMkclass (q : Fin 4) (k : Fin 52)
  /-- R204, S_CLASSNO: S.CLASSNO gives the class of a CLASS word. -/
  | sClassno (q : Fin 4) (k : Fin 52)
  /-- R204, S_SCORE: S.SCORE gives the score of a CLASS word. -/
  | sScore (q : Fin 4) (k : Fin 52)
  /-- R204, S_UNPK16: S.UNPK16 unpacks an S16X2 into two INTs. -/
  | sUnpk16 (q : Fin 4) (k : Fin 52)
  /-- R204, S_UNPK8: S.UNPK8 unpacks an S8X4 into four INTs. -/
  | sUnpk8 (q : Fin 4) (k : Fin 52)
  /-- R204, S_FLAGS: S.FLAGS pushes the flag bits of a packed sample word. -/
  | sFlags (q : Fin 4) (k : Fin 52)
  /-- R204, S_PACK16: S.PACK16 packs two INTs into an S16X2, saturating. -/
  | sPack16 (q : Fin 4) (k : Fin 52)
  /-- R204, S_PACK8: S.PACK8 packs four INTs into an S8X4. -/
  | sPack8 (q : Fin 4) (k : Fin 52)
  /-- R204, S_MKPOISON: S.MKPOISON makes a POISON word of origin PROGRAM. -/
  | sMkpoison (q : Fin 4) (k : Fin 52)
  /-- R205, S_ADD: S.ADD adds the top two words under the tag rules. -/
  | sAdd (q : Fin 4) (k : Fin 52)
  /-- R205, S_SUB: S.SUB subtracts the top word from the one beneath. -/
  | sSub (q : Fin 4) (k : Fin 52)
  /-- R205, S_MUL: S.MUL multiplies the top two words. -/
  | sMul (q : Fin 4) (k : Fin 52)
  /-- R205, S_DIV: S.DIV divides, truncating toward zero, over 8 chord times. -/
  | sDiv (q : Fin 4) (k : Fin 52)
  /-- R205, S_REM: S.REM gives the remainder with the sign of the dividend. -/
  | sRem (q : Fin 4) (k : Fin 52)
  /-- R205, S_NEG: S.NEG negates the top word. -/
  | sNeg (q : Fin 4) (k : Fin 52)
  /-- R205, S_ABS: S.ABS gives the magnitude of the top word. -/
  | sAbs (q : Fin 4) (k : Fin 52)
  /-- R205, S_MIN: S.MIN gives the smaller of two words of one tag. -/
  | sMin (q : Fin 4) (k : Fin 52)
  /-- R205, S_MAX: S.MAX gives the larger of two words of one tag. -/
  | sMax (q : Fin 4) (k : Fin 52)
  /-- R205, S_ADDW: S.ADDW adds modulo 2^32. -/
  | sAddw (q : Fin 4) (k : Fin 52)
  /-- R205, S_SUBW: S.SUBW subtracts modulo 2^32. -/
  | sSubw (q : Fin 4) (k : Fin 52)
  /-- R205, S_SAT16: S.SAT16 clamps an INT to int16. -/
  | sSat16 (q : Fin 4) (k : Fin 52)
  /-- R205, S_SAT8: S.SAT8 clamps an INT to int8. -/
  | sSat8 (q : Fin 4) (k : Fin 52)
  /-- R205, S_AND: S.AND gives the bitwise AND of two UINT or BOOL words. -/
  | sAnd (q : Fin 4) (k : Fin 52)
  /-- R205, S_OR: S.OR gives the bitwise OR. -/
  | sOr (q : Fin 4) (k : Fin 52)
  /-- R205, S_XOR: S.XOR gives the bitwise exclusive OR. -/
  | sXor (q : Fin 4) (k : Fin 52)
  /-- R205, S_NOT: S.NOT inverts a UINT or BOOL. -/
  | sNot (q : Fin 4) (k : Fin 52)
  /-- R205, S_SHLV: S.SHLV shifts left by a UINT count. -/
  | sShlv (q : Fin 4) (k : Fin 52)
  /-- R205, S_SHRV: S.SHRV shifts right by a UINT count. -/
  | sShrv (q : Fin 4) (k : Fin 52)
  /-- R205, S_SHL: S.SHL n shifts left by an immediate count. -/
  | sShl (q : Fin 4) (k : Fin 52)
  /-- R205, S_SHR: S.SHR n shifts right by an immediate count. -/
  | sShr (q : Fin 4) (k : Fin 52)
  /-- R206, S_ADDI: S.ADDI adds a signed 8-bit literal, keeping the operand's tag. -/
  | sAddi (q : Fin 4) (k : Fin 52)
  /-- R207, S_EQ: S.EQ pushes whether two words are equal. -/
  | sEq (q : Fin 4) (k : Fin 52)
  /-- R207, S_NE: S.NE pushes whether two words differ. -/
  | sNe (q : Fin 4) (k : Fin 52)
  /-- R207, S_LT: S.LT pushes whether the deeper word is less. -/
  | sLt (q : Fin 4) (k : Fin 52)
  /-- R207, S_LE: S.LE pushes whether the deeper word is less or equal. -/
  | sLe (q : Fin 4) (k : Fin 52)
  /-- R207, S_GT: S.GT pushes whether the deeper word is greater. -/
  | sGt (q : Fin 4) (k : Fin 52)
  /-- R207, S_GE: S.GE pushes whether the deeper word is greater or equal. -/
  | sGe (q : Fin 4) (k : Fin 52)
  /-- R207, S_SEL: S.SEL selects one of two words by a BOOL. -/
  | sSel (q : Fin 4) (k : Fin 52)
  /-- R208, S_LD: S.LD loads a data-store word at an ADDR. -/
  | sLd (q : Fin 4) (k : Fin 52)
  /-- R208, S_ST: S.ST stores a word at an ADDR. -/
  | sSt (q : Fin 4) (k : Fin 52)
  /-- R208, S_LDM: S.LDM loads the word at the pre-chord top of M. -/
  | sLdm (q : Fin 4) (k : Fin 52)
  /-- R208, S_STM: S.STM stores a word at the pre-chord top of M. -/
  | sStm (q : Fin 4) (k : Fin 52)
  /-- R208, S_XM: S.XM pushes a copy of the pre-chord top of M. -/
  | sXm (q : Fin 4) (k : Fin 52)
  /-- R208, S_XLC: S.XLC n pushes the loop count of loop level n. -/
  | sXlc (q : Fin 4) (k : Fin 52)
  /-- R208, S_XVLS: S.XVLS pushes the lane of the top vector named by a UINT. -/
  | sXvls (q : Fin 4) (k : Fin 52)
  /-- R208, S_XVL: S.XVL n pushes lane n of the top vector. -/
  | sXvl (q : Fin 4) (k : Fin 52)
  /-- R208, S_NOW: S.NOW tb pushes the current TIME of time base tb. -/
  | sNow (q : Fin 4) (k : Fin 52)
  /-- R209, C_JMP: C.JMP jumps by a signed offset. -/
  | cJmp (q : Fin 4) (k : Fin 52)
  /-- R209, C_BRT: C.BRT branches by offset if the top of S is true. -/
  | cBrt (q : Fin 4) (k : Fin 52)
  /-- R209, C_BRF: C.BRF branches by offset if the top of S is false. -/
  | cBrf (q : Fin 4) (k : Fin 52)
  /-- R214, C_CALL: C.CALL calls an absolute target, pushing a return entry. -/
  | cCall (q : Fin 4) (k : Fin 52)
  /-- R209, C_JMPL: C.JMPL jumps to an absolute target. -/
  | cJmpl (q : Fin 4) (k : Fin 52)
  /-- R209, C_BRTL: C.BRTL branches to an absolute target if the top of S is true. -/
  | cBrtl (q : Fin 4) (k : Fin 52)
  /-- R209, C_BRFL: C.BRFL branches to an absolute target if the top of S is false. -/
  | cBrfl (q : Fin 4) (k : Fin 52)
  /-- R212, C_LOOPI1: C.LOOPI1 opens a loop level with a 15-bit literal count. -/
  | cLoopi1 (q : Fin 4) (k : Fin 52)
  /-- R212, C_LOOPI2: C.LOOPI2 opens a loop level with a 30-bit literal count. -/
  | cLoopi2 (q : Fin 4) (k : Fin 52)
  /-- R212, C_LOOPS: C.LOOPS opens a loop level with a count from S. -/
  | cLoops (q : Fin 4) (k : Fin 52)
  /-- R211, C_NOP: C.NOP does nothing. -/
  | cNop (q : Fin 4) (k : Fin 52)
  /-- R217, C_END: C.END ends the task after its chord commits and frees the slot. -/
  | cEnd (q : Fin 4) (k : Fin 52)
  /-- R217, C_WAIT: C.WAIT suspends the task until a source in its wait mask is pending. -/
  | cWait (q : Fin 4) (k : Fin 52)
  /-- R217, C_YIELD: C.YIELD places the task behind READY tasks of its priority. -/
  | cYield (q : Fin 4) (k : Fin 52)
  /-- R184, C_FENCE: C.FENCE holds every later chord of the task until its effects are visible and delivered. -/
  | cFence (q : Fin 4) (k : Fin 52)
  /-- R214, C_RET: C.RET pops a call entry, closes loops opened since the call and returns. -/
  | cRet (q : Fin 4) (k : Fin 52)
  /-- R213, C_LEAVE: C.LEAVE closes the innermost loop level and continues at its LE. -/
  | cLeave (q : Fin 4) (k : Fin 52)
  /-- R211, C_JMPS: C.JMPS jumps to the ADDR at the top of S. -/
  | cJmps (q : Fin 4) (k : Fin 52)
  /-- R211, C_CALLS: C.CALLS calls the ADDR at the top of S. -/
  | cCalls (q : Fin 4) (k : Fin 52)
  /-- R216, C_RTH: C.RTH ends a trap handler and continues at an ADDR from S. -/
  | cRth (q : Fin 4) (k : Fin 52)
  /-- R216, C_RTHN: C.RTHN ends a trap handler and continues after the faulting chord. -/
  | cRthn (q : Fin 4) (k : Fin 52)
  /-- R211, C_WAKE: C.WAKE arms the wake time at a TIME from S. -/
  | cWake (q : Fin 4) (k : Fin 52)
  /-- R211, C_UNWAKE: C.UNWAKE disarms the wake time. -/
  | cUnwake (q : Fin 4) (k : Fin 52)
  /-- R211, C_WAKER: C.WAKER arms the wake time at now plus a DUR. -/
  | cWaker (q : Fin 4) (k : Fin 52)
  /-- R217, C_SETMASK: C.SETMASK sets the task's wait mask. -/
  | cSetmask (q : Fin 4) (k : Fin 52)
  /-- R222, V_DUP: V.DUP copies the top vector. -/
  | vDup (q : Fin 4) (k : Fin 52)
  /-- R222, V_DROP: V.DROP pops the top vector. -/
  | vDrop (q : Fin 4) (k : Fin 52)
  /-- R222, V_SWAP: V.SWAP exchanges the top two vectors. -/
  | vSwap (q : Fin 4) (k : Fin 52)
  /-- R222, V_OVER: V.OVER copies the second vector to the top. -/
  | vOver (q : Fin 4) (k : Fin 52)
  /-- R222, V_ROT: V.ROT rotates the top three vectors. -/
  | vRot (q : Fin 4) (k : Fin 52)
  /-- R222, V_NIP: V.NIP removes the second vector. -/
  | vNip (q : Fin 4) (k : Fin 52)
  /-- R222, V_LDV: V.LDV n loads vector-store location n. -/
  | vLdv (q : Fin 4) (k : Fin 52)
  /-- R222, V_LDA: V.LDA loads the vector at an ADDR on M. -/
  | vLda (q : Fin 4) (k : Fin 52)
  /-- R222, V_STV: V.STV n stores the top vector to location n. -/
  | vStv (q : Fin 4) (k : Fin 52)
  /-- R222, V_STA: V.STA stores the top vector at an ADDR on M. -/
  | vSta (q : Fin 4) (k : Fin 52)
  /-- R220, V_LDB: V.LDB loads lanes from a lent batch. -/
  | vLdb (q : Fin 4) (k : Fin 52)
  /-- R220, V_LDBW: V.LDBW loads lanes from a batch as V16. -/
  | vLdbw (q : Fin 4) (k : Fin 52)
  /-- R221, V_LDQ: V.LDQ loads a vector record from a buffer with a named tag. -/
  | vLdq (q : Fin 4) (k : Fin 52)
  /-- R221, V_STQ: V.STQ stores the top vector as a record in an owned buffer. -/
  | vStq (q : Fin 4) (k : Fin 52)
  /-- R222, V_SPLAT: V.SPLAT fills every lane from an INT or FIX on S. -/
  | vSplat (q : Fin 4) (k : Fin 52)
  /-- R222, V_SPLAT16: V.SPLAT16 fills every V16 lane from an INT. -/
  | vSplat16 (q : Fin 4) (k : Fin 52)
  /-- R222, V_SPLAT8: V.SPLAT8 fills every V8 lane from an INT. -/
  | vSplat8 (q : Fin 4) (k : Fin 52)
  /-- R222, V_WLO: V.WLO widens the lower half of the lanes. -/
  | vWlo (q : Fin 4) (k : Fin 52)
  /-- R222, V_WHI: V.WHI widens the upper half of the lanes. -/
  | vWhi (q : Fin 4) (k : Fin 52)
  /-- R222, V_NARROW: V.NARROW narrows two vectors into one, saturating. -/
  | vNarrow (q : Fin 4) (k : Fin 52)
  /-- R222, V_TOQ: V.TOQ converts V32 lanes to Q15.16. -/
  | vToq (q : Fin 4) (k : Fin 52)
  /-- R222, V_FROMQ: V.FROMQ converts VQ16 lanes to V32. -/
  | vFromq (q : Fin 4) (k : Fin 52)
  /-- R222, V_ADD: V.ADD adds lanes, saturating. -/
  | vAdd (q : Fin 4) (k : Fin 52)
  /-- R222, V_SUB: V.SUB subtracts lanes, saturating. -/
  | vSub (q : Fin 4) (k : Fin 52)
  /-- R222, V_MUL: V.MUL multiplies lanes. -/
  | vMul (q : Fin 4) (k : Fin 52)
  /-- R222, V_MULQ: V.MULQ multiplies V16 lanes in Q15. -/
  | vMulq (q : Fin 4) (k : Fin 52)
  /-- R222, V_ABS: V.ABS gives lane magnitudes. -/
  | vAbs (q : Fin 4) (k : Fin 52)
  /-- R222, V_NEG: V.NEG negates lanes. -/
  | vNeg (q : Fin 4) (k : Fin 52)
  /-- R222, V_MIN: V.MIN gives lane minima. -/
  | vMin (q : Fin 4) (k : Fin 52)
  /-- R222, V_MAX: V.MAX gives lane maxima. -/
  | vMax (q : Fin 4) (k : Fin 52)
  /-- R222, V_AND: V.AND gives lane bitwise AND. -/
  | vAnd (q : Fin 4) (k : Fin 52)
  /-- R222, V_OR: V.OR gives lane bitwise OR. -/
  | vOr (q : Fin 4) (k : Fin 52)
  /-- R222, V_XOR: V.XOR gives lane bitwise exclusive OR. -/
  | vXor (q : Fin 4) (k : Fin 52)
  /-- R222, V_SHR: V.SHR n shifts lanes right arithmetically. -/
  | vShr (q : Fin 4) (k : Fin 52)
  /-- R222, V_SHL: V.SHL n shifts lanes left, saturating. -/
  | vShl (q : Fin 4) (k : Fin 52)
  /-- R222, V_MAG2: V.MAG2 gives I squared plus Q squared for lane pairs. -/
  | vMag2 (q : Fin 4) (k : Fin 52)
  /-- R223, V_MACS: V.MACS accumulates lanes times a scalar from S. -/
  | vMacs (q : Fin 4) (k : Fin 52)
  /-- R223, V_MULS: V.MULS multiplies lanes by a scalar from S. -/
  | vMuls (q : Fin 4) (k : Fin 52)
  /-- R223, V_KEEPGE: V.KEEPGE zeroes lanes below a scalar from S. -/
  | vKeepge (q : Fin 4) (k : Fin 52)
  /-- R222, V_KEEPGEV: V.KEEPGEV zeroes lanes below the same lane of another vector. -/
  | vKeepgev (q : Fin 4) (k : Fin 52)
  /-- R223, V_RSUM: V.RSUM sums the contributing lanes into lane 0. -/
  | vRsum (q : Fin 4) (k : Fin 52)
  /-- R223, V_RMAX: V.RMAX gives the largest lane value and its index. -/
  | vRmax (q : Fin 4) (k : Fin 52)
  /-- R223, V_RMIN: V.RMIN gives the smallest lane value and its index. -/
  | vRmin (q : Fin 4) (k : Fin 52)
  /-- R223, V_RCNT: V.RCNT counts nonzero lanes. -/
  | vRcnt (q : Fin 4) (k : Fin 52)
  /-- R223, V_SLD: V.SLD n slides lanes across two vectors. -/
  | vSld (q : Fin 4) (k : Fin 52)
  /-- R239, V_SORT: V.SORT sorts the lanes of n vectors as a micro-routine. -/
  | vSort (q : Fin 4) (k : Fin 52)
  /-- R225, M_DUP: M.DUP copies the top of M. -/
  | mDup (q : Fin 4) (k : Fin 52)
  /-- R225, M_DROP: M.DROP pops the top of M. -/
  | mDrop (q : Fin 4) (k : Fin 52)
  /-- R225, M_SWAP: M.SWAP exchanges the top two words of M. -/
  | mSwap (q : Fin 4) (k : Fin 52)
  /-- R225, M_OVER: M.OVER copies the second word of M to the top. -/
  | mOver (q : Fin 4) (k : Fin 52)
  /-- R225, M_FROMS: M.FROMS pushes a copy of the top of S onto M. -/
  | mFroms (q : Fin 4) (k : Fin 52)
  /-- R225, M_INC: M.INC k advances an ADDR by k. -/
  | mInc (q : Fin 4) (k : Fin 52)
  /-- R225, M_DEC: M.DEC k moves an ADDR back by k. -/
  | mDec (q : Fin 4) (k : Fin 52)
  /-- R225, M_ADV: M.ADV advances an ADDR by an INT or UINT from S. -/
  | mAdv (q : Fin 4) (k : Fin 52)
  /-- R228, M_TAKE: M.TAKE takes the oldest unconsumed loan of a stream. -/
  | mTake (q : Fin 4) (k : Fin 52)
  /-- R228, M_TAKEANY: M.TAKEANY takes the oldest unconsumed loan of any stream. -/
  | mTakeany (q : Fin 4) (k : Fin 52)
  /-- R228, M_DONE: M.DONE ends a loan, letting the router free the buffer. -/
  | mDone (q : Fin 4) (k : Fin 52)
  /-- R225, M_STRM: M.STRM pushes the STREAM of a lent batch. -/
  | mStrm (q : Fin 4) (k : Fin 52)
  /-- R230, M_HDR: M.HDR writes 11 header words of a lent batch to the data store. -/
  | mHdr (q : Fin 4) (k : Fin 52)
  /-- R229, M_ALLOC: M.ALLOC allocates an owned work buffer. -/
  | mAlloc (q : Fin 4) (k : Fin 52)
  /-- R229, M_FREE: M.FREE releases an owned buffer. -/
  | mFree (q : Fin 4) (k : Fin 52)
  /-- R229, M_GIVE: M.GIVE hands an owned buffer to a task or the EVB. -/
  | mGive (q : Fin 4) (k : Fin 52)
  /-- R231, M_SEND: M.SEND sends two data-store words as a message. -/
  | mSend (q : Fin 4) (k : Fin 52)
  /-- R231, M_RECV: M.RECV takes the oldest inbox message into the data store. -/
  | mRecv (q : Fin 4) (k : Fin 52)
  /-- R232, M_TP: M.TP emits one trigger primitive from a template. -/
  | mTp (q : Fin 4) (k : Fin 52)
  /-- R232, M_EMIT: M.EMIT scans vector lanes and emits a TP for each positive clean lane. -/
  | mEmit (q : Fin 4) (k : Fin 52)
  /-- R184, M_FENCE: M.FENCE holds later M operations until earlier writes and hand-offs are visible. -/
  | mFence (q : Fin 4) (k : Fin 52)
  /-- R237, M_GATHER: M.GATHER copies buffer elements into the data store as a micro-routine. -/
  | mGather (q : Fin 4) (k : Fin 52)
  /-- R237, M_SCATTER: M.SCATTER writes data-store words into an owned buffer as a micro-routine. -/
  | mScatter (q : Fin 4) (k : Fin 52)
  /-- R238, M_HCOPY: M.HCOPY copies a window of a stream's history into an owned buffer. -/
  | mHcopy (q : Fin 4) (k : Fin 52)
  /-- R243, TP_ARRIVE_QCU: A TP reaches the QCU and passes the class filter, time check, coalescing and reorder buffer. -/
  | tpArriveQcu (q : Fin 4) (k : Fin 52)
  /-- R245, QCU_RELEASE: A buffered TP's time falls QCU_LAG behind and it is released to the CCU. -/
  | qcuRelease (q : Fin 4) (b : Fin 8)
  /-- R245, RELEASE_MARK: The QCU sends the CCU a release mark at least every 100 ns. -/
  | releaseMark (q : Fin 4)
  /-- R248, CASTLE_HOLD_END: 10 µs after a castling's resume the QCU stops holding its release marks. -/
  | castleHoldEnd (q : Fin 4)
  /-- R252, CCU_INPUT: An input reaches the CCU and every condition counts it and tests satisfaction. -/
  | ccuInput
  /-- R254, CCU_DECIDE: A condition's watermark passes t + veto_post and its pending occurrence is decided. -/
  | ccuDecide (c : Fin 64)
  /-- R262, STEP_SHADOW_END: The step shadow after a forced step ends and inputs of the time base count again. -/
  | stepShadowEnd (b : Fin 8)
  /-- R265, TRIGIN_EDGE: A filtered TRIGIN rising edge is stamped and offered to terms, the phase detector and the FIFO. -/
  | triginEdge (n : Fin 8) (err : Int) (level : PinLevel)
  /-- R266, TRIGIN_STUCK: A line stays active for stuck_us and is declared stuck. -/
  | triginStuck (n : Fin 8)
  /-- R266, TRIGIN_UNSTUCK: A stuck line stays inactive for 1 µs and stops being stuck. -/
  | triginUnstuck (n : Fin 8)
  /-- R265, TRIGIN_FIFO_POP: A read of TRIG_IN_FIFOn_LO pops the oldest capture entry. -/
  | triginFifoPop (who : Requester) (n : Fin 8)
  /-- R538, TRIGIN_FIFO_FLUSH: TRIG_IN_CTLn.flush empties the capture FIFO. -/
  | triginFifoFlush (who : Requester) (n : Fin 8) (value : Word)
  /-- R267, FAST_STRETCH_END: A stretched required or veto pulse of a fast condition ends. -/
  | fastStretchEnd (k : Fin 8) (inp : Fin 12) (veto : Bool)
  /-- R269, FAST_OUTPUT_END: A fast condition's output width or dead time ends. -/
  | fastOutputEnd (k : Fin 8)
  /-- R268, DELAY_TRACK: Every 1 ms the tracking loop compares its replica line and may move a tap. -/
  | delayTrack (k : Fin 8) (move : Fin 3)
  /-- R273, TRIGOUT_PULSE_END: A TA or TIMED pulse of width ns ends. -/
  | trigoutPulseEnd (n : Fin 8)
  /-- R273, TRIGOUT_LAUNCH_DUE: A TIMED line's queue entry falls due and its pulse rises. -/
  | trigoutLaunchDue (n : Fin 8) (err : Int)
  /-- R261, TRIG_COND_SET: TRIG_COND_SET sets or replaces a condition between two inputs. -/
  | trigCondSet (d : Desc) (pb : Option (BitVec 768))
  /-- R388, COND_RELEASE: TRIG_COND_SET with release disables the condition and frees its ownership. -/
  | condRelease (d : Desc) (pb : Option (BitVec 768))
  /-- R274, TRIG_FAST_SET: TRIG_FAST_SET writes fast condition and TRIGIO register pairs. -/
  | trigFastSet (d : Desc)
  /-- R274, TRIG_FAST_APPLY: A waiting fast-path change takes effect once the output is low and out of dead time. -/
  | trigFastApply
  /-- R388, FAST_RELEASE: TRIG_FAST_SET with release turns named fast objects off and frees ownership. -/
  | fastRelease (d : Desc)
  /-- R246, LATE_CAP_REARM: A write of one to QCU_STATUS.late_cap re-arms the late capture. -/
  | lateCapRearm (who : Requester) (q : Fin 4) (value : Word)
  /-- R283, LINK_HELLO_TX: Every hello_us a link port sends a link HELLO. -/
  | linkHelloTx (p : Fin 128)
  /-- R289, BEACON_TX: Every beacon_us an active arbiter broadcasts a beacon HELLO. -/
  | beaconTx
  /-- R284, LINK_HELLO_TIMEOUT: No link HELLO for 4 × hello_us and the port stops being system-up. -/
  | linkHelloTimeout (p : Fin 128)
  /-- R296, BEACON_TIMEOUT: No beacon for 4 × beacon_us and the arbiter slot stops being alive. -/
  | beaconTimeout (k : Fin 5)
  /-- R295, GCM_TP_RECEIVE: A GCM of kind TP is received and its records enter the remote reorder buffer. -/
  | gcmTpReceive (p : Fin 128) (g : Gcm) (good : Bool)
  /-- R298, GCM_TA_RECEIVE: A GCM of kind TA is received and offered to RTA terms and the EVBs. -/
  | gcmTaReceive (p : Fin 128) (g : Gcm) (good : Bool)
  /-- R301, GCM_RECALL_RECEIVE: A GCM RECALL request is checked and held by the answerer. -/
  | gcmRecallReceive (p : Fin 128) (g : Gcm) (good : Bool)
  /-- R302, GCM_REPLY_RECEIVE: A REPLY is received and reported to the host function that issued the RECALL. -/
  | gcmReplyReceive (p : Fin 128) (g : Gcm) (good : Bool)
  /-- R284, GCM_HELLO_RECEIVE: A HELLO updates link state or arbiter liveness. -/
  | gcmHelloReceive (p : Fin 128) (g : Gcm) (good : Bool)
  /-- R296, GCM_PACK_TIMEOUT: pack_ns after the first exported TP the GCM is sent with the TPs gathered. -/
  | gcmPackTimeout (k : Fin 4)
  /-- R313, SHED_LEVEL_UP: The write buffer holds more than 1.5 MiB and shed_level rises by 1. -/
  | shedLevelUp (q : Fin 4)
  /-- R313, SHED_LEVEL_DOWN: The write buffer has held less than 0.5 MiB for 100 µs and shed_level falls by 1. -/
  | shedLevelDown (q : Fin 4)
  /-- R415, HBM_REFRESH: A staggered refresh blocks a pseudo-channel, possibly postponed while the buffer is full. -/
  | hbmRefresh (q : Fin 4) (ns : Fin 411) (allowed : Bool)
  /-- R314, STREAM_QUOTA: STREAM_QUOTA sets a stream's retention quota and releases excess blocks. -/
  | streamQuota (d : Desc)
  /-- R320, BUF_RELEASE: BUF_RELEASE releases a buffer after the owner and generation checks. -/
  | bufRelease (d : Desc)
  /-- R321, BUF_FAULT_REARM: A write of one to EVB_BUF_FAULT_VALID re-arms the refused-release capture. -/
  | bufFaultRearm (who : Requester) (q : Fin 4) (value : Word)
  /-- R326, EVB_TA_TAKE: An EVB takes a TA from the queue and fixes the record's collector. -/
  | evbTaTake (q : Fin 4)
  /-- R328, EVENT_BUILD_START: The time base passes end by 10 µs, every stream is covered, and sizing starts. -/
  | eventBuildStart (q : Fin 4) (n : Nat)
  /-- R328, BUILD_WAIT_TIMEOUT: wait_ms passes and the EVB builds with missing instants as GAP. -/
  | buildWaitTimeout (q : Fin 4) (n : Nat)
  /-- R326, SIZES_COMPLETE: The collector has every EVB's sizes and lays out the record. -/
  | sizesComplete (n : Nat) (posts : List Post)
  /-- R326, R429, EVB_REGION_DONE: An EVB finishes writing or sending its fragments and reports completion. -/
  | evbRegionDone (q : Fin 4) (e : RegionDone)
  /-- R337, RECORD_DELIVERY: The collector writes header and directory and delivers the record by its route. -/
  | recordDelivery (n : Nat)
  /-- R324, RECORD_HOLD_TIMEOUT: A waiting record reaches its hold time and its profile's policy applies. -/
  | recordHoldTimeout (n : Nat)
  /-- R331, ATTACH_HOLD_EXPIRE: EVB_ATTACH_HOLD passes and the EVB releases the attachment. -/
  | attachHoldExpire (q : Fin 4)
  /-- R338, RECALL_LOCAL: RECALL of scope LOCAL builds a window of local history into a record. -/
  | recallLocal (d : Desc)
  /-- R300, RECALL_DEVICE: RECALL of scope DEVICE sends a unicast GCM request to one device. -/
  | recallDevice (d : Desc)
  /-- R300, RECALL_ALL: RECALL of scope ALL broadcasts a GCM request to all devices. -/
  | recallAll (d : Desc)
  /-- R325, EVT_ROUTE: EVT_ROUTE sets a readout profile in all four EVBs. -/
  | evtRoute (d : Desc) (pb : Option (BitVec 512))
  /-- R388, PROFILE_RELEASE: EVT_ROUTE with release disables the profile and frees its ownership. -/
  | profileRelease (d : Desc) (pb : Option (BitVec 512))
  /-- R323, QUOTA_SET: QUOTA_SET sets an engine work-buffer quota or a function outstanding-event quota. -/
  | quotaSet (d : Desc)
  /-- R366, DOORBELL_POLL: poll_ns elapses and the device reads a function's doorbell lines and new descriptors. -/
  | doorbellPoll (f : Fin 8) (words : List (Fin 193 × BitVec 64))
  /-- R365, DOORBELL_INVALIDATE: A host store invalidates a CXL.cache doorbell line and the device refetches it. -/
  | doorbellInvalidate (f : Fin 8) (line : Fin 25) (words : List (Fin 193 × BitVec 64))
  /-- R367, NUDGE: A write to NUDGE starts a poll of the function's doorbell lines. -/
  | nudge (f : Fin 8) (words : List (Fin 193 × BitVec 64))
  /-- R354, RING_ENABLE: Writing RING_CTL.en from 0 to 1 enables the ring with both indices at 0. -/
  | ringEnable (who : Requester) (f : Fin 8) (slot : Fin 193) (value : Word)
  /-- R354, RING_DISABLE: Clearing RING_CTL.en disables the ring at once. -/
  | ringDisable (who : Requester) (f : Fin 8) (slot : Fin 193) (value : Word)
  /-- R354, RING_RESUME: Writing RING_CTL.resume continues a STOPPED ring from its device index. -/
  | ringResume (who : Requester) (f : Fin 8) (slot : Fin 193) (x : Resume)
  /-- R363, FREE_ENTRY: A free-ring entry releases a DELIVERED handle under the release rules. -/
  | freeEntry (f : Fin 8) (r : Fin 32) (entry : BitVec 128)
  /-- R370, COAL_TIMEOUT: The oldest uninterrupted entry reaches coal_t and the ring's vector is sent. -/
  | coalTimeout (f : Fin 8) (slot : Fin 193)
  /-- R371, MSIX_UNMASK: A masked vector with its PBA bit set is unmasked and its message sent. -/
  | msixUnmask (f : Fin 8) (v : Fin 256)
  /-- R351, FLR: A function-level reset disables the function's rings and releases its DELIVERED handles. -/
  | flr (f : Fin 8)
  /-- R347, DMA_READ_FAULT: A device read of host memory fails and every ring needing it stops with FAULT. -/
  | dmaReadFault (f : Fin 8) (slots : List (Fin 193))
  /-- R394, NOP: NOP completes with OK at once. -/
  | nop (d : Desc)
  /-- R400, ECHO: ECHO returns its body data as the result. -/
  | echo (d : Desc)
  /-- R376, FENCE_EXEC: FENCE with F_EXEC holds the ring until every earlier command of it has completed. -/
  | fenceExec (d : Desc) (words : List (Fin 193 × BitVec 64))
  /-- R376, FENCE_FUNC: FENCE with F_FUNC holds every command ring of the function until earlier commands complete. -/
  | fenceFunc (d : Desc) (words : List (Fin 193 × BitVec 64))
  /-- R376, FENCE_DATA: FENCE with F_DATA waits until earlier data writes for the function are visible. -/
  | fenceData (d : Desc) (words : List (Fin 193 × BitVec 64))
  /-- R377, FENCE_TIME: FENCE with F_TIME holds the ring until a time base reaches a named time. -/
  | fenceTime (d : Desc) (words : List (Fin 193 × BitVec 64))
  /-- R377, FENCE_TIME_REACHED: The named time base reaches the F_TIME target and the fence is satisfied. -/
  | fenceTimeReached
  /-- R404, JRNL_SYNC: JRNL_SYNC returns the oldest sequence number in the BAR2 window. -/
  | jrnlSync (d : Desc)
  /-- R396, STATS_SNAP: STATS_SNAP writes selected counter blocks to a host buffer. -/
  | statsSnap (d : Desc) (span : Fin 100001)
  /-- R396, COUNTER_READ_STREAM: COUNTER_READ of kind stream writes a stream's 16 counters. -/
  | counterReadStream (d : Desc)
  /-- R396, COUNTER_READ_FUNCTION: COUNTER_READ of kind function writes a function's 16 counters. -/
  | counterReadFunction (d : Desc)
  /-- R395, ENG_LOAD: ENG_LOAD writes program, data or vector units into an engine's local stores. -/
  | engLoad (d : Desc) (data : Option (List Byte))
  /-- R433, CASTLE_ENGINE: CASTLE of kind ENGINE moves a logical engine onto a spare slot. -/
  | castleEngine (d : Desc)
  /-- R438, CASTLE_STEWARD: CASTLE of kind STEWARD moves the steward onto the spare steward. -/
  | castleSteward (d : Desc)
  /-- R440, CASTLE_SLICE: CASTLE of kind SLICE shifts lanes onto the group's spare slice and retrains. -/
  | castleSlice (d : Desc)
  /-- R441, CASTLE_PCH: CASTLE of kind PCH evacuates a pseudo-channel onto a spare. -/
  | castlePch (d : Desc)
  /-- R448, REPAIR_COMMIT: REPAIR_COMMIT burns a committed flash map entry into eFuse. -/
  | repairCommit (d : Desc)
  /-- R394, FLASH_WRITE: FLASH_WRITE programs bytes into a user flash region. -/
  | flashWrite (d : Desc) (data : Option (List Byte))
  /-- R394, FLASH_ERASE: FLASH_ERASE erases a user flash region of a stated size. -/
  | flashErase (d : Desc)
  /-- R478, FW_STAGE: FW_STAGE writes an image into the slot that did not boot and verifies it. -/
  | fwStage (d : Desc) (data : Option (List Byte))
  /-- R478, FW_SWITCH_NEXT_BOOT: FW_SWITCH with live 0 makes the staged slot preferred for the next bring-up. -/
  | fwSwitchNextBoot (x : FwSwitch)
  /-- R478, FW_SWITCH_LIVE: FW_SWITCH with live 1 hands over to the staged firmware now. -/
  | fwSwitchLive (x : FwSwitch)
  /-- R417, PACE_PERIOD: Every period_us the pace loop adjusts each auto rail from backlog, skips and margin. -/
  | pacePeriod (low : BitVec 5) (bus : List TwTry)
  /-- R419, PACE_ENABLE: PACE_CTL.en going to 1 reads each regulator's VOUT_MODE and starts the loop. -/
  | paceEnable (who : Requester) (value : Word) (bus : List TwTry)
  /-- R421, RAIL_SET: A PACE_RAILr_SET write with auto 0 commands the rail at once, clamped. -/
  | railSet (who : Requester) (r : Fin 5) (value : Word) (bus : List TwTry)
  /-- R427, WEAR_AVERAGE: Each second the repair controller averages slowdowns and compares thresholds. -/
  | wearAverage (readings : List WearRead)
  /-- R428, LANE_EYE_MEASURE: Every 10 s each lane's eye margin is measured against its thresholds. -/
  | laneEyeMeasure (n : Fin 544) (margin : Nat)
  /-- R430, CASTLE_AUTO_START: A unit with sched set starts an automatic castling when its conditions allow. -/
  | castleAutoStart (again : Bool) (kind : Fin 5) (n : Nat)
  /-- R433, ENGINE_CASTLE_FREEZE: After the copy passes the engine stops at its next boundary with castle_freeze set. -/
  | engineCastleFreeze (unit : Fin 5) (passes dirty : Nat)
  /-- R433, ENGINE_CASTLE_RESUME: Copy and redirect end and the logical engine resumes on the spare. -/
  | engineCastleResume (unit : Fin 5)
  /-- R437, CASTLE_VERIFY_DONE: The verify scrub of the spare ends and the castling commits or castles again. -/
  | castleVerifyDone (unit : Fin 5) (good : Bool)
  /-- R448, REPAIR_MAP_COMMIT: The repair map copy not in force is written and read back, committing the entry. -/
  | repairMapCommit (kind : Fin 6) (q : Fin 4) (good : Bool)
  /-- R441, PCH_EVAC_DONE: The pseudo-channel copy completes and reads move to the spare. -/
  | pchEvacDone (st : Fin 4)
  /-- R443, BANK_CASTLE_DONE: A bank's background copy completes and reads move to the spare bank. -/
  | bankCastleDone (q : Fin 4)
  /-- R444, WIRE_CASTLE: A fabric wire fails its delay monitor and its link switches to the spare wire. -/
  | wireCastle (q : Fin 4) (link : BitVec 20) (set_ : Fin 32)
  /-- R450, POWER_WARNING: VIO or VAON falls below its warning level and the device stops flash starts and acceptance. -/
  | powerWarning
  /-- R450, POWER_WARNING_CLEAR: The power-loss warning clears within 10 ms and acceptance resumes. -/
  | powerWarningClear
  /-- R464, POWER_ON_RESET: VAON and VIO have been in range for 2 ms and power-on reset releases into L0 bring-up. -/
  | powerOnReset
  /-- R464, BROWN_OUT: VAON stays below its brown-out level for 2 µs and L0 asserts. -/
  | brownOut
  /-- R465, SYSRST_ASSERT: SYSRST_N held low for filter_us asserts its mapped reset. -/
  | sysrstAssert (us : Nat)
  /-- R465, SYSRST_RELEASE: SYSRST_N high for filter_us begins the reset's release. -/
  | sysrstRelease (us : Nat)
  /-- R465, PERST_ASSERT: PERST_N held low for filter_us asserts its mapped reset. -/
  | perstAssert (us : Nat)
  /-- R465, PERST_RELEASE: PERST_N high for filter_us begins the reset's release. -/
  | perstRelease (us : Nat)
  /-- R459, HOT_RESET: A PCIe hot reset or unrequested link-down causes its mapped reset. -/
  | hotReset
  /-- R462, WATCHDOG_EXPIRE: The steward watchdog expires 1 s after its last restart and causes its mapped reset. -/
  | watchdogExpire
  /-- R461, THERMAL_TRIP: The hottest sensor stays at or above trip for 100 µs and its mapped reset asserts. -/
  | thermalTrip (temp : Int)
  /-- R461, THERMAL_TRIP_RELEASE: The sensor falls to trip − 10 °C and bring-up begins. -/
  | thermalTripRelease (temp : Int)
  /-- R459, JTAG_DEVRST: The DEVRST instruction passes Update-IR and causes its mapped reset. -/
  | jtagDevrst
  /-- R463, RST_SW_L1: An RST_SW write of level 1 requests a warm reset. -/
  | rstSwL1 (who : Requester)
  /-- R463, RST_SW_L2: An RST_SW write of level 2 requests a host reset. -/
  | rstSwL2 (who : Requester)
  /-- R463, RST_SW_L3: An RST_SW write of level 3 resets a named quadrant. -/
  | rstSwL3 (who : Requester) (target : BitVec 8)
  /-- R463, RST_SW_L4: An RST_SW write of level 4 resets a named engine's task state. -/
  | rstSwL4 (who : Requester) (target : BitVec 8)
  /-- R469, BRINGUP_RELEASE_STEP: After gap_ticks the next domain of the bring-up is released. -/
  | bringupReleaseStep (sfdp : Option Sfdp) (bus : List TwTry)
  /-- R487, SPI_TRANSFER: A SPIn_CMD write with go starts one controller transfer. -/
  | spiTransfer (who : Requester) (n : Fin 2) (value : Word)
  /-- R487, SPI_TRANSFER_DONE: The transfer's bits and post delay end and the select is released unless hold is set. -/
  | spiTransferDone (n : Fin 2) (input : Nat)
  /-- R486, SPI_FIFO_RESUME: A stalled transfer resumes once the FIFO has data or room. -/
  | spiFifoResume (n : Fin 2) (input : Nat)
  /-- R486, SPI_TX_PUSH: A write of SPIn_TX pushes a word into the transmit FIFO. -/
  | spiTxPush (who : Requester) (n : Fin 2) (value : Word)
  /-- R486, SPI_RX_POP: A read of SPIn_RX pops a word and latches SPIn_RX_INFO. -/
  | spiRxPop (who : Requester) (n : Fin 2)
  /-- R538, SPI_TX_FLUSH: tx_flush empties the transmit FIFO. -/
  | spiTxFlush (who : Requester) (n : Fin 2) (value : Word)
  /-- R538, SPI_RX_FLUSH: rx_flush empties the receive FIFO. -/
  | spiRxFlush (who : Requester) (n : Fin 2) (value : Word)
  /-- R487, SPI_DISABLE: Clearing SPIn_CTL.en ends a transfer, releases the select and flushes both FIFOs. -/
  | spiDisable (who : Requester) (n : Fin 2) (value : Word)
  /-- R500, SPI_TARGET_SELECT: CS0_N falls on the SPI1 target and the mode is detected. -/
  | spiTargetSelect (sckHigh : Bool) (reads : Nat)
  /-- R500, SPI_TARGET_WORD: A received word goes to the receive FIFO and an output word or 0xA5 is sent. -/
  | spiTargetWord (word : Word) (reads : Nat)
  /-- R502, SPI_TARGET_DESELECT: CS0_N rises and a partial word is delivered with sel_end set. -/
  | spiTargetDeselect (n : Fin 32) (word : Word) (reads : Nat)
  /-- R492, FLASH_PAGE_FLUSH: The window page buffer is issued as a page program. -/
  | flashPageFlush
  /-- R492, FLASH_STATUS_POLL: Every poll_us the controller reads write-in-progress until the flash is done. -/
  | flashStatusPoll (busy : Bool)
  /-- R493, FLASH_OP_TIMEOUT: A program or erase exceeds prog_ms or erase_ms and the command fails with FAULT. -/
  | flashOpTimeout
  /-- R496, CONFIG_RECORD_REWRITE: 10 s after the last saved change the steward rewrites the configuration record. -/
  | configRecordRewrite (good : Bool)
  /-- R509, TW0_ADDRESS_MATCH: A START with a matching address wakes TW0 and stretches SCL until ready. -/
  | tw0AddressMatch (addr : BitVec 7)
  /-- R509, TW0_SLEEP: After 1 ms of idle TW0's bit engine and handler sleep. -/
  | tw0Sleep
  /-- R512, TW0_STRETCH_EXPIRE: A stretch reaches TW0_STRETCH_MAX and TW0 releases SCL with not-acknowledge or 0xFF. -/
  | tw0StretchExpire (beforeByte : Bool)
  /-- R513, TW0_ID: Management command ID returns part, revision, firmware and device number. -/
  | tw0Id
  /-- R513, TW0_STATUS: Management command STATUS returns mode, bring-up, reset causes and attention causes. -/
  | tw0Status
  /-- R513, TW0_TEMP: Management command TEMP returns on-die temperatures. -/
  | tw0Temp
  /-- R513, TW0_RAILS: Management command RAILS returns commanded and measured rail voltages. -/
  | tw0Rails
  /-- R513, TW0_RESULT: Management command RESULT returns the last write command and its status. -/
  | tw0Result
  /-- R515, TW0_RESET: Management command RESET requests an L1 or L3 reset. -/
  | tw0Reset (w : Word) (pecIn : Option Byte)
  /-- R515, TW0_SAFE: Management command SAFE enters Safe as a MODE_SET from function 0. -/
  | tw0Safe (w : Word) (pecIn : Option Byte)
  /-- R515, TW0_ATTN_CLR: Management command ATTN_CLR clears named attention causes. -/
  | tw0AttnClr (w : Word) (pecIn : Option Byte)
  /-- R515, TW0_REG_READ: Management command REG_READ reads a BAR0 register with TW0's own latches. -/
  | tw0RegRead (ofs : Word)
  /-- R519, ATTN_REQUEST: After 100 µs of idle bus TW0 holds SDA low for 50 µs as an attention request. -/
  | attnRequest (aborted : Bool)
  /-- R519, ATTN_REPEAT: Every repeat × 100 ms a still-pending cause requests attention again. -/
  | attnRepeat
  /-- R518, ATTN_CAUSE_CLEAR: A write of one to a TW0_ATTN_CAUSE bit clears it unless its condition holds. -/
  | attnCauseClear (who : Requester) (value : Word)
  /-- R522, TW_STUCK: A line low for 35 ms is declared stuck; TW0 releases and TW1 tries a bus clear. -/
  | twStuck (tw1 scl : Bool) (code : Option Byte) (freed : Option (Fin 9))
  /-- R529, TIMER_ENABLE: TMRn_CTL.en going to 1 starts counting or arms a TIME timer. -/
  | timerEnable (who : Requester) (n : Fin 16) (value : Word)
  /-- R529, TIMER_MATCH: A tick brings the count to the active compare value and the match action is taken. -/
  | timerMatch (n : Fin 16)
  /-- R529, TIMER_RELOAD: A tick at count 0 reloads, or ends a one-shot, and the reload action is taken. -/
  | timerReload (n : Fin 16)
  /-- R533, TIMER_CAPTURE: A selected TMRIN edge latches the count into TMRn_CAP. -/
  | timerCapture (pin : Fin 8) (rising : Bool)
  /-- R534, TIMER_TIME_FIRE: The time base reaches a TIME timer's target and it fires. -/
  | timerTimeFire (n : Fin 16)
  /-- R531, TIMER_PIN_LEVEL: A write to TMR_PIN.level sets every enabled pin's level at once. -/
  | timerPinLevel (who : Requester) (value : Word)
  /-- R530, TIMER_RELOAD_COMMIT: A TMRn_RELOAD_LO write commits both halves to the reload buffer. -/
  | timerReloadCommit (who : Requester) (n : Fin 16) (hi : Option Word) (lo : Word)
  /-- R530, TIMER_CMP_COMMIT: A TMRn_CMP_LO write commits both halves to the compare preload. -/
  | timerCmpCommit (who : Requester) (n : Fin 16) (hi : Option Word) (lo : Word)
  /-- R546, REGISTER_WRITE: A write to a register with no row of its own is granted and takes effect or is refused. -/
  | registerWrite (who : Requester) (bar2 : Bool) (ofs : BitVec 24) (shape : WriteShape) (bus : List TwTry)
  /-- R540, JTAG_REGACC: A REGACC instruction performs one 32-bit register read or write per Update-DR. -/
  | jtagRegacc (ofs : BitVec 24) (value : Option Word)
  /-- R548, SETUP_FAULT_CLEAR: A write of one to GLB_SETUP_FAULT.valid or overrun clears that bit. -/
  | setupFaultClear (who : Requester) (value : Word)
  /-- R464, POWER_FAIL: VIO falls out of its range, so power-on reset asserts and the device loses what R451 allows. -/
  | powerFail
  /-- R345, HOST_LINK_UP: PCIe link training completes and HOST_LINK reports link up with its rate and width. -/
  | hostLinkUp (gen width : Nat) (flit cxl cacheEn : Bool) (ats msix : BitVec 8)
  /-- R371, FUNCTION_D3HOT_ENTRY: The host puts a function into D3hot, after which it is not polled and receives no MSI-X message. -/
  | functionD3hotEntry (f : Fin 8) (l12 : Bool)
  /-- R518, THERMAL_WARNING: The hottest sensor rises above therm_warn, making attention cause THERM_WARN pending and starting the Safe persistence count. -/
  | thermalWarning (temps : List Int)
  /-- R545, LO_READ_LATCH: A read of a _LO register returns bits [31:0] and latches _HI and any companion into the requester's own latch. -/
  | loReadLatch (who : Requester) (bar2 : Bool) (ofs : BitVec 24) (n : Fin 1025)
  /-- R196, ILLEGAL_CHORD: A chord with an encoding fault (NO_STOP, ORDER, UNDEFINED, MBZ or LITERAL) raises ILLEGAL and does not execute. -/
  | illegalChord (q : Fin 4) (k : Fin 52)
  /-- R514, TW0_INVALID_TRANSFER: TW0 receives a reserved code or a malformed transfer, does not acknowledge it, and discards it with its status recorded for RESULT. -/
  | tw0InvalidTransfer (code : Byte) (badForm : Bool)
  /-- R383, RESERVED_OPCODE: A command descriptor with a reserved opcode is rejected whole with BAD_OPCODE, journaled and completed. -/
  | reservedOpcode (op : BitVec 8) (d : Desc)
  deriving DecidableEq, Repr

end Sys2Proof
end

