-- ==== Sys2Proof/Decode.lean ====
section
/-! DEFINITION. The command that a table word spells: no row of the table of operations and events gives bits. -/

namespace Sys2Proof

/-- The rows carry no encoding, so a word spells no command. [DESIGN CHOICE, log 29] -/
def decodeTableWord (_nbits _w : Nat) : Option Instr := none

end Sys2Proof
end

