-- ==== Sys2Proof/Config.lean ====
section
/-! DEFINITION. What the spec leaves to the part, the board or the firmware, and the free values: constants with no body,
so that no proof can see a value the spec does not give. -/

namespace Sys2Proof

/-- The ordering code's grade: 0 GP4128-A0-C, 1 GP4128-A0-E (R2, R548); read from the grade fuse. -/
opaque Config.gradeE : Bool

/-- The unique die identifier of the fuses (R548), 64 bits. -/
opaque Config.dieId : BitVec 64

/-- The 64-bit clock identity that the device's PTP messages carry (R128): the spec names no value. -/
opaque Config.clockIdentity : BitVec 64

/-- The Announce flags other than the leap flags (bits 2 to 7) and the timeSource of the device as its own grandmaster (R135): the spec names
no value. -/
opaque Config.announceFlags : BitVec 8
opaque Config.timeSource : BitVec 8

/-- Whether increment k (0 to 3) of the five-increment sequence of R112 is the larger of the two neighbours of 1.6 ns in
2^-32 ns; the fifth makes the five add exactly 8 ns. The spec does not give the order. [DESIGN CHOICE, log 13] -/
opaque Config.tickUp : Nat → Bool

/-- Whether a quotient that the spec states without a rounding direction (the servo term of R112 to 2^-48 ns, the filter and
the mean of R124 and R134 to a pip or 2^-8 ppb) is rounded up. [DESIGN CHOICE, log 12] -/
opaque Config.roundUp : Int → Int → Bool

/-- A free value: something the spec leaves open, at the index the step reads and advances. [DESIGN CHOICE, log 2] -/
opaque Config.freeWord : Nat → BitVec 64

/-- SHA-384 of bytes (R475 names it and does not define it). -/
opaque Config.sha384 : List Nat → BitVec 384

/-- ECDSA P-384 verification of a signature over a digest with a public key, as bytes (R475 names it and does not define it). -/
opaque Config.ecdsaVerify : List Nat → BitVec 384 → List Nat → Bool

/-- Thermal trip temperature of FUSE_THERM as burnt for the ordering code: 110 °C or 115 °C (R461). -/
def Config.tripTemp : Nat := if Config.gradeE then 115 else 110

end Sys2Proof
end

