-- ==== Sys2Proof/Types/Regs.lean ====
section
/-! DEFINITION. The names of the setup registers, one constructor per register family of the register tables of spec/ (19_register_map.md R549 indexes them). -/

namespace Sys2Proof

/-- A setup register family (R549): the block tables of R62, R104, R106, R153–R155, R191, R275, R277, R279, R304, R341, R342, R379, R380, R406, R424, R452, R453, R481, R483, R503, R504, R523–R525, R539 and R548, and the MSI-X resources of R348. -/
inductive Reg where
  | modeCtl
  | modeStatus
  | modeVigil
  | modeVigilPorts
  | modeVigilEng0
  | modeVigilEng1
  | modeCalPorts
  | modeSafeCfg
  | portCfg
  | portStatus
  | portMacLo
  | portMacHi
  | portIpv4
  | portIpv6
  | portUdp
  | portMaxlen
  | portLaunch
  | portCntLo
  | portCntHi
  | portChkLo
  | portChkHi
  | portCap
  | portCapValid
  | streamEnt0
  | streamEnt1
  | streamEnt2
  | streamEnt3
  | tbCtl
  | tbStatus
  | tbNowLo
  | tbNowHi
  | tbNowFrac
  | tbKp
  | tbKi
  | tbFreq
  | tbJumpLimit
  | tbHoldTimeout
  | tbLock
  | tbOfsLo
  | tbOfsHi
  | tbOfsFrac
  | tbOfsTimeLo
  | tbOfsTimeHi
  | tbRefusedLo
  | tbRefusedHi
  | tbSteps
  | tbTick
  | tbTrigPeriodLo
  | tbTrigPeriodHi
  | tbTrigAnchorLo
  | tbTrigAnchorHi
  | tbTrigCtl
  | tbPtpId
  | tbPtpQual
  | tbPtpVar
  | tbUtc
  | timeRefCtl
  | timeRefStatus
  | timePpsCtl
  | timePpsInComp
  | timePpsOutComp
  | timePpsStatus
  | synCtl
  | synPeriodLo
  | synPeriodHi
  | synPhaseLo
  | synPhaseHi
  | synStatus
  | ptpCtl
  | ptpAsym
  | ptpPeer
  | ptpStatus
  | ptpMpdLo
  | ptpMpdHi
  | engId
  | engStatus
  | engCfg
  | engDbgCtl
  | engBp
  | engDbgAddr
  | engDbgDataLo
  | engDbgDataHi
  | engTaskStatus
  | engTaskPc
  | engTaskTrap
  | engTaskDetail
  | engCntLo
  | engCntHi
  | qcuCtl
  | qcuLag
  | qcuClassEn
  | qcuCoal
  | qcuCoalEn
  | qcuStatus
  | qcuLateCap
  | qcuCntLo
  | qcuCntHi
  | ccuCtl
  | ccuTrignoLo
  | ccuTrignoHi
  | ccuLag
  | ccuStatus
  | ccuCntLo
  | ccuCntHi
  | condStatus
  | condCntLo
  | condCntHi
  | trigInCtl
  | trigInStuck
  | trigInStatus
  | trigInFifoLo
  | trigInFifoHi
  | trigInFifoFrac
  | trigInEdgesLo
  | trigInEdgesHi
  | trigInIgnoredLo
  | trigInIgnoredHi
  | trigInStucksLo
  | trigInStucksHi
  | trigFastCtl
  | trigFastIn
  | trigFastTime
  | trigFastDly
  | trigFastFiresLo
  | trigFastFiresHi
  | trigFastBlockedLo
  | trigFastBlockedHi
  | trigStrbCtl
  | trigOutCtl
  | trigOutTamaskLo
  | trigOutTamaskHi
  | trigOutSkip
  | ccuSysCtl
  | ccuSysId
  | ccuSysPrimary
  | ccuSysTiming
  | ccuSysAge
  | ccuSysTtl
  | ccuSysArb
  | ccuSysExport
  | ccuSysTaExportLo
  | ccuSysTaExportHi
  | ccuSysTaEvbLo
  | ccuSysTaEvbHi
  | ccuSysTree
  | ccuSysCntLo
  | ccuSysCntHi
  | ccuSysPeerLo
  | ccuSysPeerHi
  | ccuSysLink
  | ccuSysRoute
  | histStatus
  | histFree
  | histReserved
  | histOldestLo
  | histOldestHi
  | histCntLo
  | histCntHi
  | evbCtl
  | evbStageMax
  | evbAttachHold
  | evbStatus
  | evbBufFault0
  | evbBufFault1
  | evbBufFault2
  | evbBufFaultValid
  | evbCntLo
  | evbCntHi
  | hostLink
  | hostStatus
  | fnCtl
  | fnPoll
  | fnDbLo
  | fnDbHi
  | fnShadowLo
  | fnShadowHi
  | fnPerm
  | fnAlloc
  | fnStatus
  | fnFaultOfs
  | fnFaultVal
  | ringBaseLo
  | ringBaseHi
  | ringCtl
  | ringCoal
  | jrnlHeadLo
  | jrnlHeadHi
  | jrnlEpoch
  | jrnlStatus
  | paceCtl
  | paceStatus
  | paceRailCfg
  | paceRailTarget
  | paceRailSet
  | paceRailStatus
  | paceRailBacklog
  | paceRailPmbus
  | paceRailEnergyLo
  | paceRailEnergyHi
  | paceMonPmbus
  | paceMonEnergyLo
  | paceMonEnergyHi
  | fabAdmit
  | fabStatus
  | paceCntLo
  | paceCntHi
  | repairCtl
  | repairStatus
  | repairSeq
  | repairThreshEng
  | repairThreshLane
  | repairThreshHbm
  | repairThreshSram
  | repairActStew
  | repairAct
  | repairLmap
  | repairStew
  | repairSlice
  | repairPch
  | repairLog
  | repairCntLo
  | repairCntHi
  | repairEngWear
  | repairLaneWear
  | repairPchCorr
  | repairPchFlags
  | repairBankWear
  | rstCause
  | rstStatus
  | rstSw
  | rstFlr
  | rstL3
  | rstL4
  | rstLastUs
  | rstCntLo
  | rstCntHi
  | fuseRstMap
  | fuseRstTiming
  | fuseKey
  | fuseTherm
  | fuseKeyhash
  | spiCtl
  | spiClk
  | spiLen
  | spiDly
  | spiCmd
  | spiStatus
  | spiTx
  | spiRx
  | spiRxInfo
  | spiBusyCnt
  | spi0WinCtl
  | spi0WinGeom
  | spi0WinEraseOps
  | spi0WinTimeout
  | spi0WinPoll
  | spi0WinStatus
  | spi0Erase
  | tw0Ctl
  | tw0Addr
  | tw0Mask
  | tw0Timing
  | tw0StretchMax
  | tw0Attn
  | tw0AttnCause
  | tw0Status
  | tw0CntLo
  | tw0CntHi
  | tw1Ctl
  | tw1Timing
  | tw1Status
  | tw1CntLo
  | tw1CntHi
  | fuseTw0
  | tmrGlb
  | tmrPin
  | tmrStatusAll
  | tmrCtl
  | tmrPresc
  | tmrReloadLo
  | tmrReloadHi
  | tmrCmpLo
  | tmrCmpHi
  | tmrCountLo
  | tmrCountHi
  | tmrCapLo
  | tmrCapHi
  | tmrStatus
  | tmrMissed
  | glbId
  | glbFwVersion
  | glbCap0
  | glbCap1
  | glbDieIdLo
  | glbDieIdHi
  | glbScratch
  | glbSetupFault
  | glbSetupFaultVal
  | glbSetupFaultCntLo
  | glbSetupFaultCntHi
  | msixAddrLo
  | msixAddrHi
  | msixData
  | msixCtl
  | msixPba
  deriving DecidableEq, Repr

/-- Access codes of R13. -/
inductive Acc where
  | rw | ro | w1c | w1s | wo | rsv
  deriving DecidableEq, Repr

/-- What values a field accepts (R14, R547): any; the listed ranges, another value being refused with RANGE; or the
listed ranges of defined encodings, another value being a reserved enumeration value (RSV_ENUM). -/
inductive Legal where
  | any
  | range (ok : List (Nat × Nat))
  | enum (ok : List (Nat × Nat))
  deriving DecidableEq, Repr

/-- One field of a setup register (R13): bits [hi:lo], access, reset value, legal values. -/
structure RegField where
  hi : Nat
  lo : Nat
  acc : Acc
  reset : Nat
  legal : Legal
  deriving DecidableEq, Repr

/-- One dimension of a register family: index n is at stride × n, for n from first to first + count − 1. -/
structure RegDim where
  stride : Nat
  first : Nat
  count : Nat
  deriving DecidableEq, Repr

/-- One row of the register map (R549): a family of registers at base in BAR0. -/
structure RegRow where
  reg : Reg
  base : Nat
  dims : List RegDim
  fields : List RegField
  deriving DecidableEq, Repr

/-- A register of the map: its family and its indices, outermost first. -/
structure RegAt where
  reg : Reg
  idx : List Nat
  deriving DecidableEq, Repr

end Sys2Proof
end

