-- ==== Sys2Proof/Machine/RegTable.lean ====
section
/-! DEFINITION. The register tables of spec/ as data: for each register its offset in BAR0, the strides of its family, and its fields with bits, access, reset value and legal values. Reset values that depend on an index, a fuse or a command stand in the views of Machine/RegView.lean. -/

namespace Sys2Proof.Machine

/-- Rows of the register table of R62. -/
def regRowsR62 : List RegRow := [
  ⟨.modeCtl, 0x2000, [],
    [⟨31, 24, .rsv, 0, .any⟩, ⟨23, 16, .rw, 10, .range [(0, 100)]⟩, ⟨15, 3, .rsv, 0, .any⟩, ⟨2, 0, .rw, 0, .enum [(1, 5)]⟩]⟩,
  ⟨.modeStatus, 0x2004, [],
    [⟨31, 31, .ro, 1, .any⟩, ⟨30, 28, .ro, 0, .any⟩, ⟨27, 25, .ro, 0, .any⟩, ⟨24, 3, .rsv, 0, .any⟩, ⟨2, 2, .w1c, 0, .any⟩, ⟨1, 1, .w1c, 0, .any⟩, ⟨0, 0, .w1c, 0, .any⟩]⟩,
  ⟨.modeVigil, 0x2008, [],
    [⟨31, 10, .rsv, 0, .any⟩, ⟨9, 8, .rw, 0, .any⟩, ⟨7, 0, .rsv, 0, .any⟩]⟩,
  ⟨.modeVigilPorts, 0x200c, [],
    [⟨31, 0, .rw, 0, .any⟩]⟩,
  ⟨.modeVigilEng0, 0x2010, [],
    [⟨31, 0, .rw, 0, .any⟩]⟩,
  ⟨.modeVigilEng1, 0x2014, [],
    [⟨31, 16, .rsv, 0, .any⟩, ⟨15, 0, .rw, 0, .any⟩]⟩,
  ⟨.modeCalPorts, 0x2020, [⟨4, 0, 4⟩],
    [⟨31, 0, .rw, 0, .any⟩]⟩,
  ⟨.modeSafeCfg, 0x2030, [],
    [⟨31, 16, .rw, 100, .range [(1, 10000)]⟩, ⟨15, 8, .rsv, 0, .any⟩, ⟨7, 0, .rw, 100, .range [(60, 105)]⟩]⟩]

/-- Rows of the register table of R104. -/
def regRowsR104 : List RegRow := [
  ⟨.portCfg, 0x110000, [⟨1048576, 0, 4⟩, ⟨2048, 0, 32⟩],
    [⟨31, 28, .rsv, 0, .any⟩, ⟨27, 24, .rw, 0, .enum [(0, 8)]⟩, ⟨23, 23, .rw, 0, .any⟩, ⟨22, 22, .rw, 0, .any⟩, ⟨21, 21, .rw, 0, .any⟩, ⟨20, 20, .rw, 0, .any⟩, ⟨19, 19, .rw, 0, .any⟩, ⟨18, 16, .rw, 0, .any⟩, ⟨15, 0, .rsv, 0, .any⟩]⟩,
  ⟨.portStatus, 0x110004, [⟨1048576, 0, 4⟩, ⟨2048, 0, 32⟩],
    [⟨31, 31, .ro, 0, .any⟩, ⟨30, 30, .ro, 0, .any⟩, ⟨29, 29, .ro, 0, .any⟩, ⟨28, 28, .rsv, 0, .any⟩, ⟨27, 24, .ro, 0, .any⟩, ⟨23, 20, .ro, 0, .any⟩, ⟨19, 0, .rsv, 0, .any⟩]⟩,
  ⟨.portMacLo, 0x110008, [⟨1048576, 0, 4⟩, ⟨2048, 0, 32⟩],
    [⟨31, 0, .rw, 0, .any⟩]⟩,
  ⟨.portMacHi, 0x11000c, [⟨1048576, 0, 4⟩, ⟨2048, 0, 32⟩],
    [⟨31, 16, .rsv, 0, .any⟩, ⟨15, 0, .rw, 0, .any⟩]⟩,
  ⟨.portIpv4, 0x110010, [⟨1048576, 0, 4⟩, ⟨2048, 0, 32⟩],
    [⟨31, 0, .rw, 0, .any⟩]⟩,
  ⟨.portIpv6, 0x110014, [⟨1048576, 0, 4⟩, ⟨2048, 0, 32⟩, ⟨4, 0, 4⟩],
    [⟨31, 0, .rw, 0, .any⟩]⟩,
  ⟨.portUdp, 0x110024, [⟨1048576, 0, 4⟩, ⟨2048, 0, 32⟩],
    [⟨31, 16, .rsv, 0, .any⟩, ⟨15, 0, .rw, 50000, .enum [(0, 318), (321, 65535)]⟩]⟩,
  ⟨.portMaxlen, 0x110028, [⟨1048576, 0, 4⟩, ⟨2048, 0, 32⟩],
    [⟨31, 14, .rsv, 0, .any⟩, ⟨13, 0, .rw, 9216, .range [(1518, 9216)]⟩]⟩,
  ⟨.portLaunch, 0x11002c, [⟨1048576, 0, 4⟩, ⟨2048, 0, 32⟩],
    [⟨31, 7, .rsv, 0, .any⟩, ⟨6, 0, .ro, 0, .any⟩]⟩,
  ⟨.portCntLo, 0x110100, [⟨1048576, 0, 4⟩, ⟨2048, 0, 32⟩, ⟨8, 0, 16⟩],
    [⟨31, 0, .ro, 0, .any⟩]⟩,
  ⟨.portCntHi, 0x110104, [⟨1048576, 0, 4⟩, ⟨2048, 0, 32⟩, ⟨8, 0, 16⟩],
    [⟨31, 0, .ro, 0, .any⟩]⟩,
  ⟨.portChkLo, 0x110180, [⟨1048576, 0, 4⟩, ⟨2048, 0, 32⟩, ⟨8, 0, 16⟩],
    [⟨31, 0, .ro, 0, .any⟩]⟩]

/-- Rows of the register table of R104; PORT_CHK of c = 0 is a read-only register too. [DEDUCED, log 153] -/
def regRowsR104_1 : List RegRow := [
  ⟨.portChkHi, 0x110184, [⟨1048576, 0, 4⟩, ⟨2048, 0, 32⟩, ⟨8, 0, 16⟩],
    [⟨31, 0, .ro, 0, .any⟩]⟩,
  ⟨.portCap, 0x110200, [⟨1048576, 0, 4⟩, ⟨2048, 0, 32⟩, ⟨32, 1, 15⟩, ⟨4, 0, 8⟩],
    [⟨31, 0, .ro, 0, .any⟩]⟩,
  ⟨.portCapValid, 0x110400, [⟨1048576, 0, 4⟩, ⟨2048, 0, 32⟩],
    [⟨31, 16, .rsv, 0, .any⟩, ⟨15, 1, .w1c, 0, .any⟩, ⟨0, 0, .rsv, 0, .any⟩]⟩]

/-- Rows of the register table of R106. -/
def regRowsR106 : List RegRow := [
  ⟨.streamEnt0, 0x140000, [⟨1048576, 0, 4⟩, ⟨16, 0, 16384⟩],
    [⟨31, 31, .ro, 0, .any⟩, ⟨30, 30, .ro, 0, .any⟩, ⟨29, 29, .ro, 0, .any⟩, ⟨28, 28, .ro, 0, .any⟩, ⟨27, 25, .rsv, 0, .any⟩, ⟨24, 20, .ro, 0, .any⟩, ⟨19, 0, .ro, 0, .any⟩]⟩,
  ⟨.streamEnt1, 0x140004, [⟨1048576, 0, 4⟩, ⟨16, 0, 16384⟩],
    [⟨31, 0, .ro, 0, .any⟩]⟩,
  ⟨.streamEnt2, 0x140008, [⟨1048576, 0, 4⟩, ⟨16, 0, 16384⟩],
    [⟨31, 0, .ro, 0, .any⟩]⟩,
  ⟨.streamEnt3, 0x14000c, [⟨1048576, 0, 4⟩, ⟨16, 0, 16384⟩],
    [⟨31, 16, .ro, 0, .any⟩, ⟨15, 0, .ro, 0, .any⟩]⟩]

/-- Rows of the register table of R153. -/
def regRowsR153 : List RegRow := [
  ⟨.tbCtl, 0x10000, [⟨1024, 0, 8⟩],
    [⟨31, 28, .rsv, 0, .any⟩, ⟨27, 25, .rw, 0, .enum [(0, 4)]⟩, ⟨24, 24, .rw, 0, .any⟩, ⟨23, 17, .rw, 0, .range [(0, 7)]⟩, ⟨16, 0, .rsv, 0, .any⟩]⟩,
  ⟨.tbStatus, 0x10004, [⟨1024, 0, 8⟩],
    [⟨31, 30, .ro, 0, .any⟩, ⟨29, 29, .ro, 0, .any⟩, ⟨28, 28, .w1c, 0, .any⟩, ⟨27, 27, .w1c, 0, .any⟩, ⟨26, 26, .w1c, 0, .any⟩, ⟨25, 0, .rsv, 0, .any⟩]⟩,
  ⟨.tbNowLo, 0x10008, [⟨1024, 0, 8⟩],
    [⟨31, 0, .ro, 0, .any⟩]⟩,
  ⟨.tbNowHi, 0x1000c, [⟨1024, 0, 8⟩],
    [⟨31, 0, .ro, 0, .any⟩]⟩,
  ⟨.tbNowFrac, 0x10010, [⟨1024, 0, 8⟩],
    [⟨31, 16, .ro, 0, .any⟩, ⟨15, 0, .rsv, 0, .any⟩]⟩,
  ⟨.tbKp, 0x10014, [⟨1024, 0, 8⟩],
    [⟨31, 0, .rw, 45875, .any⟩]⟩,
  ⟨.tbKi, 0x10018, [⟨1024, 0, 8⟩],
    [⟨31, 0, .rw, 19661, .any⟩]⟩,
  ⟨.tbFreq, 0x1001c, [⟨1024, 0, 8⟩],
    [⟨31, 0, .ro, 0, .any⟩]⟩,
  ⟨.tbJumpLimit, 0x10020, [⟨1024, 0, 8⟩],
    [⟨31, 0, .rw, 1000, .range [(10, 1000000000)]⟩]⟩,
  ⟨.tbHoldTimeout, 0x10024, [⟨1024, 0, 8⟩],
    [⟨31, 16, .rsv, 0, .any⟩, ⟨15, 0, .rw, 4000, .range [(10, 60000)]⟩]⟩,
  ⟨.tbLock, 0x10028, [⟨1024, 0, 8⟩],
    [⟨31, 16, .rw, 100, .range [(1, 65535)]⟩, ⟨15, 0, .rsv, 0, .any⟩]⟩,
  ⟨.tbOfsLo, 0x10030, [⟨1024, 0, 8⟩],
    [⟨31, 0, .ro, 0, .any⟩]⟩]

/-- Rows of the register table of R153. -/
def regRowsR153_1 : List RegRow := [
  ⟨.tbOfsHi, 0x10034, [⟨1024, 0, 8⟩],
    [⟨31, 0, .ro, 0, .any⟩]⟩,
  ⟨.tbOfsFrac, 0x10038, [⟨1024, 0, 8⟩],
    [⟨31, 16, .ro, 0, .any⟩, ⟨15, 15, .ro, 0, .any⟩, ⟨14, 14, .ro, 0, .any⟩, ⟨13, 0, .rsv, 0, .any⟩]⟩,
  ⟨.tbOfsTimeLo, 0x10040, [⟨1024, 0, 8⟩],
    [⟨31, 0, .ro, 0, .any⟩]⟩,
  ⟨.tbOfsTimeHi, 0x10044, [⟨1024, 0, 8⟩],
    [⟨31, 0, .ro, 0, .any⟩]⟩,
  ⟨.tbRefusedLo, 0x10048, [⟨1024, 0, 8⟩],
    [⟨31, 0, .ro, 0, .any⟩]⟩,
  ⟨.tbRefusedHi, 0x1004c, [⟨1024, 0, 8⟩],
    [⟨31, 0, .ro, 0, .any⟩]⟩,
  ⟨.tbSteps, 0x10050, [⟨1024, 0, 8⟩],
    [⟨31, 0, .ro, 0, .any⟩]⟩,
  ⟨.tbTick, 0x10054, [⟨1024, 0, 8⟩],
    [⟨31, 0, .rw, 0, .any⟩]⟩,
  ⟨.tbTrigPeriodLo, 0x10058, [⟨1024, 0, 8⟩],
    [⟨31, 0, .rw, 0, .any⟩]⟩,
  ⟨.tbTrigPeriodHi, 0x1005c, [⟨1024, 0, 8⟩],
    [⟨31, 16, .rsv, 0, .any⟩, ⟨15, 0, .rw, 0, .any⟩]⟩,
  ⟨.tbTrigAnchorLo, 0x10060, [⟨1024, 0, 8⟩],
    [⟨31, 0, .rw, 0, .any⟩]⟩,
  ⟨.tbTrigAnchorHi, 0x10064, [⟨1024, 0, 8⟩],
    [⟨31, 0, .rw, 0, .any⟩]⟩]

/-- Rows of the register table of R153. -/
def regRowsR153_2 : List RegRow := [
  ⟨.tbTrigCtl, 0x10068, [⟨1024, 0, 8⟩],
    [⟨31, 16, .rw, 0, .any⟩, ⟨15, 0, .rsv, 0, .any⟩]⟩,
  ⟨.tbPtpId, 0x10070, [⟨1024, 0, 8⟩],
    [⟨31, 24, .rw, 0, .range [(0, 127)]⟩, ⟨23, 20, .rw, 0, .any⟩, ⟨19, 12, .rw, 0, .any⟩, ⟨11, 0, .rsv, 0, .any⟩]⟩,
  ⟨.tbPtpQual, 0x10074, [⟨1024, 0, 8⟩],
    [⟨31, 24, .rw, 128, .any⟩, ⟨23, 16, .rw, 128, .any⟩, ⟨15, 8, .rw, 248, .any⟩, ⟨7, 0, .rw, 254, .any⟩]⟩,
  ⟨.tbPtpVar, 0x10078, [⟨1024, 0, 8⟩],
    [⟨31, 16, .rsv, 0, .any⟩, ⟨15, 0, .rw, 65535, .any⟩]⟩,
  ⟨.tbUtc, 0x1007c, [⟨1024, 0, 8⟩],
    [⟨31, 18, .rsv, 0, .any⟩, ⟨17, 17, .ro, 0, .any⟩, ⟨16, 16, .ro, 0, .any⟩, ⟨15, 0, .ro, 0, .any⟩]⟩]

/-- Rows of the register table of R154. -/
def regRowsR154 : List RegRow := [
  ⟨.timeRefCtl, 0x12000, [],
    [⟨31, 2, .rsv, 0, .any⟩, ⟨1, 0, .rw, 0, .any⟩]⟩,
  ⟨.timeRefStatus, 0x12004, [],
    [⟨31, 31, .ro, 0, .any⟩, ⟨30, 30, .ro, 0, .any⟩, ⟨29, 29, .w1c, 0, .any⟩, ⟨28, 0, .rsv, 0, .any⟩]⟩,
  ⟨.timePpsCtl, 0x12400, [],
    [⟨31, 31, .rw, 0, .any⟩, ⟨30, 28, .rw, 0, .any⟩, ⟨27, 19, .rsv, 0, .any⟩, ⟨18, 0, .rw, 1000, .range [(1, 500000)]⟩]⟩,
  ⟨.timePpsInComp, 0x12404, [],
    [⟨31, 0, .rw, 0, .any⟩]⟩,
  ⟨.timePpsOutComp, 0x12408, [],
    [⟨31, 0, .rw, 0, .any⟩]⟩,
  ⟨.timePpsStatus, 0x1240c, [],
    [⟨31, 16, .ro, 0, .any⟩, ⟨15, 0, .ro, 0, .any⟩]⟩,
  ⟨.synCtl, 0x12800, [⟨256, 0, 4⟩],
    [⟨31, 31, .rw, 0, .any⟩, ⟨30, 28, .rw, 0, .any⟩, ⟨27, 0, .rsv, 0, .any⟩]⟩,
  ⟨.synPeriodLo, 0x12804, [⟨256, 0, 4⟩],
    [⟨31, 0, .rw, 0, .any⟩]⟩,
  ⟨.synPeriodHi, 0x12808, [⟨256, 0, 4⟩],
    [⟨31, 16, .rsv, 0, .any⟩, ⟨15, 0, .rw, 0, .any⟩]⟩,
  ⟨.synPhaseLo, 0x1280c, [⟨256, 0, 4⟩],
    [⟨31, 0, .rw, 0, .any⟩]⟩,
  ⟨.synPhaseHi, 0x12810, [⟨256, 0, 4⟩],
    [⟨31, 16, .rsv, 0, .any⟩, ⟨15, 0, .rw, 0, .any⟩]⟩,
  ⟨.synStatus, 0x12814, [⟨256, 0, 4⟩],
    [⟨31, 31, .ro, 0, .any⟩, ⟨30, 30, .ro, 0, .any⟩, ⟨29, 16, .rsv, 0, .any⟩, ⟨15, 0, .ro, 0, .any⟩]⟩]

/-- Rows of the register table of R155. -/
def regRowsR155 : List RegRow := [
  ⟨.ptpCtl, 0x14000, [⟨64, 0, 128⟩],
    [⟨31, 30, .rw, 0, .any⟩, ⟨29, 27, .rw, 0, .any⟩, ⟨26, 25, .rw, 0, .enum [(0, 2)]⟩, ⟨24, 23, .rw, 0, .enum [(0, 1)]⟩, ⟨22, 22, .rw, 0, .any⟩, ⟨21, 18, .rw, 0, .range [(0, 4), (9, 15)]⟩, ⟨17, 14, .rw, 1, .range [(0, 4), (13, 15)]⟩, ⟨13, 10, .rw, 0, .range [(0, 5), (9, 15)]⟩, ⟨9, 7, .rw, 3, .any⟩, ⟨6, 0, .rsv, 0, .any⟩]⟩,
  ⟨.ptpAsym, 0x14004, [⟨64, 0, 128⟩],
    [⟨31, 0, .rw, 0, .any⟩]⟩,
  ⟨.ptpPeer, 0x14008, [⟨64, 0, 128⟩, ⟨4, 0, 4⟩],
    [⟨31, 0, .rw, 0, .any⟩]⟩,
  ⟨.ptpStatus, 0x14018, [⟨64, 0, 128⟩],
    [⟨31, 28, .ro, 1, .any⟩, ⟨27, 16, .rsv, 0, .any⟩, ⟨15, 0, .ro, 0, .any⟩]⟩,
  ⟨.ptpMpdLo, 0x1401c, [⟨64, 0, 128⟩],
    [⟨31, 0, .ro, 0, .any⟩]⟩,
  ⟨.ptpMpdHi, 0x14020, [⟨64, 0, 128⟩],
    [⟨31, 0, .ro, 0, .any⟩]⟩]

/-- Rows of the register table of R191. -/
def regRowsR191 : List RegRow := [
  ⟨.engId, 0x180000, [⟨1048576, 0, 4⟩, ⟨1024, 0, 52⟩],
    [⟨31, 16, .rsv, 0, .any⟩, ⟨15, 15, .ro, 0, .any⟩, ⟨14, 14, .ro, 0, .any⟩, ⟨13, 8, .rsv, 0, .any⟩, ⟨7, 0, .ro, 0, .any⟩]⟩,
  ⟨.engStatus, 0x180004, [⟨1048576, 0, 4⟩, ⟨1024, 0, 52⟩],
    [⟨31, 31, .ro, 0, .any⟩, ⟨30, 30, .ro, 0, .any⟩, ⟨29, 29, .ro, 0, .any⟩, ⟨28, 28, .ro, 0, .any⟩, ⟨27, 27, .ro, 0, .any⟩, ⟨26, 21, .rsv, 0, .any⟩, ⟨20, 20, .ro, 0, .any⟩, ⟨19, 16, .ro, 0, .any⟩, ⟨15, 0, .rsv, 0, .any⟩]⟩,
  ⟨.engCfg, 0x180008, [⟨1048576, 0, 4⟩, ⟨1024, 0, 52⟩],
    [⟨31, 16, .rw, 50, .range [(1, 10000)]⟩, ⟨15, 0, .rsv, 0, .any⟩]⟩,
  ⟨.engDbgCtl, 0x18000c, [⟨1048576, 0, 4⟩, ⟨1024, 0, 52⟩],
    [⟨31, 31, .rw, 0, .any⟩, ⟨30, 30, .wo, 0, .any⟩, ⟨29, 29, .rw, 0, .any⟩, ⟨28, 28, .rsv, 0, .any⟩, ⟨27, 24, .rw, 0, .any⟩, ⟨23, 0, .rsv, 0, .any⟩]⟩,
  ⟨.engBp, 0x180010, [⟨1048576, 0, 4⟩, ⟨1024, 0, 52⟩, ⟨4, 0, 4⟩],
    [⟨31, 16, .rsv, 0, .any⟩, ⟨15, 0, .rw, 0, .any⟩]⟩,
  ⟨.engDbgAddr, 0x180020, [⟨1048576, 0, 4⟩, ⟨1024, 0, 52⟩],
    [⟨31, 28, .rw, 0, .enum [(0, 5)]⟩, ⟨27, 24, .rw, 0, .any⟩, ⟨23, 0, .rw, 0, .any⟩]⟩,
  ⟨.engDbgDataLo, 0x180024, [⟨1048576, 0, 4⟩, ⟨1024, 0, 52⟩],
    [⟨31, 0, .rw, 0, .any⟩]⟩,
  ⟨.engDbgDataHi, 0x180028, [⟨1048576, 0, 4⟩, ⟨1024, 0, 52⟩],
    [⟨31, 8, .rsv, 0, .any⟩, ⟨7, 4, .rw, 0, .any⟩, ⟨3, 0, .rw, 0, .any⟩]⟩,
  ⟨.engTaskStatus, 0x180100, [⟨1048576, 0, 4⟩, ⟨1024, 0, 52⟩, ⟨16, 0, 16⟩],
    [⟨31, 29, .ro, 0, .any⟩, ⟨28, 26, .ro, 0, .any⟩, ⟨25, 22, .ro, 0, .any⟩, ⟨21, 18, .ro, 0, .any⟩, ⟨17, 11, .ro, 0, .any⟩, ⟨10, 7, .ro, 0, .any⟩, ⟨6, 6, .ro, 0, .any⟩, ⟨5, 0, .rsv, 0, .any⟩]⟩,
  ⟨.engTaskPc, 0x180104, [⟨1048576, 0, 4⟩, ⟨1024, 0, 52⟩, ⟨16, 0, 16⟩],
    [⟨31, 31, .ro, 0, .any⟩, ⟨30, 16, .ro, 0, .any⟩, ⟨15, 0, .ro, 0, .any⟩]⟩,
  ⟨.engTaskTrap, 0x180108, [⟨1048576, 0, 4⟩, ⟨1024, 0, 52⟩, ⟨16, 0, 16⟩],
    [⟨31, 28, .ro, 0, .any⟩, ⟨27, 26, .ro, 0, .any⟩, ⟨25, 25, .ro, 0, .any⟩, ⟨24, 16, .rsv, 0, .any⟩, ⟨15, 0, .ro, 0, .any⟩]⟩,
  ⟨.engTaskDetail, 0x18010c, [⟨1048576, 0, 4⟩, ⟨1024, 0, 52⟩, ⟨16, 0, 16⟩],
    [⟨31, 0, .ro, 0, .any⟩]⟩]

/-- Rows of the register table of R191. -/
def regRowsR191_1 : List RegRow := [
  ⟨.engCntLo, 0x180200, [⟨1048576, 0, 4⟩, ⟨1024, 0, 52⟩, ⟨8, 0, 8⟩],
    [⟨31, 0, .ro, 0, .any⟩]⟩,
  ⟨.engCntHi, 0x180204, [⟨1048576, 0, 4⟩, ⟨1024, 0, 52⟩, ⟨8, 0, 8⟩],
    [⟨31, 0, .ro, 0, .any⟩]⟩]

/-- Rows of the register table of R275. -/
def regRowsR275 : List RegRow := [
  ⟨.qcuCtl, 0x1c0000, [⟨1048576, 0, 4⟩],
    [⟨31, 31, .rw, 1, .any⟩, ⟨30, 30, .rw, 1, .any⟩, ⟨29, 0, .rsv, 0, .any⟩]⟩,
  ⟨.qcuLag, 0x1c0004, [⟨1048576, 0, 4⟩],
    [⟨31, 0, .rw, 2000, .range [(100, 1000000)]⟩]⟩,
  ⟨.qcuClassEn, 0x1c0010, [⟨1048576, 0, 4⟩, ⟨4, 0, 8⟩],
    [⟨31, 0, .rw, 4294967295, .any⟩]⟩,
  ⟨.qcuCoal, 0x1c0030, [⟨1048576, 0, 4⟩],
    [⟨31, 16, .rsv, 0, .any⟩, ⟨15, 0, .rw, 0, .range [(0, 1000)]⟩]⟩,
  ⟨.qcuCoalEn, 0x1c0040, [⟨1048576, 0, 4⟩, ⟨4, 0, 8⟩],
    [⟨31, 0, .rw, 0, .any⟩]⟩,
  ⟨.qcuStatus, 0x1c0060, [⟨1048576, 0, 4⟩],
    [⟨31, 31, .w1c, 0, .any⟩, ⟨30, 30, .ro, 0, .any⟩, ⟨29, 11, .rsv, 0, .any⟩, ⟨10, 0, .ro, 0, .any⟩]⟩,
  ⟨.qcuLateCap, 0x1c0070, [⟨1048576, 0, 4⟩, ⟨4, 0, 4⟩],
    [⟨31, 0, .ro, 0, .any⟩]⟩,
  ⟨.qcuCntLo, 0x1c0100, [⟨1048576, 0, 4⟩, ⟨8, 0, 8⟩],
    [⟨31, 0, .ro, 0, .any⟩]⟩,
  ⟨.qcuCntHi, 0x1c0104, [⟨1048576, 0, 4⟩, ⟨8, 0, 8⟩],
    [⟨31, 0, .ro, 0, .any⟩]⟩]

/-- Rows of the register table of R277. -/
def regRowsR277 : List RegRow := [
  ⟨.ccuCtl, 0x80000, [],
    [⟨31, 31, .rw, 1, .any⟩, ⟨30, 0, .rsv, 0, .any⟩]⟩,
  ⟨.ccuTrignoLo, 0x80008, [],
    [⟨31, 0, .rw, 0, .any⟩]⟩,
  ⟨.ccuTrignoHi, 0x8000c, [],
    [⟨31, 16, .rsv, 0, .any⟩, ⟨15, 0, .rw, 0, .any⟩]⟩,
  ⟨.ccuLag, 0x80010, [],
    [⟨31, 0, .rw, 2000, .range [(100, 1000000)]⟩]⟩,
  ⟨.ccuStatus, 0x80014, [],
    [⟨31, 31, .ro, 0, .any⟩, ⟨30, 9, .rsv, 0, .any⟩, ⟨8, 0, .ro, 0, .any⟩]⟩,
  ⟨.ccuCntLo, 0x80100, [⟨8, 0, 16⟩],
    [⟨31, 0, .ro, 0, .any⟩]⟩,
  ⟨.ccuCntHi, 0x80104, [⟨8, 0, 16⟩],
    [⟨31, 0, .ro, 0, .any⟩]⟩,
  ⟨.condStatus, 0x81000, [⟨128, 0, 64⟩],
    [⟨31, 31, .ro, 0, .any⟩, ⟨30, 28, .ro, 0, .any⟩, ⟨27, 27, .ro, 0, .any⟩, ⟨26, 22, .ro, 0, .any⟩, ⟨21, 16, .rsv, 0, .any⟩, ⟨15, 0, .ro, 0, .any⟩]⟩,
  ⟨.condCntLo, 0x81040, [⟨128, 0, 64⟩, ⟨8, 0, 8⟩],
    [⟨31, 0, .ro, 0, .any⟩]⟩,
  ⟨.condCntHi, 0x81044, [⟨128, 0, 64⟩, ⟨8, 0, 8⟩],
    [⟨31, 0, .ro, 0, .any⟩]⟩]

/-- Rows of the register table of R279. -/
def regRowsR279 : List RegRow := [
  ⟨.trigInCtl, 0x70000, [⟨64, 0, 8⟩],
    [⟨31, 31, .rw, 0, .any⟩, ⟨30, 30, .rw, 0, .any⟩, ⟨29, 26, .rw, 0, .any⟩, ⟨25, 23, .rw, 0, .any⟩, ⟨22, 22, .wo, 0, .any⟩, ⟨21, 16, .rsv, 0, .any⟩, ⟨15, 0, .rw, 0, .any⟩]⟩,
  ⟨.trigInStuck, 0x70004, [⟨64, 0, 8⟩],
    [⟨31, 20, .rsv, 0, .any⟩, ⟨19, 0, .rw, 0, .range [(0, 1000000)]⟩]⟩,
  ⟨.trigInStatus, 0x70008, [⟨64, 0, 8⟩],
    [⟨31, 31, .ro, 0, .any⟩, ⟨30, 30, .ro, 0, .any⟩, ⟨29, 29, .w1c, 0, .any⟩, ⟨28, 28, .w1c, 0, .any⟩, ⟨27, 21, .ro, 0, .any⟩, ⟨20, 0, .rsv, 0, .any⟩]⟩,
  ⟨.trigInFifoLo, 0x7000c, [⟨64, 0, 8⟩],
    [⟨31, 0, .ro, 0, .any⟩]⟩,
  ⟨.trigInFifoHi, 0x70010, [⟨64, 0, 8⟩],
    [⟨31, 0, .ro, 0, .any⟩]⟩,
  ⟨.trigInFifoFrac, 0x70014, [⟨64, 0, 8⟩],
    [⟨31, 16, .ro, 0, .any⟩, ⟨15, 15, .ro, 0, .any⟩, ⟨14, 14, .ro, 0, .any⟩, ⟨13, 0, .rsv, 0, .any⟩]⟩,
  ⟨.trigInEdgesLo, 0x70018, [⟨64, 0, 8⟩],
    [⟨31, 0, .ro, 0, .any⟩]⟩,
  ⟨.trigInEdgesHi, 0x7001c, [⟨64, 0, 8⟩],
    [⟨31, 0, .ro, 0, .any⟩]⟩,
  ⟨.trigInIgnoredLo, 0x70020, [⟨64, 0, 8⟩],
    [⟨31, 0, .ro, 0, .any⟩]⟩,
  ⟨.trigInIgnoredHi, 0x70024, [⟨64, 0, 8⟩],
    [⟨31, 0, .ro, 0, .any⟩]⟩,
  ⟨.trigInStucksLo, 0x70028, [⟨64, 0, 8⟩],
    [⟨31, 0, .ro, 0, .any⟩]⟩,
  ⟨.trigInStucksHi, 0x7002c, [⟨64, 0, 8⟩],
    [⟨31, 0, .ro, 0, .any⟩]⟩]

/-- Rows of the register table of R279. -/
def regRowsR279_1 : List RegRow := [
  ⟨.trigFastCtl, 0x70400, [⟨32, 0, 8⟩],
    [⟨31, 31, .rw, 0, .any⟩, ⟨30, 0, .rsv, 0, .any⟩]⟩,
  ⟨.trigFastIn, 0x70404, [⟨32, 0, 8⟩],
    [⟨31, 24, .rw, 0, .any⟩, ⟨23, 16, .rw, 0, .any⟩, ⟨15, 12, .rw, 0, .any⟩, ⟨11, 8, .rw, 0, .any⟩, ⟨7, 4, .rsv, 0, .any⟩, ⟨3, 0, .rw, 1, .range [(1, 12)]⟩]⟩,
  ⟨.trigFastTime, 0x70408, [⟨32, 0, 8⟩],
    [⟨31, 24, .rw, 16, .range [(4, 255)]⟩, ⟨23, 16, .rw, 16, .range [(4, 255)]⟩, ⟨15, 8, .rw, 10, .range [(2, 255)]⟩, ⟨7, 0, .rw, 0, .any⟩]⟩,
  ⟨.trigFastDly, 0x7040c, [⟨32, 0, 8⟩],
    [⟨31, 8, .rsv, 0, .any⟩, ⟨7, 0, .rw, 0, .any⟩]⟩,
  ⟨.trigFastFiresLo, 0x70410, [⟨32, 0, 8⟩],
    [⟨31, 0, .ro, 0, .any⟩]⟩,
  ⟨.trigFastFiresHi, 0x70414, [⟨32, 0, 8⟩],
    [⟨31, 0, .ro, 0, .any⟩]⟩,
  ⟨.trigFastBlockedLo, 0x70418, [⟨32, 0, 8⟩],
    [⟨31, 0, .ro, 0, .any⟩]⟩,
  ⟨.trigFastBlockedHi, 0x7041c, [⟨32, 0, 8⟩],
    [⟨31, 0, .ro, 0, .any⟩]⟩,
  ⟨.trigStrbCtl, 0x70600, [⟨4, 0, 4⟩],
    [⟨31, 31, .rw, 0, .any⟩, ⟨30, 20, .rsv, 0, .any⟩, ⟨19, 0, .rw, 0, .any⟩]⟩,
  ⟨.trigOutCtl, 0x70800, [⟨16, 0, 8⟩],
    [⟨31, 31, .rw, 0, .any⟩, ⟨30, 30, .rw, 0, .any⟩, ⟨29, 27, .rw, 0, .enum [(0, 4)]⟩, ⟨26, 24, .rw, 0, .any⟩, ⟨23, 23, .rw, 0, .any⟩, ⟨22, 16, .rsv, 0, .any⟩, ⟨15, 0, .rw, 10, .range [(2, 65535)]⟩]⟩,
  ⟨.trigOutTamaskLo, 0x70804, [⟨16, 0, 8⟩],
    [⟨31, 0, .rw, 0, .any⟩]⟩,
  ⟨.trigOutTamaskHi, 0x70808, [⟨16, 0, 8⟩],
    [⟨31, 0, .rw, 0, .any⟩]⟩]

/-- Rows of the register table of R279. -/
def regRowsR279_2 : List RegRow := [
  ⟨.trigOutSkip, 0x7080c, [⟨16, 0, 8⟩],
    [⟨31, 5, .ro, 0, .any⟩, ⟨4, 0, .ro, 0, .any⟩]⟩]

/-- Rows of the register table of R304. -/
def regRowsR304 : List RegRow := [
  ⟨.ccuSysCtl, 0x84000, [],
    [⟨31, 31, .rw, 0, .any⟩, ⟨30, 30, .rw, 0, .any⟩, ⟨29, 29, .rw, 0, .any⟩, ⟨28, 28, .rw, 0, .any⟩, ⟨27, 24, .rsv, 0, .any⟩, ⟨23, 16, .rw, 0, .range [(0, 100)]⟩, ⟨15, 0, .rsv, 0, .any⟩]⟩,
  ⟨.ccuSysId, 0x84004, [],
    [⟨31, 31, .rw, 0, .any⟩, ⟨30, 12, .rsv, 0, .any⟩, ⟨11, 0, .rw, 0, .any⟩]⟩,
  ⟨.ccuSysPrimary, 0x84008, [],
    [⟨31, 31, .rw, 0, .any⟩, ⟨30, 30, .ro, 0, .any⟩, ⟨29, 29, .ro, 0, .any⟩, ⟨28, 12, .rsv, 0, .any⟩, ⟨11, 0, .rw, 0, .any⟩]⟩,
  ⟨.ccuSysTiming, 0x8400c, [],
    [⟨31, 16, .rw, 10, .range [(1, 1000)]⟩, ⟨15, 0, .rw, 100, .range [(10, 10000)]⟩]⟩,
  ⟨.ccuSysAge, 0x84010, [],
    [⟨31, 0, .rw, 100000, .range [(1000, 1000000000)]⟩]⟩,
  ⟨.ccuSysTtl, 0x84014, [],
    [⟨31, 4, .rsv, 0, .any⟩, ⟨3, 0, .rw, 8, .range [(1, 15)]⟩]⟩,
  ⟨.ccuSysArb, 0x84020, [⟨4, 0, 4⟩],
    [⟨31, 31, .rw, 0, .any⟩, ⟨30, 30, .ro, 0, .any⟩, ⟨29, 12, .rsv, 0, .any⟩, ⟨11, 0, .rw, 0, .any⟩]⟩,
  ⟨.ccuSysExport, 0x84040, [⟨4, 0, 8⟩],
    [⟨31, 0, .rw, 0, .any⟩]⟩,
  ⟨.ccuSysTaExportLo, 0x84060, [],
    [⟨31, 0, .rw, 0, .any⟩]⟩,
  ⟨.ccuSysTaExportHi, 0x84064, [],
    [⟨31, 0, .rw, 0, .any⟩]⟩,
  ⟨.ccuSysTaEvbLo, 0x84068, [],
    [⟨31, 0, .rw, 0, .any⟩]⟩,
  ⟨.ccuSysTaEvbHi, 0x8406c, [],
    [⟨31, 0, .rw, 0, .any⟩]⟩]

/-- Rows of the register table of R304. -/
def regRowsR304_1 : List RegRow := [
  ⟨.ccuSysTree, 0x84080, [⟨4, 0, 4⟩],
    [⟨31, 0, .rw, 0, .any⟩]⟩,
  ⟨.ccuSysCntLo, 0x84100, [⟨8, 0, 21⟩],
    [⟨31, 0, .ro, 0, .any⟩]⟩,
  ⟨.ccuSysCntHi, 0x84104, [⟨8, 0, 21⟩],
    [⟨31, 0, .ro, 0, .any⟩]⟩,
  ⟨.ccuSysPeerLo, 0x84400, [⟨8, 0, 128⟩],
    [⟨31, 0, .rw, 0, .any⟩]⟩,
  ⟨.ccuSysPeerHi, 0x84404, [⟨8, 0, 128⟩],
    [⟨31, 31, .rw, 0, .any⟩, ⟨30, 28, .rsv, 0, .any⟩, ⟨27, 16, .rw, 0, .any⟩, ⟨15, 0, .rw, 0, .any⟩]⟩,
  ⟨.ccuSysLink, 0x84800, [⟨4, 0, 128⟩],
    [⟨31, 31, .ro, 0, .any⟩, ⟨30, 30, .w1c, 0, .any⟩, ⟨29, 29, .w1c, 0, .any⟩, ⟨28, 28, .w1c, 0, .any⟩, ⟨27, 16, .ro, 0, .any⟩, ⟨15, 14, .ro, 0, .any⟩, ⟨13, 13, .ro, 0, .any⟩, ⟨12, 0, .rsv, 0, .any⟩]⟩,
  ⟨.ccuSysRoute, 0x88000, [⟨4, 0, 4096⟩],
    [⟨31, 31, .rw, 0, .any⟩, ⟨30, 24, .rw, 0, .any⟩, ⟨23, 23, .rw, 0, .any⟩, ⟨22, 16, .rw, 0, .any⟩, ⟨15, 0, .rsv, 0, .any⟩]⟩]

/-- Rows of the register table of R341. -/
def regRowsR341 : List RegRow := [
  ⟨.histStatus, 0x1d0000, [⟨1048576, 0, 4⟩],
    [⟨31, 30, .ro, 0, .any⟩, ⟨29, 26, .ro, 0, .any⟩, ⟨25, 25, .w1c, 0, .any⟩, ⟨24, 12, .rsv, 0, .any⟩, ⟨11, 0, .ro, 0, .any⟩]⟩,
  ⟨.histFree, 0x1d0004, [⟨1048576, 0, 4⟩],
    [⟨31, 19, .rsv, 0, .any⟩, ⟨18, 0, .ro, 0, .any⟩]⟩,
  ⟨.histReserved, 0x1d0008, [⟨1048576, 0, 4⟩],
    [⟨31, 19, .rsv, 0, .any⟩, ⟨18, 0, .ro, 0, .any⟩]⟩,
  ⟨.histOldestLo, 0x1d0010, [⟨1048576, 0, 4⟩],
    [⟨31, 0, .ro, 0, .any⟩]⟩,
  ⟨.histOldestHi, 0x1d0014, [⟨1048576, 0, 4⟩],
    [⟨31, 0, .ro, 0, .any⟩]⟩,
  ⟨.histCntLo, 0x1d0100, [⟨1048576, 0, 4⟩, ⟨8, 0, 16⟩],
    [⟨31, 0, .ro, 0, .any⟩]⟩,
  ⟨.histCntHi, 0x1d0104, [⟨1048576, 0, 4⟩, ⟨8, 0, 16⟩],
    [⟨31, 0, .ro, 0, .any⟩]⟩]

/-- Rows of the register table of R342. -/
def regRowsR342 : List RegRow := [
  ⟨.evbCtl, 0x1e0000, [⟨1048576, 0, 4⟩],
    [⟨31, 16, .rsv, 0, .any⟩, ⟨15, 0, .rw, 1, .range [(1, 1000)]⟩]⟩,
  ⟨.evbStageMax, 0x1e0004, [⟨1048576, 0, 4⟩],
    [⟨31, 5, .rsv, 0, .any⟩, ⟨4, 0, .rw, 8, .range [(1, 28)]⟩]⟩,
  ⟨.evbAttachHold, 0x1e0008, [⟨1048576, 0, 4⟩],
    [⟨31, 0, .rw, 10000, .range [(1, 1000000)]⟩]⟩,
  ⟨.evbStatus, 0x1e000c, [⟨1048576, 0, 4⟩],
    [⟨31, 25, .ro, 0, .any⟩, ⟨24, 21, .rsv, 0, .any⟩, ⟨20, 0, .ro, 0, .any⟩]⟩,
  ⟨.evbBufFault0, 0x1e0010, [⟨1048576, 0, 4⟩],
    [⟨31, 24, .ro, 0, .any⟩, ⟨23, 0, .ro, 0, .any⟩]⟩,
  ⟨.evbBufFault1, 0x1e0014, [⟨1048576, 0, 4⟩],
    [⟨31, 28, .rsv, 0, .any⟩, ⟨27, 16, .ro, 0, .any⟩, ⟨15, 0, .ro, 0, .any⟩]⟩,
  ⟨.evbBufFault2, 0x1e0018, [⟨1048576, 0, 4⟩],
    [⟨31, 28, .rsv, 0, .any⟩, ⟨27, 16, .ro, 0, .any⟩, ⟨15, 0, .ro, 0, .any⟩]⟩,
  ⟨.evbBufFaultValid, 0x1e001c, [⟨1048576, 0, 4⟩],
    [⟨31, 1, .rsv, 0, .any⟩, ⟨0, 0, .w1c, 0, .any⟩]⟩,
  ⟨.evbCntLo, 0x1e0100, [⟨1048576, 0, 4⟩, ⟨8, 0, 18⟩],
    [⟨31, 0, .ro, 0, .any⟩]⟩,
  ⟨.evbCntHi, 0x1e0104, [⟨1048576, 0, 4⟩, ⟨8, 0, 18⟩],
    [⟨31, 0, .ro, 0, .any⟩]⟩]

/-- Rows of the register table of R379. -/
def regRowsR379 : List RegRow := [
  ⟨.hostLink, 0x20004, [],
    [⟨31, 31, .ro, 0, .any⟩, ⟨30, 30, .ro, 0, .any⟩, ⟨29, 29, .ro, 0, .any⟩, ⟨28, 28, .ro, 0, .any⟩, ⟨27, 24, .ro, 0, .any⟩, ⟨23, 19, .ro, 0, .any⟩, ⟨18, 0, .rsv, 0, .any⟩]⟩,
  ⟨.hostStatus, 0x20008, [],
    [⟨31, 31, .w1c, 0, .any⟩, ⟨30, 0, .rsv, 0, .any⟩]⟩,
  ⟨.fnCtl, 0x20100, [⟨64, 0, 8⟩],
    [⟨31, 24, .rw, 0, .any⟩, ⟨23, 23, .rw, 0, .any⟩, ⟨22, 0, .rsv, 0, .any⟩]⟩,
  ⟨.fnPoll, 0x20104, [⟨64, 0, 8⟩],
    [⟨31, 27, .rsv, 0, .any⟩, ⟨26, 0, .rw, 1000, .range [(250, 100000000)]⟩]⟩,
  ⟨.fnDbLo, 0x20108, [⟨64, 0, 8⟩],
    [⟨31, 12, .rw, 0, .any⟩, ⟨11, 0, .rsv, 0, .any⟩]⟩,
  ⟨.fnDbHi, 0x2010c, [⟨64, 0, 8⟩],
    [⟨31, 0, .rw, 0, .any⟩]⟩,
  ⟨.fnShadowLo, 0x20110, [⟨64, 0, 8⟩],
    [⟨31, 12, .rw, 0, .any⟩, ⟨11, 0, .rsv, 0, .any⟩]⟩,
  ⟨.fnShadowHi, 0x20114, [⟨64, 0, 8⟩],
    [⟨31, 0, .rw, 0, .any⟩]⟩,
  ⟨.fnPerm, 0x20118, [⟨64, 0, 8⟩],
    [⟨31, 6, .rsv, 0, .any⟩, ⟨5, 0, .rw, 0, .any⟩]⟩,
  ⟨.fnAlloc, 0x2011c, [⟨64, 0, 8⟩],
    [⟨31, 25, .rw, 0, .range [(0, 64)]⟩, ⟨24, 19, .rw, 0, .range [(0, 32)]⟩, ⟨18, 13, .rw, 0, .range [(0, 32)]⟩, ⟨12, 4, .rw, 0, .range [(0, 256)]⟩, ⟨3, 0, .rsv, 0, .any⟩]⟩,
  ⟨.fnStatus, 0x20120, [⟨64, 0, 8⟩],
    [⟨31, 31, .ro, 0, .any⟩, ⟨30, 30, .ro, 0, .any⟩, ⟨29, 17, .rsv, 0, .any⟩, ⟨16, 8, .ro, 0, .any⟩, ⟨7, 0, .ro, 0, .any⟩]⟩,
  ⟨.fnFaultOfs, 0x20124, [⟨64, 0, 8⟩],
    [⟨31, 0, .ro, 0, .any⟩]⟩]

/-- Rows of the register table of R379. -/
def regRowsR379_1 : List RegRow := [
  ⟨.fnFaultVal, 0x20128, [⟨64, 0, 8⟩],
    [⟨31, 0, .ro, 0, .any⟩]⟩]

/-- Rows of the register table of R380. -/
def regRowsR380 : List RegRow := [
  ⟨.ringBaseLo, 0x28000, [⟨4096, 0, 8⟩, ⟨16, 0, 193⟩],
    [⟨31, 12, .rw, 0, .any⟩, ⟨11, 0, .rsv, 0, .any⟩]⟩,
  ⟨.ringBaseHi, 0x28004, [⟨4096, 0, 8⟩, ⟨16, 0, 193⟩],
    [⟨31, 0, .rw, 0, .any⟩]⟩,
  ⟨.ringCtl, 0x28008, [⟨4096, 0, 8⟩, ⟨16, 0, 193⟩],
    [⟨31, 31, .rw, 0, .any⟩, ⟨30, 30, .w1s, 0, .any⟩, ⟨29, 25, .rw, 4, .range [(4, 16)]⟩, ⟨24, 19, .rw, 0, .any⟩, ⟨18, 11, .rw, 0, .any⟩, ⟨10, 10, .rw, 0, .any⟩, ⟨9, 0, .rsv, 0, .any⟩]⟩,
  ⟨.ringCoal, 0x2800c, [⟨4096, 0, 8⟩, ⟨16, 0, 193⟩],
    [⟨31, 24, .rw, 0, .any⟩, ⟨23, 16, .rsv, 0, .any⟩, ⟨15, 0, .rw, 0, .any⟩]⟩]

/-- Rows of the register table of R406. -/
def regRowsR406 : List RegRow := [
  ⟨.jrnlHeadLo, 0x30000, [],
    [⟨31, 0, .ro, 0, .any⟩]⟩,
  ⟨.jrnlHeadHi, 0x30004, [],
    [⟨31, 0, .ro, 0, .any⟩]⟩,
  ⟨.jrnlEpoch, 0x30008, [],
    [⟨31, 0, .ro, 0, .any⟩]⟩,
  ⟨.jrnlStatus, 0x3000c, [],
    [⟨31, 13, .rsv, 0, .any⟩, ⟨12, 0, .ro, 0, .any⟩]⟩]

/-- Rows of the register table of R424. -/
def regRowsR424 : List RegRow := [
  ⟨.paceCtl, 0x50000, [],
    [⟨31, 31, .rw, 0, .any⟩, ⟨30, 30, .rw, 1, .any⟩, ⟨29, 16, .rsv, 0, .any⟩, ⟨15, 0, .rw, 100, .range [(10, 10000)]⟩]⟩,
  ⟨.paceStatus, 0x50004, [],
    [⟨31, 31, .w1c, 0, .any⟩, ⟨30, 30, .w1c, 0, .any⟩, ⟨29, 29, .w1c, 0, .any⟩, ⟨28, 5, .rsv, 0, .any⟩, ⟨4, 0, .ro, 0, .any⟩]⟩,
  ⟨.paceRailCfg, 0x50100, [⟨32, 0, 5⟩],
    [⟨31, 31, .rw, 0, .any⟩, ⟨30, 26, .rsv, 0, .any⟩, ⟨25, 16, .rw, 900, .range [(600, 900)]⟩, ⟨15, 10, .rsv, 0, .any⟩, ⟨9, 0, .rw, 700, .range [(600, 900)]⟩]⟩,
  ⟨.paceRailTarget, 0x50104, [⟨32, 0, 5⟩],
    [⟨31, 16, .rw, 20, .range [(1, 65535)]⟩, ⟨15, 0, .rw, 5, .any⟩]⟩,
  ⟨.paceRailSet, 0x50108, [⟨32, 0, 5⟩],
    [⟨31, 10, .rsv, 0, .any⟩, ⟨9, 0, .rw, 750, .any⟩]⟩,
  ⟨.paceRailStatus, 0x5010c, [⟨32, 0, 5⟩],
    [⟨31, 26, .rsv, 0, .any⟩, ⟨25, 16, .ro, 0, .any⟩, ⟨15, 10, .rsv, 0, .any⟩, ⟨9, 0, .ro, 0, .any⟩]⟩,
  ⟨.paceRailBacklog, 0x50110, [⟨32, 0, 5⟩],
    [⟨31, 0, .ro, 0, .any⟩]⟩,
  ⟨.paceRailPmbus, 0x50114, [⟨32, 0, 5⟩],
    [⟨31, 15, .rsv, 0, .any⟩, ⟨14, 8, .rw, 0, .any⟩, ⟨7, 0, .rw, 0, .any⟩]⟩,
  ⟨.paceRailEnergyLo, 0x50118, [⟨32, 0, 5⟩],
    [⟨31, 0, .ro, 0, .any⟩]⟩,
  ⟨.paceRailEnergyHi, 0x5011c, [⟨32, 0, 5⟩],
    [⟨31, 0, .ro, 0, .any⟩]⟩,
  ⟨.paceMonPmbus, 0x50200, [⟨16, 0, 3⟩],
    [⟨31, 31, .rw, 0, .any⟩, ⟨30, 15, .rsv, 0, .any⟩, ⟨14, 8, .rw, 0, .any⟩, ⟨7, 0, .rw, 0, .any⟩]⟩,
  ⟨.paceMonEnergyLo, 0x50208, [⟨16, 0, 3⟩],
    [⟨31, 0, .ro, 0, .any⟩]⟩]

/-- Rows of the register table of R424. -/
def regRowsR424_1 : List RegRow := [
  ⟨.paceMonEnergyHi, 0x5020c, [⟨16, 0, 3⟩],
    [⟨31, 0, .ro, 0, .any⟩]⟩,
  ⟨.fabAdmit, 0x50400, [⟨4, 0, 4⟩],
    [⟨31, 16, .rw, 0, .range [(1, 65535)]⟩, ⟨15, 8, .rsv, 0, .any⟩, ⟨7, 0, .rw, 0, .range [(1, 255)]⟩]⟩,
  ⟨.fabStatus, 0x50410, [],
    [⟨31, 31, .ro, 0, .any⟩, ⟨30, 0, .rsv, 0, .any⟩]⟩,
  ⟨.paceCntLo, 0x50500, [⟨8, 0, 15⟩],
    [⟨31, 0, .ro, 0, .any⟩]⟩,
  ⟨.paceCntHi, 0x50504, [⟨8, 0, 15⟩],
    [⟨31, 0, .ro, 0, .any⟩]⟩]

/-- Rows of the register table of R452. -/
def regRowsR452 : List RegRow := [
  ⟨.repairCtl, 0x60000, [],
    [⟨31, 31, .rw, 1, .any⟩, ⟨30, 30, .rw, 1, .any⟩, ⟨29, 29, .rw, 1, .any⟩, ⟨28, 28, .rw, 1, .any⟩, ⟨27, 27, .rw, 1, .any⟩, ⟨26, 0, .rsv, 0, .any⟩]⟩,
  ⟨.repairStatus, 0x60004, [],
    [⟨31, 31, .ro, 0, .any⟩, ⟨30, 30, .ro, 0, .any⟩, ⟨29, 29, .w1c, 0, .any⟩, ⟨28, 28, .w1c, 0, .any⟩, ⟨27, 27, .w1c, 0, .any⟩, ⟨26, 20, .ro, 0, .any⟩, ⟨19, 10, .ro, 0, .any⟩, ⟨9, 0, .rsv, 0, .any⟩]⟩,
  ⟨.repairSeq, 0x60008, [],
    [⟨31, 0, .ro, 0, .any⟩]⟩,
  ⟨.repairThreshEng, 0x60010, [],
    [⟨31, 16, .rw, 80, .any⟩, ⟨15, 0, .rw, 150, .any⟩]⟩,
  ⟨.repairThreshLane, 0x60014, [],
    [⟨31, 16, .rw, 25, .any⟩, ⟨15, 0, .rw, 15, .any⟩]⟩,
  ⟨.repairThreshHbm, 0x60018, [],
    [⟨31, 16, .rw, 100, .any⟩, ⟨15, 0, .rw, 1000, .any⟩]⟩,
  ⟨.repairThreshSram, 0x6001c, [],
    [⟨31, 16, .rw, 50, .any⟩, ⟨15, 0, .rw, 500, .any⟩]⟩,
  ⟨.repairActStew, 0x60030, [],
    [⟨31, 31, .ro, 0, .any⟩, ⟨30, 30, .ro, 0, .any⟩, ⟨29, 27, .ro, 0, .any⟩, ⟨26, 25, .ro, 0, .any⟩, ⟨24, 16, .ro, 0, .any⟩, ⟨15, 0, .ro, 0, .any⟩]⟩,
  ⟨.repairAct, 0x60040, [⟨32, 0, 4⟩, ⟨4, 0, 7⟩],
    [⟨31, 31, .ro, 0, .any⟩, ⟨30, 30, .ro, 0, .any⟩, ⟨29, 27, .ro, 0, .any⟩, ⟨26, 25, .ro, 0, .any⟩, ⟨24, 16, .ro, 0, .any⟩, ⟨15, 0, .ro, 0, .any⟩]⟩,
  ⟨.repairLmap, 0x60100, [⟨4, 0, 192⟩],
    [⟨31, 31, .ro, 0, .any⟩, ⟨30, 6, .rsv, 0, .any⟩, ⟨5, 0, .ro, 0, .any⟩]⟩,
  ⟨.repairStew, 0x60400, [],
    [⟨31, 31, .ro, 0, .any⟩, ⟨30, 0, .rsv, 0, .any⟩]⟩,
  ⟨.repairSlice, 0x60410, [⟨32, 0, 4⟩, ⟨4, 0, 8⟩],
    [⟨31, 31, .ro, 0, .any⟩, ⟨30, 4, .rsv, 0, .any⟩, ⟨3, 0, .ro, 0, .any⟩]⟩]

/-- Rows of the register table of R452. -/
def regRowsR452_1 : List RegRow := [
  ⟨.repairPch, 0x60500, [⟨4, 0, 4⟩],
    [⟨31, 31, .ro, 0, .any⟩, ⟨30, 30, .ro, 0, .any⟩, ⟨29, 10, .rsv, 0, .any⟩, ⟨9, 5, .ro, 0, .any⟩, ⟨4, 0, .ro, 0, .any⟩]⟩,
  ⟨.repairLog, 0x60600, [],
    [⟨31, 0, .ro, 0, .any⟩]⟩,
  ⟨.repairCntLo, 0x60800, [⟨8, 0, 10⟩],
    [⟨31, 0, .ro, 0, .any⟩]⟩,
  ⟨.repairCntHi, 0x60804, [⟨8, 0, 10⟩],
    [⟨31, 0, .ro, 0, .any⟩]⟩]

/-- Rows of the register table of R453. -/
def regRowsR453 : List RegRow := [
  ⟨.repairEngWear, 0x61000, [⟨4, 0, 210⟩],
    [⟨31, 31, .ro, 0, .any⟩, ⟨30, 30, .ro, 0, .any⟩, ⟨29, 29, .ro, 0, .any⟩, ⟨28, 16, .rsv, 0, .any⟩, ⟨15, 0, .ro, 0, .any⟩]⟩,
  ⟨.repairLaneWear, 0x62000, [⟨4, 0, 544⟩],
    [⟨31, 31, .ro, 0, .any⟩, ⟨30, 30, .ro, 0, .any⟩, ⟨29, 8, .rsv, 0, .any⟩, ⟨7, 0, .ro, 0, .any⟩]⟩,
  ⟨.repairPchCorr, 0x63000, [⟨8, 0, 128⟩],
    [⟨31, 0, .ro, 0, .any⟩]⟩,
  ⟨.repairPchFlags, 0x63004, [⟨8, 0, 128⟩],
    [⟨31, 16, .ro, 0, .any⟩, ⟨15, 3, .rsv, 0, .any⟩, ⟨2, 2, .ro, 0, .any⟩, ⟨1, 1, .ro, 0, .any⟩, ⟨0, 0, .ro, 0, .any⟩]⟩,
  ⟨.repairBankWear, 0x63800, [⟨4, 0, 306⟩],
    [⟨31, 31, .ro, 0, .any⟩, ⟨30, 30, .ro, 0, .any⟩, ⟨29, 29, .ro, 0, .any⟩, ⟨28, 16, .rsv, 0, .any⟩, ⟨15, 0, .ro, 0, .any⟩]⟩]

/-- Rows of the register table of R481. -/
def regRowsR481 : List RegRow := [
  ⟨.rstCause, 0x1000, [],
    [⟨31, 11, .rsv, 0, .any⟩, ⟨10, 10, .w1c, 0, .any⟩, ⟨9, 9, .w1c, 0, .any⟩, ⟨8, 8, .w1c, 0, .any⟩, ⟨7, 7, .w1c, 0, .any⟩, ⟨6, 6, .w1c, 0, .any⟩, ⟨5, 5, .w1c, 0, .any⟩, ⟨4, 4, .w1c, 0, .any⟩, ⟨3, 3, .w1c, 0, .any⟩, ⟨2, 2, .w1c, 0, .any⟩, ⟨1, 1, .w1c, 0, .any⟩, ⟨0, 0, .w1c, 1, .any⟩]⟩,
  ⟨.rstStatus, 0x1004, [],
    [⟨31, 31, .ro, 0, .any⟩, ⟨30, 28, .ro, 0, .any⟩, ⟨27, 24, .ro, 0, .any⟩, ⟨23, 23, .ro, 0, .any⟩, ⟨22, 22, .ro, 0, .any⟩, ⟨21, 21, .ro, 0, .any⟩, ⟨20, 0, .rsv, 0, .any⟩]⟩,
  ⟨.rstSw, 0x1008, [],
    [⟨31, 31, .rsv, 0, .any⟩, ⟨30, 28, .wo, 0, .enum [(1, 4)]⟩, ⟨27, 8, .rsv, 0, .any⟩, ⟨7, 0, .wo, 0, .any⟩]⟩,
  ⟨.rstFlr, 0x100c, [],
    [⟨31, 8, .rsv, 0, .any⟩, ⟨7, 0, .w1c, 0, .any⟩]⟩,
  ⟨.rstL3, 0x1010, [],
    [⟨31, 4, .rsv, 0, .any⟩, ⟨3, 0, .w1c, 0, .any⟩]⟩,
  ⟨.rstL4, 0x1014, [],
    [⟨31, 31, .w1c, 0, .any⟩, ⟨30, 8, .rsv, 0, .any⟩, ⟨7, 0, .ro, 0, .any⟩]⟩,
  ⟨.rstLastUs, 0x1018, [],
    [⟨31, 0, .ro, 0, .any⟩]⟩,
  ⟨.rstCntLo, 0x1100, [⟨8, 0, 9⟩],
    [⟨31, 0, .ro, 0, .any⟩]⟩,
  ⟨.rstCntHi, 0x1104, [⟨8, 0, 9⟩],
    [⟨31, 0, .ro, 0, .any⟩]⟩]

/-- Rows of the register table of R483. -/
def regRowsR483 : List RegRow := [
  ⟨.fuseRstMap, 0x3040, [],
    [⟨31, 12, .rsv, 0, .any⟩, ⟨11, 10, .ro, 0, .any⟩, ⟨9, 8, .ro, 0, .any⟩, ⟨7, 6, .ro, 0, .any⟩, ⟨5, 4, .ro, 0, .any⟩, ⟨3, 2, .ro, 0, .any⟩, ⟨1, 0, .ro, 0, .any⟩]⟩,
  ⟨.fuseRstTiming, 0x3044, [],
    [⟨31, 20, .rsv, 0, .any⟩, ⟨19, 8, .ro, 0, .any⟩, ⟨7, 7, .rsv, 0, .any⟩, ⟨6, 0, .ro, 0, .any⟩]⟩,
  ⟨.fuseKey, 0x3048, [],
    [⟨31, 4, .rsv, 0, .any⟩, ⟨3, 3, .ro, 0, .any⟩, ⟨2, 2, .ro, 0, .any⟩, ⟨1, 1, .ro, 0, .any⟩, ⟨0, 0, .ro, 0, .any⟩]⟩,
  ⟨.fuseTherm, 0x304c, [],
    [⟨31, 8, .rsv, 0, .any⟩, ⟨7, 0, .ro, 0, .any⟩]⟩,
  ⟨.fuseKeyhash, 0x3080, [⟨48, 0, 2⟩, ⟨4, 0, 12⟩],
    [⟨31, 0, .ro, 0, .any⟩]⟩]

/-- Rows of the register table of R503. -/
def regRowsR503 : List RegRow := [
  ⟨.spiCtl, 0x40000, [⟨4096, 0, 2⟩],
    [⟨31, 31, .rw, 0, .any⟩, ⟨30, 30, .rw, 0, .any⟩, ⟨29, 29, .rw, 0, .any⟩, ⟨28, 27, .rw, 0, .enum [(0, 2)]⟩, ⟨26, 26, .wo, 0, .any⟩, ⟨25, 25, .wo, 0, .any⟩, ⟨24, 20, .rsv, 0, .any⟩, ⟨19, 16, .rw, 0, .any⟩, ⟨15, 0, .rsv, 0, .any⟩]⟩,
  ⟨.spiClk, 0x40004, [⟨4096, 0, 2⟩],
    [⟨31, 31, .rw, 0, .any⟩, ⟨30, 12, .rsv, 0, .any⟩, ⟨11, 0, .rw, 64, .any⟩]⟩,
  ⟨.spiLen, 0x40008, [⟨4096, 0, 2⟩],
    [⟨31, 13, .rsv, 0, .any⟩, ⟨12, 0, .rw, 8, .range [(1, 4096)]⟩]⟩,
  ⟨.spiDly, 0x4000c, [⟨4096, 0, 2⟩],
    [⟨31, 24, .rsv, 0, .any⟩, ⟨23, 16, .rw, 1, .any⟩, ⟨15, 8, .rw, 1, .any⟩, ⟨7, 0, .rw, 2, .any⟩]⟩,
  ⟨.spiCmd, 0x40010, [⟨4096, 0, 2⟩],
    [⟨31, 31, .wo, 0, .any⟩, ⟨30, 30, .wo, 0, .any⟩, ⟨29, 29, .wo, 0, .any⟩, ⟨28, 28, .wo, 0, .any⟩, ⟨27, 26, .rsv, 0, .any⟩, ⟨25, 24, .wo, 0, .any⟩, ⟨23, 0, .rsv, 0, .any⟩]⟩,
  ⟨.spiStatus, 0x40014, [⟨4096, 0, 2⟩],
    [⟨31, 31, .ro, 0, .any⟩, ⟨30, 30, .ro, 0, .any⟩, ⟨29, 29, .w1c, 0, .any⟩, ⟨28, 28, .w1c, 0, .any⟩, ⟨27, 27, .w1c, 0, .any⟩, ⟨26, 20, .ro, 0, .any⟩, ⟨19, 13, .ro, 0, .any⟩, ⟨12, 0, .rsv, 0, .any⟩]⟩,
  ⟨.spiTx, 0x40018, [⟨4096, 0, 2⟩],
    [⟨31, 0, .wo, 0, .any⟩]⟩,
  ⟨.spiRx, 0x4001c, [⟨4096, 0, 2⟩],
    [⟨31, 0, .ro, 0, .any⟩]⟩,
  ⟨.spiRxInfo, 0x40020, [⟨4096, 0, 2⟩],
    [⟨31, 31, .ro, 0, .any⟩, ⟨30, 30, .ro, 0, .any⟩, ⟨29, 29, .ro, 0, .any⟩, ⟨28, 28, .ro, 0, .any⟩, ⟨27, 22, .ro, 0, .any⟩, ⟨21, 0, .rsv, 0, .any⟩]⟩,
  ⟨.spiBusyCnt, 0x40024, [⟨4096, 0, 2⟩],
    [⟨31, 0, .ro, 0, .any⟩]⟩]

/-- Rows of the register table of R504. -/
def regRowsR504 : List RegRow := [
  ⟨.spi0WinCtl, 0x40100, [],
    [⟨31, 31, .rw, 0, .any⟩, ⟨30, 30, .rw, 0, .any⟩, ⟨29, 27, .rw, 0, .enum [(0, 4)]⟩, ⟨26, 22, .rw, 0, .any⟩, ⟨21, 19, .rw, 0, .any⟩, ⟨18, 16, .rsv, 0, .any⟩, ⟨15, 8, .rw, 3, .any⟩, ⟨7, 0, .rw, 2, .any⟩]⟩,
  ⟨.spi0WinGeom, 0x40104, [],
    [⟨31, 24, .rw, 24, .range [(20, 28)]⟩, ⟨23, 16, .rw, 8, .range [(6, 10)]⟩, ⟨15, 0, .rsv, 0, .any⟩]⟩,
  ⟨.spi0WinEraseOps, 0x40108, [],
    [⟨31, 24, .rw, 32, .any⟩, ⟨23, 16, .rw, 0, .any⟩, ⟨15, 8, .rw, 0, .any⟩, ⟨7, 0, .rsv, 0, .any⟩]⟩,
  ⟨.spi0WinTimeout, 0x4010c, [],
    [⟨31, 20, .rw, 10, .range [(1, 4095)]⟩, ⟨19, 4, .rw, 2000, .range [(1, 65535)]⟩, ⟨3, 0, .rsv, 0, .any⟩]⟩,
  ⟨.spi0WinPoll, 0x40110, [],
    [⟨31, 10, .rsv, 0, .any⟩, ⟨9, 0, .rw, 10, .range [(1, 1000)]⟩]⟩,
  ⟨.spi0WinStatus, 0x40114, [],
    [⟨31, 31, .ro, 0, .any⟩, ⟨30, 30, .ro, 0, .any⟩, ⟨29, 29, .w1c, 0, .any⟩, ⟨28, 28, .ro, 0, .any⟩, ⟨27, 27, .ro, 0, .any⟩, ⟨26, 0, .rsv, 0, .any⟩]⟩,
  ⟨.spi0Erase, 0x40118, [],
    [⟨31, 31, .wo, 0, .any⟩, ⟨30, 30, .rsv, 0, .any⟩, ⟨29, 28, .wo, 0, .enum [(0, 2)]⟩, ⟨27, 12, .wo, 0, .any⟩, ⟨11, 0, .rsv, 0, .any⟩]⟩]

/-- Rows of the register table of R523. -/
def regRowsR523 : List RegRow := [
  ⟨.tw0Ctl, 0x42000, [],
    [⟨31, 31, .rw, 1, .any⟩, ⟨30, 30, .rw, 1, .any⟩, ⟨29, 28, .rw, 0, .enum [(0, 2)]⟩, ⟨27, 0, .rsv, 0, .any⟩]⟩,
  ⟨.tw0Addr, 0x42004, [],
    [⟨31, 31, .rw, 0, .any⟩, ⟨23, 23, .rw, 0, .any⟩, ⟨15, 15, .rw, 0, .any⟩, ⟨7, 7, .rw, 1, .any⟩, ⟨30, 24, .rw, 0, .any⟩, ⟨22, 16, .rw, 0, .any⟩, ⟨14, 8, .rw, 0, .any⟩, ⟨6, 0, .rw, 76, .any⟩]⟩,
  ⟨.tw0Mask, 0x42008, [],
    [⟨31, 31, .rw, 0, .any⟩, ⟨30, 7, .rsv, 0, .any⟩, ⟨6, 0, .rw, 127, .any⟩]⟩,
  ⟨.tw0Timing, 0x4200c, [],
    [⟨31, 8, .rsv, 0, .any⟩, ⟨7, 0, .rw, 188, .any⟩]⟩,
  ⟨.tw0StretchMax, 0x42010, [],
    [⟨31, 15, .rsv, 0, .any⟩, ⟨14, 0, .rw, 2000, .range [(100, 25000)]⟩]⟩,
  ⟨.tw0Attn, 0x42014, [],
    [⟨31, 31, .rw, 0, .any⟩, ⟨30, 24, .rsv, 0, .any⟩, ⟨23, 16, .rw, 10, .any⟩, ⟨15, 0, .rw, 0, .any⟩]⟩,
  ⟨.tw0AttnCause, 0x42018, [],
    [⟨31, 16, .rsv, 0, .any⟩, ⟨15, 0, .w1c, 0, .any⟩]⟩,
  ⟨.tw0Status, 0x4201c, [],
    [⟨31, 31, .ro, 0, .any⟩, ⟨30, 30, .w1c, 0, .any⟩, ⟨29, 29, .w1c, 0, .any⟩, ⟨28, 28, .w1c, 0, .any⟩, ⟨27, 20, .ro, 0, .any⟩, ⟨19, 12, .ro, 0, .any⟩, ⟨11, 0, .rsv, 0, .any⟩]⟩,
  ⟨.tw0CntLo, 0x42100, [⟨8, 0, 8⟩],
    [⟨31, 0, .ro, 0, .any⟩]⟩,
  ⟨.tw0CntHi, 0x42104, [⟨8, 0, 8⟩],
    [⟨31, 0, .ro, 0, .any⟩]⟩]

/-- Rows of the register table of R524. -/
def regRowsR524 : List RegRow := [
  ⟨.tw1Ctl, 0x43000, [],
    [⟨31, 31, .rw, 1, .any⟩, ⟨30, 30, .rw, 0, .any⟩, ⟨29, 0, .rsv, 0, .any⟩]⟩,
  ⟨.tw1Timing, 0x43004, [],
    [⟨31, 20, .rw, 875, .range [(1, 4095)]⟩, ⟨19, 8, .rw, 500, .range [(1, 4095)]⟩, ⟨7, 0, .rw, 188, .any⟩]⟩,
  ⟨.tw1Status, 0x43008, [],
    [⟨31, 31, .ro, 0, .any⟩, ⟨30, 30, .w1c, 0, .any⟩, ⟨29, 29, .w1c, 0, .any⟩, ⟨28, 28, .w1c, 0, .any⟩, ⟨27, 0, .rsv, 0, .any⟩]⟩,
  ⟨.tw1CntLo, 0x43100, [⟨8, 0, 8⟩],
    [⟨31, 0, .ro, 0, .any⟩]⟩,
  ⟨.tw1CntHi, 0x43104, [⟨8, 0, 8⟩],
    [⟨31, 0, .ro, 0, .any⟩]⟩]

/-- Rows of the register table of R525. -/
def regRowsR525 : List RegRow := [
  ⟨.fuseTw0, 0x3050, [],
    [⟨31, 10, .rsv, 0, .any⟩, ⟨9, 8, .ro, 0, .any⟩, ⟨7, 7, .rsv, 0, .any⟩, ⟨6, 0, .ro, 0, .any⟩]⟩]

/-- Rows of the register table of R539. -/
def regRowsR539 : List RegRow := [
  ⟨.tmrGlb, 0x44000, [],
    [⟨31, 31, .rw, 1, .any⟩, ⟨30, 8, .rsv, 0, .any⟩, ⟨7, 0, .rw, 0, .any⟩]⟩,
  ⟨.tmrPin, 0x44004, [],
    [⟨31, 16, .rsv, 0, .any⟩, ⟨15, 8, .rw, 0, .any⟩, ⟨7, 0, .rw, 255, .any⟩]⟩,
  ⟨.tmrStatusAll, 0x44008, [],
    [⟨31, 16, .rsv, 0, .any⟩, ⟨15, 0, .ro, 0, .any⟩]⟩,
  ⟨.tmrCtl, 0x44100, [⟨64, 0, 16⟩],
    [⟨31, 31, .rw, 0, .any⟩, ⟨30, 29, .rw, 0, .enum [(0, 2)]⟩, ⟨28, 24, .rw, 0, .enum [(0, 19)]⟩, ⟨23, 21, .rw, 0, .any⟩, ⟨20, 20, .rw, 1, .any⟩, ⟨19, 19, .rw, 0, .any⟩, ⟨18, 16, .rw, 0, .any⟩, ⟨15, 15, .rw, 0, .any⟩, ⟨14, 13, .rw, 0, .any⟩, ⟨12, 11, .rw, 0, .any⟩, ⟨10, 7, .rw, 0, .enum [(0, 8)]⟩, ⟨6, 5, .rw, 0, .enum [(0, 2)]⟩, ⟨4, 0, .rsv, 0, .any⟩]⟩,
  ⟨.tmrPresc, 0x44104, [⟨64, 0, 16⟩],
    [⟨31, 0, .rw, 65536, .range [(65536, 4294967295)]⟩]⟩,
  ⟨.tmrReloadLo, 0x44108, [⟨64, 0, 16⟩],
    [⟨31, 0, .rw, 0, .any⟩]⟩,
  ⟨.tmrReloadHi, 0x4410c, [⟨64, 0, 16⟩],
    [⟨31, 16, .rsv, 0, .any⟩, ⟨15, 0, .rw, 0, .any⟩]⟩,
  ⟨.tmrCmpLo, 0x44110, [⟨64, 0, 16⟩],
    [⟨31, 0, .rw, 0, .any⟩]⟩,
  ⟨.tmrCmpHi, 0x44114, [⟨64, 0, 16⟩],
    [⟨31, 16, .rsv, 0, .any⟩, ⟨15, 0, .rw, 0, .any⟩]⟩,
  ⟨.tmrCountLo, 0x44118, [⟨64, 0, 16⟩],
    [⟨31, 0, .rw, 0, .any⟩]⟩,
  ⟨.tmrCountHi, 0x4411c, [⟨64, 0, 16⟩],
    [⟨31, 16, .rsv, 0, .any⟩, ⟨15, 0, .rw, 0, .any⟩]⟩,
  ⟨.tmrCapLo, 0x44120, [⟨64, 0, 16⟩],
    [⟨31, 0, .ro, 0, .any⟩]⟩]

/-- Rows of the register table of R539. -/
def regRowsR539_1 : List RegRow := [
  ⟨.tmrCapHi, 0x44124, [⟨64, 0, 16⟩],
    [⟨31, 16, .rsv, 0, .any⟩, ⟨15, 0, .ro, 0, .any⟩]⟩,
  ⟨.tmrStatus, 0x44128, [⟨64, 0, 16⟩],
    [⟨31, 31, .ro, 0, .any⟩, ⟨30, 30, .w1c, 0, .any⟩, ⟨29, 29, .w1c, 0, .any⟩, ⟨28, 28, .w1c, 0, .any⟩, ⟨27, 27, .w1c, 0, .any⟩, ⟨26, 26, .w1c, 0, .any⟩, ⟨25, 25, .w1c, 0, .any⟩, ⟨24, 24, .w1c, 0, .any⟩, ⟨23, 23, .w1c, 0, .any⟩, ⟨22, 0, .rsv, 0, .any⟩]⟩,
  ⟨.tmrMissed, 0x4412c, [⟨64, 0, 16⟩],
    [⟨31, 0, .ro, 0, .any⟩]⟩]

/-- Rows of the register table of R548. -/
def regRowsR548 : List RegRow := [
  ⟨.glbId, 0x0, [],
    [⟨31, 16, .ro, 16680, .any⟩, ⟨15, 8, .ro, 160, .any⟩, ⟨7, 2, .rsv, 0, .any⟩, ⟨1, 0, .ro, 0, .any⟩]⟩,
  ⟨.glbFwVersion, 0x4, [],
    [⟨31, 0, .ro, 0, .any⟩]⟩,
  ⟨.glbCap0, 0x8, [],
    [⟨31, 24, .ro, 128, .any⟩, ⟨23, 16, .ro, 48, .any⟩, ⟨15, 12, .ro, 4, .any⟩, ⟨11, 8, .ro, 8, .any⟩, ⟨7, 4, .ro, 8, .any⟩, ⟨3, 0, .ro, 4, .any⟩]⟩,
  ⟨.glbCap1, 0xc, [],
    [⟨31, 16, .ro, 23040, .any⟩, ⟨15, 8, .ro, 64, .any⟩, ⟨7, 0, .ro, 8, .any⟩]⟩,
  ⟨.glbDieIdLo, 0x10, [],
    [⟨31, 0, .ro, 0, .any⟩]⟩,
  ⟨.glbDieIdHi, 0x14, [],
    [⟨31, 0, .ro, 0, .any⟩]⟩,
  ⟨.glbScratch, 0x18, [],
    [⟨31, 0, .rw, 0, .any⟩]⟩,
  ⟨.glbSetupFault, 0x20, [],
    [⟨31, 31, .w1c, 0, .any⟩, ⟨30, 30, .w1c, 0, .any⟩, ⟨29, 29, .ro, 0, .any⟩, ⟨28, 27, .ro, 0, .any⟩, ⟨26, 24, .ro, 0, .any⟩, ⟨23, 0, .ro, 0, .any⟩]⟩,
  ⟨.glbSetupFaultVal, 0x24, [],
    [⟨31, 0, .ro, 0, .any⟩]⟩,
  ⟨.glbSetupFaultCntLo, 0x28, [],
    [⟨31, 0, .ro, 0, .any⟩]⟩,
  ⟨.glbSetupFaultCntHi, 0x2c, [],
    [⟨31, 0, .ro, 0, .any⟩]⟩]

/-- Rows of the register table of R348. [PRESUMED, log 109] -/
def regRowsR348 : List RegRow := [
  ⟨.msixAddrLo, 0x24000, [⟨4096, 0, 1⟩, ⟨16, 0, 256⟩],
    [⟨31, 0, .rw, 0, .any⟩]⟩,
  ⟨.msixAddrLo, 0x1000000, [⟨8192, 1, 7⟩, ⟨16, 0, 256⟩],
    [⟨31, 0, .rw, 0, .any⟩]⟩,
  ⟨.msixAddrHi, 0x24004, [⟨4096, 0, 1⟩, ⟨16, 0, 256⟩],
    [⟨31, 0, .rw, 0, .any⟩]⟩,
  ⟨.msixAddrHi, 0x1000004, [⟨8192, 1, 7⟩, ⟨16, 0, 256⟩],
    [⟨31, 0, .rw, 0, .any⟩]⟩,
  ⟨.msixData, 0x24008, [⟨4096, 0, 1⟩, ⟨16, 0, 256⟩],
    [⟨31, 0, .rw, 0, .any⟩]⟩,
  ⟨.msixData, 0x1000008, [⟨8192, 1, 7⟩, ⟨16, 0, 256⟩],
    [⟨31, 0, .rw, 0, .any⟩]⟩,
  ⟨.msixCtl, 0x2400c, [⟨4096, 0, 1⟩, ⟨16, 0, 256⟩],
    [⟨31, 1, .rsv, 0, .any⟩, ⟨0, 0, .rw, 1, .any⟩]⟩,
  ⟨.msixCtl, 0x100000c, [⟨8192, 1, 7⟩, ⟨16, 0, 256⟩],
    [⟨31, 1, .rsv, 0, .any⟩, ⟨0, 0, .rw, 1, .any⟩]⟩,
  ⟨.msixPba, 0x25000, [⟨4096, 0, 1⟩, ⟨4, 0, 8⟩],
    [⟨31, 0, .ro, 0, .any⟩]⟩,
  ⟨.msixPba, 0x1001000, [⟨8192, 1, 7⟩, ⟨4, 0, 8⟩],
    [⟨31, 0, .ro, 0, .any⟩]⟩]

/-- Every register row of the map of R541 and R549. -/
def regRows : List RegRow :=
  regRowsR62 ++ regRowsR104 ++ regRowsR104_1 ++ regRowsR106 ++ regRowsR153 ++ regRowsR153_1 ++ regRowsR153_2 ++ regRowsR154 ++ regRowsR155 ++ regRowsR191 ++ regRowsR191_1 ++ regRowsR275 ++ regRowsR277 ++ regRowsR279 ++ regRowsR279_1 ++ regRowsR279_2 ++ regRowsR304 ++ regRowsR304_1 ++ regRowsR341 ++ regRowsR342 ++ regRowsR379 ++ regRowsR379_1 ++ regRowsR380 ++ regRowsR406 ++ regRowsR424 ++ regRowsR424_1 ++ regRowsR452 ++ regRowsR452_1 ++ regRowsR453 ++ regRowsR481 ++ regRowsR483 ++ regRowsR503 ++ regRowsR504 ++ regRowsR523 ++ regRowsR524 ++ regRowsR525 ++ regRowsR539 ++ regRowsR539_1 ++ regRowsR548 ++ regRowsR348

end Sys2Proof.Machine
end

