-- ==== Sys2Proof/Types/Engine.lean ====
section
/-! DEFINITION. The state of a Nyiva engine and of the buffers of a quadrant store (05_nyiva_engine.md, 06_chords_scalar_control.md, 07_vector_memory_strings.md, R317). -/

namespace Sys2Proof

/-- A vector of R218: vector tag, 2,048 data bits, 256 flag lanes of two bits. -/
structure Vec where
  tag : Nat := 0
  data : BitVec 2048 := 0
  flags : BitVec 512 := 0
  deriving DecidableEq, Repr

/-- Task states of R169. -/
inductive TaskState where
  | free | waiting | ready | running | trapped | cancelling
  deriving DecidableEq, Repr

/-- A hardware loop level: LS, LE, LC (R212). -/
structure LoopLv where
  ls : Nat
  le : Nat
  lc : Nat
  deriving DecidableEq, Repr

/-- An entry of the return stack: a call (R214), or a trap handler's own entry (R215): the faulting chord's address, its
successor where its length is known, and the loop levels open. -/
inductive RetEnt where
  | call (addr levels : Nat)
  | handler (chord : Nat) (succ : Option Nat) (levels : Nat)
  deriving DecidableEq, Repr

/-- A loan of a batch to a task slot (R91, R228): the buffer, its generation, the stream's table key, whether it is a GAP
marker or a partial batch, and whether it has been taken. -/
structure Loan where
  buf : Nat
  gen : Nat
  stream : Nat
  gap : Bool
  part : Bool
  consumed : Bool
  /-- Device tick of the hand-off (R416). -/
  since : Nat := 0
  deriving DecidableEq, Repr

/-- A message: two words and a sender (R173, R231). -/
structure Msg where
  w0 : EWord
  w1 : EWord
  sender : Nat
  deriving DecidableEq, Repr

/-- A fence that has committed and is not complete: its chord address and the device tick of its commit (R184). -/
structure FenceSt where
  addr : Nat
  since : Nat
  deriving DecidableEq, Repr

/-- What a micro-routine read at its first step: the words on M and S and the vector it works on, and its counts (R235). -/
structure MrSt where
  m0 : EWord := 0
  m1 : EWord := 0
  s0 : EWord := 0
  v0 : Vec := {}
  /-- TPs emitted so far (M.EMIT). -/
  count : Nat := 0
  /-- Chord address of the micro-routine. -/
  pc : Nat := 0
  /-- The grid that M.HCOPY copies, fixed at its first step: first instant and period in pips, instants, complex, 16 bits wide,
  time base, and whether the copy is partial. -/
  first : Nat := 0
  period : Nat := 0
  n : Nat := 0
  complex : Bool := false
  w16 : Bool := false
  tb : Nat := 0
  part : Bool := false
  /-- The context was interrupted between two steps of V.SORT: the pass starts again (R240). -/
  back : Bool := false
  /-- Begun inside a trap handler (R235). -/
  inH : Bool := false
  /-- Its operation syllable: string × 8,192 + op (R235). -/
  syl : Nat := 0
  /-- The components that M.HCOPY has copied so far, as they were read (R238). -/
  comps : List (Int × Nat) := []
  deriving DecidableEq, Repr

/-- One task slot (R156, R169–R181). -/
structure Task where
  state : TaskState := .free
  prio : Nat := 0
  waitMask : Nat := 0
  batchThr : Nat := 1
  handlerOn : Bool := false
  handler : Nat := 0
  pc : Nat := 0
  mrActive : Bool := false
  mrp : Nat := 0
  mr : MrSt := {}
  /-- Operand stacks, top first. -/
  sStk : List EWord := []
  vStk : List Vec := []
  mStk : List EWord := []
  /-- Loop levels, innermost first; return stack, top first. -/
  loops : List LoopLv := []
  rets : List RetEnt := []
  /-- The task stands in a C.WAIT and gets a readiness word before its next chord (R217). -/
  inWait : Bool := false
  /-- A chord or step waits for room in the TP queue (R234). -/
  tpWait : Bool := false
  /-- Place in the order of readiness (R174). -/
  seq : Nat := 0
  /-- Armed wake time, a TIME word (R171). -/
  wake : Option EWord := none
  timer : Bool := false
  timerLate : Bool := false
  timerFar : Bool := false
  inbox : List Msg := []
  loans : List Loan := []
  cFence : Option FenceSt := none
  mFence : Option FenceSt := none
  /-- The TASK_START that started the task, for its TRAP entries (R399). -/
  src : Option Src := none
  /-- The TASK_CANCELs that wait for the slot to become FREE (R178). -/
  cancels : List Src := []
  /-- The task has executed a chord since it last became ready (R177). -/
  begun : Bool := false
  /-- The trap record (R181): code, string, nested, chord address, detail. -/
  trapCode : Nat := 0
  trapStr : Nat := 0
  trapNested : Bool := false
  trapAddr : Nat := 0
  trapDetail : Nat := 0
  /-- A halt on trap came before the handler or the TRAPPED state took effect (R185): where the faulting chord's successor
  lies, while it waits. -/
  trapHeld : Option (Option Nat) := none
  deriving DecidableEq, Repr

/-- An entry of an engine's TP queue: the TP and the task slot that emitted it (R234). -/
structure TpEnt where
  tp : TpWord
  slot : Nat
  /-- Device tick it was queued (R416). -/
  since : Nat := 0
  deriving DecidableEq, Repr

/-- One physical engine slot (R165, R188, R191). [DESIGN CHOICE, log 7] -/
structure EngSt where
  prog : FMap Nat := []
  data : FMap EWord := []
  vec : FMap Vec := []
  /-- Uncorrectable locations: store × 2^24 + address, and whether the error has been counted (R167, R168). Stores: 0 data,
  1 vector, 2 program, 3 S latch, 4 M latch, 5 loop, return and context latch, 6 live V stack entry (slot × 16 + entry). -/
  bad : FMap Bool := []
  /-- Locations of stores 0 to 2 that hold a single-bit error, not yet read (R167). -/
  soft : List Nat := []
  tasks : FMap Task := []
  running : Option Nat := none
  /-- Place given to the next slot that becomes READY (R174). -/
  seqNext : Nat := 0
  tpq : List TpEnt := []
  /-- Per logical engine, copied at a castling (R241, R242). -/
  tpSeq : Nat := 0
  halted : Bool := false
  /-- A halt by breakpoint or halt_on_trap waits at this chord (R185). -/
  haltAt : Option Nat := none
  castleFreeze : Bool := false
  /-- Handshake logic powered (R191). -/
  powered : Bool := true
  /-- Logical engine served while active (R191). -/
  logical : Option Nat := none
  deriving DecidableEq, Repr

/-- A buffer of R317: generation, owner code of R319 (0 free), size, contents by byte offset, whether it holds a GAP marker,
the stream's table key of a batch, and the loans out on it. [DESIGN CHOICE, log 7; DESIGN CHOICE, log 8] -/
structure Buf where
  gen : Nat := 0
  owner : Nat := 0
  size : Nat := 0
  bytes : FMap Byte := []
  stream : Nat := 0
  loans : Nat := 0
  /-- Task slots, by owner code, whose loan of this generation has ended (R228). -/
  ended : List Nat := []
  /-- Bytes whose quadrant-store word is uncorrectable (R220, R237). -/
  bad : List Nat := []
  deriving DecidableEq, Repr

end Sys2Proof
end

