-- ==== Sys2Proof/Machine/State.lean ====
section
/-! DEFINITION. The state of the block, its reset value, and the reasons a step can stop. -/

namespace Sys2Proof.Machine

/-- Why a step could stop with a fault. -/
inductive Fault where
  /-- Raised by no command: the spec gives every command of the table an effect in every state. Safe. -/
  | none
  deriving DecidableEq, Repr

/-- Why a command could be refused. -/
inductive Refusal where
  /-- Raised by an arm of exec whose command has no meaning yet. Safe: it answers no next state. -/
  | notModelled (mnemonic : String)
  deriving DecidableEq, Repr

/-- The whole block. [DESIGN CHOICE, log 1; DESIGN CHOICE, log 2] -/
structure State where
  /-- The commands that wait, first in first out (the task's form). -/
  pending : List Instr := []
  /-- The index of the next free value (the model's own field). -/
  freeIdx : Nat := 0
  /-- Device time in periods of 625 MHz, 1.6 ns (the model's own clock, R112). -/
  ticks : Nat := 0
  /-- Everything driven to the outside, oldest first (the model's own record). -/
  out : List Output := []
  /-- Setup registers by BAR0 offset, those that are not at their reset value (R13, R549). -/
  regs : FMap Word := []
  /-- 64-bit counters by the offset of their _LO half (R13). -/
  cnts : FMap Nat := []
  /-- Read latches: requester × 2^32 + offset (R545). -/
  rdLatch : FMap Word := []
  /-- Write holding latches, by the same key (R545). -/
  wrLatch : FMap Word := []
  mode : ModeSt := {}
  rst : RstSt := {}
  fuses : Fuses := {}
  time : TimeSt := {}
  host : HostSt := {}
  jrnl : JrnlSt := {}
  ports : FMap PortSt := []
  /-- Stream tables: quadrant × 16,384 + slot (R86). -/
  streams : FMap Stream := []
  /-- Gap logs: quadrant × 512 + n mod 512 (R100), and the next n of each quadrant (R107). -/
  gapLog : FMap GapEntry := []
  gapHead : FMap Nat := []
  /-- Physical engine slots: quadrant × 64 + slot (R165, R191). -/
  engines : FMap EngSt := []
  /-- Logical engine to physical slot, where it is not e mod 48 (R191, R452). -/
  engMap : FMap Nat := []
  /-- Buffers by handle bits [23:0] (R317). -/
  bufs : FMap Buf := []
  /-- Messages on their way to an inbox: logical engine, slot, message, oldest first (R173). -/
  msgs : List (Nat × Nat × Msg) := []
  evt : EvtSt := {}
  trig : TrigSt := {}
  sys : SysSt := {}
  pace : PaceSt := {}
  repair : RepairSt := {}
  flash : FlashSt := {}
  /-- SPI0 and SPI1 (R484). -/
  spis : FMap SpiSt := []
  tw : TwSt := {}
  tmr : TimersSt := {}
  deriving DecidableEq, Repr

/-- The block right after reset: the power-on reset asserted before its supplies are in range, every domain held, mode BRINGUP, every
register at its reset value, nothing stored and nothing waiting (R13, R42, R455, R464). [DEDUCED, log 77] -/
def State.reset : State :=
  let r : Reset := ⟨0, 0, 0, some .power, [1, 2, 3, 4, 5, 6, 7, 8, 9, 10, 11], 0, 0⟩
  let c : RstSt := { cur := some r }
  { rst := c }

end Sys2Proof.Machine
end

