-- ==== Sys2Proof/Machine/Ops.lean ====
section
/-! DEFINITION. The operations every family shares: finite maps and stores, bit fields, CRC-32C, registers and counters, device
time, outputs, interrupts, ring entries, completions and the journal. -/

namespace Sys2Proof.Machine

/-! ### Finite maps -/

/-- The value at a key, if listed. -/
def mfind {α : Type} : FMap α → Nat → Option α
  | [], _ => none
  | (k, v) :: m, j => if k = j then some v else mfind m j

/-- The value at a key, or the default of the table. -/
def mget {α : Type} (d : α) (m : FMap α) (k : Nat) : α := (mfind m k).getD d

/-- The map without a key. -/
def mdel {α : Type} : FMap α → Nat → FMap α
  | [], _ => []
  | (k, v) :: m, j => if k = j then mdel m j else (k, v) :: mdel m j

/-- Inserts before the first larger key. -/
def mins {α : Type} : FMap α → Nat → α → FMap α
  | [], j, w => [(j, w)]
  | (k, v) :: m, j, w => if j < k then (j, w) :: (k, v) :: m else (k, v) :: mins m j w

/-- Sets the value at a key. -/
def mput {α : Type} (m : FMap α) (k : Nat) (v : α) : FMap α := mins (mdel m k) k v

/-- Changes the value at a key. -/
def mmod {α : Type} (d : α) (m : FMap α) (k : Nat) (f : α → α) : FMap α := mput m k (f (mget d m k))

/-- Writes a cell of a store: a cell equal to what an unlisted address reads as is not listed. -/
def stPut {α : Type} [DecidableEq α] (d : α) (m : FMap α) (k : Nat) (v : α) : FMap α :=
  if v = d then mdel m k else mput m k v

/-- Keeps the entries whose key satisfies a test. -/
def mfilter {α : Type} (p : Nat → Bool) (m : FMap α) : FMap α := m.filter (fun e => p e.1)

/-- The keys of a map rise strictly: its canonical form. -/
def mwf {α : Type} : FMap α → Bool
  | [] => true
  | [_] => true
  | (k, _) :: (j, v) :: m => decide (k < j) && mwf ((j, v) :: m)

/-! ### Bits, signs and bytes -/

/-- Bits [hi:lo] of a value (R7). -/
def bits (v hi lo : Nat) : Nat := (v >>> lo) % 2 ^ (hi + 1 - lo)

/-- One bit of a value. -/
def bit (v n : Nat) : Bool := (v >>> n) % 2 == 1

/-- 1 for true. -/
def b1 (b : Bool) : Nat := if b then 1 else 0

/-- The signed value of an n-bit two's complement field. -/
def sgn (n v : Nat) : Int :=
  if v % 2 ^ n < 2 ^ (n - 1) then (v % 2 ^ n : Nat) else ((v % 2 ^ n : Nat) : Int) - (2 ^ n : Nat)

/-- An integer modulo 2^n, as an n-bit field. -/
def wrapN (n : Nat) (v : Int) : Nat := (v % ((2 ^ n : Nat) : Int)).toNat

/-- Clamps between two bounds. -/
def clampI (lo hi v : Int) : Int := if v < lo then lo else if hi < v then hi else v

/-- The signed difference of two 32-bit short times (R114). -/
def sdiff (a b : Nat) : Int := sgn 32 (wrapN 32 ((a : Int) - b))

/-- The same where pips are present: 48 bits over ns and pips (R114). -/
def sdiffP (a b : Nat) : Int := sgn 48 (wrapN 48 ((a : Int) - b))

/-- n bytes of a value, least significant first (R7). -/
def leBytes : Nat → Nat → List Nat
  | 0, _ => []
  | n + 1, v => v % 256 :: leBytes n (v / 256)

/-- n bytes of a value, most significant first (network byte order, R7). -/
def beBytes (n v : Nat) : List Nat := (leBytes n v).reverse

/-- The value of bytes in network byte order. -/
def beNat (l : List Nat) : Nat := l.foldl (fun a b => a * 256 + b) 0

/-- The value of little-endian bytes. -/
def leNat (l : List Nat) : Nat := beNat l.reverse

/-- n bytes of a list from an offset. -/
def sliceB (l : List Nat) (off n : Nat) : List Nat := (l.drop off).take n

/-- One bit step of CRC-32C (R71: Castagnoli, reflected). -/
def crcStep (c : Nat) : Nat := if c % 2 = 1 then (c >>> 1) ^^^ 0x82F63B78 else c >>> 1

/-- One byte of CRC-32C. -/
def crcByte (c b : Nat) : Nat :=
  crcStep (crcStep (crcStep (crcStep (crcStep (crcStep (crcStep (crcStep (c ^^^ b))))))))

/-- CRC-32C over bytes: initial value 0xFFFF_FFFF, final inversion (R71). -/
def crc32c (l : List Nat) : Nat := (l.foldl crcByte 0xFFFFFFFF) ^^^ 0xFFFFFFFF

/-! ### Status codes -/

/-- The code of a status (R397). -/
def statusCode : Status → Nat
  | .ok => 0x00 | .rsvdField => 0x01 | .badOpcode => 0x02 | .range => 0x03
  | .notOwner => 0x04 | .stale => 0x05 | .quota => 0x06 | .busy => 0x07
  | .tooFar => 0x08 | .late => 0x09 | .aborted => 0x0A | .mode => 0x0B
  | .noResource => 0x0C | .jumpRefused => 0x0D | .link => 0x0E | .fault => 0x0F

/-- The encoding of a mode (R41). -/
def modeCode : Mode → Nat
  | .bringup => 0 | .vigil => 1 | .acquire => 2 | .retain => 3 | .calibrate => 4 | .safe => 5

/-- The mode of an encoding (R41); 6 and 7 are reserved. -/
def modeOf : Nat → Option Mode
  | 0 => some .bringup | 1 => some .vigil | 2 => some .acquire | 3 => some .retain
  | 4 => some .calibrate | 5 => some .safe | _ => none

/-! ### Registers -/

/-- The indices of an offset in a family's dimensions, outermost first. -/
def dimIdx : List RegDim → Nat → Option (List Nat)
  | [], r => if r = 0 then some [] else none
  | d :: ds, r =>
    let n := r / d.stride
    if d.first ≤ n ∧ n < d.first + d.count then (dimIdx ds (r % d.stride)).map (n :: ·) else none

/-- The row and indices of a BAR0 offset (R549), if a register lies there (R542). -/
def regFind : List RegRow → Nat → Option (RegRow × List Nat)
  | [], _ => none
  | r :: rs, a =>
    if r.base ≤ a then
      match dimIdx r.dims (a - r.base) with
      | some ix => some (r, ix)
      | none => regFind rs a
    else regFind rs a

/-- The row and indices of a BAR0 offset. -/
def regAt (a : Nat) : Option (RegRow × List Nat) := regFind regRows a

/-- A field's reset value in place. -/
def fieldReset (f : RegField) : Nat := f.reset <<< f.lo

/-- The reset value of the register at an offset (R13), with the values that depend on an index: HOST_FN0_PERM and
HOST_FN0_ALLOC (R379), and the admission limits of R410. -/
def resetOf (a : Nat) : Nat :=
  if a = 0x20118 then 0x3F
  else if a = 0x2011C then 64 <<< 25 ||| 32 <<< 19 ||| 32 <<< 13 ||| 256 <<< 4
  else if a = 0x50400 then 16 <<< 16 ||| 8
  else if a = 0x50404 then 128 <<< 16 ||| 32
  else if a = 0x50408 then 256 <<< 16 ||| 64
  else if a = 0x5040C then 32 <<< 16 ||| 16
  else match regAt a with
    | some (r, _) => (r.fields.map fieldReset).sum
    | none => 0

/-- The stored value of the register at an offset. -/
def reg (a : Nat) (s : State) : Nat :=
  match mfind s.regs a with
  | some w => w.toNat
  | none => resetOf a

/-- Bits [hi:lo] of the register at an offset. -/
def rfld (a hi lo : Nat) (s : State) : Nat := bits (reg a s) hi lo

/-- Stores a register; a register at its reset value is not listed. -/
def setReg (a v : Nat) (s : State) : State :=
  { s with regs := if v % 2 ^ 32 = resetOf a then mdel s.regs a else mput s.regs a (BitVec.ofNat 32 v) }

/-- Replaces bits [hi:lo] of a value. -/
def putBits (v hi lo x : Nat) : Nat :=
  v - (bits v hi lo) * 2 ^ lo + (x % 2 ^ (hi + 1 - lo)) * 2 ^ lo

/-- Stores a field of a register. -/
def setFld (a hi lo x : Nat) (s : State) : State := setReg a (putBits (reg a s) hi lo x) s

/-- Adds to the 64-bit counter whose _LO half is at an offset (R13, R545). -/
def bumpN (a n : Nat) (s : State) : State :=
  { s with cnts := mput s.cnts a ((mget 0 s.cnts a + n) % 2 ^ 64) }

/-- Counts one. -/
def bump (a : Nat) (s : State) : State := bumpN a 1 s

/-- The value of a counter. -/
def cnt (a : Nat) (s : State) : Nat := mget 0 s.cnts a

/-! ### Places in the register map (R541) -/

def quadBase (q : Nat) : Nat := 0x100000 + q * 0x100000
/-- Port setup block of a global port number (R104). -/
def portBase (p : Nat) : Nat := quadBase (p / 32) + 0x10000 + (p % 32) * 0x800
/-- Engine setup window of a physical slot (R191). -/
def engBase (q k : Nat) : Nat := quadBase q + 0x80000 + k * 0x400
def qcuBase (q : Nat) : Nat := quadBase q + 0xC0000
def histBase (q : Nat) : Nat := quadBase q + 0xD0000
def evbBase (q : Nat) : Nat := quadBase q + 0xE0000
def tbBase (n : Nat) : Nat := 0x10000 + n * 0x400
def ptpBase (p : Nat) : Nat := 0x14000 + p * 0x40
def fnBase (f : Nat) : Nat := 0x20100 + f * 0x40
def ringBase (f slot : Nat) : Nat := 0x28000 + f * 0x1000 + slot * 0x10
/-- The MSI-X table of a function: the physical function's in BAR0, a virtual function's in its own BAR, which the model keeps
beyond BAR0 (R348). [PRESUMED, log 9; PRESUMED, log 109] -/
def msixBase (f : Nat) : Nat := if f = 0 then 0x24000 else 0x1000000 + f * 0x2000
def pbaBase (f : Nat) : Nat := if f = 0 then 0x25000 else 0x1001000 + f * 0x2000
/-- Port counter i of R105. -/
def portCnt (p i : Nat) : Nat := portBase p + 0x100 + 8 * i
/-- Check counter of a code of R75. -/
def chkCnt (p c : Nat) : Nat := portBase p + 0x180 + 8 * c
def rstCnt (i : Nat) : Nat := 0x1100 + 8 * i
def sysCnt (i : Nat) : Nat := 0x84100 + 8 * i
def condCnt (c i : Nat) : Nat := 0x81040 + c * 0x80 + 8 * i
def ccuCnt (i : Nat) : Nat := 0x80100 + 8 * i
def qcuCnt (q i : Nat) : Nat := qcuBase q + 0x100 + 8 * i
def histCnt (q i : Nat) : Nat := histBase q + 0x100 + 8 * i
def evbCnt (q i : Nat) : Nat := evbBase q + 0x100 + 8 * i
def paceCnt (i : Nat) : Nat := 0x50500 + 8 * i
def repairCnt (i : Nat) : Nat := 0x60800 + 8 * i
def tw0Cnt (i : Nat) : Nat := 0x42100 + 8 * i
def tw1Cnt (i : Nat) : Nat := 0x43100 + 8 * i
/-- Function counter i of R396, which only COUNTER_READ shows: the model keeps it beyond BAR0. -/
def fnCnt (f i : Nat) : Nat := 0x2000000 + f * 0x100 + 8 * i
def faultCnt : Nat := 0x28

/-! ### Device time -/

/-- Device ticks of a number of microseconds (625 MHz). -/
def usTicks (us : Nat) : Nat := us * 625

/-- Device ticks of a number of milliseconds. -/
def msTicks (ms : Nat) : Nat := ms * 625000

/-- Whole ticks that cover a number of nanoseconds. -/
def nsTicks (ns : Nat) : Nat := (ns * 5 + 7) / 8

/-- At least so many ticks have passed since a tick. -/
def passed (since n : Nat) (s : State) : Bool := decide (since + n ≤ s.ticks)

/-- Nanoseconds passed since a tick. -/
def nsSince (since : Nat) (s : State) : Nat := (s.ticks - since) * 8 / 5

/-! ### Outputs and free values -/

/-- Drives something to the outside. [DESIGN CHOICE, log 4; DESIGN CHOICE, log 11] -/
def emit (o : Output) (s : State) : State := { s with out := s.out ++ [o] }

/-- Takes a free value. [DESIGN CHOICE, log 2] -/
def takeFree (s : State) : BitVec 64 × State := (Config.freeWord s.freeIdx, { s with freeIdx := s.freeIdx + 1 })

/-! ### Parts of the state -/

def tb (n : Nat) (s : State) : TbSt := mget {} s.time.tbs n
def setTb (n : Nat) (f : TbSt → TbSt) (s : State) : State :=
  { s with time := { s.time with tbs := mmod {} s.time.tbs n f } }
/-- [PRESUMED, log 24] -/
def fn (f : Nat) (s : State) : FnSt := mget {} s.host.fns f
def setFn (f : Nat) (g : FnSt → FnSt) (s : State) : State :=
  { s with host := { s.host with fns := mmod {} s.host.fns f g } }
def ring (f slot : Nat) (s : State) : RingSt := mget {} (fn f s).rings slot
def setRing (f slot : Nat) (g : RingSt → RingSt) (s : State) : State :=
  setFn f (fun x => { x with rings := mmod {} x.rings slot g }) s
def port (p : Nat) (s : State) : PortSt := mget {} s.ports p
def setPort (p : Nat) (g : PortSt → PortSt) (s : State) : State := { s with ports := mmod {} s.ports p g }
def setJrnl (g : JrnlSt → JrnlSt) (s : State) : State := { s with jrnl := g s.jrnl }
def setMode (g : ModeSt → ModeSt) (s : State) : State := { s with mode := g s.mode }
def setRst (g : RstSt → RstSt) (s : State) : State := { s with rst := g s.rst }
def setTime (g : TimeSt → TimeSt) (s : State) : State := { s with time := g s.time }

/-! ### Time readings -/

/-- A time base's count in pips: ns × 65,536 + pips (R108, R112). -/
def tbPips (n : Nat) (s : State) : Nat := (tb n s).ns * 65536 + (tb n s).frac / 65536

/-- A count of pips as a stamp. -/
def stampOf (p : Nat) : Stamp := ⟨p / 65536, p % 65536⟩

/-- A time base's 64-bit nanoseconds. -/
def tbNs (n : Nat) (s : State) : Nat := (tb n s).ns

/-- Extends a short time against a full time of the same time base (R117). -/
def extendNs (t32 r64 : Nat) : Nat := wrapN 64 ((r64 : Int) + sdiff t32 r64)

/-! ### Modes and resets -/

/-- Quadrants from which an engine, port or unit is held in reset: the domain numbers of R481 for a quadrant. [DESIGN CHOICE, log 28; DEDUCED, log 140] -/
def domHeld (d : Nat) (s : State) : Bool :=
  match s.rst.cur with
  | some r => r.todo.contains d
  | none => false

/-- The host interface answers function f (R45, R472). -/
def hostUp (f : Nat) (s : State) : Bool :=
  match s.rst.cur with
  | none => decide (s.mode.current ≠ .bringup)
  | some r =>
    if r.level ≤ 1 then false
    else if r.level = 2 then decide (r.target ≠ 0 ∧ r.target ≠ f + 1)
    else true

/-- The quadrant is out of reset (R472). -/
def quadUp (q : Nat) (s : State) : Bool :=
  match s.rst.cur with
  | none => true
  | some r => ! (r.todo.contains (6 + q))

/-- The ports of a quadrant are released (R472). -/
def portsUp (q : Nat) (s : State) : Bool :=
  match s.rst.cur with
  | none => true
  | some r => ! (r.todo.contains 10 && (decide (r.level ≤ 1) || decide (r.target = q + 1)))

/-- The central blocks (steward, journal, CCU, TRIGIO, PACE, timers, SPI, TW) are out of reset (R456, R469) and VCOREC has not failed
(R20). [DESIGN CHOICE, log 28] -/
def centralUp (s : State) : Bool := ! s.mode.coreFail && match s.rst.cur with
  | none => true
  | some r => ! (r.todo.contains 3)

/-- Only the Vigil set is powered: in Vigil, and in Safe entered from it (R43, R47, R54). -/
def vigilOnly (s : State) : Bool :=
  decide (s.mode.current = .vigil) || (decide (s.mode.current = .safe) && s.mode.vigilSafe)

/-! ### Interrupts (R369–R371) -/

/-- Whether function f's vector v is allocated and MSI-X is enabled (R349, R471). -/
def vecUsable (f v : Nat) (s : State) : Bool :=
  decide (v < rfld (fnBase f + 0x1C) 12 4 s) && (fn f s).msixEn

/-- The function takes messages: D0 and the link not in L1.2 (R371). -/
def fnAwake (f : Nat) (s : State) : Bool := ! (fn f s).d3hot && ! s.host.l12

/-- Sets or clears the pending bit of a vector (R371). -/
def setPba (f v : Nat) (b : Bool) (s : State) : State :=
  setFld (pbaBase f + 4 * (v / 32)) (v % 32) (v % 32) (b1 b) s

/-- Asserts WAKE_N and sends PME for a sleeping function, once (R48). -/
def wakeFn (f : Nat) (s : State) : State :=
  if (fn f s).wake then s else emit (.wakePme f) (setFn f (fun x => { x with wake := true }) s)

/-- Sends a function's vector, or leaves it pending while masked or asleep (R371). [PRESUMED, log 9] -/
def sendVec (f v : Nat) (s : State) : State :=
  if vecUsable f v s then
    if fnAwake f s then
      if bit (reg (msixBase f + 16 * v + 12) s) 0 then setPba f v true s else emit (.msix f v) s
    else wakeFn f (setPba f v true s)
  else s

/-- Sends a function's err_vec (R369). -/
def errVec (f : Nat) (s : State) : State := sendVec f (rfld (fnBase f) 31 24 s) s

/-! ### Rings (R352–R358, R370) -/

/-- A ring's size in entries (R353). -/
def ringSize (f slot : Nat) (s : State) : Nat := 2 ^ rfld (ringBase f slot + 8) 29 25 s

/-- Bytes of an entry of a slot's ring (R352). -/
def entryBytes (slot : Nat) : Nat := if slot < 64 then 64 else if slot < 128 then 32 else if slot < 160 then 64 else if slot < 192 then 16 else 64

/-- The host address of entry i of a ring (R353, R380). -/
def ringAddr (f slot i : Nat) (s : State) : Nat :=
  rfld (ringBase f slot) 31 12 s * 4096 + reg (ringBase f slot + 4) s * 2 ^ 32 + i % ringSize f slot s * entryBytes slot

/-- The host addresses of a slot's device index and status word in the shadow page (R355, R379). -/
def shadowAddr (f slot : Nat) (s : State) : Nat := rfld (fnBase f + 0x10) 31 12 s * 4096 + reg (fnBase f + 0x14) s * 2 ^ 32 + 8 * slot
def statusAddr (f slot : Nat) (s : State) : Nat := shadowAddr f slot s + 0x800

/-- Writes a device index into the shadow page (R355). -/
def writeShadow (f slot i : Nat) (s : State) : State := emit (.shadow f slot (shadowAddr f slot s) i) s

/-- A device-filled ring has a free entry (R357, R358). -/
def ringFree (f slot : Nat) (s : State) : Bool :=
  decide ((ring f slot s).dev < (ring f slot s).host + ringSize f slot s)

/-- A ring that runs: enabled and not stopped. -/
def ringRuns (f slot : Nat) (s : State) : Bool := (ring f slot s).en && (ring f slot s).stopped.isNone

/-- Writes a ring's status word when its state changes: 0 DISABLED, 1 RUNNING, 2 STOPPED, 3 HELD, with the code of the last stop (R355). [DEDUCED, log 113] -/
def showRing (f slot state : Nat) (s : State) : State :=
  if (ring f slot s).shown = state then s
  else emit (.ringStatus f slot (statusAddr f slot s) state (ring f slot s).code) (setRing f slot (fun r => { r with shown := state }) s)

/-- Stops a ring with a status and sends err_vec (R357, R369). [DEDUCED, log 113] -/
def stopRing (f slot : Nat) (st : Status) (s : State) : State :=
  errVec f (showRing f slot 2 (setRing f slot (fun r => { r with stopped := some st, code := st, shown := 0 }) s))

/-- The interrupt condition of R370 for a ring that has just produced an entry. [DEDUCED, log 122] -/
def coalesce (f slot : Nat) (s : State) : State :=
  if rfld (ringBase f slot + 12) 31 24 s ≤ (ring f slot s).cnt then
    sendVec f (rfld (ringBase f slot + 8) 18 11 s)
      (setRing f slot (fun r => { r with cnt := 0, oldest := none }) s)
  else s

/-- Counts one entry produced on a device-filled ring, writes the shadow index, and interrupts as R370 says. -/
def produced (f slot : Nat) (s : State) : State :=
  coalesce f slot
    (writeShadow f slot ((ring f slot s).dev + 1)
      (setRing f slot (fun r => { r with
        dev := r.dev + 1, cnt := r.cnt + 1, oldest := some (r.oldest.getD s.ticks) }) s))

/-! ### Completions (R358, R394, R398) -/

/-- The completion ring of a command ring (R359). -/
def cqOf (f slot : Nat) (s : State) : Nat := rfld (ringBase f slot + 8) 24 19 s

/-- Completion kinds (R399). -/
def kindCode : ComplKind → Nat
  | .cmd => 1 | .free => 2 | .trap => 3 | .reply => 4

/-- The 32 bytes of a completion entry (R398). -/
def complBytes (e : Compl) : List Nat :=
  leBytes 4 (kindCode e.kind <<< 28 ||| b1 e.late <<< 27 ||| b1 e.partialFlag <<< 26 ||| statusCode e.status <<< 16 ||| e.opcode <<< 8 ||| e.ring)
    ++ leBytes 4 (e.index <<< 16 ||| e.aux) ++ leBytes 8 e.cookie.toNat ++ leBytes 8 e.jseq ++ leBytes 8 e.result

/-- Entry i of a completion ring is written (R352, R353). -/
def complOut (f cq i : Nat) (e : Compl) (s : State) : Output := .compl f cq i (ringAddr f (64 + cq) i s) e (complBytes e)

/-- Writes a completion entry, or lets it wait for a free entry or for its journal entry; not at all when the ring is
disabled (R354, R358, R402). -/
def writeCompl (f cq : Nat) (e : Compl) (s : State) : State :=
  if (ring f (64 + cq) s).en then
    if ringFree f (64 + cq) s && ringRuns f (64 + cq) s && ! (fn f s).cqWait.any (fun x => x.1 == cq)
        && ! ((fn f s).jrnlWait.any (fun j => j.seq == e.jseq)) then
      bump (fnCnt f 3) (produced f (64 + cq) (emit (complOut f cq (ring f (64 + cq) s).dev e s) s))
    else setFn f (fun x => { x with cqWait := x.cqWait ++ [(cq, e)] }) s
  else s

/-- Writes a completion entry for a command's source, unless the function's ring state has been reset since or the command
was a register write (R351, R398). -/
def complEntry (src : Src) (e : Compl) (s : State) : State :=
  if src.reg || decide ((fn src.func s).epoch ≠ src.epoch) then s
  else writeCompl src.func (cqOf src.func src.ring s) e s

/-- The CMD entry of a source. -/
def cmdEntry (src : Src) (st : Status) (result aux : Nat) (late partialFlag : Bool) : Compl :=
  { kind := .cmd, late := late, partialFlag := partialFlag, status := st, opcode := src.opcode, ring := src.ring,
    index := src.index % 65536, aux := aux, cookie := src.cookie, jseq := src.jseq, result := result }

/-- An accepted command leaves the commands in flight and its one CMD entry is written (R398, R399). -/
def completeOnly (src : Src) (st : Status) (result aux : Nat) (late partialFlag : Bool) (s : State) : State :=
  complEntry src (cmdEntry src st result aux late partialFlag)
    (setJrnl (fun j => { j with inflight := j.inflight.filter (fun p => p.src.jseq != src.jseq) }) s)

/-! ### Fences (R376, R377) -/

/-- F_EXEC and F_FUNC of a fence are satisfied: every earlier command of the ring, or of the function with every descriptor below
the host indices read, has completed. -/
def fenceOrder (p : Pend) (mask : Nat) (upTo : List (Nat × Nat)) (s : State) : Bool :=
  let mine (x : Pend) : Bool := decide (x.src.func = p.src.func) && ! x.src.reg && decide (x.src.jseq ≠ p.src.jseq)
  let exec : Bool := s.jrnl.inflight.all (fun x => ! (mine x && decide (x.src.ring = p.src.ring ∧ x.src.jseq < p.src.jseq)))
  let func : Bool := s.jrnl.inflight.all (fun x => ! (mine x &&
      (decide (x.src.jseq < p.src.jseq) || decide (x.src.index < mget 0 upTo x.src.ring))))
    && upTo.all (fun e => decide (e.2 ≤ (ring p.src.func e.1 s).dev))
  (! bit mask 0 || exec) && (! bit mask 1 || func)

/-- The fence's kinds are all satisfied: F_DATA at once, since the block's data writes are outside as they are made. -/
def fenceMet (p : Pend) (s : State) : Bool :=
  match p.wait with
  | .fence mask upTo b time => fenceOrder p mask upTo s && (! bit mask 3 || decide (time ≤ tbNs b s))
  | _ => false

/-- Completes the fences that are satisfied; one may satisfy the next. -/
def fencesRun : Nat → State → State
  | 0, s => s
  | n + 1, s =>
    match s.jrnl.inflight.find? (fun p => fenceMet p s) with
    | some p => fencesRun n (completeOnly p.src .ok 0 0 false false s)
    | none => s

/-- Looks at every fence in flight. -/
def fences (s : State) : State := fencesRun s.jrnl.inflight.length s

/-- Ends an accepted command (R398, R399), and with it the fences it was the last for (R376). -/
def completeWith (src : Src) (st : Status) (result aux : Nat) (late partialFlag : Bool) (s : State) : State :=
  fences (completeOnly src st result aux late partialFlag s)

/-- Ends an accepted command with a status and a result. -/
def complete (src : Src) (st : Status) (result : Nat) (s : State) : State :=
  completeWith src st result 0 false false s

/-! ### The journal (R385, R386, R401–R405) -/

/-- The key of an object. -/
def objKey (o : ObjId) : Nat := o.type * 2 ^ 24 + o.id

/-- An object's version (R386). -/
def objVer (o : ObjId) (s : State) : Nat := mget 0 s.jrnl.vers (objKey o)

/-- Advances an object's version (R386); the object NONE has none. -/
def bumpVer (o : ObjId) (s : State) : State :=
  if o.type = 0 then s
  else setJrnl (fun j => { j with vers := mput j.vers (objKey o) ((objVer o s + 1) % 2 ^ 32) }) s

/-- The owner of an object, if it has one (R350). -/
def ownerOf (o : ObjId) (s : State) : Option Nat := mfind s.jrnl.owners (objKey o)

/-- Gives a free object to a function (R350). -/
def claim (o : ObjId) (f : Nat) (s : State) : State :=
  match ownerOf o s with
  | some _ => s
  | none => setJrnl (fun j => { j with owners := mput j.owners (objKey o) f }) s

/-- Ends the ownership of an object (R388). -/
def disown (o : ObjId) (s : State) : State := setJrnl (fun j => { j with owners := mdel j.owners (objKey o) }) s

/-- Bytes 0 to 59 of a journal entry (R401). -/
def jentryBytes (e : JEntry) : List Nat :=
  leBytes 8 e.seq ++ [statusCode e.outcome, e.opcode] ++ leBytes 2 e.epoch
    ++ leBytes 2 e.index ++ leBytes 2 (e.ring <<< 6 ||| b1 e.reg <<< 12 ||| e.func <<< 13)
    ++ leBytes 4 e.descCrc.toNat ++ leBytes 4 e.dataCrc.toNat ++ leBytes 8 e.cookie.toNat
    ++ leBytes 4 (e.obj0.type <<< 24 ||| e.obj0.id) ++ leBytes 4 e.ver0
    ++ leBytes 4 (e.obj1.type <<< 24 ||| e.obj1.id) ++ leBytes 4 e.ver1
    ++ leBytes 8 e.tAccept ++ [0, 0, 0, 0]

/-- The 64 bytes of a journal entry (R401). -/
def jentryAll (e : JEntry) : List Nat := jentryBytes e ++ leBytes 4 e.entryCrc.toNat

/-- The rings that a full journal ring holds show HELD: the function's command rings that run (R355, R358). -/
def showFull (f : Nat) (s : State) : State :=
  (fn f s).rings.foldl (fun s e => if e.1 < 64 ∧ ringRuns f e.1 s then showRing f e.1 3 s else s) s

/-- Writes waiting journal entries of a function to its journal ring while it has room (R358, R364, R402). -/
def jrnlRingPut (f : Nat) (e : JEntry) (s : State) : State :=
  if (ring f 192 s).en then
    if ringFree f 192 s && ringRuns f 192 s && (fn f s).jrnlWait.isEmpty then
      let s1 := setRing f 192 (fun r => { r with fullSent := false })
        (produced f 192 (emit (.jentry f (ring f 192 s).dev (ringAddr f 192 (ring f 192 s).dev s) e (jentryAll e)) s))
      if ringFree f 192 s1 then s1
      else errVec f (showFull f (setRing f 192 (fun r => { r with fullSent := true }) s1))
    else setFn f (fun x => { x with jrnlWait := x.jrnlWait ++ [e] }) s
  else s

/-- Gives the next sequence number and enters a journal entry, before any effect (R402). The versions shown are those after
the command. -/
def journal (opcode : Nat) (outcome : Status) (func : Nat) (regW : Bool) (rg index descCrc dataCrc : Nat)
    (cookie : BitVec 64) (o0 o1 : ObjId) (s : State) : State :=
  let seq := s.jrnl.head + 1
  let e0 : JEntry :=
    { seq := seq, epoch := s.jrnl.epoch % 65536, opcode := opcode, outcome := outcome, func := func, reg := regW,
      ring := if regW then 0 else rg, index := if regW then 0 else index % 65536,
      descCrc := BitVec.ofNat 32 descCrc, dataCrc := BitVec.ofNat 32 dataCrc, cookie := cookie,
      obj0 := o0, ver0 := if o0.type = 0 then 0 else objVer o0 s,
      obj1 := o1, ver1 := if o1.type = 0 then 0 else objVer o1 s,
      tAccept := if (tb 0 s).valid then tbNs 0 s else 0, entryCrc := 0 }
  let e := { e0 with entryCrc := BitVec.ofNat 32 (crc32c (jentryBytes e0)) }
  jrnlRingPut func e (setJrnl (fun j => { j with head := seq, entries := (e :: j.entries).take 4096 }) s)

/-- The object NONE. -/
def noObj : ObjId := ⟨0, 0⟩

end Sys2Proof.Machine
end

