-- ==== Sys2Proof/Machine/Command.lean ====
section
/-! DEFINITION. Serving one command descriptor of a ring: the fields of a descriptor, the checks of R383 in order, the journal
entry, versions and ownership, and acceptance (11_host_rings.md, 12_commands_journal.md). -/

namespace Sys2Proof.Machine

/-- A body field: bits [hi:lo] of the little-endian word at a descriptor byte offset from 16 (R389). -/
def bf (d : Desc) (byte hi lo : Nat) : Nat := bits (d.body.toNat >>> (8 * (byte - 16))) hi lo

def dOrdered (d : Desc) : Bool := bit d.flags.toNat 23
def dVcheck (d : Desc) : Bool := bit d.flags.toNat 22
def dRelease (d : Desc) : Bool := bit d.flags.toNat 21

/-- The 64 bytes of a descriptor with its opcode (R381). -/
def descBytes (op : Nat) (d : Desc) : List Nat :=
  leBytes 64 (d.flags.toNat ||| op <<< 24 ||| d.expVersion.toNat <<< 32 ||| d.cookie.toNat <<< 64
    ||| d.body.toNat <<< 128)

/-- The mask of body fields: each (byte offset, hi, lo). -/
def bodyMask : List (Nat × Nat × Nat) → Nat
  | [] => 0
  | (b, h, l) :: m => ((2 ^ (h + 1 - l) - 1) <<< (8 * (b - 16) + l)) ||| bodyMask m

/-- What the generic checks of R383 need to know of a command. [DESIGN CHOICE, log 27] -/
structure CmdSpec where
  op : Nat
  /-- Defined body fields (R389). -/
  fields : List (Nat × Nat × Nat)
  /-- release is permitted (R388). -/
  relOk : Bool := false
  /-- Permission bit of R349; none for BASIC. -/
  group : Option Nat := none
  /-- The objects of R384, primary first. -/
  objs : List ObjId := []
  /-- Objects whose quadrant or engine the command needs beside those it names (R472). -/
  needs : List ObjId := []
  /-- Names TB0 in a TIME command (R383 step 3). -/
  namesTb0 : Bool := false
  /-- A reserved encoding is used in the body or the parameter block (R383 step 2). -/
  badEnc : Bool := false
  /-- The parameter block's bytes; none when its read fails (R382). -/
  pb : Option (List Nat) := some []
  /-- CRC-32C of the bulk data (R401). -/
  dataCrc : Nat := 0
  /-- A configuring command: takes ownership of a free primary object (R350). -/
  config : Bool := false
  /-- Advances no version: a kick (R384). -/
  quiet : Bool := false
  /-- What the accepted command waits for. -/
  wait : Wait := .other

/-- Whether the object's quadrant, or its engine, is in an L3 or L4 reset (R472). -/
def objInReset (o : ObjId) (s : State) : Bool :=
  match s.rst.cur with
  | none => false
  | some r =>
    let eng := if o.type = 3 then some o.id else if o.type = 4 then some (o.id / 16)
      else if o.type = 9 ∧ o.id / 256 = 0 then some (o.id % 256) else none
    match r.level, eng with
    | 3, some e => decide (r.target = e / 48 + 1)
    | 3, none => (decide (o.type = 1) && decide (r.target = o.id / 32 + 1))
        || (decide (o.type = 11 ∧ o.id < 128) && decide (r.target = o.id / 32 + 1))
    | 4, some e => decide (r.target = e + 1)
    | _, _ => false

/-- Step 2 of R383: a reserved field or encoding nonzero, vcheck without an object, a release that is not permitted, or an
expected version without vcheck (R381, R387, R388). -/
def rsvdBad (c : CmdSpec) (d : Desc) : Bool :=
  decide (bits d.flags.toNat 20 0 ≠ 0) || (dRelease d && ! c.relOk)
    || (! dVcheck d && decide (d.expVersion ≠ 0)) || (dVcheck d && c.objs.isEmpty)
    || decide (d.body.toNat &&& bodyMask c.fields ≠ d.body.toNat) || c.badEnc

/-- Step 3 of R383 (R349, R350). -/
def notPermitted (c : CmdSpec) (d : Desc) (s : State) : Bool :=
  decide (d.func.val ≠ 0) &&
    ((match c.group with
      | some g => ! bit (reg (fnBase d.func + 0x18) s) g
      | none => false)
    || c.namesTb0
    || c.objs.any (fun o => match ownerOf o s with
      | some f => decide (f ≠ d.func.val)
      | none => false))

/-- Step 4 of R383 (R387). -/
def staleVer (c : CmdSpec) (d : Desc) (s : State) : Bool :=
  dVcheck d && (match c.objs with
    | o :: _ => decide (objVer o s ≠ d.expVersion.toNat)
    | [] => false)

/-- The first check of R383 that fails, or OK. -/
def judge (c : CmdSpec) (d : Desc) (own : State → Status) (s : State) : Status :=
  if rsvdBad c d then .rsvdField
  else if notPermitted c d s then .notOwner
  else if staleVer c d s then .stale
  else if (c.objs ++ c.needs).any (fun o => objInReset o s) then .busy
  else own s

/-- A fence holds the ring's next descriptor (R376). -/
def fenceHolds (f rg : Nat) (s : State) : Bool :=
  s.jrnl.inflight.any (fun p => decide (p.src.func = f ∧ p.src.epoch = (fn f s).epoch) &&
    (match p.wait with
    | .fence mask upTo _ _ =>
      decide (p.src.ring = rg) || (bit mask 1 && ! decide ((ring f rg s).dev < mget 0 upTo rg))
    | _ => false))

/-- Commands of the function in flight (R358). -/
def inflightOf (f : Nat) (s : State) : Nat :=
  (s.jrnl.inflight.filter (fun p => decide (p.src.func = f) && ! p.src.reg)).length

/-- The oldest journal entry on chip still waits for its journal ring, and 4,096 are held (R403). [DEDUCED, log 102] -/
def journalFull (s : State) : Bool :=
  decide (4096 ≤ s.jrnl.entries.length) && (match s.jrnl.entries.getLast? with
    | some e => s.host.fns.any (fun f => f.2.jrnlWait.any (fun w => decide (w.seq = e.seq)))
    | none => false)

/-- The device accepts descriptors at all: no power-loss warning, no steward castling between freeze and resume, the new epoch's record
committed, and room in the journal (R403, R438, R450, R497). [DEDUCED, log 102] -/
def accepts (s : State) : Bool :=
  s.repair.warned.isNone && ! s.repair.paused && ! s.flash.epochWait && ! journalFull s

/-- A completion ring keeps the device from reading the rings bound to it: it is full, or entries wait for it (R358). -/
def cqHolds (f cq : Nat) (s : State) : Bool :=
  (ring f (64 + cq) s).en && (! ringFree f (64 + cq) s || (fn f s).cqWait.any (fun x => x.1 == cq))

/-- Commands of a ring are in flight (R375). -/
def ringBusy (f r : Nat) (s : State) : Bool := s.jrnl.inflight.any (fun p => decide (p.src.func = f ∧ p.src.ring = r) && ! p.src.reg)

/-- A command ring is held by a full completion or journal ring, the limit of 256 commands in flight, a fence, or an ORDERED descriptor
that was read (R358, R375, R376). -/
def ringStuck (f r : Nat) (s : State) : Bool :=
  cqHolds f (cqOf f r s) s || ((ring f 192 s).en && (! ringFree f 192 s || ! (fn f s).jrnlWait.isEmpty))
    || decide (256 ≤ inflightOf f s) || fenceHolds f r s || ((ring f r s).ordered && ringBusy f r s)

/-- The ring is held, or this descriptor of it is ORDERED and waits (R375). -/
def ringHeld (d : Desc) (s : State) : Bool := ringStuck d.func d.ring s || (dOrdered d && ringBusy d.func d.ring s)

/-- A command ring has descriptors waiting that the device could read, were the ring not held (R354–R357). [DEDUCED, log 103] -/
def ringReach (f r : Nat) (s : State) : Bool :=
  hostUp f s && ! (fn f s).d3hot && ringRuns f r s && decide ((ring f r s).dev < (ring f r s).host)

/-- The command ring holds a descriptor that the device could read, were the ring not held. [DEDUCED, log 103] -/
def canReach (d : Desc) (s : State) : Bool := ringReach d.func d.ring s && centralUp s && accepts s

/-- A ring of a function can be served now. -/
def ringReady (f r : Nat) (s : State) : Bool := ringReach f r s && ! ringStuck f r s

/-- Entry k of a cyclic order of n comes before entry j, the order beginning at entry i. -/
def cyclicLt (n i k j : Nat) : Bool := decide ((k + n - i) % n < (j + n - i) % n)

/-- It is the ring's turn: no other ring of its function, and no other function with a ring ready, comes before it in the round robin
(R359). [DESIGN CHOICE, log 151] -/
def ringTurn (f r : Nat) (s : State) : Bool :=
  ! (fn f s).rings.any (fun x => decide (x.1 < 64) && cyclicLt 64 (fn f s).turn x.1 r && ringReady f x.1 s)
    && ! s.host.fns.any (fun g => cyclicLt 8 s.host.turn g.1 f && g.2.rings.any (fun x => decide (x.1 < 64) && ringReady g.1 x.1 s))

/-- The command ring holds a descriptor that the device may read now, and it is the ring's turn (R354–R359, R375, R376). -/
def canServe (d : Desc) (s : State) : Bool := canReach d s && ! ringHeld d s && ringTurn d.func d.ring s

/-- A descriptor meets a ring that is held: the ring shows HELD, and remembers an ORDERED one (R355, R375). [DEDUCED, log 113] -/
def meetHeld (d : Desc) (s : State) : State :=
  if canReach d s && ringHeld d s then
    showRing d.func d.ring 3 (if dOrdered d then setRing d.func d.ring (fun r => { r with ordered := true }) s else s)
  else s

/-- The rings of the functions show whether they are held (R355, R358). [DEDUCED, log 113] -/
def showHeld (s : State) : State :=
  s.host.fns.foldl (fun s g => g.2.rings.foldl (fun s x =>
    let f := g.1; let r := x.1
    if ! ringRuns f r s ∨ (64 ≤ r ∧ r < 160) ∨ 192 ≤ r then s
    else if (if r < 64 then ringStuck f r s else cqHolds f (cqOf f r s) s) then showRing f r 3 s
    else if (ring f r s).shown = 3 then showRing f r 1 s
    else s) s) s

/-- Object i of a list, or NONE. -/
def objN (l : List ObjId) (n : Nat) : ObjId := l.getD n noObj

/-- The source of the descriptor about to be served; its journal sequence number is the next one (R402). -/
def srcOf (op : Nat) (d : Desc) (s : State) : Src :=
  { func := d.func, ring := d.ring, index := (ring d.func d.ring s).dev, cookie := d.cookie,
    jseq := s.jrnl.head + 1, opcode := op, epoch := (fn d.func s).epoch }

/-- The round robin moves past a function and its ring (R359). -/
def nextTurn (f r : Nat) (s : State) : State :=
  let s1 := setFn f (fun x => { x with turn := (r + 1) % 64 }) s
  { s1 with host := { s1.host with turn := (f + 1) % 8 } }

/-- Consumes the descriptor: the device index moves past it (R352, R355). -/
def consume (d : Desc) (s : State) : State :=
  bump (fnCnt d.func 0) (writeShadow d.func d.ring ((ring d.func d.ring s).dev + 1)
    (setRing d.func d.ring (fun r => { r with dev := r.dev + 1, ordered := false }) (showRing d.func d.ring 1 (nextTurn d.func d.ring s))))

/-- Journals a descriptor with its outcome (R402). -/
def journalDesc (c : CmdSpec) (d : Desc) (st : Status) (src : Src) (s : State) : State :=
  journal c.op st d.func false d.ring src.index (crc32c (descBytes c.op d ++ c.pb.getD []))
    (if st = .ok then c.dataCrc else 0) d.cookie (objN c.objs 0) (objN c.objs 1) s

/-- Objects that belong to functions: streams, task slots, conditions, fast conditions, profiles and TB1 to TB7 (R350). -/
def ownable (o : ObjId) : Bool :=
  [2, 4, 5, 8].contains o.type || (o.type == 6 && decide (o.id < 8)) || (o.type == 7 && decide (1 ≤ o.id))

/-- Acceptance: versions advance, a configuring command takes a free object, the entry is journaled, the command is in
flight (R350, R386, R402). -/
def accept (c : CmdSpec) (d : Desc) (src : Src) (s : State) : State :=
  let s1 := if c.quiet then s else c.objs.foldl (fun s o => bumpVer o s) s
  let s2 := if c.config then (c.objs.filter ownable).foldl (fun s o => claim o d.func s) s1 else s1
  let s3 := journalDesc c d .ok src (consume d s2)
  bump (fnCnt d.func 1) (setJrnl (fun j => { j with inflight := j.inflight ++ [⟨src, c.wait⟩] }) s3)

/-- Rejection: the descriptor is consumed, journaled with its status and completed with it; nothing else changes (R383). -/
def reject (c : CmdSpec) (d : Desc) (st : Status) (src : Src) (s : State) : State :=
  fences (bump (fnCnt d.func 2) (complEntry src (cmdEntry src st 0 0 false false) (journalDesc c d st src (consume d s))))

/-- Serves one descriptor: a failed parameter block read stops the ring and consumes nothing (R382); a descriptor the device
may not read now is no event, but a held ring shows HELD; else it is rejected with the first failing check or accepted, and runs. `rej` is what a
rejection with a status records besides (R123). [DESIGN CHOICE, log 27] -/
def serve (c : CmdSpec) (d : Desc) (own : State → Status) (run : Src → State → State) (s : State)
    (rej : Status → State → State := fun _ s => s) : State :=
  if canServe d s then
    if c.pb.isNone then stopRing d.func d.ring .fault s
    else match judge c d own s with
      | .ok => run (srcOf c.op d s) (accept c d (srcOf c.op d s) s)
      | st => rej st (reject c d st (srcOf c.op d s) s)
  else meetHeld d s

/-- A journaled register write as the command of function 0 it stands for (R393, R402, R546): its sequence number, entry and
versions. Returns the source for effects that complete later; no completion is ever written for it. -/
def regSrc (op : Nat) (s : State) : Src :=
  { func := 0, ring := 0, index := 0, cookie := 0, jseq := s.jrnl.head + 1, opcode := op, epoch := (fn 0 s).epoch,
    reg := true }

/-- The descriptor a journaled register write stands for: n pairs for a target (R389, R393). [DEDUCED, log 17] -/
def pairDesc (target : Nat) (pairs : List (Nat × Nat)) : Desc :=
  { func := 0, ring := 0, flags := 0, expVersion := 0, cookie := 0,
    body := BitVec.ofNat 384 (target ||| pairs.length <<< 29
      ||| (pairs.zipIdx.foldl (fun a x => a ||| (x.1.1 ||| x.1.2 <<< 32) <<< (64 + 64 * x.2)) 0)) }

/-- Journals a register write as a command with an outcome (R546). [DEDUCED, log 17] -/
def journalReg (op : Nat) (st : Status) (d : Desc) (objs : List ObjId) (s : State) : State :=
  journal op st 0 true 0 0 (crc32c (descBytes op d)) 0 0 (objN objs 0) (objN objs 1)
    (if st = .ok then objs.foldl (fun s o => bumpVer o s) s else s)

end Sys2Proof.Machine
end

