-- ==== Sys2Proof/Machine/TimeOps.lean ====
section
/-! DEFINITION. The operations of the time unit: counting, the servo, sources, steps, launches, synthesizers, PTP calculation and
state decision (04_time_bases.md). -/

namespace Sys2Proof.Machine

/-- A quotient whose rounding the spec leaves open: the floor, or one more where it is inexact (Config.roundUp). [DESIGN CHOICE, log 12] -/
def divOpen (n d : Int) : Int := Int.fdiv n d + (if Int.fmod n d ≠ 0 ∧ Config.roundUp n d then 1 else 0)

/-! ### Counting (R112) -/

/-- 1.6 ns in 2^-32 ns, rounded down. -/
def tickFloor : Nat := 6871947673

/-- Increment k of the repeating sequence of five: the first four are 1.6 ns rounded one way or the other, the fifth makes
the five add exactly 8 ns (R112). [DESIGN CHOICE, log 13] -/
def tickInc (k : Nat) : Nat :=
  if k < 4 then tickFloor + b1 (Config.tickUp k)
  else 34359738368 - 4 * tickFloor - b1 (Config.tickUp 0) - b1 (Config.tickUp 1) - b1 (Config.tickUp 2)
    - b1 (Config.tickUp 3)

/-- The servo term of one tick, 1.6 × f ns, in 2^-48 ns, for f in 2^-8 ppb (R112). -/
def servoTerm (freq : Int) : Int := divOpen (freq * 2 ^ 44) (10 ^ 10)

/-- Adds an amount in 2^-48 ns to a time base's count, fraction and residual (R112). -/
def addCount (d : Int) (t : TbSt) : TbSt :=
  let v : Int := ((t.frac * 65536 + t.resid : Nat) : Int) + d
  let r := (v % 2 ^ 48).toNat
  { t with ns := wrapN 64 ((t.ns : Int) + v / 2 ^ 48), frac := r / 65536, resid := r % 65536 }

/-- One tick of one time base at a phase of the sequence (R112). -/
def tbTick (phase : Nat) (t : TbSt) : TbSt := addCount ((tickInc phase * 65536 : Nat) + servoTerm t.freq) t

/-- One tick of the time unit: every time base counts (R108, R112). [DESIGN CHOICE, log 3] -/
def timeTick (s : State) : State :=
  if s.time.running then
    let s1 := (List.range 8).foldl (fun s n => setTb n (tbTick s.time.phase) s) s
    setTime (fun t => { t with phase := (t.phase + 1) % 5 }) s1
  else s

/-! ### Servo (R119, R121–R124) -/

/-- ±250,000 ppb in 2^-32 ppb (R121). -/
def servoMax : Int := 250000 * 2 ^ 32

/-- A frequency in 2^-32 ppb rounded half up to 2^-8 ppb (R121). -/
def roundFreq (f : Int) : Int := (f + 2 ^ 23) / 2 ^ 24

/-- The new integral term (R121). -/
def servoI (ki : Nat) (i o : Int) : Int := clampI (-servoMax) servoMax (i + ki * o)

/-- The new frequency in 2^-32 ppb (R121). -/
def servoF (kp : Nat) (i o : Int) : Int := clampI (-servoMax) servoMax (-(kp * o) - i)

/-- What TBn_FREQ can hold: ±64,000,000 in 2^-8 ppb (R153). -/
def freqClamp (f : Int) : Int := clampI (-64000000) 64000000 f

/-- The source of a time base (R118). -/
def tbSrc (n : Nat) (s : State) : Nat := rfld (tbBase n) 27 25 s

/-- The jump limit in pips (R123). -/
def jumpPips (n : Nat) (s : State) : Int := ((reg (tbBase n + 0x20) s * 65536 : Nat) : Int)

/-- The offset exceeds the jump limit (R123). -/
def jumps (n : Nat) (o : Int) (s : State) : Bool := decide (jumpPips n s < o.natAbs)

/-- The servo's new state for one accepted offset: i, f, the run toward lock, the holdover timer and the held offset
(R121, R122, R124). [DEDUCED, log 20] -/
def servoTake (kp ki lockThr now tMeas : Nat) (tick o : Int) (t : TbSt) : TbSt :=
  let i0 := if t.servo = .holdover then -(t.freq * 2 ^ 24) else t.integ
  let run0 := if t.servo = .holdover then 0 else t.run
  let near : Bool := decide (o.natAbs ≤ lockThr * 65536)
  let run := if near then min 8 (run0 + 1) else 0
  let i1 := servoI ki i0 o
  let t1 := match t.l1 with
    | none =>
      let f := roundFreq (servoF kp i1 o)
      { t with integ := i1, freq := f, hist := (f :: t.hist).take 16 }
    | some l => { t with freq := freqClamp (l + roundFreq (clampI (-(10000 * 2 ^ 32)) (10000 * 2 ^ 32) (-(kp * o)))) }
  { t1 with
    run := run
    servo := if run = 8 then .locked else .acquiring
    valid := t.valid || decide (run = 8)
    holdFrom := now, ofs := o, ofsTime := tMeas, ofsTick := tick, refused := false, held := true }

/-- The device tick at which an offset was measured, from its time on the time base (R125). -/
def measTick (n tMeas : Nat) (s : State) : Int := (s.ticks : Int) - nsTicks (tbNs n s - tMeas)

/-- Records a refused offset: jump_refused, TBn_REFUSED and TBn_OFS with refused set; nothing of the servo changes (R123). [DEDUCED, log 14] -/
def refuseOffset (n : Nat) (o : Int) (tMeas : Nat) (s : State) : State :=
  bump (tbBase n + 0x48) (setTb n (fun t =>
    { t with jumpSeen := true, ofs := o, ofsTime := tMeas, ofsTick := measTick n tMeas s, refused := true, held := true }) s)

/-- Hands an offset, in pips, to the servo of a time base: not while REFIN is lost (R141) or with source NONE (R118);
refused above the jump limit (R123). [DESIGN CHOICE, log 21] -/
def offerOffset (n : Nat) (o : Int) (tMeas : Nat) (s : State) : State :=
  if ! s.time.pllLock || decide (tbSrc n s = 0) then s
  else if jumps n o s then refuseOffset n o tMeas s
  else setTb n (servoTake (reg (tbBase n + 0x14) s) (reg (tbBase n + 0x18) s) (rfld (tbBase n + 0x28) 31 16 s)
    s.ticks tMeas (measTick n tMeas s) o) s

/-- The mean of the servo frequencies held, or the current one when there is none (R124). -/
def holdFreq (t : TbSt) : Int := if t.hist.isEmpty then t.freq else divOpen t.hist.sum t.hist.length

/-- Entry to HOLDOVER (R124). [DEDUCED, log 20] -/
def enterHoldover (t : TbSt) : TbSt :=
  { t with servo := .holdover, freq := if t.l1.isSome then t.freq else holdFreq t, holdSeen := true, run := 0 }

/-- A change of source (R119). [DEDUCED, log 20] -/
def changeSource (src now : Nat) (t : TbSt) : TbSt :=
  { t with servo := if src = 0 then .free else .acquiring, integ := -(t.freq * 2 ^ 24), holdFrom := now, hist := [], run := 0 }

/-- What a write of TBn_CTL does besides storing it: a change of source, and validity when it sets the source to NONE
(R113, R119). -/
def tbCtlEffect (n old new : Nat) (s : State) : State :=
  let so := bits old 27 25; let sn := bits new 27 25
  let s1 := if so = sn ∧ bits old 23 17 = bits new 23 17 then s else setTb n (changeSource sn s.ticks) s
  if sn = 0 then setTb n (fun t => { t with valid := true }) s1 else s1

/-! ### Layer-1 syntonization (R136) -/

/-- The port of a time base that is in TIME_RECEIVER. -/
def receiverPort (n : Nat) (s : State) : Option Nat :=
  (s.time.ptps.find? (fun e => decide (e.2.state = .receiver) && decide (rfld (ptpBase e.1) 29 27 s = n))).map (·.1)

/-- Takes up or gives up the recovered clock: in force while l1_synt is set and lane 0 of the receiver port has lock. The
recovered frequency is the partner's: a free value within what TBn_FREQ can hold (R136, R153) [DESIGN CHOICE, log 21]; given up, the time
base runs at the clamped negative of the integral term until the next offset [DESIGN CHOICE, log 146]. -/
def l1Update (n : Nat) (s : State) : State :=
  let on : Bool := bit (reg (tbBase n) s) 24 && (match receiverPort n s with
    | some p => bit (port p s).laneLock 0
    | none => false)
  match (tb n s).l1, on with
  | none, true =>
    let (w, s1) := takeFree s
    setTb n (fun t => { t with l1 := some (freqClamp w.toInt), freq := freqClamp w.toInt }) s1
  | some _, false =>
    setTb n (fun t => { t with l1 := none, freq := roundFreq (clampI (-servoMax) servoMax (-t.integ)) }) s
  | _, _ => s

/-! ### Synthesizers (R145–R148) -/

def synBase (m : Nat) : Nat := 0x12800 + m * 0x100

def syn (m : Nat) (s : State) : SynSt := mget {} s.time.syns m
def setSyn (m : Nat) (f : SynSt → SynSt) (s : State) : State := setTime (fun t => { t with syns := mmod {} t.syns m f }) s
/-- The time base of a synthesizer. -/
def synTb (m : Nat) (s : State) : Nat := rfld (synBase m) 30 28 s

/-- A relock begins: the output is held low until lock plus settle and the gate (R146); with en 0 the output is off. -/
def synBegin (m : Nat) (s : State) : State :=
  if bit (reg (synBase m) s) 31 then
    setSyn m (fun y => { y with
      stage := .relock, since := s.ticks, locked := false, gated := true, relocks := (y.relocks + 1) % 65536 }) s
  else setSyn m (fun y => { y with stage := .idle, locked := false, gated := false }) s

/-- A relock or a switch-off is asked for: it begins at the output's next falling edge, at once while the output is low (R146, R148).
[DESIGN CHOICE, log 147] -/
def synRelock (m : Nat) (s : State) : State :=
  if (syn m s).level then setSyn m (fun y => { y with stage := .asked }) s else synBegin m s

/-- Relocks every enabled synthesizer that satisfies a test. -/
def synRelockAll (p : Nat → Bool) (s : State) : State :=
  (List.range 4).foldl (fun s m => if bit (reg (synBase m) s) 31 && p m then synRelock m s else s) s

/-- The commit of a SYNm_CTL write with en 1: period and phase as written take effect and the output relocks; with en 0 the
output goes off (R146). [DEDUCED, log 116] -/
def synCtlEffect (m new : Nat) (s : State) : State :=
  synRelock m (if bit new 31 then
    setSyn m (fun y => { y with
      period := reg (synBase m + 4) s ||| reg (synBase m + 8) s <<< 32,
      phase := reg (synBase m + 12) s ||| reg (synBase m + 16) s <<< 32 }) s
  else s)

/-- Half periods of a synthesizer's waveform up to a time: an even number ends at a rising edge, an odd one at a falling edge (R145). -/
def synHalf (y : SynSt) (t : Int) : Int :=
  2 * ((t - y.phase) / y.period) + (if (y.period / 2 : Nat) ≤ (t - y.phase) % y.period then 1 else 0)

/-- The output rises at a time: it will fall half a period later (R145). -/
def synRise (m : Nat) (at_ : Int) (s : State) : State :=
  emit (.refout m true at_) (setSyn m (fun y => { y with level := true, fallAt := s.ticks + nsTicks (y.period / 2 / 65536) }) s)
def synFall (m : Nat) (at_ : Int) (s : State) : State := emit (.refout m false at_) (setSyn m (fun y => { y with level := false }) s)

/-- One tick of a synthesizer (R145, R146): a running output shows the edges its time base has passed since `was`; an output that waits
for its falling edge falls at it, and what was asked for begins. -/
def synTick (was : State) (m : Nat) (s : State) : State :=
  let y := syn m s
  match y.stage with
  | .asked => if y.fallAt ≤ s.ticks then synBegin m (synFall m (tbPips (synTb m s) s) s) else s
  | .idle =>
    if y.locked ∧ y.period ≠ 0 then
      let h0 := synHalf y (tbPips (synTb m s) was); let h1 := synHalf y (tbPips (synTb m s) s)
      (List.range (min 4 (h1 - h0).toNat)).foldl (fun (s : State) (i : Nat) =>
        let h : Int := h0 + 1 + i
        let e : Int := h / 2 * y.period + y.phase
        if h % 2 = 0 then synRise m e s else synFall m (e + (y.period / 2 : Nat)) s) s
    else s
  | _ => s

/-! ### Timed launches (R102, R149–R152) -/

/-- A launch entry's time in pips. -/
def launchPips (l : Launch) : Nat := l.time.ns * 65536 + l.time.pips

/-- Pips until a launch entry is due on its own time base. [DEDUCED, log 16] -/
def launchLeft (l : Launch) (s : State) : Int := (launchPips l : Int) - tbPips l.tb s

/-- Inserts an entry behind those due no later (R102). [DEDUCED, log 16] -/
def launchInsert (l : Launch) (s : State) : List Launch → List Launch
  | [] => [l]
  | x :: q => if launchLeft l s < launchLeft x s then l :: x :: q else x :: launchInsert l s q

/-- 2,147,483,647 ns (R114). -/
def farNs : Int := 2147483647

/-- Sorts launch entries by launch time, those of equal times in their order (R102). -/
def launchSort (s : State) (q : List Launch) : List Launch := q.foldl (fun l x => launchInsert x s l) []

/-- The entry of a queue that may start now (R150, R152): the first that is late and waits to be sent, or has fallen due. -/
def launchReady (q : List Launch) (s : State) : Option Launch :=
  q.find? (fun l => l.late || (decide (launchLeft l s ≤ 0) && decide (-131072 ≤ launchLeft l s)))

/-- Removes a launch entry by its command. -/
def launchDrop (p : Nat) (jseq : Nat) (s : State) : State :=
  setPort p (fun x => { x with launchQ := x.launchQ.filter (fun l => l.src.jseq != jseq) }) s

/-- Applies the late policy to a queued entry: DROP completes it with LATE, SEND_LATE marks it to be sent (R152). -/
def launchLate (p : Nat) (l : Launch) (s : State) : State :=
  if l.sendLate then
    setPort p (fun x => { x with launchQ := x.launchQ.map (fun y =>
      if y.src.jseq = l.src.jseq then { y with late := true } else y) }) s
  else complete l.src .late 0 (launchDrop p l.src.jseq s)

/-- Re-evaluates the launch entries of a port on a time base that was stepped (R127), and sorts the queue anew (R102). -/
def launchStep (n p : Nat) (s : State) : State :=
  let s1 := (port p s).launchQ.foldl (fun s l =>
    if l.tb ≠ n ∨ l.late then s
    else if launchLeft l s ≤ 0 then launchLate p l s
    else if farNs * 65536 < launchLeft l s then complete l.src .tooFar 0 (launchDrop p l.src.jseq s)
    else s) s
  if (port p s1).launchQ.any (fun l => decide (l.tb = n)) then
    setPort p (fun x => { x with launchQ := launchSort s1 x.launchQ }) s1
  else s1

/-- A port's MAC rate in Gbit/s for a speed code (R63). [DEDUCED, log 18] -/
def portGbps : Nat → Nat
  | 1 => 400 | 2 => 200 | 3 => 200 | 4 => 100 | 5 => 100 | 6 => 100 | 7 => 50 | 8 => 25 | _ => 1

/-- Nanoseconds a frame of n bytes (without FCS) occupies the line, with FCS, preamble and gap. [DEDUCED, log 18] -/
def frameNs (p n : Nat) (s : State) : Nat := (n + 24) * 8 / portGbps (port p s).speed + 1

/-- The port may start a frame now: its link is up, its transmit side settled and free, and no PAUSE holds it (R64, R101, R103). [DEDUCED, log 65] -/
def canTx (p : Nat) (s : State) : Bool :=
  (port p s).linkUp && ! (port p s).txSettle && decide ((port p s).busyUntil ≤ s.ticks) && decide ((port p s).pause ≤ s.ticks)

def isGcm (x : TxItem) : Bool := match x with | .gcm _ => true | _ => false

/-- A frame of n bytes leaves as an output: it occupies the line and counts in TX_FRAMES. -/
def sendOut (p : Nat) (o : Output) (n : Nat) (s : State) : State :=
  bump (portCnt p 14) (emit o (setPort p (fun x => { x with busyUntil := s.ticks + nsTicks (frameNs p n s) }) s))
def sendFrame (p : Nat) (bytes : List Nat) (s : State) : State := sendOut p (.frame p bytes) bytes.length s

/-! ### Link ports (R280, R282–R284) -/

/-- The device number in messages: 0 while none is valid (R242, R280). -/
def deviceNum (s : State) : Nat := if bit (reg 0x84004 s) 31 then rfld 0x84004 11 0 s else 0
def setSys (f : SysSt → SysSt) (s : State) : State := { s with sys := f s.sys }
def link (p : Nat) (s : State) : LinkSt := mget {} s.sys.links p
def setLink (p : Nat) (f : LinkSt → LinkSt) (s : State) : State :=
  setSys (fun y => { y with links := mmod {} y.links p f }) s
/-- CCU_SYS_LINKp. -/
def linkReg (p : Nat) : Nat := 0x84800 + 4 * p
/-- A link port (R282). -/
def linkPort (p : Nat) (s : State) : Bool := bit (reg (portBase p) s) 23
/-- The device of the last link HELLO is this device itself (R284). -/
def linkDup (p : Nat) (s : State) : Bool := bit (reg 0x84004 s) 31 && decide (rfld (linkReg p) 27 16 s = deviceNum s)
/-- It is not the device that CCU_SYS_PEERp expects (R284). -/
def linkWrong (p : Nat) (s : State) : Bool :=
  let peer := reg (0x84404 + 8 * p) s
  bit peer 31 && decide (bits peer 27 16 ≠ rfld (linkReg p) 27 16 s)
/-- System-up (R284): the physical link and a link HELLO of the right device; a device numbered invalidly still holds its links. -/
def sysUp (p : Nat) (s : State) : Bool :=
  linkPort p s && (port p s).linkUp && (link p s).up && ! linkDup p s && ! linkWrong p s
/-- What the link HELLO that holds is found to be now: dup_device and miswired (R284). -/
def linkJudge (p : Nat) (s : State) : State :=
  if (link p s).up then
    let s1 := if linkDup p s then setFld (linkReg p) 29 29 1 s else s
    if linkWrong p s then setFld (linkReg p) 30 30 1 s1 else s1
  else s
/-- The link HELLO of a port holds no longer (R284, R303): hello_lost is set where it was system-up. -/
def linkLost (p : Nat) (s : State) : State :=
  match mfind s.sys.links p with
  | some l =>
    if l.up then
      let s1 := setLink p (fun x => { x with up := false }) s
      if linkDup p s ∨ linkWrong p s then s1 else setFld (linkReg p) 28 28 1 s1
    else s
  | none => s

/-! ### Addresses and packets (R68, R104, R337) -/

/-- The port's MAC address (R104). -/
def portMac (p : Nat) (s : State) : Nat := reg (portBase p + 8) s ||| reg (portBase p + 12) s <<< 32

/-- The port's IPv6 address: register 0 holds bits [127:96] (R104). -/
def portIp6 (p : Nat) (s : State) : Nat :=
  reg (portBase p + 0x14) s <<< 96 ||| reg (portBase p + 0x18) s <<< 64 ||| reg (portBase p + 0x1C) s <<< 32
    ||| reg (portBase p + 0x20) s

/-- The ones' complement sum of 16-bit words in network byte order. -/
def sum16 : List Nat → Nat
  | [] => 0
  | [a] => a * 256
  | a :: b :: l => a * 256 + b + sum16 l

/-- Folds a ones' complement sum to 16 bits. -/
def fold16 (v : Nat) : Nat :=
  let a := v % 65536 + v / 65536
  let b := a % 65536 + a / 65536
  b % 65536 + b / 65536

/-- A UDP datagram a port sends: addresses, UDP ports, payload; `w` fills the network header fields that the spec leaves open. [DEDUCED, log 61] -/
def udpPacket (p : Nat) (v6 : Bool) (mac ip sport dport w : Nat) (pay_ : List Nat) (s : State) : List Nat :=
  let ulen := pay_.length + 8
  let udp (ck : Nat) : List Nat := beBytes 2 sport ++ beBytes 2 dport ++ beBytes 2 ulen ++ beBytes 2 ck ++ pay_
  let sum (a b : List Nat) : Nat :=
    let c := 65535 - fold16 (sum16 a + sum16 b + 17 + ulen + sum16 (udp 0))
    if c = 0 then 65535 else c
  let eth (ty : Nat) : List Nat := beBytes 6 mac ++ beBytes 6 (portMac p s) ++ beBytes 2 ty
  if v6 then
    let a := beBytes 16 (portIp6 p s); let d := beBytes 16 ip
    eth 0x86DD ++ beBytes 4 (6 <<< 28 ||| bits w 27 0) ++ beBytes 2 ulen ++ [17, bits w 35 28] ++ a ++ d ++ udp (sum a d)
  else
    let a := beBytes 4 (reg (portBase p + 0x10) s); let d := beBytes 4 ip
    let h (ck : Nat) : List Nat := [0x45, bits w 7 0] ++ beBytes 2 (20 + ulen) ++ beBytes 2 (bits w 23 8)
      ++ beBytes 2 (bits w 24 24 <<< 14) ++ [bits w 35 28, 17] ++ beBytes 2 ck ++ a ++ d
    eth 0x0800 ++ h (65535 - fold16 (sum16 (h 0))) ++ udp (sum a d)

/-! ### PTP (R128–R138) -/

def ptp (p : Nat) (s : State) : PtpSt := mget {} s.time.ptps p
def setPtp (p : Nat) (g : PtpSt → PtpSt) (s : State) : State :=
  setTime (fun t => { t with ptps := mmod {} t.ptps p g }) s
def ptpTb (p : Nat) (s : State) : Nat := rfld (ptpBase p) 29 27 s
def ptpRole (p : Nat) (s : State) : Nat := rfld (ptpBase p) 31 30 s
def ptpP2p (p : Nat) (s : State) : Bool := decide (rfld (ptpBase p) 24 23 s = 1)
/-- The transport of a port (R130): 0 L2, 1 UDP over IPv4, 2 UDP over IPv6. -/
def ptpTransport (p : Nat) (s : State) : Nat := rfld (ptpBase p) 26 25 s
/-- Two-step on transmit (R133, R155). -/
def ptpTwoStep (p : Nat) (s : State) : Bool := ! bit (reg (ptpBase p) s) 22
/-- The unicast peer's address (R130, R155). -/
def ptpPeer (p : Nat) (s : State) : Nat :=
  let r (i : Nat) : Nat := reg (ptpBase p + 8 + 4 * i) s
  if ptpTransport p s = 1 then r 0 else r 0 <<< 96 ||| r 1 <<< 64 ||| r 2 <<< 32 ||| r 3
/-- Domain number and sdoId of a time base (R129, R153). -/
def ptpDomain (n : Nat) (s : State) : Nat := rfld (tbBase n + 0x70) 31 24 s
def ptpSdo (n : Nat) (s : State) : Nat := rfld (tbBase n + 0x70) 23 12 s
/-- The identity the device's own messages carry on a port. [PRESUMED, log 15] -/
def ptpSelf (p : Nat) : Nat := Config.clockIdentity.toNat * 65536 + p + 1

/-- The time stamp a message carries, in pips (R110). -/
def ptpStamp (m : PtpMsg) : Int := (m.sec * 10 ^ 9 + m.nsec : Nat) * 65536

/-- A message with a stamp in the IEEE 1588 view, its fraction of a nanosecond added to the correction, or taken from it for a receipt
(R110, R133). -/
def ptpStamped (m : PtpMsg) (stamp : Int) (receipt : Bool) : PtpMsg :=
  let ns := wrapN 64 (stamp / 65536)
  { m with sec := ns / 10 ^ 9, nsec := ns % 10 ^ 9, corr := if receipt then m.corr - stamp % 65536 else m.corr + stamp % 65536 }

/-- A message that the unit does not support, or from another address over UDP, is dropped and counted (R128, R131). -/
def ptpUnsupported (p : Nat) (s : State) : State :=
  setPtp p (fun x => { x with unsupported := min 65535 (x.unsupported + 1) }) s

/-- The port runs PTP: the unit is released, the link up, the role not DISABLED (R44, R137). -/
def ptpRuns (p : Nat) (s : State) : Bool := s.time.running && (port p s).linkUp && decide (ptpRole p s ≠ 0)

/-- delayAsymmetry, signed pips (R134, R155). -/
def ptpAsym (p : Nat) (s : State) : Int := sgn 32 (reg (ptpBase p + 4) s)

/-- The offset of R134. -/
def ptpOffset (t1 t2 mpd corr asym : Int) : Int := t2 - t1 - mpd - corr - asym

/-- One filtered path delay sample: m + (sample − m) / 2^k, or the sample itself when fresh (R134). -/
def mpdFilter (k : Nat) (fresh : Bool) (m sample : Int) : Int :=
  if fresh then sample else m + divOpen (sample - m) (2 ^ k)

/-- Takes a path delay sample; a port in UNCALIBRATED is then in TIME_RECEIVER (R134, R137). -/
def ptpDelaySample (p : Nat) (sample : Int) (s : State) : State :=
  let s1 := setPtp p (fun x => { x with
    mpd := mpdFilter (rfld (ptpBase p) 9 7 s) x.fresh x.mpd sample, fresh := false,
    state := if x.state = .uncalibrated then .receiver else x.state }) s
  l1Update (ptpTb p s) s1

/-- The servo receives a Sync's offset from the receiver port of a PTP time base (R118, R134), unless a forced step came
between its measurement and its use (R126). -/
def ptpSteer (p : Nat) (t1 t2 corr : Int) (measTick : Nat) (s : State) : State :=
  let n := ptpTb p s
  let stale : Bool := match (tb n s).stepTick with
    | some k => decide (measTick < k)
    | none => false
  if (ptp p s).state = .receiver ∧ tbSrc n s = 1 ∧ ! stale then
    offerOffset n (ptpOffset t1 t2 (ptp p s).mpd corr (ptpAsym p s)) (wrapN 64 (t2 / 65536)) s
  else s

/-- Whether data set a, received on port pa, is better than b, received on pb, and whether only by topology (R129; the data set comparison
of IEEE 1588-2019). [PRESUMED, log 15] -/
def annBetter (a : Announce) (pa : Nat) (b : Announce) (pb : Nat) : Bool × Bool :=
  if a.gmId ≠ b.gmId then
    (if a.priority1 ≠ b.priority1 then decide (a.priority1 < b.priority1)
     else if a.clockClass ≠ b.clockClass then decide (a.clockClass < b.clockClass)
     else if a.accuracy ≠ b.accuracy then decide (a.accuracy < b.accuracy)
     else if a.variance ≠ b.variance then decide (a.variance < b.variance)
     else if a.priority2 ≠ b.priority2 then decide (a.priority2 < b.priority2)
     else decide (a.gmId < b.gmId), false)
  else if b.stepsRemoved + 1 < a.stepsRemoved then (false, false)
  else if a.stepsRemoved + 1 < b.stepsRemoved then (true, false)
  else if b.stepsRemoved < a.stepsRemoved then (false, decide (a.sender < ptpSelf pa))
  else if a.stepsRemoved < b.stepsRemoved then (true, decide (b.sender < ptpSelf pb))
  else if a.sender ≠ b.sender then (decide (a.sender < b.sender), true)
  else (decide (pa < pb), true)

/-- The data set of the device itself for a time base (R135). -/
def ownAnnounce (n : Nat) (s : State) : Announce :=
  let q := reg (tbBase n + 0x74) s
  { priority1 := bits q 31 24, priority2 := bits q 23 16, clockClass := bits q 15 8, accuracy := bits q 7 0,
    variance := rfld (tbBase n + 0x78) 15 0 s, gmId := Config.clockIdentity.toNat, stepsRemoved := 0,
    sender := Config.clockIdentity.toNat * 65536, utcOffset := (tb n s).utc, leap61 := (tb n s).leap61,
    leap59 := (tb n s).leap59, flags := Config.announceFlags.toNat / 4, timeSource := Config.timeSource.toNat }

/-- 2^l seconds in device ticks, for a signed log interval (R133). -/
def logTicks (l : Int) : Nat := if 0 ≤ l then msTicks 1000 * 2 ^ l.toNat else msTicks 1000 / 2 ^ (-l).toNat
def syncTicks (p : Nat) (s : State) : Nat := logTicks (sgn 4 (rfld (ptpBase p) 21 18 s))
def announceTicks (p : Nat) (s : State) : Nat := logTicks (sgn 4 (rfld (ptpBase p) 17 14 s))
def delayTicks (p : Nat) (s : State) : Nat := logTicks (sgn 4 (rfld (ptpBase p) 13 10 s))

/-- The ports of a time base whose role is not DISABLED and whose link is up. -/
def ptpPorts (n : Nat) (s : State) : List Nat :=
  (List.range 128).filter (fun p => decide (ptpRole p s ≠ 0 ∧ ptpTb p s = n) && (port p s).linkUp)

/-- A foreign master whose Announce qualifies (IEEE 1588-2019): two of them within four announce intervals, less than 255 steps away. [PRESUMED, log 15] -/
def qualified (p : Nat) (s : State) (f : Foreign) : Bool :=
  decide (f.ann.stepsRemoved < 255) && (match f.prev with
    | some k => decide (s.ticks ≤ k + 4 * announceTicks p s)
    | none => false)

/-- The best of Announces, each with its port. [PRESUMED, log 15] -/
def bestOf : List (Announce × Nat) → Option (Announce × Nat)
  | [] => none
  | (a, p) :: l => match bestOf l with
    | none => some (a, p)
    | some (b, q) => if (annBetter a p b q).1 then some (a, p) else some (b, q)

/-- The best qualified Announce of a port, Erbest. [PRESUMED, log 15] -/
def erBest (p : Nat) (s : State) : Option Announce :=
  (bestOf (((ptp p s).foreign.filter (qualified p s)).map (fun f => (f.ann, p)))).map (·.1)

/-- The Announce of the transmitter a port follows, if it has been heard. -/
def parentOf (p : Nat) (s : State) : Option Announce :=
  ((ptp p s).foreign.find? (fun f => decide (f.ann.sender = (ptp p s).parent))).map (·.ann)

/-- A port takes the receiver state, following the sender of an Announce, or any: UNCALIBRATED, unless it follows that one already (R134,
R137). -/
def toReceiver (a : Option Announce) (x : PtpSt) : PtpSt :=
  let parent := match a with | some a => a.sender | none => x.parent
  if (x.state = .receiver ∨ x.state = .uncalibrated) ∧ x.parent = parent then x
  else { x with state := .uncalibrated, fresh := true, parent := parent }

/-- A port is to become a transmitter by way of PRE_TIME_TRANSMITTER (R137). -/
def toPre (now : Nat) (x : PtpSt) : PtpSt :=
  if x.state = .transmitter ∨ x.state = .preTransmitter then x else { x with state := .preTransmitter, preAt := now }

/-- A port awaits Announce messages (R137). -/
def toListen (now : Nat) (x : PtpSt) : PtpSt :=
  if x.state = .listening then x else { x with state := .listening, preAt := now }

/-- The state the decision algorithm gives an AUTO port (R129): `d0` the own data set, `eb` the best of all ports, `er` the port's own, `noRx` a
static receiver exists, `timedOut` the port's own announce receipt timed out. [PRESUMED, log 15] -/
def autoState (p now : Nat) (d0 : Announce) (eb : Option (Announce × Nat)) (er : Option Announce) (noRx timedOut : Bool) (x : PtpSt) : PtpSt :=
  match er with
  | none =>
    if x.state = .initializing ∨ (x.state = .listening ∧ ! timedOut) ∨ x.state = .faulty ∨ x.state = .disabled then
      toListen now x
    else match eb with
      | some (b, pb) => if (annBetter d0 0 b pb).1 ∨ d0.clockClass < 128 then { x with state := .transmitter } else toPre now x
      | none => { x with state := .transmitter }
  | some a =>
    if 1 ≤ d0.clockClass ∧ d0.clockClass ≤ 127 then
      { x with state := if (annBetter d0 0 a p).1 then .transmitter else .passive }
    else match eb with
      | none => { x with state := .transmitter }
      | some (b, pb) =>
        if (annBetter d0 0 b pb).1 then { x with state := .transmitter }
        else if pb = p then (if noRx then { x with state := .passive } else toReceiver (some a) x)
        else if annBetter b pb a p = (true, true) then { x with state := .passive }
        else toPre now x

/-- The state decision algorithm over the ports of a time base (R129): at most one port takes the receiver state. -/
def ptpDecide (n : Nat) (timedOut : Option Nat) (s : State) : State :=
  let ps := ptpPorts n s
  let d0 := ownAnnounce n s
  let noRx := ps.any (fun p => decide (ptpRole p s = 2))
  let eb := bestOf ((ps.filter (fun p => decide (ptpRole p s = 1))).filterMap (fun p => (erBest p s).map (fun a => (a, p))))
  let s1 := ps.foldl (fun s p =>
    if ptpRole p s = 3 then setPtp p (fun x => { x with state := .transmitter }) s
    else if ptpRole p s = 2 then setPtp p (toReceiver (erBest p s)) s
    else setPtp p (autoState p s.ticks d0 eb (erBest p s) noRx (decide (timedOut = some p))) s) s
  l1Update n s1

/-- Reports an Announce's UTC offset and leap flags when its port is the receiver (R135). -/
def takeUtc (n : Nat) (a : Announce) (s : State) : State :=
  setTb n (fun t => { t with utc := a.utcOffset, leap61 := a.leap61, leap59 := a.leap59 }) s

/-! ### PTP messages on the line (R110, R130, R133; IEEE 1588-2019) -/

/-- Message types, control fields and the rest of the header, by type. [PRESUMED, log 15] -/
def ptpCodeOf : PtpType → Nat
  | .sync => 0 | .delayReq => 1 | .pdelayReq => 2 | .pdelayResp => 3 | .followUp => 8 | .delayResp => 9 | .pdelayRespFollowUp => 10
  | .announce => 11
def ptpControl : PtpType → Nat
  | .sync => 0 | .delayReq => 1 | .followUp => 2 | .delayResp => 3 | _ => 5

/-- Event messages, which are stamped as they leave (R133). -/
def ptpEvent : PtpType → Bool
  | .sync | .delayReq | .pdelayReq | .pdelayResp => true
  | _ => false

/-- Bytes of a message. [PRESUMED, log 15] -/
def ptpMsgLen : PtpType → Nat
  | .sync | .delayReq | .followUp => 44
  | .announce => 64
  | _ => 54

/-- The log interval a message of a port states (R133). [PRESUMED, log 15] -/
def ptpLogOf (p : Nat) (t : PtpType) (s : State) : Nat :=
  match t with
  | .sync | .followUp => wrapN 8 (sgn 4 (rfld (ptpBase p) 21 18 s))
  | .announce => wrapN 8 (sgn 4 (rfld (ptpBase p) 17 14 s))
  | .delayResp => wrapN 8 (sgn 4 (rfld (ptpBase p) 13 10 s))
  | _ => 0x7F

/-- The bytes of a PTP message (R110, R129, R133, R135). [PRESUMED, log 15] -/
def ptpBytes (p : Nat) (m : PtpMsg) (s : State) : List Nat :=
  let a : Announce := m.ann.getD (ownAnnounce (ptpTb p s) s)
  let flags := b1 m.twoStep * 2 + (if ptpTransport p s = 0 then 0 else 4)
  [m.sdo / 256 * 16 + ptpCodeOf m.type, 0x12] ++ beBytes 2 (ptpMsgLen m.type) ++ [m.domain, m.sdo % 256, flags,
      if m.type = .announce then b1 a.leap61 + 2 * b1 a.leap59 + 4 * a.flags else 0]
    ++ beBytes 8 (wrapN 64 m.corr) ++ [0, 0, 0, 0] ++ beBytes 10 m.sender ++ beBytes 2 m.seq
    ++ [ptpControl m.type, ptpLogOf p m.type s] ++ beBytes 6 m.sec ++ beBytes 4 m.nsec
    ++ (match m.type with
      | .announce => beBytes 2 a.utcOffset ++ [0, a.priority1, a.clockClass, a.accuracy] ++ beBytes 2 a.variance ++ [a.priority2]
          ++ beBytes 8 a.gmId ++ beBytes 2 a.stepsRemoved ++ [a.timeSource]
      | .delayResp | .pdelayResp | .pdelayRespFollowUp => beBytes 10 m.req
      | .pdelayReq => beBytes 10 0
      | _ => [])

/-- The frame of a PTP message by the port's transport (R130): at layer 2, or over UDP to the peer, whose MAC address and header fields
the spec leaves open and `w` and `mac` fill. [PRESUMED, log 15] -/
def ptpFrameOf (p : Nat) (m : PtpMsg) (mac w : Nat) (s : State) : List Nat :=
  let b := ptpBytes p m s
  let peer : Bool := match m.type with | .pdelayReq | .pdelayResp | .pdelayRespFollowUp => true | _ => false
  if ptpTransport p s = 0 then
    beBytes 6 (if peer then 0x0180C200000E else 0x011B19000000) ++ beBytes 6 (portMac p s) ++ beBytes 2 0x88F7 ++ b
      ++ List.replicate (46 - b.length) 0
  else
    let u := if ptpEvent m.type then 319 else 320
    udpPacket p (decide (ptpTransport p s = 2)) mac (ptpPeer p s) u u w b s

/-- Its length. [DEDUCED, log 153] -/
def ptpFrameLen (p : Nat) (m : PtpMsg) (s : State) : Nat :=
  match ptpTransport p s with
  | 0 => 14 + max 46 (ptpMsgLen m.type)
  | 1 => 42 + ptpMsgLen m.type
  | _ => 62 + ptpMsgLen m.type

/-- A message of the port's own, before its stamp (R129). -/
def ptpOwn (p : Nat) (type : PtpType) (seq : Nat) (s : State) : PtpMsg :=
  { type := type, seq := seq, sec := 0, nsec := 0, corr := 0, twoStep := false, sender := ptpSelf p,
    domain := ptpDomain (ptpTb p s) s, sdo := ptpSdo (ptpTb p s) s }

/-- Queues a PTP message on a port (R101). -/
def ptpQueue (p : Nat) (m : PtpMsg) (s : State) : State :=
  setPort p (fun x => { x with txQ := x.txQ ++ [.ptp m] }) s

end Sys2Proof.Machine
end

