-- ==== Sys2Proof/Machine/FastOps.lean ====
section
/-! DEFINITION. The fast path of TRIGIO: stretched inputs, vetoes, firings, outputs, and the inputs it and the TRIGIN lines
offer to the CCU (R264–R274). -/

namespace Sys2Proof.Machine

def trigBase : Nat := 0x70000
def trigInBase (n : Nat) : Nat := trigBase + n * 0x40
def fastBase (k : Nat) : Nat := trigBase + 0x400 + k * 0x20
def strbBase (n : Nat) : Nat := trigBase + 0x600 + n * 4
def trigOutBase (n : Nat) : Nat := trigBase + 0x800 + n * 0x10

def setTrig (f : TrigSt → TrigSt) (s : State) : State := { s with trig := f s.trig }
def trigIn (n : Nat) (s : State) : TrigIn := mget {} s.trig.ins n
def setTrigIn (n : Nat) (f : TrigIn → TrigIn) (s : State) : State :=
  setTrig (fun t => { t with ins := mmod {} t.ins n f }) s
def fast (k : Nat) (s : State) : FastSt := mget {} s.trig.fasts k
def setFast (k : Nat) (f : FastSt → FastSt) (s : State) : State :=
  setTrig (fun t => { t with fasts := mmod {} t.fasts k f }) s
def trigOut (n : Nat) (s : State) : TrigOut := mget {} s.trig.outs n
def setTrigOut (n : Nat) (f : TrigOut → TrigOut) (s : State) : State :=
  setTrig (fun t => { t with outs := mmod {} t.outs n f }) s

/-- Device time in twentieths of a nanosecond. [DEDUCED, log 43] -/
def fnow (s : State) : Nat := s.ticks * 32
/-- Twentieths of a nanosecond of quarter-nanoseconds and of nanoseconds. -/
def qns (n : Nat) : Nat := n * 5
def fns (n : Nat) : Nat := n * 20

/-- A programmed duration holds to within 0.25 ns + 2% (R268). -/
def fastSlack (len : Nat) : Nat := 5 + len / 50
/-- The least time of an end due at `stop` that began `len` ago. [DEDUCED, log 43] -/
def fastTol (stop len : Nat) : Nat := stop - fastSlack len
/-- That end is past its latest time. [DEDUCED, log 43] -/
def fastPast (stop len : Nat) (s : State) : Bool := decide (stop + fastSlack len ≤ fnow s)
/-- How far a time of the fast path lies before the present, in pips. -/
def fastAgo (at_ : Nat) (s : State) : Int := ((fnow s - at_) * 65536 / 20 : Nat)

/-- An input reaches the CCU's inputs (R250): it is numbered. [DESIGN CHOICE, log 42] -/
def ccuArrive (x : CcuInput) (s : State) : State :=
  setTrig (fun t => { t with arrivals := t.arrivals ++ [{ x with num := t.nextInput, since := s.ticks }], nextInput := t.nextInput + 1 }) s

/-- Offers a TRIGIN edge (group 4) or a firing (group 5), stamped against every time base at once, to the conditions of each
(R112, R250): one input per time base. -/
def ccuOffer (group index : Nat) (err : Int) (s : State) : State :=
  (List.range 8).foldl (fun s b =>
    let st := wrapN 80 ((tbPips b s : Int) + err)
    ccuArrive ⟨group, index, 0, 0, 0, 0, b, (st / 65536) % 2 ^ 32, st % 65536, 0, 0⟩ s) s

/-- Drives a TRIGOUT line, with inversion, while its driver is on (R272). -/
def driveOut (n : Nat) (active : Bool) (s : State) : State :=
  let c := reg (trigOutBase n) s
  if bit c 31 then emit (.trigOut n (active != bit c 30)) s else s

/-- The TRIGOUT lines of a source (R272). -/
def outsOf (src : Nat) (sel : Option Nat) (s : State) : List Nat :=
  (List.range 8).filter (fun n =>
    let c := reg (trigOutBase n) s
    decide (bits c 29 27 = src) && (match sel with | some k => decide (bits c 26 24 = k) | none => true))

/-- A fast condition's required and veto inputs as masks: lines 0 to 7, strobes 8 to 11 (R267, R279). -/
def fastReq (k : Nat) (s : State) : Nat :=
  let r := reg (fastBase k + 4) s
  bits r 31 24 + bits r 15 12 * 256
def fastVeto (k : Nat) (s : State) : Nat :=
  let r := reg (fastBase k + 4) s
  bits r 23 16 + bits r 11 8 * 256

/-- Active stretched required inputs. -/
def fastActive (k : Nat) (s : State) : Nat := (fast k s).req.length

/-- A veto is active: a stretched veto pulse, or a stuck veto line (R266, R267). -/
def fastVetoed (k : Nat) (s : State) : Bool :=
  ! (fast k s).veto.isEmpty
    || (List.range 8).any (fun n => bit (fastVeto k s) n && (trigIn n s).stuck)

/-- A completion at a time (R267, R269): a firing, or BLOCKED during the output or the dead time. [DEDUCED, log 43] -/
def fastComplete (k at_ : Nat) (s : State) : State :=
  let f := fast k s
  if f.out.isSome ∨ f.dead.isSome then bump (fastBase k + 0x18) s
  else
    let s1 := setFast k (fun f => { f with out := some (at_ + fns (rfld (fastBase k + 8) 15 8 s)) }) s
    ccuOffer 5 k (-fastAgo at_ s) ((outsOf 1 (some k) s).foldl (fun s n => driveOut n true s) (bump (fastBase k + 0x10) s1))

/-- The lengths of a condition's stretched pulses, of its output and of its dead time (R267, R269). -/
def fastLen (k : Nat) (veto : Bool) (s : State) : Nat := qns (if veto then rfld (fastBase k + 8) 23 16 s else rfld (fastBase k + 8) 31 24 s)
def fastWidth (k : Nat) (s : State) : Nat := fns (rfld (fastBase k + 8) 15 8 s)
def fastDead (k : Nat) (s : State) : Nat := fns (4 * rfld (fastBase k + 8) 7 0 s)

/-- A required input's stretched pulse starts or restarts at a time, and the condition may complete (R267). -/
def fastStart (k inp at_ : Nat) (s : State) : State :=
  let was := fastActive k s
  let s1 := setFast k (fun f => { f with req := mput f.req inp (at_ + fastLen k false s) }) s
  let m := rfld (fastBase k + 4) 3 0 s
  if was < m ∧ m ≤ fastActive k s1 ∧ ! fastVetoed k s1 then fastComplete k at_ s1 else s1

/-- Starts the required pulses whose req_delay has passed, each at its own time (R267). -/
def fastAdvance (k : Nat) (s : State) : State :=
  ((fast k s).delayed.filter (fun d => decide (d.1 ≤ fnow s))).foldl (fun s d => fastStart k d.2 d.1 s)
    (setFast k (fun f => { f with delayed := f.delayed.filter (fun d => decide (fnow s < d.1)) }) s)

/-- The output of a condition falls at a time, and its dead time begins (R269). -/
def fastLow (k at_ : Nat) (s : State) : State :=
  let low := (outsOf 1 (some k) s).foldl (fun s n => driveOut n false s) s
  setFast k (fun f => { f with out := none, dead := if fastDead k s = 0 then none else some (at_ + fastDead k s) }) low

/-- What is past its latest time by now ends (R268): stretched pulses, the output, the dead time. [DEDUCED, log 43] -/
def fastExpire (k : Nat) (s : State) : State :=
  let s1 := setFast k (fun f => { f with
    req := f.req.filter (fun e => ! fastPast e.2 (fastLen k false s) s)
    veto := f.veto.filter (fun e => ! fastPast e.2 (fastLen k true s) s) }) s
  let s2 := match (fast k s1).out with
    | some stop => if fastPast stop (fastWidth k s) s then fastLow k (stop + fastSlack (fastWidth k s)) s1 else s1
    | none => s1
  match (fast k s2).dead with
  | some stop => if fastPast stop (fastDead k s) s then setFast k (fun f => { f with dead := none }) s2 else s2
  | none => s2

/-- A rising edge of a line (0 to 7) or strobe (8 to 11) at one fast condition (R267): vetoes act without delay. -/
def fastEdge (inp k : Nat) (s : State) : State :=
  if bit (reg (fastBase k) s) 31 then
    let s0 := fastAdvance k s
    let s1 := if bit (fastVeto k s) inp then
        setFast k (fun f => { f with veto := mput f.veto inp (fnow s + qns (rfld (fastBase k + 8) 23 16 s)) }) s0
      else s0
    if bit (fastReq k s) inp then
      let d := rfld (fastBase k + 12) 7 0 s
      if d = 0 then fastStart k inp (fnow s) s1
      else setFast k (fun f => { f with delayed := f.delayed ++ [(fnow s + qns d, inp)] }) s1
    else s1
  else s

/-- A rising edge at every fast condition. -/
def fastEdges (inp : Nat) (s : State) : State := (List.range 8).foldl (fun s k => fastEdge inp k s) s

/-- Strobes of a stream whose batch closed and passed the engine gate; none in Vigil (R270). A strobe is a pulse of 8 ns: a batch that closes
within it prolongs it and makes no edge. [DEDUCED, log 43] -/
def strobes (id : Nat) (s : State) : State :=
  if s.mode.current = .vigil then s
  else (List.range 4).foldl (fun s n =>
    if bit (reg (strbBase n) s) 31 ∧ rfld (strbBase n) 19 0 s = id then
      let high : Bool := decide (fnow s < mget 0 s.trig.strobes n)
      let s1 := setTrig (fun t => { t with strobes := mput t.strobes n (fnow s + fns 8) }) s
      if high then s1 else fastEdges (8 + n) s1
    else s) s

end Sys2Proof.Machine
end

