-- ==== Sys2Proof/Machine/Operands.lean ====
section
/-! DEFINITION. The operand forms of the Nyiva engine: tagged words and their checks, poison, traps, stack depths, the syllables
of a chord and its decoding (05_nyiva_engine.md, 06_chords_scalar_control.md). -/

namespace Sys2Proof.Machine

/-! ### Tagged words (R159) -/

/-- The tags of R159; the reserved tags 0xD and 0xE are one case. -/
inductive Tag where
  | empty | int | uint | time | dur | s16x2 | s8x4 | fix | handle | stream | class_ | bool | addr | reserved | poison
  deriving DecidableEq

/-- The tag of a tag value. -/
def tagOfCode : Nat → Tag
  | 0 => .empty | 1 => .int | 2 => .uint | 3 => .time | 4 => .dur | 5 => .s16x2 | 6 => .s8x4 | 7 => .fix | 8 => .handle
  | 9 => .stream | 10 => .class_ | 11 => .bool | 12 => .addr | 15 => .poison | _ => .reserved

/-- The value of a tag. -/
def tagCode : Tag → Nat
  | .empty => 0 | .int => 1 | .uint => 2 | .time => 3 | .dur => 4 | .s16x2 => 5 | .s8x4 => 6 | .fix => 7 | .handle => 8
  | .stream => 9 | .class_ => 10 | .bool => 11 | .addr => 12 | .reserved => 13 | .poison => 15

/-- Tag value of a word. -/
def tagNum (w : EWord) : Nat := w.toNat / 2 ^ 36
def tagOf (w : EWord) : Tag := tagOfCode (tagNum w)
/-- Payload of a word, 36 bits. -/
def pay (w : EWord) : Nat := w.toNat % 2 ^ 36
/-- Payload bits [31:0]. [DEDUCED, log 138] -/
def pay32 (w : EWord) : Nat := w.toNat % 2 ^ 32
/-- A word of a tag and a payload. -/
def mkW (t : Tag) (p : Nat) : EWord := BitVec.ofNat 40 (tagCode t * 2 ^ 36 + p % 2 ^ 36)

def wInt (v : Int) : EWord := mkW .int (wrapN 36 v)
def wUint (n : Nat) : EWord := mkW .uint (n % 2 ^ 32)
def wDur (v : Int) : EWord := mkW .dur (wrapN 36 v)
def wFix (v : Int) : EWord := mkW .fix (wrapN 36 v)
def wBool (b : Bool) : EWord := mkW .bool (b1 b)
def wAddr (sp off : Nat) : EWord := mkW .addr (sp * 2 ^ 32 + off % 2 ^ 32)
def wTime (valid : Bool) (tb ns : Nat) : EWord := mkW .time (b1 valid * 2 ^ 35 + tb % 8 * 2 ^ 32 + ns % 2 ^ 32)
/-- A POISON word of an origin code (R163). -/
def wPoison (origin low : Nat) : EWord := mkW .poison (origin * 4096 + low % 4096)

/-- The signed 32-bit value of an INT or DUR. -/
def iVal (w : EWord) : Int := sgn 32 (pay32 w)
/-- The Q19.16 value of a FIX. -/
def fVal (w : EWord) : Int := sgn 36 (pay w)
def tValid (w : EWord) : Bool := bit w.toNat 35
def tBase (w : EWord) : Nat := bits w.toNat 34 32
def aSpace (w : EWord) : Nat := bits w.toNat 35 32

/-- The payload check of R159. [DEDUCED, log 138] -/
def payOk (w : EWord) : Bool :=
  match tagOf w with
  | .int | .dur => decide (pay w / 2 ^ 32 = if bit w.toNat 31 then 15 else 0)
  | .uint => decide (pay w < 2 ^ 32)
  | .class_ => decide (pay w < 2 ^ 24)
  | .bool => decide (pay w < 2)
  | .addr => decide (aSpace w ≤ 2)
  | .poison => decide (pay w < 2 ^ 16)
  | _ => true

/-- The origin RANGE of an operation at a chord address (R163). -/
def pRange (pc : Nat) : EWord := wPoison 2 pc
/-- The origin TIME of an invalid TIME (R163). -/
def pTime (w : EWord) : EWord := wPoison 3 (tBase w)

/-! ### Traps (R180) -/

/-- The trap codes of R180. -/
inductive TrapCode where
  | illegal | tag | stackOver | stackUnder | loopDepth | memRange | ecc | poisonUse | fenceTimeout | handle
  deriving DecidableEq

/-- The value of a trap code (R180). -/
def trapNum : TrapCode → Nat
  | .illegal => 1 | .tag => 2 | .stackOver => 3 | .stackUnder => 4 | .loopDepth => 5 | .memRange => 6 | .ecc => 7
  | .poisonUse => 8 | .fenceTimeout => 9 | .handle => 10

/-- A trap and its DETAIL; none where the spec names no payload, address or offset that offends. -/
structure Trap where
  code : TrapCode
  detail : Option Nat
  /-- The uncorrectable location that was read (R167, R168). -/
  loc : Option Nat := none

/-- The result of a syllable: a value, or the trap it raises. -/
abbrev TR (α : Type) := Except Trap α

def trapTag {α : Type} (w : EWord) : TR α := .error ⟨.tag, some (pay32 w), none⟩
def trapMix {α : Type} : TR α := .error ⟨.tag, none, none⟩
def trapPoison {α : Type} (w : EWord) : TR α := .error ⟨.poisonUse, some (pay32 w), none⟩
def trapRange {α : Type} (off : Nat) : TR α := .error ⟨.memRange, some (off % 2 ^ 32), none⟩
def trapUnder {α : Type} : TR α := .error ⟨.stackUnder, none, none⟩

/-- The depth checks of R157, R200 and R201: p popped, q pushed, on a stack of depth d and capacity cap; `x` tells that
every stack an XFER reads holds an entry. -/
def depthOk (p q d cap : Nat) (x : Bool) : TR Unit :=
  if d < p ∨ ! x then trapUnder else if cap < d - p + q then .error ⟨.stackOver, none, none⟩ else .ok ()

/-- A copied word may not carry a reserved tag (R160). -/
def copyOk (w : EWord) : TR Unit := if tagOf w = .reserved then trapTag w else .ok ()

/-- Every word of a list may be copied. -/
def copiesOk : List EWord → TR Unit
  | [] => .ok ()
  | w :: l => do copyOk w; copiesOk l

/-- TAG for the operands that fail: DETAIL is the payload of the one that does; with several, the spec does not say whose. [DEDUCED, log 33] -/
def tagFault {α : Type} (k : TR α) : List EWord → TR α
  | [] => k
  | [w] => trapTag w
  | _ => trapMix

/-- Propagating operations (R164): a reserved tag raises TAG; else the origin of the first POISON operand, deepest first, is the result;
else the payloads are checked and the operation runs. [DEDUCED, log 138] -/
def propagate (ws : List EWord) (k : TR EWord) : TR EWord :=
  tagFault (match ws.find? (fun w => decide (tagOf w = .poison)) with
    | some w => .ok (mkW .poison (pay w % 65536))
    | none => tagFault k (ws.filter (fun w => ! payOk w)))
    (ws.filter (fun w => decide (tagOf w = .reserved)))

/-- Consuming operations (R164): an operand that the operation accepts in no combination raises TAG; then a POISON operand
raises POISON_USE. [DEDUCED, log 138] -/
def consumes {α : Type} (ok : EWord → Bool) (ws : List EWord) (k : TR α) : TR α :=
  tagFault (match ws.find? (fun w => decide (tagOf w = .poison)) with
    | some w => trapPoison w
    | none => k) (ws.filter (fun w => ! payOk w || (decide (tagOf w ≠ .poison) && ! ok w)))

/-- A word of one tag, consumed. -/
def wantTag {α : Type} (t : Tag) (w : EWord) (k : TR α) : TR α := consumes (fun w => decide (tagOf w = t)) [w] k

/-- An INT or UINT, consumed: its value. -/
def wantNum {α : Type} (w : EWord) (k : Int → TR α) : TR α :=
  consumes (fun w => decide (tagOf w = .int ∨ tagOf w = .uint)) [w]
    (k (if tagOf w = .int then iVal w else (pay32 w : Int)))

/-- An ADDR of one space with an offset below a bound (R166, R208, R225): another tag raises TAG, another space or an offset
at or beyond the bound raises MEM_RANGE. -/
def wantAddr {α : Type} (sp bound : Nat) (w : EWord) (k : Nat → TR α) : TR α :=
  wantTag .addr w (if aSpace w ≠ sp ∨ bound ≤ pay32 w then trapRange (pay32 w) else k (pay32 w))

/-! ### Syllables and chords (R193–R197) -/

/-- An operation syllable with its literal: string (0 C, 1 S, 2 V, 3 M), op field, literal, position in the chord. -/
structure Syl where
  str : Nat
  op : Nat
  lit : Nat
  raw : Nat
  pos : Nat

/-- What an opcode table says of an op value: reserved, a must-be-zero fault, or the number of its extension syllables. -/
inductive OpForm where
  | undef | mbz | ext (n : Nat)

/-- The C string (R209, R211, R212). -/
def cForm (op : Nat) : OpForm :=
  let g := op / 512; let x := op % 512
  if g = 0 then
    if x ≤ 6 ∨ (8 ≤ x ∧ x ≤ 0xD) ∨ (0x10 ≤ x ∧ x ≤ 0x17) ∨ (0x21 ≤ x ∧ x ≤ 0x2F) then .ext 0 else .undef
  else if g ≤ 3 then .ext 0
  else if g ≤ 7 then if 2 ≤ x then .mbz else .ext 1
  else if g ≤ 10 then if x = 0 then .mbz else .ext (if g = 8 then 1 else if g = 9 then 2 else 0)
  else .undef

/-- An op value lies in one of the ranges. -/
def inRanges : List (Nat × Nat) → Nat → Bool
  | [], _ => false
  | (a, b) :: l, x => decide (a ≤ x ∧ x ≤ b) || inRanges l x

/-- The op values of the S string (R203–R208). -/
def sOps : List (Nat × Nat) :=
  [(0, 5), (0x10, 0x1F), (0x100, 0x1FF), (0x201, 0x203), (0x211, 0x213), (0x223, 0x223), (0x300, 0x301), (0x310, 0x31C),
   (0x31F, 0x325), (0x328, 0x332), (0x340, 0x342), (0x350, 0x354), (0x360, 0x360), (0x400, 0x40C), (0x410, 0x415),
   (0x500, 0x51F), (0x600, 0x61F), (0x700, 0x7FF), (0x800, 0x805), (0x808, 0x808), (0x900, 0x901), (0x908, 0x909),
   (0x910, 0x910), (0x918, 0x91B), (0x920, 0x920), (0xA00, 0xAFF), (0xB00, 0xB07)]

/-- The op values of the V string (R222). -/
def vOps : List (Nat × Nat) :=
  [(0, 5), (0x100, 0x180), (0x200, 0x27F), (0x280, 0x280), (0x300, 0x301), (0x308, 0x30B), (0x310, 0x310), (0x400, 0x402),
   (0x408, 0x409), (0x40C, 0x40C), (0x410, 0x411), (0x500, 0x50A), (0x510, 0x530), (0x540, 0x541), (0x600, 0x601),
   (0x700, 0x703), (0x800, 0x8FF), (0x900, 0x900)]

/-- The op values of the M string (R225). -/
def mOps : List (Nat × Nat) :=
  [(0, 3), (0x100, 0x100), (0x110, 0x130), (0x200, 0x204), (0x300, 0x302), (0x400, 0x401), (0x500, 0x501), (0x600, 0x600),
   (0x700, 0x702)]

/-- The form of an op value of a string. -/
def opForm (str op : Nat) : OpForm :=
  match str with
  | 0 => cForm op
  | 1 => if inRanges sOps op then
      .ext (if op / 16 = 0x20 ∨ op / 16 = 0x21 then op % 4 else if op = 0x223 then 3 else 0)
    else .undef
  | 2 => if inRanges vOps op then .ext 0 else .undef
  | _ => if inRanges mOps op then .ext 0 else .undef

/-- A complete literal lies in the range its opcode allows (R203): S.LITI 3 and S.LITU 3 fit 32 bits, S.LITW 40 bits. -/
def litOk (str op lit : Nat) : Bool :=
  if str = 1 ∧ op = 0x203 then decide (-2147483648 ≤ sgn 45 lit ∧ sgn 45 lit ≤ 2147483647)
  else if str = 1 ∧ op = 0x213 then decide (lit < 2 ^ 32)
  else if str = 1 ∧ op = 0x223 then decide (lit < 2 ^ 40)
  else true

/-- The outcome of decoding a chord. -/
inductive Dec where
  | ok (syls : List Syl) (len : Nat)
  | illegal (fault raw pos : Nat)
  | ecc (addr : Nat)

/-- Reads n extension syllables of a literal: the literal, whether the chord ends, and the next position; or the fault. -/
def extRead (fetch : Nat → Option Nat) (pc : Nat) : Nat → Nat → Nat → Except Dec (Nat × Bool × Nat)
  | 0, pos, lit => .ok (lit, false, pos)
  | n + 1, pos, lit =>
    if pos = 8 ∨ 0xFFFF < pc + pos then .error (.illegal 1 0 8)
    else match fetch (pc + pos) with
      | none => .error (.ecc (pc + pos))
      | some e =>
        let l := lit * 2 ^ 15 + e % 2 ^ 15
        if 2 ^ 15 ≤ e then (if n = 0 then .ok (l, true, pos + 1) else .error (.illegal 5 e pos))
        else extRead fetch pc n (pos + 1) l

/-- The scan of R195 from a position, with the last string met and the syllables found. -/
def scan (fetch : Nat → Option Nat) (pc : Nat) : Nat → Nat → Option Nat → List Syl → Dec
  | 0, _, _, _ => .illegal 1 0 8
  | fuel + 1, pos, last, acc =>
    if pos = 8 ∨ 0xFFFF < pc + pos then .illegal 1 0 8
    else match fetch (pc + pos) with
      | none => .ecc (pc + pos)
      | some s =>
        let str := bits s 14 13; let op := s % 2 ^ 13; let stop := decide (2 ^ 15 ≤ s)
        if (match last with | some l => decide (str ≤ l) | none => false) then .illegal 2 s pos
        else match opForm str op with
          | .undef => .illegal 3 s pos
          | .mbz => .illegal 4 s pos
          | .ext n =>
            if stop ∧ 0 < n then .illegal 5 s pos
            else match extRead fetch pc n (pos + 1) 0 with
              | .error e => e
              | .ok (lit, done, p) =>
                if ! litOk str op lit then .illegal 5 s pos
                else
                  let acc' := acc ++ [⟨str, op, lit, s, pos⟩]
                  if done ∨ stop then .ok acc' p else scan fetch pc fuel p (some str) acc'

/-- A micro-routine's operation (R235). -/
def isMicro (y : Syl) : Bool :=
  (decide (y.str = 2) && decide (y.op = 0x900))
    || (decide (y.str = 3) && decide (y.op = 0x501 ∨ (0x700 ≤ y.op ∧ y.op ≤ 0x702)))

/-- Decodes the chord at an address (R195–R197, R235): a micro-routine stands alone in its chord. [DEDUCED, log 31] -/
def decodeChord (fetch : Nat → Option Nat) (pc : Nat) : Dec :=
  match scan fetch pc 9 0 none [] with
  | .ok syls len =>
    match syls with
    | _ :: y :: _ => if syls.any isMicro then .illegal 2 y.raw y.pos else .ok syls len
    | _ => .ok syls len
  | d => d

end Sys2Proof.Machine
end

