-- ==== Sys2Proof/Machine/Flags.lean ====
section
/-! DEFINITION. Sample flags and the lanes of vectors: the flag codes of R83, their combination, saturation and its CLIP flag,
and vectors as lanes of values and flags (R218, R219). -/

namespace Sys2Proof.Machine

/-- Lane flags in increasing rank (R83): 0 CLEAN, 1 CLIP, 2 GAP, 3 POISON. The highest of the contributing flags. -/
def flagMax (fs : List Nat) : Nat := fs.foldl max 0

/-- A lane: its value and its flag. -/
abbrev Lane := Int × Nat

/-- Lanes of a vector tag (R218); 0 for EMPTY and reserved tags. -/
def laneCount : Nat → Nat
  | 1 => 256 | 2 => 128 | 3 => 64 | 4 => 64 | _ => 0

/-- Lane width in bits of a vector tag. -/
def laneBits : Nat → Nat
  | 1 => 8 | 2 => 16 | _ => 32

/-- The flag lanes as they read: those beyond a type's lanes read CLEAN (R218). -/
def shownFlags (v : Vec) : BitVec 512 :=
  if laneCount v.tag = 0 then v.flags else BitVec.ofNat 512 (v.flags.toNat % 4 ^ laneCount v.tag)

/-- n lanes of w bits of a vector's data and flags. -/
def lanesFrom (w : Nat) : Nat → Nat → Nat → List Lane
  | 0, _, _ => []
  | n + 1, d, f => let l : Lane := (sgn w (d % 2 ^ w), f % 4)
    l :: lanesFrom w n (d / 2 ^ w) (f / 4)

/-- The lanes of a vector. -/
def lanes (v : Vec) : List Lane := lanesFrom (laneBits v.tag) (laneCount v.tag) v.data.toNat v.flags.toNat

/-- Packs lane values. -/
def packVals (w : Nat) : List Lane → Nat
  | [] => 0
  | l :: m => wrapN w l.1 + 2 ^ w * packVals w m

/-- Packs lane flags. -/
def packFlags : List Lane → Nat
  | [] => 0
  | l :: m => l.2 % 4 + 4 * packFlags m

/-- A POISON lane holds the value 0 (R219). -/
def cleanLane (l : Lane) : Lane := if l.2 = 3 then (0, 3) else l

/-- The vector of a tag and its lanes. -/
def mkVec (tag : Nat) (ls : List Lane) : Vec :=
  let l := (ls.take (laneCount tag)).map cleanLane
  { tag := tag, data := BitVec.ofNat 2048 (packVals (laneBits tag) l), flags := BitVec.ofNat 512 (packFlags l) }

/-- Clamps to a signed width; a lane that saturates is flagged CLIP, or higher (R219). -/
def satLane (w : Nat) (v : Int) (f : Nat) : Lane :=
  let lo : Int := -(2 ^ (w - 1) : Nat); let hi : Int := (2 ^ (w - 1) : Nat) - 1
  (clampI lo hi v, if v < lo ∨ hi < v then max f 1 else f)

/-- Saturates to a signed width without a flag. -/
def satTo (w : Nat) (v : Int) : Int := clampI (-(2 ^ (w - 1) : Nat)) ((2 ^ (w - 1) : Nat) - 1) v

/-- One lane as a scalar word (R219): GAP or POISON gives POISON with origin INGEST; V8, V16, V32 an INT, VQ16 a FIX. -/
def laneWord (tag : Nat) (l : Lane) : EWord :=
  if 2 ≤ l.2 then wPoison 1 0 else if tag = 4 then wFix l.1 else wInt l.1

end Sys2Proof.Machine
end

