-- ==== Sys2Proof/Machine/EngOps.lean ====
section
/-! DEFINITION. Access to the engines: physical slots, task slots, the local stores with their uncorrectable locations, buffers
and handles, and the device's own time as a program sees it (R165–R168, R191, R227, R317). -/

namespace Sys2Proof.Machine

/-- The key of a physical engine slot. -/
def ekey (q k : Nat) : Nat := q * 64 + k

/-- A physical slot before anything was written: slots 0 to 47 serve their logical engine and are powered (R191). [DESIGN CHOICE, log 7] -/
def engInit (key : Nat) : EngSt :=
  { powered := decide (key % 64 < 48), logical := if key % 64 < 48 then some (48 * (key / 64) + key % 64) else none }

def eng (key : Nat) (s : State) : EngSt := mget (engInit key) s.engines key
def setEng (key : Nat) (f : EngSt → EngSt) (s : State) : State :=
  { s with engines := mmod (engInit key) s.engines key f }
def task (key slot : Nat) (s : State) : Task := mget {} (eng key s).tasks slot
def setTask (key slot : Nat) (f : Task → Task) (s : State) : State :=
  setEng key (fun e => { e with tasks := mmod {} e.tasks slot f }) s
/-- Counter i of R192 of a physical slot. -/
def engCnt (key i : Nat) : Nat := engBase (key / 64) (key % 64) + 0x200 + 8 * i

/-- The physical slot of a logical engine (R191). -/
def engOf (logical : Nat) (s : State) : Nat := ekey (logical / 48) (mget (logical % 48) s.engMap logical)

/-! ### Local stores (R165–R167) -/

/-- The empty data-store word. [DESIGN CHOICE, log 7] -/
def emptyWord : EWord := 0

/-- Key of a location in an engine's list of uncorrectable locations. [DESIGN CHOICE, log 37] -/
def badKey (store addr : Nat) : Nat := store * 2 ^ 24 + addr

/-- The location of entry i (from the bottom) of a latch store of the slot: 3 S, 4 M, 5 loop levels, return entries from 4,
the saved context at 15, 6 V stack entries while the task runs. [DESIGN CHOICE, log 37] -/
def latchKey (store slot i : Nat) : Nat := badKey store (slot * 16 + i)

/-- Entries lo to hi of a latch store of a slot have been written anew (R168). -/
def wroteMarks (store slot lo hi : Nat) (m : FMap Bool) : FMap Bool :=
  m.filter (fun e => ! (decide (e.1 / 2 ^ 24 = store ∧ e.1 % 2 ^ 24 / 16 = slot) && decide (lo ≤ e.1 % 16 ∧ e.1 % 16 ≤ hi)))

/-- A location that holds a single-bit error, as a trap names it: reading it corrects it, and the chord goes on (R167). -/
def softAt (k : Nat) : Nat := 2 ^ 32 + k
def softOf (t : Trap) : Option Nat :=
  match t.loc with
  | some k => if 2 ^ 32 ≤ k then some (k - 2 ^ 32) else none
  | none => none

/-- Reading an uncorrectable location raises ECC; a single-bit error is corrected first (R167). -/
def eccOk (e : EngSt) (store addr : Nat) : TR Unit :=
  if (mfind e.bad (badKey store addr)).isSome then .error ⟨.ecc, some addr, some (badKey store addr)⟩
  else if e.soft.contains (badKey store addr) then .error ⟨.ecc, some addr, some (softAt (badKey store addr))⟩
  else .ok ()

/-- A location that is written or corrected is good again. -/
def goodLoc (k : Nat) (e : EngSt) : EngSt := { e with bad := mdel e.bad k, soft := e.soft.filter (fun x => x != k) }

/-- A single-bit error of an engine's store is corrected, written back and counted (R167). -/
def fixLoc (key k : Nat) (s : State) : State := bump (engCnt key 4) (setEng key (goodLoc k) s)

/-- A word of the data store, copied (R160, R208). -/
def dataRd (e : EngSt) (addr : Nat) : TR EWord := do
  let w := mget emptyWord e.data addr
  copyOk w
  eccOk e 0 addr
  return w

/-- A syllable of the program store; none where it is uncorrectable (R197). -/
def progRd (e : EngSt) (addr : Nat) : Option Nat :=
  if (mfind e.bad (badKey 2 addr)).isSome then none else some (mget 0 e.prog addr)

/-- A location of the vector store. -/
def vecRd (e : EngSt) (addr : Nat) : TR Vec := do
  let v := mget {} e.vec addr
  if 5 ≤ v.tag then trapMix else .ok ()
  eccOk e 1 addr
  return v

/-- Writes a data-store word; the location is good again. -/
def dataWr (key addr : Nat) (w : EWord) (s : State) : State :=
  setEng key (fun e => { goodLoc (badKey 0 addr) e with data := stPut emptyWord e.data addr w }) s

def progWr (key addr v : Nat) (s : State) : State :=
  setEng key (fun e => { goodLoc (badKey 2 addr) e with prog := stPut 0 e.prog addr (v % 65536) }) s

def vecWr (key addr : Nat) (v : Vec) (s : State) : State :=
  setEng key (fun e => { goodLoc (badKey 1 addr) e with vec := stPut {} e.vec addr v }) s

/-! ### What a chord reads (R198) -/

/-- The state a chord sees: everything as it stood at chord start. -/
structure ECtx where
  key : Nat
  slot : Nat
  pc : Nat
  s : State

def ECtx.e (c : ECtx) : EngSt := eng c.key c.s
def ECtx.t (c : ECtx) : Task := task c.key c.slot c.s
/-- The pre-chord top of S, M and V for an XFER. -/
def ECtx.topS (c : ECtx) : TR EWord := match c.t.sStk with | w :: _ => .ok w | [] => trapUnder
def ECtx.topM (c : ECtx) : TR EWord := match c.t.mStk with | w :: _ => .ok w | [] => trapUnder
def ECtx.topV (c : ECtx) : TR Vec := match c.t.vStk with | v :: _ => .ok v | [] => trapUnder
/-- S.NOW of a time base (R113, R208). -/
def ECtx.now (c : ECtx) (b : Nat) : EWord := wTime (tb b c.s).valid b (tbNs b c.s)
/-- The quadrant of the engine. -/
def ECtx.q (c : ECtx) : Nat := c.key / 64
/-- The logical engine of the slot, as seen in its quadrant (R191, R231). -/
def ECtx.local_ (c : ECtx) : Nat := (c.e.logical.getD 0) % 48

/-- What a syllable gives: the new stack of its string and its effect outside that stack. -/
structure Eff (α : Type) where
  stk : List α
  fx : State → State := id

/-! ### Buffers and handles (R227, R317–R320) -/

/-- The key of a buffer: handle bits [23:0]. -/
def hKey (w : EWord) : Nat := w.toNat % 2 ^ 24
def hGen (w : EWord) : Nat := bits w.toNat 35 24
def hQuad (key : Nat) : Nat := bits key 23 22
def hPool (key : Nat) : Nat := bits key 21 18
/-- The HANDLE word of a buffer. -/
def wHandle (key gen : Nat) : EWord := mkW .handle (gen % 4096 * 2 ^ 24 + key)
/-- The null handle of a quadrant's engine: pool 0 (R227). -/
def nullHandle (q : Nat) : EWord := wHandle (q * 2 ^ 22) 0

def buf (key : Nat) (s : State) : Buf := mget {} s.bufs key
def setBuf (key : Nat) (f : Buf → Buf) (s : State) : State := { s with bufs := mmod {} s.bufs key f }

/-- Owner codes of R319. -/
def ownEngine (local_ slot : Nat) : Nat := 0x1000 + local_ * 64 + slot
def ownEvb : Nat := 0x2000
def ownHost (f : Nat) : Nat := 0x3000 + f
def ownRouter : Nat := 0x4000
def ownPort (p : Nat) : Nat := 0x5000 + p

/-- The size of a quadrant's shared buffer space in the present mode, bytes (R306). -/
def bufSpace (q : Nat) (s : State) : Nat :=
  (match s.mode.current with
  | .bringup => 32
  | .vigil => if s.mode.vigilQ = q then 30 else 32
  | .acquire => 10
  | .retain | .calibrate => 30
  | .safe => 32) * 2 ^ 20

/-- Bytes rounded up to 64-byte granules (R317). -/
def granules (n : Nat) : Nat := (n + 63) / 64 * 64

/-- Live buffers of a pool of a quadrant. -/
def liveBufs (q pool : Nat) (s : State) : List (Nat × Buf) :=
  s.bufs.filter (fun e => decide (hQuad e.1 = q ∧ hPool e.1 = pool) && decide (e.2.owner ≠ 0))

/-- Bytes of the shared buffer space in use by pools 1 to 3 (R317). -/
def bufUsed (q : Nat) (s : State) : Nat :=
  ((s.bufs.filter (fun e => decide (hQuad e.1 = q ∧ 1 ≤ hPool e.1 ∧ hPool e.1 ≤ 3) && decide (e.2.owner ≠ 0))).map
    (fun e => granules e.2.size)).sum

/-- The format is complex (R72). -/
def fmtComplex (f : Nat) : Bool := decide (f = 2 ∨ f = 4 ∨ f = 6 ∨ f = 7)

/-- Bytes of work buffer that a full batch of a stream takes: header, sample plane and flag plane (R89). -/
def batchRoom (c : StreamCfg) : Nat :=
  let n := c.batch * (if fmtComplex c.format then 2 else 1)
  64 + granules (n * (if c.w8 then 1 else 2)) + granules ((n + 3) / 4)

/-- Streams of a quadrant whose open batch has its work buffer: each is allocated as the batch opens (R89, R92). -/
def openBatches (q : Nat) (s : State) : List (Nat × Stream) :=
  s.streams.filter (fun e => decide (e.1 / 16384 = q) && e.2.open_.isSome && e.2.noBuf.isNone)

/-- Bytes of the shared buffer space that open batches hold. -/
def openBytes (q : Nat) (s : State) : Nat := ((openBatches q s).map (fun e => batchRoom e.2.cfg)).sum

/-- The first index of a pool that is free (R317). -/
def freeIndex (m : FMap Buf) (base : Nat) : Nat → Nat → Option Nat
  | 0, _ => none
  | n + 1, i => if (mget {} m (base + i)).owner = 0 then some i else freeIndex m base n (i + 1)

/-- Allocates a buffer of a pool: pools 2 and 3 leave 2 MiB of the space free; a pool holds 262,144 buffers (R317, R318). [DESIGN CHOICE, log 8] -/
def allocBuf (q pool size owner : Nat) (s : State) : Option (Nat × State) :=
  let left := bufSpace q s - bufUsed q s - openBytes q s
  let reserve := if pool = 2 ∨ pool = 3 then 2 * 2 ^ 20 else 0
  let live := (liveBufs q pool s).length
  if (pool ≤ 3 ∧ left < granules size + reserve) ∨ 262144 ≤ live then none
  else match freeIndex s.bufs (q * 2 ^ 22 + pool * 2 ^ 18) (live + 1) 0 with
    | none => none
    | some i =>
      let key := q * 2 ^ 22 + pool * 2 ^ 18 + i
      some (key, setBuf key (fun b => { gen := b.gen, owner := owner, size := size }) s)

/-- Frees a buffer: its generation increments, wrapping at 4,096 (R320). [DESIGN CHOICE, log 8] -/
def freeBuf (key : Nat) (s : State) : State :=
  setBuf key (fun b => { gen := (b.gen + 1) % 4096 }) s

/-- Captures the first refused release and counts it (R320, R321). -/
def refuseRelease (st : Status) (key gen who : Nat) (s : State) : State :=
  let q := hQuad key; let base := evbBase q; let b := buf key s
  let s1 := match st with
    | .notOwner => bump (evbCnt q 14) s
    | .stale => bump (evbCnt q 15) s
    | _ => s
  if bit (reg (base + 0x1C) s1) 0 then s1
  else setReg (base + 0x1C) 1 (setReg (base + 0x18) (b.gen <<< 16 ||| b.owner)
    (setReg (base + 0x14) ((gen % 4096) <<< 16 ||| who) (setReg (base + 0x10) (statusCode st <<< 24 ||| key) s1)))

/-- What a release of a handle by an owner code is decided (R320). [DEDUCED, log 129] -/
def releaseVerdict (key gen who : Nat) (s : State) : Status :=
  let pool := hPool key; let b := buf key s
  if pool = 0 ∨ 5 ≤ pool then .range
  else if b.owner = 0 ∨ b.gen ≠ gen then .stale
  else if b.owner ≠ who then .notOwner
  else .ok

/-- Writes bytes of a buffer; a byte written whole is good again. [DESIGN CHOICE, log 11] -/
def bufWr (key off : Nat) (l : List Nat) (s : State) : State :=
  setBuf key (fun b => { b with
    bytes := l.zipIdx.foldl (fun m e => stPut (0 : Byte) m (off + e.2) (BitVec.ofNat 8 e.1)) b.bytes,
    bad := b.bad.filter (fun x => ! decide (off ≤ x ∧ x < off + l.length)) }) s

/-- n bytes of a buffer. -/
def bufRd (b : Buf) (off n : Nat) : List Nat := (List.range n).map (fun i => (mget (0 : Byte) b.bytes (off + i)).toNat)

/-- A task's use of a handle (R227): for reads a loan or ownership, for writes ownership. -/
def handleUse {α : Type} (c : ECtx) (w : EWord) (write : Bool) (k : Nat → Buf → TR α) : TR α :=
  wantTag .handle w (
    let key := hKey w; let b := buf key c.s
    let refuse (st : Status) : TR α := .error ⟨.handle, some (statusCode st * 2 ^ 24 + key), none⟩
    let owns : Bool := decide (b.owner = ownEngine c.local_ c.slot)
    let lent : Bool := c.t.loans.any (fun l => l.buf == key && l.gen == b.gen)
    if hPool key = 0 ∨ 3 ≤ hPool key ∨ hQuad key ≠ c.q then refuse .range
    else if b.owner = 0 ∨ b.gen ≠ hGen w then refuse .stale
    else if owns ∨ (lent ∧ ! write) then k key b
    else refuse .notOwner)

end Sys2Proof.Machine
end

