-- ==== Sys2Proof/Machine/HistOps.lean ====
section
/-! DEFINITION. HIST: what a closed batch becomes in the SRAM ring or in HBM blocks, shedding, quotas and recycling, and the
look-up of a window of a stream on its own grid (R306–R316, R330). -/

namespace Sys2Proof.Machine

def hist (q : Nat) (s : State) : HistSt := mget {} s.evt.hist q
def setEvt (f : EvtSt → EvtSt) (s : State) : State := { s with evt := f s.evt }
def setHist (q : Nat) (f : HistSt → HistSt) (s : State) : State :=
  setEvt (fun e => { e with hist := mmod {} e.hist q f }) s

/-- Where history goes in the present mode (R306–R308): the SRAM ring with its blocks, HBM, or nowhere. -/
inductive HistMode where
  | none | ring (blocks : Nat) | hbm
  deriving DecidableEq

/-- History blocks of the ring in 4 KiB: 22 MiB in Acquire, 2 MiB in the Vigil quadrant (R306). -/
def histModeOf (m : Mode) (vigilQ q : Nat) : HistMode :=
  match m with
  | .acquire => .ring 5632
  | .vigil => if vigilQ = q then .ring 512 else .none
  | .retain | .calibrate => .hbm
  | _ => .none

def histMode (q : Nat) (s : State) : HistMode := histModeOf s.mode.current s.mode.vigilQ q

/-- Components per instant. -/
def cpi (complex : Bool) : Nat := if complex then 2 else 1
/-- Bytes per component. -/
def cbytes (w16 : Bool) : Nat := if w16 then 2 else 1

/-- Splits components into instants. -/
def groupComps (n : Nat) : Nat → List Comp → List (List Comp)
  | 0, _ => []
  | fuel + 1, l => if l.isEmpty then [] else l.take n :: groupComps n fuel (l.drop n)

/-- An instant that zero suppression keeps by itself (R85). -/
def zsCore (thr : Nat) (x : List Comp) : Bool :=
  x.any (fun c => decide (c.2 = 3) || decide (thr ≤ c.1.natAbs))

/-- The instants of a batch that zero suppression keeps (R85), the stream's last instant kept by itself lying `since` instants before
the batch. -/
def zsKeep (thr pre post since : Nat) (l : List (List Comp)) : List Bool :=
  let core := l.map (zsCore thr)
  if thr = 0 then l.map (fun _ => true)
  else (List.range l.length).map (fun i =>
    decide (since + i < post)
      || (List.range (pre + post + 1)).any (fun d => decide (post ≤ i + d) && core.getD (i + d - post) false))

/-- Segments of kept instants, from an index. -/
def segsOf : Nat → List (List Comp × Bool) → List (Nat × List Comp) → List (Nat × List Comp)
  | _, [], acc => acc.reverse
  | i, (x, kept) :: l, acc =>
    if kept then
      match acc with
      | (a, cs) :: r =>
        if a + cs.length / max 1 x.length = i then segsOf (i + 1) l ((a, cs ++ x) :: r)
        else segsOf (i + 1) l ((i, x) :: acc)
      | [] => segsOf (i + 1) l [(i, x)]
    else segsOf (i + 1) l acc

/-- Bytes of a stored batch: header, two planes padded to 64, and a descriptor per segment when any instant was suppressed
(R309). -/
def storedBytes (comps : Nat) (w16 : Bool) (segs : Nat) (suppressed : Bool) : Nat :=
  64 + granules (comps * cbytes w16) + granules ((comps + 3) / 4) + (if suppressed then 16 * segs else 0)

/-- A run of instants, some suppressed, as a stored batch. -/
def mkHBatch (id tb first period : Nat) (complex w16 : Bool) (l : List (List Comp × Bool)) : HBatch :=
  let segs := segsOf 0 l []
  let comps := (segs.map (fun x => x.2.length)).sum
  { id := id, complex := complex, w16 := w16, tb := tb, first := first, period := period, n := l.length, segs := segs,
    bytes := storedBytes comps w16 segs.length (l.any (fun x => ! x.2)) }

/-- The largest prefix of at most n instants whose stored bytes fit a room. -/
def fitPrefix (mk : List (List Comp × Bool) → HBatch) (room : Nat) (l : List (List Comp × Bool)) : Nat → Nat
  | 0 => 1
  | n + 1 => if (mk (l.take (n + 1))).bytes ≤ room then n + 1 else fitPrefix mk room l n

/-- A batch larger than an empty block's room is split at instant boundaries (R309). -/
def splitBatch (id tb period : Nat) (complex w16 : Bool) : Nat → Nat → List (List Comp × Bool) → List HBatch
  | 0, _, _ => []
  | fuel + 1, first, l =>
    let b := mkHBatch id tb first period complex w16 l
    if b.bytes ≤ 65472 then [b]
    else
      let n := fitPrefix (mkHBatch id tb first period complex w16) 65472 l l.length
      mkHBatch id tb first period complex w16 (l.take n)
        :: splitBatch id tb period complex w16 fuel (first + n * period) (l.drop n)

/-- The stored form of a closed data batch (R81, R85, R309). -/
def storeForm (x : Stream) (b : Batch) : List (List Comp × Bool) :=
  let l := groupComps (cpi b.complex) (b.comps.length + 1) b.comps
  l.zip (zsKeep x.cfg.zsThr x.cfg.zsPre x.cfg.zsPost x.zsSince l)

/-- Output instants of a stream that zero suppression removed from earlier batches and that this batch's first instant kept by itself
brings back: they lie within zs_pre before it (R85). Oldest first. [DESIGN CHOICE, log 142] -/
def zsBack (x : Stream) (b : Batch) : List ZsInst :=
  let core := (groupComps (cpi b.complex) (b.comps.length + 1) b.comps).map (zsCore x.cfg.zsThr)
  match core.findIdx? id with
  | some j => (x.zsTail.take (x.cfg.zsPre - j)).reverse
  | none => []

/-- Runs of brought-back instants on one grid, each a stored batch of its own, beside the batch that brought them back (R309). [DESIGN
CHOICE, log 142] -/
def backParts (x : Stream) (b : Batch) : List ZsInst → List HBatch
  | [] => []
  | z :: l =>
    let rest := backParts x b l
    match rest, l with
    | h :: r, y :: _ =>
      if z.tb = y.tb ∧ z.period = y.period ∧ z.t + z.period = y.t then
        mkHBatch x.id z.tb z.t z.period b.complex b.w16
          ((z.comps, true) :: (groupComps (cpi b.complex) (h.n + 1) ((h.segs.map (·.2)).flatten)).map (fun c => (c, true))) :: r
      else mkHBatch x.id z.tb z.t z.period b.complex b.w16 [(z.comps, true)] :: rest
    | _, _ => [mkHBatch x.id z.tb z.t z.period b.complex b.w16 [(z.comps, true)]]

/-- The removed instants that end a batch, newest first: time by index, behind those of earlier batches when it kept none (R85). -/
def zsEnd (b : Batch) (old : List ZsInst) : List (List Comp × Bool) → Nat → List ZsInst
  | [], _ => old
  | (c, kept) :: l, i =>
    zsEnd b (if kept then [] else (⟨b.tb, b.tFirst + i * b.period, b.period, c⟩ :: old).take 255) l (i + 1)

/-- What a stream keeps of zero suppression at a batch edge (R85). -/
def zsAfter (x : Stream) (b : Batch) (form : List (List Comp × Bool)) : Stream :=
  let since := form.foldl (fun n e => if zsCore x.cfg.zsThr e.1 then 0 else min 256 (n + 1)) x.zsSince
  if x.cfg.zsThr = 0 then x else { x with zsSince := since, zsTail := zsEnd b x.zsTail form 0 }

/-! ### The SRAM ring (R307) -/

/-- 4 KiB blocks of a stored batch. -/
def ringBlocks (b : HBatch) : Nat := (b.bytes + 4095) / 4096

/-- Drops the oldest batches until the ring fits. -/
def ringTrim (cap : Nat) : List HBatch → List HBatch
  | [] => []
  | b :: l => if ((b :: l).map ringBlocks).sum ≤ cap then b :: l else ringTrim cap l

def ringWrite (q cap : Nat) (b : HBatch) (s : State) : State :=
  bumpN (histCnt q 1) b.bytes (bumpN (histCnt q 0) (ringBlocks b)
    (setHist q (fun h => { h with ring := ringTrim cap (h.ring ++ [b]) }) s))

/-! ### HBM blocks, shedding and quotas (R309, R313–R316) -/

/-- Blocks of a stack (R309). -/
def stackBlocks : Nat := 368640

/-- A stream's retention quota in blocks; 0 makes it shared (R314). -/
def quotaOf (id : Nat) (s : State) : Nat := mget 0 s.evt.quota id

/-- The streams of a quadrant that a quota is set for: its table and the blocks it holds. -/
def quadStreams (q : Nat) (s : State) : List Nat :=
  ((s.streams.filter (fun e => decide (e.1 / 16384 = q))).map (·.2.id))

/-- Blocks reserved by the quotas of a quadrant's streams (R314). -/
def reservedBlocks (q : Nat) (s : State) : Nat := ((quadStreams q s).map (fun id => quotaOf id s)).sum

/-- Index of a stream's open block: its latest one. -/
def openBlock (id : Nat) (l : List HBlock) : Option HBlock := l.reverse.find? (fun b => decide (b.id = id))

/-- The first instant of a block. -/
def blockFirst (b : HBlock) : Nat := (b.bats.head?.map (·.first)).getD 0

/-- Removes the first block that satisfies a test. -/
def dropFirst (p : HBlock → Bool) : List HBlock → List HBlock
  | [] => []
  | b :: l => if p b then l else b :: dropFirst p l

/-- The first instant of a stream's oldest block (R310, R315). -/
def oldestOwn (id : Nat) : List HBlock → Option Nat
  | [] => none
  | b :: l => if b.id = id then some ((oldestOwn id l).elim (blockFirst b) (min (blockFirst b))) else oldestOwn id l

/-- Removes a stream's oldest block (R315, R316). -/
def dropOldest (id : Nat) (l : List HBlock) : List HBlock :=
  match oldestOwn id l with
  | some t => dropFirst (fun b => decide (b.id = id ∧ blockFirst b = t)) l
  | none => l

/-- The shared block with the oldest first instant; among equals the lower stream id (R315). -/
def oldestShared (s : State) : List HBlock → Option HBlock
  | [] => none
  | b :: l => match oldestShared s l with
    | none => if quotaOf b.id s = 0 then some b else none
    | some c => if quotaOf b.id s = 0 ∧ (blockFirst b < blockFirst c ∨ (blockFirst b = blockFirst c ∧ b.id ≤ c.id)) then some b
                else some c

/-- Takes a block for a stream (R315): the quadrant's blocks after a recycling, or none when the shared space has none; and
whether one was recycled. -/
def takeBlock (q id : Nat) (s : State) : Option (List HBlock × Bool) :=
  let bs := (hist q s).blocks
  let mine := (bs.filter (fun b => decide (b.id = id))).length
  let quota := quotaOf id s
  if quota ≠ 0 then
    if quota ≤ mine then some (dropOldest id bs, true)
    else if bs.length < stackBlocks then some (bs, false)
    else match oldestShared s bs with
      | none => some (bs, false)
      | some o => some (dropFirst (fun b => decide (b.id = o.id) && decide (blockFirst b = blockFirst o)) bs, true)
  else
    let total := stackBlocks - reservedBlocks q s
    let used := (bs.filter (fun b => decide (quotaOf b.id s = 0))).length
    if total = 0 then none
    else if used < total then some (bs, false)
    else match oldestShared s bs with
      | none => none
      | some o => some (dropFirst (fun b => decide (b.id = o.id) && decide (blockFirst b = blockFirst o)) bs, true)

/-- A stored batch continues the grid of the last batch of a block (R309, R330). -/
def sameGrid (a b : HBatch) : Bool :=
  decide (a.period = b.period ∧ a.tb = b.tb ∧ a.complex = b.complex ∧ a.w16 = b.w16)
    && decide (((b.first : Int) - a.first) % (a.period : Int) = 0)

/-- Appends to a list of blocks: into the open block while the grid continues and it fits. -/
def appendOpen (b : HBatch) : List HBlock → Option (List HBlock)
  | [] => none
  | x :: l =>
    match appendOpen b l with
    | some l' => some (x :: l')
    | none =>
      if decide (x.id = b.id ∧ x.used + b.bytes ≤ 65536) && ! l.any (fun y => decide (y.id = b.id))
          && (match x.bats.getLast? with | some z => sameGrid z b | none => true) then
        some ({ x with used := x.used + b.bytes, bats := x.bats ++ [b] } :: l)
      else none

/-- Records a hole (R310). -/
def addHole (q : Nat) (h : HHole) (s : State) : State := setHist q (fun x => { x with holes := x.holes ++ [h] }) s

/-- The hole of a batch that is not written. -/
def batchHole (b : Batch) (cause : HoleCause) : HHole := ⟨b.stream, b.tFirst, b.tFirst + b.n * b.period, cause⟩

/-- The last instant end that a stream's history holds. -/
def histEnd (id : Nat) (l : List HBlock) : Option Nat :=
  (l.filter (fun b => decide (b.id = id))).foldl (fun m b => b.bats.foldl (fun m z =>
    some (max (z.first + z.n * z.period) (m.getD 0))) m) none

/-- HIST takes a stream's GAP marker (R95): in HBM, the hole it opens ends at the stream's next batch (R310). A NO_BUFFER gap is of the
engine path only (R92). -/
def histGap (q cause start : Nat) (x : Stream) (s : State) : State :=
  if x.cfg.hist ∧ histMode q s = .hbm ∧ cause ≠ 7 then
    setHist q (fun h => if (mfind h.gapped x.id).isSome then h else { h with gapped := mput h.gapped x.id (cause, start) }) s
  else s

/-- Turns what happened since a stream's last batch into holes that end at a time: time away from HBM, and an ingest gap (R56, R310). -/
def endHoles (q id upTo : Nat) (s : State) : State :=
  let h := hist q s
  let s1 := if h.away.contains id then
      setHist q (fun x => { x with away := x.away.filter (fun i => i != id) })
        (addHole q ⟨id, (histEnd id h.blocks).getD upTo, upTo, .away⟩ s)
    else s
  match mfind h.gapped id with
  | some (c, t) => setHist q (fun x => { x with gapped := mdel x.gapped id }) (addHole q ⟨id, t, upTo, .ingest c⟩ s1)
  | none => s1

/-- Writes one stored part into HBM (R309, R315), telling whether the shared space had no blocks at all. -/
def hbmWrite (q : Nat) (b : HBatch) (s0 : State) : State × Bool :=
  let s := endHoles q b.id b.first s0
  let wrote (s : State) : State := bumpN (histCnt q 1) b.bytes (setHist q (fun x => { x with
    wb := x.wb + b.bytes, lowSince := if x.wb + b.bytes < 524288 then x.lowSince else none }) s)
  match appendOpen b (hist q s).blocks with
  | some bl => (wrote (setHist q (fun x => { x with blocks := bl }) s), false)
  | none => match takeBlock q b.id s with
    | none => (addHole q ⟨b.id, b.first, b.first + b.n * b.period, .space⟩ s, true)
    | some (bl, recycled) =>
      let s1 := bump (histCnt q 0) (setHist q (fun x => { x with
        blocks := bl ++ [{ id := b.id, used := 64 + b.bytes, bats := [b] }] }) s)
      (wrote (if recycled then bump (histCnt q 6) s1 else s1), false)

/-- Writes the parts of a batch: NO_SPACE counts the batch once (R315). -/
def hbmParts (q : Nat) : List HBatch → Bool → State → State
  | [], none_, s => if none_ then bump (histCnt q 4) s else s
  | p :: l, none_, s => let r := hbmWrite q p s; hbmParts q l (none_ || r.2) r.1

/-- A batch that is not written (R313): counts, and a hole with cause SHED. -/
def shedBatch (q key : Nat) (b : Batch) (s : State) : State :=
  let s1 := bump (histCnt q 2) (addHole q (batchHole b .shed) (endHoles q b.stream b.tFirst s))
  let s2 := setFld (histBase q) 25 25 1 s1
  match mfind s2.streams key with
  | some y => { s2 with streams := mput s2.streams key { y with shed := y.shed + 1 } }
  | none => s2

/-- HIST takes a closed data batch (R307–R315). -/
def histWrite (key : Nat) (x : Stream) (b : Batch) (s : State) : State :=
  let q := key / 16384
  let form := storeForm x b
  let back := backParts x b (zsBack x b)
  let s := match mfind s.streams key with
    | some y => { s with streams := mput s.streams key { y with
        zsSince := (zsAfter x b form).zsSince, zsTail := (zsAfter x b form).zsTail } }
    | none => s
  match histMode q s with
  | .none => s
  | .ring cap => (back ++ [mkHBatch x.id b.tb b.tFirst b.period b.complex b.w16 form]).foldl (fun s p => ringWrite q cap p s) s
  | .hbm =>
    let parts := back ++ splitBatch x.id b.tb b.period b.complex b.w16 (b.n + 1) b.tFirst form
    let bytes := (parts.map (·.bytes)).sum
    if x.cfg.prio < (hist q s).shed then shedBatch q key b s
    else if 2097152 < (hist q s).wb + bytes then shedBatch q key b (bump (histCnt q 3) s)
    else hbmParts q parts false s

/-- Bytes of write buffer that HBM takes in one 1.6 ns tick at the ceiling of 6 Tbit/s, and that the stack's bandwidth of 1.10 TB/s
leaves above it to make up for a refresh (R27, R312). -/
def wbPerTick : Nat := 1200
def wbSurplus : Nat := 566

/-- One tick of the write buffers: HBM writes drain unless a refresh blocks them, and what it kept back follows (R312, R415). -/
def histTick (q : Nat) (s : State) : State :=
  let h := hist q s
  if h.wb = 0 then (if h.owed = 0 then s else setHist q (fun x => { x with owed := 0 }) s)
  else if s.ticks < h.refreshUntil then setHist q (fun x => { x with owed := x.owed + wbPerTick }) s
  else
    let more := min wbSurplus h.owed
    let w := h.wb - (wbPerTick + more)
    setHist q (fun x => { x with
      wb := w, owed := x.owed - more, lowSince := if w < 524288 then some (x.lowSince.getD s.ticks) else none }) s

/-! ### Look-up (R310, R330) -/

/-- Inserts a stored batch by its first instant, behind those of an equal one. -/
def insBatch (b : HBatch) : List HBatch → List HBatch
  | [] => [b]
  | x :: l => if x.first ≤ b.first then x :: insBatch b l else b :: x :: l

/-- The stored batches of a stream's blocks, ordered by first instant (R310). -/
def blockBatches (q id : Nat) (s : State) : List HBatch :=
  ((((hist q s).blocks.filter (fun b => decide (b.id = id))).map (·.bats)).flatten).foldl (fun l b => insBatch b l) []

/-- The stored batches of a stream that can be read in the present mode, ordered by first instant (R310). -/
def heldBatches (q id : Nat) (s : State) : List HBatch :=
  match histMode q s with
  | .none => []
  | .ring _ => ((hist q s).ring.filter (fun b => decide (b.id = id))).foldl (fun l b => insBatch b l) []
  | .hbm => blockBatches q id s

/-- The stored batches of a stream's index, ordered by first instant: those of its blocks, which the index keeps while HBM cannot be read,
and those of the SRAM ring (R56, R310, R330). -/
def indexBatches (q id : Nat) (s : State) : List HBatch :=
  match histMode q s with
  | .ring _ => (heldBatches q id s).foldl (fun l b => insBatch b l) (blockBatches q id s)
  | _ => blockBatches q id s

/-- A run of a constant grid: its first batch (R330). -/
def runsOf : List HBatch → List HBatch
  | [] => []
  | b :: l =>
    let rest := runsOf l
    match rest with
    | c :: r => if sameGrid b c then { c with first := b.first } :: r else b :: c :: r
    | [] => [b]

/-- A stored batch's components of the instant at a time, if it holds it. -/
def batchAt (b : HBatch) (t : Nat) : Option (List Comp) :=
  if b.first ≤ t ∧ t < b.first + b.n * b.period ∧ (t - b.first) % b.period = 0 then
    let i := (t - b.first) / b.period
    let c := cpi b.complex
    (b.segs.find? (fun g => decide (g.1 ≤ i ∧ i < g.1 + g.2.length / c))).map (fun g => (g.2.drop ((i - g.1) * c)).take c)
  else none

/-- The components of the instant at a time, if history holds it. -/
def instantAt (bs : List HBatch) (t : Nat) : Option (List Comp) := bs.findSome? (fun b => batchAt b t)

/-- The first grid instant at or after a bound, for a grid through a time (R330). -/
def gridFrom (origin period bound : Nat) : Nat :=
  let d := ((bound : Int) - origin) % (period : Int)
  if d = 0 then bound else bound + period - d.toNat

/-- The instants of a run's grid in [from_, upTo): held components, or GAP (R330). -/
def gridInstants (bs : List HBatch) (complex : Bool) (start period : Nat) (count : Nat) : List (List Comp) :=
  (List.range count).map (fun i =>
    (instantAt bs (start + i * period)).getD (List.replicate (cpi complex) (0, 2)))

/-- Instants of a grid in [start, stop). -/
def gridCount (start period stop : Nat) : Nat := if start < stop then (stop - start + period - 1) / period else 0

/-- The runs of a stream within a window, with their bounds (R330): run, start bound, end bound. -/
def windowRuns (bs : List HBatch) (w0 w1 : Nat) : List (HBatch × Nat × Nat) :=
  let runs : List HBatch := runsOf bs
  let before : Option HBatch := (runs.filter (fun r => decide (r.first ≤ w0))).getLast?
  let inside := runs.filter (fun r => decide (w0 < r.first ∧ r.first < w1))
  let sel : List HBatch := match before with
    | some r => r :: inside
    | none => match inside with
      | [] => (runs.filter (fun r => decide (w1 ≤ r.first))).take 1
      | l => l
  sel.zipIdx.map (fun e =>
    (e.1, if e.2 = 0 then w0 else e.1.first, match sel[e.2 + 1]? with | some n => n.first | none => w1))

/-- A hole that history holds as one: shed, without space, or an ingest gap (R310, R336). -/
def heldHole (id : Nat) (h : HHole) : Bool := decide (h.id = id ∧ h.cause ≠ .away)

/-- Part of a stream's window lies in time that history no longer or never held (R336): before its oldest held instant, in
time spent outside Retain and Calibrate, or past what is held, holes included, while the stream has neither an open gap nor a batch
that opened after the end. The holes are those of HBM, and count only while it is read. -/
def windowPartial (q id : Nat) (covered : Bool) (w0 w1 : Nat) (s : State) : Bool :=
  let bs := heldBatches q id s
  let h := hist q s
  let holes := if histMode q s = .hbm then h.holes.filter (fun x => decide (x.id = id)) else []
  match bs.head? with
  | some a =>
    let written := bs.foldl (fun m z => max m (z.first + z.n * z.period)) 0
    let stop := (holes.filter (heldHole id)).foldl (fun m x => max m x.last) written
    decide (w0 < a.first)
      || holes.any (fun x => decide (x.cause = .away) && decide (x.first < w1 ∧ w0 < x.last))
      || (decide (histMode q s = .hbm) && h.away.contains id && decide (written < w1))
      || (decide (stop < w1) && ! covered)
  | none => true

/-- The history of a stream is past an end, or its gap is open, or a batch opened after the end (R328). -/
def historyPast (q : Nat) (x : Stream) (stop : Nat) (s : State) : Bool :=
  (heldBatches q x.id s).any (fun z => decide (stop ≤ z.first + z.n * z.period))
  || (hist q s).holes.any (fun h => heldHole x.id h && decide (stop ≤ h.last))
  || x.gap.isSome
  || (match x.open_ with | some b => decide (stop ≤ b.tFirst) | none => false)

/-- Releases blocks of a stream beyond a number, oldest first (R316). -/
def releaseBlocks (q id keep : Nat) (s : State) : State :=
  let bs := (hist q s).blocks
  let mine := (bs.filter (fun b => decide (b.id = id))).length
  if mine ≤ keep then s
  else
    let n := mine - keep
    bumpN (histCnt q 5) n (setHist q (fun h => { h with
      blocks := (List.range n).foldl (fun l _ => dropOldest id l) h.blocks }) s)

/-- A removed stream's history is released and its quota ends (R314, R316, R388). -/
def streamGone (q id : Nat) (s : State) : State :=
  setEvt (fun e => { e with quota := mdel e.quota id })
    (setHist q (fun h => { h with
      ring := h.ring.filter (fun b => decide (b.id ≠ id)), holes := h.holes.filter (fun x => decide (x.id ≠ id)),
      away := h.away.filter (fun i => i != id), gapped := mdel h.gapped id }) (releaseBlocks q id 0 s))

end Sys2Proof.Machine
end

