-- ==== Sys2Proof/Machine/Tasks.lean ====
section
/-! DEFINITION. Task slots: readiness, loans, wake times, cancelling and cleaning up a slot, messages on their way, and the
scheduler's choice (R169–R179, R188). -/

namespace Sys2Proof.Machine

/-! ### Readiness (R170, R171) -/

def unconsumed (t : Task) : List Loan := t.loans.filter (fun l => ! l.consumed)

/-- BATCH is pending (R170). -/
def batchPending (t : Task) : Bool :=
  (decide (t.batchThr ≤ (unconsumed t).length) && ! (unconsumed t).isEmpty)
    || (unconsumed t).any (fun l => l.gap || l.part)

/-- A message whose sender is a host function (R170, R231). -/
def fromHost (m : Msg) : Bool := decide (m.sender / 4096 = 3)

/-- The pending sources of a slot, in the bit positions of R170. -/
def pendingBits (t : Task) : Nat :=
  b1 (batchPending t) + 2 * b1 t.timer + 4 * b1 (! t.inbox.isEmpty) + 8 * b1 (t.inbox.any fromHost)

/-- The slot becomes READY, behind every slot that is READY already (R174). -/
def makeReady (key slot : Nat) (s : State) : State :=
  setEng key (fun e => { e with
    tasks := mmod {} e.tasks slot (fun t => { t with state := .ready, seq := e.seqNext }), seqNext := e.seqNext + 1 }) s

/-- A WAITING slot with a pending source in its wait mask becomes READY (R170). -/
def wakeSlot (key slot : Nat) (s : State) : State :=
  let t := task key slot s
  if t.state = .waiting ∧ pendingBits t &&& t.waitMask ≠ 0 then
    makeReady key slot (setTask key slot (fun t => { t with begun := false }) s)
  else s

/-- The readiness word of R171. -/
def readyWord (t : Task) : EWord :=
  wUint (pendingBits t + 16 * b1 ((unconsumed t).any (·.gap)) + 32 * b1 (t.timer && t.timerLate)
    + 64 * b1 (t.timer && t.timerFar))

/-- Returning from a wait pushes the readiness word and consumes TIMER (R171, R217). -/
def returnFromWait (t : Task) : Task :=
  { t with inWait := false, sStk := readyWord t :: t.sStk, timer := false, timerLate := false, timerFar := false }

/-- What an armed wake time does at once: fires late, fires far, or waits (R171). -/
def wakeArm (w : EWord) (now : Nat) (t : Task) : Task :=
  let d := sdiff (pay32 w) now
  if ! tValid w then { t with wake := none, timer := true, timerLate := true }
  else if d = -2147483648 then { t with wake := none, timer := true, timerFar := true }
  else if d ≤ 0 then { t with wake := none, timer := true, timerLate := true }
  else { t with wake := some w }

/-- A slot's wake time fires: TIMER wakes it, and a slot being cancelled discards the ready (R171, R178). -/
def timerFire (key slot : Nat) (f : Task → Task) (s : State) : State :=
  let s1 := setTask key slot f s
  if (task key slot s1).timer ∧ ! (task key slot s).timer ∧ (task key slot s).state = .cancelling then bump (engCnt key 3) s1
  else wakeSlot key slot s1

/-- A forced step of a time base re-tests every armed wake time on it (R127, R171). -/
def wakeStep (n : Nat) (s : State) : State :=
  s.engines.foldl (fun s e => e.2.tasks.foldl (fun s x => match x.2.wake with
    | some w => if tBase w = n then timerFire e.1 x.1 (wakeArm w (tbNs n s)) s else s
    | none => s) s) s

/-! ### Engine conditions (R188) -/

/-- Logical engine of a slot is in the Vigil set (R46). -/
def inVigilSet (e : EngSt) (key : Nat) (s : State) : Bool :=
  match e.logical with
  | some l => decide (s.mode.vigilQ = key / 64) && bit s.mode.vigilEngines (l % 48)
  | none => false

def engFrozen (key : Nat) (s : State) : Bool :=
  decide (s.mode.current = .vigil) && ! inVigilSet (eng key s) key s
def engPaused (_key : Nat) (s : State) : Bool := decide (s.mode.current = .safe)

/-- One of the four conditions of R188 stops chord issue. -/
def engStopped (key : Nat) (s : State) : Bool :=
  (eng key s).halted || (eng key s).castleFreeze || engFrozen key s || engPaused key s

/-- The engine is powered, out of reset and serves a logical engine. -/
def engLive (key : Nat) (s : State) : Bool :=
  (eng key s).powered && (eng key s).logical.isSome && quadUp (key / 64) s && decide (s.mode.current ≠ .bringup)
    && (match s.rst.cur, (eng key s).logical with
      | some r, some l => ! (decide (r.level = 4) && decide (r.target = l + 1))
      | _, _ => true)

/-! ### Loans (R91, R228) -/

/-- A loan of a buffer ends; the router frees the buffer at the last (R91). -/
def endLoan (key slot : Nat) (l : Loan) (s : State) : State :=
  let code := ownEngine (((eng key s).logical.getD 0) % 48) slot
  let b := buf l.buf s
  if b.gen ≠ l.gen ∨ b.owner = 0 then s
  else if b.loans ≤ 1 then freeBuf l.buf s
  else setBuf l.buf (fun b => { b with loans := b.loans - 1, ended := code :: b.ended }) s

/-- Ends every loan of a slot. -/
def endLoans (key slot : Nat) (s : State) : State :=
  setTask key slot (fun t => { t with loans := [] })
    ((task key slot s).loans.foldl (fun s l => endLoan key slot l s) s)

/-- Releases every work buffer an engine slot owns (R178, R322). -/
def freeOwned (q code : Nat) (s : State) : State :=
  ((liveBufs q 2 s).filter (fun e => decide (e.2.owner = code))).foldl (fun s e => freeBuf e.1 s) s

/-! ### Ending and cancelling (R177–R179, R217) -/

/-- The slot is cleaned and becomes FREE; every TASK_CANCEL that waits for it completes (R178, R388). -/
def freeSlotTask (key slot : Nat) (s : State) : State :=
  let l := ((eng key s).logical.getD 0)
  let t := task key slot s
  let s1 := freeOwned (key / 64) (ownEngine (l % 48) slot) (endLoans key slot s)
  let s2 := setEng key (fun e => { e with
    tasks := mput e.tasks slot { trapCode := t.trapCode, trapStr := t.trapStr, trapNested := t.trapNested,
                                 trapAddr := t.trapAddr, trapDetail := t.trapDetail }
    running := if e.running = some slot then none else e.running }) s1
  t.cancels.foldl (fun s c => complete c .ok 0 s) (disown ⟨4, 16 * l + slot⟩ s2)

/-- Readies of a slot that became READY and has not begun: one for BATCH and one for TIMER where they are pending in its mask; a ready of
a message is counted with the message; the start's own where no source made it READY (R177, R178). [DEDUCED, log 36] -/
def heldReadies (t : Task) : Nat :=
  let p := pendingBits t &&& t.waitMask
  b1 (bit p 0) + b1 (bit p 1) + b1 (decide (p = 0))

/-- Readies, messages and kicks that a cancel discards (R177, R178). -/
def discardedReadies (t : Task) : Nat :=
  t.inbox.length + (if t.state = .ready ∧ ! t.begun then heldReadies t else 0)

/-- Messages on their way to a slot. -/
def toSlot (logical slot : Nat) (m : Nat × Nat × Msg) : Bool := decide (m.1 = logical ∧ m.2.1 = slot)

/-- A cancelled task stops (R178). `was` is its state before the cancel. A message under way to it is discarded with its inbox. -/
def stopCancelled (key slot : Nat) (was : TaskState) (s : State) : State :=
  let l := (eng key s).logical.getD 0
  let t := { task key slot s with state := was }
  let n := (s.msgs.filter (toSlot l slot)).length
  freeSlotTask key slot (bump (engCnt key 7) (bumpN (engCnt key 3) (discardedReadies t + n)
    { s with msgs := s.msgs.filter (fun m => ! toSlot l slot m) }))

/-- The state in which a slot met its cancel: a CANCELLING slot was READY and had not begun, or had (R177). -/
def cancelFrom (t : Task) : TaskState := if t.state = .cancelling then (if t.begun then .running else .ready) else t.state

/-- A cancel reaches a slot (R177): it stops now, or waits in the slot while the engine is halted, frozen or paused. -/
def cancelSlot (key slot : Nat) (src : Option Src) (s : State) : State :=
  let t := task key slot s
  let s1 := setTask key slot (fun t => { t with
    cancels := t.cancels ++ src.toList, state := if t.state = .trapped then .trapped else .cancelling }) s
  if t.state = .free then s
  else if t.state = .trapped ∨ ! engStopped key s then stopCancelled key slot (cancelFrom t) s1
  else setTask key slot (fun x => { x with begun := decide (cancelFrom t ≠ .ready) || t.begun }) s1

/-- Slots that were cancelled while their engine was stopped end when it would next run them (R59, R177). [DEDUCED, log 36] -/
def stopWaitingCancels (key : Nat) (s : State) : State :=
  if engStopped key s then s
  else (eng key s).tasks.foldl (fun s x =>
    if x.2.state = .cancelling then stopCancelled key x.1 (cancelFrom x.2) s else s) s

/-- Every slot of an engine is emptied by an L4 or L3 reset: loans returned, inboxes discarded (R188). -/
def clearSlots (key : Nat) (s : State) : State :=
  (eng key s).tasks.foldl (fun s x => freeSlotTask key x.1 s) s

/-! ### Messages (R173) -/

/-- A message lands at a slot: in its inbox, or discarded where the slot is FREE or CANCELLING; only a cancel's discard counts (R173,
R178, R192, R217). -/
def msgLand (key slot : Nat) (m : Msg) (s : State) : State :=
  let t := task key slot s
  if t.state = .free then s
  else if t.state = .cancelling then bump (engCnt key 3) s
  else wakeSlot key slot (setTask key slot (fun t => { t with inbox := t.inbox ++ [m] }) s)

/-- Messages in an inbox or on their way to it. -/
def inboxLoad (logical slot : Nat) (s : State) : Nat :=
  (task (engOf logical s) slot s).inbox.length
    + (s.msgs.filter (fun m => decide (m.1 = logical ∧ m.2.1 = slot))).length

/-! ### The scheduler (R174, R184) -/

/-- The C string reads a chord at a task's program counter. -/
def nextChord (key slot : Nat) (s : State) : Dec := decodeChord (progRd (eng key s)) (task key slot s).pc

/-- M operations that an M.FENCE holds: stores, TP emissions, sends, hand-offs (R184). -/
def mHeld (y : Syl) : Bool :=
  decide (y.str = 3) && [0x302, 0x400, 0x500, 0x501, 0x701, 0x702].contains y.op

/-- A fence of the task holds its next chord (R184). -/
def fenceHeld (key slot : Nat) (s : State) : Option (Nat × FenceSt) :=
  let t := task key slot s
  match t.cFence with
  | some f => some (0, f)
  | none => match t.mFence with
    | none => none
    | some f => match nextChord key slot s with
      | .ok syls _ => if syls.any mHeld then some (3, f) else none
      | _ => none

/-- The slot may issue: READY or RUNNING, and no fence holds its next chord. -/
def runnable (key slot : Nat) (s : State) : Bool :=
  decide ((task key slot s).state = .ready ∨ (task key slot s).state = .running) && (fenceHeld key slot s).isNone

/-- Slot a goes before slot b: higher priority, then the running one, then the earlier READY (R174). -/
def before (key a b : Nat) (s : State) : Bool :=
  let x := task key a s; let y := task key b s
  if x.prio ≠ y.prio then decide (y.prio < x.prio)
  else if x.state = .running then true
  else if y.state = .running then false
  else decide (x.seq < y.seq)

/-- The slot the engine runs at this boundary (R174). -/
def selectSlot (key : Nat) (s : State) : Option Nat :=
  (List.range 16).foldl (fun acc k =>
    if runnable key k s then
      match acc with
      | none => some k
      | some j => if before key k j s then some k else some j
    else acc) none

/-- V.SORT in progress in any task restarts its pass after an interruption (R240). [DEDUCED, log 38] -/
def markBack (key : Nat) (s : State) : State :=
  (eng key s).tasks.foldl (fun s t => setTask key t.1 (fun x => { x with mr := { x.mr with back := true } }) s) s

/-- Save-area location i of a slot's V stack (R166). -/
def saveKey (slot i : Nat) : Nat := badKey 1 (128 + 8 * slot + i)

/-- A slot that stops running saves its V stack: the entries in use are written to its save area (R166, R176). -/
def saveV (key slot : Nat) (s : State) : State :=
  let e := eng key s
  if e.bad.isEmpty ∧ e.soft.isEmpty then s
  else (List.range (task key slot s).vStk.length).foldl (fun s i => setEng key (goodLoc (saveKey slot i)) s) s

/-- A slot that runs again gets its V stack back: single-bit errors are corrected, an uncorrectable entry stays so until it is written
(R166–R168). -/
def loadV (key slot : Nat) (s : State) : State :=
  let e := eng key s
  if e.bad.isEmpty ∧ e.soft.isEmpty then s
  else (List.range (task key slot s).vStk.length).foldl (fun s i =>
    let k := saveKey slot i
    match mfind (eng key s).bad k with
    | some seen => setEng key (fun e => { goodLoc k e with bad := mput (goodLoc k e).bad (latchKey 6 slot i) seen }) s
    | none => if (eng key s).soft.contains k then fixLoc key k s else s) s

/-- Makes the selected slot the running one; a running slot displaced by a higher priority is READY again and counts in
PREEMPTS; a V.SORT so interrupted restarts its pass (R174, R192, R240). -/
def switchTo (key slot : Nat) (s : State) : State :=
  match (eng key s).running with
  | some r =>
    if r = slot then s
    else
      let rt := task key r s
      let s1 := if rt.state = .running then
          makeReady key r (setTask key r (fun t => { t with mr := { t.mr with back := true } }) s)
        else s
      let s2 := if rt.state = .running ∧ rt.prio < (task key slot s).prio then bump (engCnt key 1) s1 else s1
      startSlot key slot (saveV key r s2)
  | none => startSlot key slot s
where
  /-- The slot runs. -/
  startSlot (key slot : Nat) (s : State) : State :=
    loadV key slot (setEng key (fun e => { e with running := some slot }) (setTask key slot (fun t => { t with state := .running }) s))

end Sys2Proof.Machine
end

