-- ==== Sys2Proof/Machine/Deliver.lean ====
section
/-! DEFINITION. What becomes of a closed batch: history, the engine gate, the strobes, the work buffer in the layout of R89 and
its loans to subscribers (R84, R89–R92, R270). -/

namespace Sys2Proof.Machine

/-- A work buffer for a batch can be allocated: pool 1 may use the last 2 MiB (R92, R317, R318). -/
def canAllocBatch (q room : Nat) (s : State) : Bool :=
  decide (bufUsed q s + openBytes q s + room ≤ bufSpace q s)
    && decide ((liveBufs q 1 s).length + (openBatches q s).length < 262144)

/-- Packs component flags four to a byte (R89). -/
def flagPlane : List Comp → List Nat
  | a :: b :: c :: d :: l => (a.2 + 4 * b.2 + 16 * c.2 + 64 * d.2) :: flagPlane l
  | a :: b :: c :: [] => [a.2 + 4 * b.2 + 16 * c.2]
  | a :: b :: [] => [a.2 + 4 * b.2]
  | a :: [] => [a.2]
  | [] => []

/-- Pads to a multiple of 64 bytes. -/
def pad64 (l : List Nat) : List Nat := l ++ List.replicate ((64 - l.length % 64) % 64) 0

/-- The sample plane of components (R89). -/
def samplePlane (w16 : Bool) (cs : List Comp) : List Nat :=
  (cs.map (fun c => if w16 then leBytes 2 (wrapN 16 c.1) else leBytes 1 (wrapN 8 c.1))).flatten

/-- Components flagged so, saturating at 65,535 (R89). -/
def countFlag (f : Nat) (cs : List Comp) : Nat := min 65535 (cs.filter (fun c => decide (c.2 = f))).length

/-- The header of R89. -/
def batchHeader (b : Batch) (flagOff : Nat) : List Nat :=
  leBytes 4 (b1 b.gap <<< 28 ||| b1 b.complex <<< 27 ||| b1 b.w16 <<< 26 ||| b.tb <<< 23 ||| b.stream)
    ++ leBytes 4 b.seq ++ leBytes 8 (b.tFirst / 65536)
    ++ leBytes 4 ((b.tFirst % 65536) <<< 16 ||| b1 b.arrivalTime <<< 4 ||| b1 b.afterGap <<< 3 ||| b1 b.clip <<< 2
        ||| b1 b.suspect <<< 1 ||| b1 b.cut)
    ++ leBytes 8 (b.period % 2 ^ 48) ++ leBytes 4 b.n
    ++ leBytes 4 (countFlag 3 b.comps <<< 16 ||| countFlag 1 b.comps) ++ leBytes 4 (b.arr / 65536)
    ++ leBytes 4 ((b.arr % 65536) <<< 16 ||| b.gapId) ++ leBytes 4 flagOff ++ List.replicate 16 0

/-- The buffer of a batch or GAP marker (R89). -/
def batchBytes (b : Batch) : List Nat :=
  let sp := pad64 (samplePlane b.w16 b.comps)
  batchHeader b (64 + sp.length) ++ sp ++ pad64 (flagPlane b.comps)

/-- The engine gate (R84). -/
def gatePasses (c : StreamCfg) (b : Batch) : Bool :=
  decide (c.engThr = 0) || b.comps.any (fun x => decide (c.engThr ≤ x.1.natAbs))
    || (c.gatePoison && b.comps.any (fun x => decide (x.2 = 3)))

/-- Batches of one stream that a slot holds on loan; GAP markers are not batches (R91, R92). -/
def loansOf (key : Nat) (t : Task) : Nat := (t.loans.filter (fun l => decide (l.stream = key) && ! l.gap)).length

/-- max_loans does not apply to an engine from its castling's freeze until its slots again hold no more loans than max_loans; until
it has come to that it is in `overLoans` (R435). -/
def loansFree (ek : Nat) (s : State) : Bool :=
  (eng ek s).castleFreeze || (s.repair.overLoans.contains ek &&
    (eng ek s).tasks.any (fun t => t.2.loans.any (fun l => match mfind s.streams l.stream with
      | some x => decide (x.cfg.maxLoans < loansOf l.stream t.2)
      | none => false)))

/-- The castled engine's loans have come down, so max_loans applies again (R435). -/
def loansBack (ek : Nat) (s : State) : State :=
  if loansFree ek s then s else { s with repair := { s.repair with overLoans := s.repair.overLoans.filter (· ≠ ek) } }

/-- A buffer is lent to one subscriber (R91): none to a slot without a task; a slot being cancelled discards the ready; one at
max_loans is skipped and counted, but never for a GAP marker, which is always delivered (R92). -/
def lendTo (key hk : Nat) (x : Stream) (b : Batch) (i : Nat) (s : State) : State :=
  match x.cfg.subs.getD i none with
  | none => s
  | some (e, slot) =>
    let q := key / 16384
    let ek := engOf (48 * q + e) s
    let t := task ek slot s
    if t.state = .free then s
    else if t.state = .cancelling then bump (engCnt ek 3) s
    else if ! b.gap ∧ x.cfg.maxLoans ≤ loansOf key t ∧ ! loansFree ek s then
      match mfind s.streams key with
      | some y => loansBack ek { s with streams := mput s.streams key { y with skipped := mput y.skipped i (mget 0 y.skipped i + 1) } }
      | none => s
    else
      let gen := (buf hk s).gen
      wakeSlot ek slot (setTask ek slot (fun t => { t with
        loans := t.loans ++ [{ buf := hk, gen := gen, stream := key, gap := b.gap, part := b.cut, consumed := false, since := s.ticks }] })
        (setBuf hk (fun y => { y with loans := y.loans + 1 }) s))

/-- Lends a batch's buffer to every subscriber; the router frees it at once when none took it (R91). -/
def lendAll (key hk : Nat) (x : Stream) (b : Batch) (s : State) : State :=
  let s1 := (List.range 8).foldl (fun s i => lendTo key hk x b i s) s
  if (buf hk s1).loans = 0 then freeBuf hk s1 else s1

/-- Puts a batch into its work buffer, which it has held since it opened, and lends it (R89, R91); a GAP marker has its own slot (R92). -/
def lendBatch (key : Nat) (x : Stream) (b : Batch) (s : State) : State :=
  let q := key / 16384
  let bytes := batchBytes b
  let put (i : Nat) : State :=
    let hk := q * 2 ^ 22 + 1 * 2 ^ 18 + i
    let data := bytes.zipIdx.foldl (fun m e => stPut (0 : Byte) m e.2 (BitVec.ofNat 8 e.1)) []
    lendAll key hk x b (setBuf hk (fun y =>
      { gen := y.gen, owner := ownRouter, size := bytes.length, stream := key, bytes := data }) s)
  let live := (liveBufs q 1 s).length
  match freeIndex s.bufs (q * 2 ^ 22 + 2 ^ 18) (live + 1) 0 with
  | some i => put i
  | none => s

/-- A closed batch or GAP marker leaves the router (R84, R90–R92, R95, R270): to history first; a batch that has no work buffer goes no
further. -/
def deliver (key : Nat) (x : Stream) (b : Batch) (s : State) : State :=
  if b.gap then lendBatch key x b s
  else
    let s1 := if x.cfg.hist then histWrite key x b s else s
    if x.noBuf.isSome then s1
    else if gatePasses x.cfg b then lendBatch key x b (strobes x.id s1)
    else match mfind s1.streams key with
      | some y => { s1 with streams := mput s1.streams key { y with gated := y.gated + 1 } }
      | none => s1

end Sys2Proof.Machine
end

