-- ==== Sys2Proof/Machine/SString.lean ====
section
/-! DEFINITION. The S string: stack effects, conversions, arithmetic, logic, shifts, comparisons, loads and stores, and the
reads of other strings (R203–R208). -/

namespace Sys2Proof.Machine

/-! ### Results (R161–R164, R205) -/

/-- An exact integer as INT, or POISON RANGE. -/
def resInt (pc : Nat) (v : Int) : EWord := if v < -2147483648 ∨ 2147483647 < v then pRange pc else wInt v
def resUint (pc : Nat) (v : Int) : EWord := if v < 0 ∨ 4294967295 < v then pRange pc else wUint v.toNat
def resDur (pc : Nat) (v : Int) : EWord := if v < -2147483648 ∨ 2147483647 < v then pRange pc else wDur v
def resFix (pc : Nat) (v : Int) : EWord := if v < -34359738368 ∨ 34359738367 < v then pRange pc else wFix v
def resAddr (pc sp : Nat) (v : Int) : EWord := if v < 0 ∨ 4294967295 < v then pRange pc else wAddr sp v.toNat

/-- TIME ± DUR (R161, R162): modulo 2^32, valid copied. -/
def timeAdd (w : EWord) (d : Int) : EWord := wTime (tValid w) (tBase w) (wrapN 32 ((pay32 w : Int) + d))

/-- TIME − TIME (R161, R162). -/
def timeSub (x y : EWord) : TR EWord :=
  if tBase x ≠ tBase y then trapMix
  else if ! tValid x then .ok (pTime x) else if ! tValid y then .ok (pTime y)
  else .ok (wDur (sdiff (pay32 x) (pay32 y)))

/-- The unsigned value of a UINT, or an ADDR's offset. -/
def uVal (w : EWord) : Int := (pay32 w : Int)

/-- S.ADD (R205). -/
def addW (pc : Nat) (x y : EWord) : TR EWord :=
  match tagOf x, tagOf y with
  | .int, .int => .ok (resInt pc (iVal x + iVal y))
  | .uint, .uint => .ok (resUint pc (uVal x + uVal y))
  | .fix, .fix => .ok (resFix pc (fVal x + fVal y))
  | .dur, .dur => .ok (resDur pc (iVal x + iVal y))
  | .time, .dur => .ok (timeAdd x (iVal y))
  | .dur, .time => .ok (timeAdd y (iVal x))
  | .addr, .int => .ok (resAddr pc (aSpace x) (uVal x + iVal y))
  | .addr, .uint => .ok (resAddr pc (aSpace x) (uVal x + uVal y))
  | .int, .addr => .ok (resAddr pc (aSpace y) (uVal y + iVal x))
  | .uint, .addr => .ok (resAddr pc (aSpace y) (uVal y + uVal x))
  | _, _ => trapMix

/-- S.SUB (R205). -/
def subW (pc : Nat) (x y : EWord) : TR EWord :=
  match tagOf x, tagOf y with
  | .int, .int => .ok (resInt pc (iVal x - iVal y))
  | .uint, .uint => .ok (resUint pc (uVal x - uVal y))
  | .fix, .fix => .ok (resFix pc (fVal x - fVal y))
  | .dur, .dur => .ok (resDur pc (iVal x - iVal y))
  | .time, .dur => .ok (timeAdd x (-iVal y))
  | .time, .time => timeSub x y
  | .addr, .int => .ok (resAddr pc (aSpace x) (uVal x - iVal y))
  | .addr, .uint => .ok (resAddr pc (aSpace x) (uVal x - uVal y))
  | _, _ => trapMix

/-- S.ADDI (R205, R206). -/
def addiW (pc : Nat) (k : Int) (x : EWord) : TR EWord :=
  match tagOf x with
  | .int => .ok (resInt pc (iVal x + k))
  | .uint => .ok (resUint pc (uVal x + k))
  | .dur => .ok (resDur pc (iVal x + k))
  | .addr => .ok (resAddr pc (aSpace x) (uVal x + k))
  | _ => trapTag x

/-- S.MUL (R205). -/
def mulW (pc : Nat) (x y : EWord) : TR EWord :=
  match tagOf x, tagOf y with
  | .int, .int => .ok (resInt pc (iVal x * iVal y))
  | .uint, .uint => .ok (resUint pc (uVal x * uVal y))
  | .fix, .fix => .ok (resFix pc ((fVal x * fVal y + 32768) / 65536))
  | .fix, .int => .ok (resFix pc (fVal x * iVal y))
  | .int, .fix => .ok (resFix pc (iVal x * fVal y))
  | .dur, .int => .ok (resDur pc (iVal x * iVal y))
  | .int, .dur => .ok (resDur pc (iVal x * iVal y))
  | _, _ => trapMix

/-- S.DIV (R205): truncating toward zero. -/
def divW (pc : Nat) (x y : EWord) : TR EWord :=
  match tagOf x, tagOf y with
  | .int, .int => .ok (if iVal y = 0 then pRange pc else resInt pc (Int.tdiv (iVal x) (iVal y)))
  | .uint, .uint => .ok (if uVal y = 0 then pRange pc else resUint pc (Int.tdiv (uVal x) (uVal y)))
  | .dur, .int => .ok (if iVal y = 0 then pRange pc else resDur pc (Int.tdiv (iVal x) (iVal y)))
  | .dur, .dur => .ok (if iVal y = 0 then pRange pc else resInt pc (Int.tdiv (iVal x) (iVal y)))
  | _, _ => trapMix

/-- S.REM (R205): the sign of the dividend; −2^31 by −1 gives POISON RANGE as in S.DIV. -/
def remW (pc : Nat) (x y : EWord) : TR EWord :=
  match tagOf x, tagOf y with
  | .int, .int => .ok (if iVal y = 0 ∨ (iVal x = -2147483648 ∧ iVal y = -1) then pRange pc
      else wInt (Int.tmod (iVal x) (iVal y)))
  | .uint, .uint => .ok (if uVal y = 0 then pRange pc else resUint pc (Int.tmod (uVal x) (uVal y)))
  | _, _ => trapMix

/-- S.NEG and S.ABS (R205) with the function applied. -/
def negW (pc : Nat) (f : Int → Int) (x : EWord) : TR EWord :=
  match tagOf x with
  | .int => .ok (resInt pc (f (iVal x)))
  | .fix => .ok (resFix pc (f (fVal x)))
  | .dur => .ok (resDur pc (f (iVal x)))
  | _ => trapTag x

/-- S.MIN, or S.MAX with `big` (R205). -/
def minW (big : Bool) (x y : EWord) : TR EWord :=
  let pick (lt : Bool) : EWord := if lt ≠ big then x else y
  match tagOf x, tagOf y with
  | .int, .int => .ok (pick (decide (iVal x < iVal y)))
  | .uint, .uint => .ok (pick (decide (uVal x < uVal y)))
  | .fix, .fix => .ok (pick (decide (fVal x < fVal y)))
  | .dur, .dur => .ok (pick (decide (iVal x < iVal y)))
  | .time, .time =>
    if tBase x ≠ tBase y then trapMix
    else if ! tValid x then .ok (pTime x) else if ! tValid y then .ok (pTime y)
    else .ok (pick (decide (sdiff (pay32 x) (pay32 y) < 0)))
  | _, _ => trapMix

/-- S.ADDW and S.SUBW (R205): modulo 2^32. -/
def wrapW (f : Int → Int → Int) (x y : EWord) : TR EWord :=
  match tagOf x, tagOf y with
  | .int, .int => .ok (wInt (sgn 32 (wrapN 32 (f (iVal x) (iVal y)))))
  | .uint, .uint => .ok (wUint (wrapN 32 (f (uVal x) (uVal y))))
  | _, _ => trapMix

/-- S.SAT16 and S.SAT8 (R205). -/
def satW (w : Nat) (x : EWord) : TR EWord := if tagOf x = .int then .ok (wInt (satTo w (iVal x))) else trapTag x

/-- S.AND, S.OR, S.XOR (R205). -/
def logicW (f : Nat → Nat → Nat) (x y : EWord) : TR EWord :=
  match tagOf x, tagOf y with
  | .uint, .uint => .ok (wUint (f (pay32 x) (pay32 y)))
  | .bool, .bool => .ok (wBool (f (pay32 x) (pay32 y) % 2 = 1))
  | _, _ => trapMix

/-- S.NOT (R205). -/
def notW (x : EWord) : TR EWord :=
  match tagOf x with
  | .uint => .ok (wUint (2 ^ 32 - 1 - pay32 x))
  | .bool => .ok (wBool (pay x = 0))
  | _ => trapTag x

/-- S.SHL and S.SHLV by n (R205): a loss of significant bits of an INT or FIX is POISON RANGE. -/
def shlW (pc n : Nat) (x : EWord) : TR EWord :=
  let m := min n 64
  match tagOf x with
  | .int => .ok (resInt pc (iVal x * 2 ^ m))
  | .fix => .ok (resFix pc (fVal x * 2 ^ m))
  | .uint => .ok (wUint (pay32 x * 2 ^ m))
  | _ => trapTag x

/-- S.SHR and S.SHRV by n (R205): 32 or more give 0 for a UINT and the sign fill for INT and FIX. -/
def shrW (n : Nat) (x : EWord) : TR EWord :=
  let m := if 32 ≤ n then 64 else n
  match tagOf x with
  | .int => .ok (wInt (iVal x / 2 ^ m))
  | .fix => .ok (wFix (fVal x / 2 ^ m))
  | .uint => .ok (wUint (pay32 x / 2 ^ m))
  | _ => trapTag x

/-- S.SHLV and S.SHRV: the count is a UINT (R205). -/
def shvW (f : Nat → EWord → TR EWord) (x u : EWord) : TR EWord :=
  if tagOf u = .uint then f (pay32 u) x
  else if tagOf x = .int ∨ tagOf x = .fix ∨ tagOf x = .uint then trapTag u else trapMix

/-! ### Conversions (R204) -/

def toInt (pc : Nat) (x : EWord) : TR EWord :=
  match tagOf x with
  | .int => .ok x
  | .uint => .ok (resInt pc (uVal x))
  | .fix => .ok (wInt ((fVal x + 32768) / 65536))
  | .dur => .ok (wInt (iVal x))
  | .bool => .ok (wInt (pay x : Nat))
  | _ => trapTag x

def toUint (pc : Nat) (x : EWord) : TR EWord :=
  match tagOf x with
  | .uint => .ok x
  | .int => .ok (resUint pc (iVal x))
  | .bool => .ok (wUint (pay x))
  | _ => trapTag x

def toFix (pc : Nat) (x : EWord) : TR EWord :=
  match tagOf x with
  | .fix => .ok x
  | .int => .ok (resFix pc (iVal x * 65536))
  | _ => trapTag x

def toDur (x : EWord) : TR EWord :=
  match tagOf x with
  | .dur => .ok x
  | .int => .ok (wDur (iVal x))
  | _ => trapTag x

def timeU (x : EWord) : TR EWord :=
  if tagOf x = .time then .ok (if tValid x then wUint (pay32 x) else pTime x) else trapTag x

/-- One tag required, then a function. [DEDUCED, log 139] -/
def oneTag (t : Tag) (f : EWord → EWord) (x : EWord) : TR EWord := if tagOf x = t then .ok (f x) else trapTag x

/-- S.MKCLASS (R204). -/
def mkClass (pc : Nat) (c sc : EWord) : TR EWord :=
  if tagOf c = .uint ∧ tagOf sc = .uint then
    .ok (if 255 < pay32 c ∨ 65535 < pay32 sc then pRange pc else mkW .class_ (pay32 c * 65536 + pay32 sc))
  else trapMix

/-- A sample with its R83 flag as a scalar word (R204). -/
def sampleWord (w v fl : Nat) : EWord := if 2 ≤ fl then wPoison 1 0 else wInt (sgn w v)

/-- S.UNPK16: the words pushed, deepest first (R204). -/
def unpk16 (x : EWord) : List EWord :=
  [sampleWord 16 (bits x.toNat 15 0) (bits x.toNat 33 32), sampleWord 16 (bits x.toNat 31 16) (bits x.toNat 35 34)]

/-- S.UNPK8 (R204): a flag bit stands for GAP or POISON. -/
def unpk8 (x : EWord) : List EWord :=
  (List.range 4).map (fun i => sampleWord 8 (bits x.toNat (8 * i + 7) (8 * i)) (2 * bits x.toNat (32 + i) (32 + i)))

/-- S.PACK16 (R204). -/
def pack16 (x y : EWord) : TR EWord :=
  if tagOf x = .int ∧ tagOf y = .int then
    let a := satLane 16 (iVal x) 0; let b := satLane 16 (iVal y) 0
    .ok (mkW .s16x2 (wrapN 16 a.1 + wrapN 16 b.1 * 2 ^ 16 + a.2 * 2 ^ 32 + b.2 * 2 ^ 34))
  else trapMix

/-- S.PACK8 (R204), of words deepest first. -/
def pack8 (pc : Nat) (ws : List EWord) : TR EWord :=
  if ws.all (fun w => decide (tagOf w = .int)) then
    if ws.any (fun w => decide (iVal w < -128 ∨ 127 < iVal w)) then .ok (pRange pc)
    else .ok (mkW .s8x4 ((ws.zipIdx.map (fun e => wrapN 8 (iVal e.1) * 2 ^ (8 * e.2))).sum))
  else trapMix

/-! ### Comparisons (R207) -/

/-- The relations in the order of R207: EQ, NE, LT, LE, GT, GE, on the sign of a difference. -/
def relOf (r : Nat) (d : Int) : Bool :=
  match r with
  | 0 => decide (d = 0) | 1 => decide (d ≠ 0) | 2 => decide (d < 0) | 3 => decide (d ≤ 0)
  | 4 => decide (0 < d) | _ => decide (0 ≤ d)

/-- A word that some comparison of relation r accepts (R162, R207). [DEDUCED, log 139] -/
def cmpAccepts (r : Nat) (w : EWord) : Bool :=
  match tagOf w with
  | .int | .uint | .fix | .dur | .addr | .class_ => true
  | .time => tValid w
  | .bool | .handle | .stream => decide (r ≤ 1)
  | _ => false

/-- x rel y (R207). [DEDUCED, log 138; DEDUCED, log 139] -/
def cmpW (r : Nat) (x y : EWord) : TR EWord :=
  consumes (cmpAccepts r) [x, y] (
    let ok (d : Int) : TR EWord := .ok (wBool (relOf r d))
    match tagOf x, tagOf y with
    | .int, .int | .dur, .dur => ok (iVal x - iVal y)
    | .uint, .uint => ok (uVal x - uVal y)
    | .fix, .fix => ok (fVal x - fVal y)
    | .time, .time => if tBase x ≠ tBase y then trapMix else ok (sdiff (pay32 x) (pay32 y))
    | .addr, .addr => if aSpace x ≠ aSpace y then trapMix else ok (uVal x - uVal y)
    | .class_, .class_ =>
      if r ≤ 1 then ok ((pay x : Int) - pay y) else ok ((bits x.toNat 15 0 : Int) - bits y.toNat 15 0)
    | .bool, .bool | .handle, .handle | .stream, .stream => ok ((pay x : Int) - pay y)
    | _, _ => trapMix)

/-! ### The opcode table -/

/-- Entries popped and pushed by an op value (R203–R208). -/
def sPQ (op : Nat) : Nat × Nat :=
  let g := op / 256
  if op = 0 then (1, 2) else if op = 1 then (1, 0) else if op = 2 then (2, 2) else if op = 3 then (2, 3)
  else if op = 4 then (3, 3) else if op = 5 then (2, 1)
  else if g = 0 then (op % 16 + 1, op % 16 + 2)
  else if g ≤ 2 then (0, 1)
  else if op < 0x320 then (1, 2)
  else if op = 0x340 ∨ op = 0x353 then (2, 1)
  else if op = 0x350 ∨ op = 0x352 then (1, 2) else if op = 0x351 then (1, 4) else if op = 0x354 then (4, 1)
  else if g = 3 then (1, 1)
  else if g = 4 then
    if op = 0x405 ∨ op = 0x406 ∨ op = 0x40B ∨ op = 0x40C ∨ op = 0x413 then (1, 1) else (2, 1)
  else if g ≤ 7 then (1, 1)
  else if op ≤ 0x805 then (2, 1) else if op = 0x808 then (3, 1)
  else if op = 0x900 ∨ op = 0x920 then (1, 1) else if op = 0x901 then (2, 0) else if op = 0x909 then (1, 0)
  else (0, 1)

/-- The XFERs of the S string that read M, and those that read V (R208). -/
def sReadsM (op : Nat) : Bool := decide (op = 0x908 ∨ op = 0x909 ∨ op = 0x910)
def sReadsV (op : Nat) : Bool := decide (op = 0x920 ∨ op / 256 = 0xA)

/-- A word of the vector on top of V (R208, R219): the tag must be one of V8 to VQ16, the lane one it has. -/
def vLaneWord (v : Vec) (n : Nat) : TR EWord :=
  if laneCount v.tag = 0 then trapMix
  else if laneCount v.tag ≤ n then trapRange n
  else .ok (laneWord v.tag ((lanes v).getD n (0, 0)))

/-- One operand, propagating. -/
def sUn (f : EWord → TR EWord) (st : List EWord) : TR (List EWord) :=
  match st with
  | x :: r => do return (← propagate [x] (f x)) :: r
  | _ => trapUnder

/-- Two operands, propagating: f of the deeper and the top word. -/
def sBin (f : EWord → EWord → TR EWord) (st : List EWord) : TR (List EWord) :=
  match st with
  | y :: x :: r => do return (← propagate [x, y] (f x y)) :: r
  | _ => trapUnder

/-- The operations that only move or inspect words of S (R203). -/
def sMove (op : Nat) (st : List EWord) : TR (List EWord) :=
  match op, st with
  | 0, w :: r => do copyOk w; return w :: w :: r
  | 1, w :: r => do copyOk w; return r
  | 2, y :: x :: r => do copiesOk [x, y]; return x :: y :: r
  | 3, y :: x :: r => do copiesOk [x, y]; return x :: y :: x :: r
  | 4, z :: y :: x :: r => do copiesOk [x, y, z]; return x :: z :: y :: r
  | 5, y :: x :: r => do copiesOk [x, y]; return y :: r
  | _, st => do
    let w := st.getD (op % 16) emptyWord
    copyOk w
    return w :: st

/-- Conversions and packing, groups 0x300 and up (R203, R204). -/
def sConv (c : ECtx) (op : Nat) (st : List EWord) : TR (List EWord) :=
  let pc := c.pc
  if op < 0x320 then
    match st with
    | w :: r => do
      copyOk w
      return (if op = 0x300 then wUint (tagNum w)
        else if op = 0x301 then wUint (if tagOf w = .poison then pay w % 65536 else 0)
        else wBool (tagNum w = op % 16)) :: w :: r
    | _ => trapUnder
  else if op = 0x320 then sUn (toInt pc) st
  else if op = 0x321 then sUn (toUint pc) st
  else if op = 0x322 then sUn (toFix pc) st
  else if op = 0x323 then sUn toDur st
  else if op = 0x324 then sUn timeU st
  else if op = 0x325 then sUn (oneTag .addr (fun x => wUint (pay32 x))) st
  else if op < 0x330 then sUn (oneTag .uint (fun x => wTime (tb (op % 8) c.s).valid (op % 8) (pay32 x))) st
  else if op < 0x333 then
    match st with
    | x :: r => wantTag .uint x (.ok (wAddr (op % 4) (pay32 x) :: r))
    | _ => trapUnder
  else if op = 0x340 then sBin (mkClass pc) st
  else if op = 0x341 then sUn (oneTag .class_ (fun x => wUint (bits x.toNat 23 16))) st
  else if op = 0x342 then sUn (oneTag .class_ (fun x => wUint (bits x.toNat 15 0))) st
  else if op = 0x350 ∨ op = 0x351 then
    match st with
    | x :: r => do
      let n := if op = 0x350 then 2 else 4
      let p ← propagate [x] (if tagOf x = (if op = 0x350 then .s16x2 else .s8x4) then .ok x else trapTag x)
      return (if tagOf p = .poison then List.replicate n p
        else (if op = 0x350 then unpk16 x else unpk8 x).reverse) ++ r
    | _ => trapUnder
  else if op = 0x352 then
    match st with
    | x :: r => do
      let p ← propagate [x] (if tagOf x = .s16x2 ∨ tagOf x = .s8x4 then .ok (wUint (bits x.toNat 35 32)) else trapTag x)
      return p :: x :: r
    | _ => trapUnder
  else if op = 0x353 then sBin pack16 st
  else if op = 0x354 then
    match st with
    | z :: y :: x :: w :: r => do return (← propagate [w, x, y, z] (pack8 pc [w, x, y, z])) :: r
    | _ => trapUnder
  else sUn (oneTag .uint (fun x => wPoison 5 (pay32 x))) st

/-- Arithmetic, logic and shifts, groups 0x4 to 0x7 (R205, R206). -/
def sArith (pc op : Nat) (st : List EWord) : TR (List EWord) :=
  match op / 256 with
  | 5 => sUn (shlW pc (op % 32)) st
  | 6 => sUn (shrW (op % 32)) st
  | 7 => sUn (addiW pc (sgn 8 op)) st
  | _ => match op % 256 with
    | 0x00 => sBin (addW pc) st | 0x01 => sBin (subW pc) st | 0x02 => sBin (mulW pc) st | 0x03 => sBin (divW pc) st
    | 0x04 => sBin (remW pc) st | 0x05 => sUn (negW pc (fun v => -v)) st | 0x06 => sUn (negW pc (fun v => (v.natAbs : Int))) st
    | 0x07 => sBin (minW false) st | 0x08 => sBin (minW true) st
    | 0x09 => sBin (wrapW (· + ·)) st | 0x0A => sBin (wrapW (· - ·)) st
    | 0x0B => sUn (satW 16) st | 0x0C => sUn (satW 8) st
    | 0x10 => sBin (logicW (· &&& ·)) st | 0x11 => sBin (logicW (· ||| ·)) st | 0x12 => sBin (logicW (· ^^^ ·)) st
    | 0x13 => sUn notW st | 0x14 => sBin (shvW (shlW pc)) st | _ => sBin (shvW shrW) st

/-- The literal a literal operation pushes (R203). -/
def sLit (op lit : Nat) : TR EWord :=
  if op < 0x200 then .ok (wInt (sgn 8 op))
  else if op < 0x210 then .ok (wInt (sgn (15 * (op % 4)) lit))
  else if op < 0x220 then .ok (wUint lit)
  else
    let w : EWord := BitVec.ofNat 40 lit
    if tagOf w = .reserved then trapTag w else .ok w

/-- Loads, stores, XFERs and S.NOW, groups 0x9 to 0xB (R208). -/
def sMem (c : ECtx) (op : Nat) (st : List EWord) : TR (Eff EWord) :=
  if op = 0x900 then
    match st with
    | a :: r => wantAddr 0 65536 a (fun off => do return { stk := (← dataRd c.e off) :: r })
    | _ => trapUnder
  else if op = 0x901 then
    match st with
    | a :: w :: r => do
      copyOk w
      wantAddr 0 65536 a (fun off => .ok { stk := r, fx := dataWr c.key off w })
    | _ => trapUnder
  else if op = 0x908 then do
    let a ← c.topM
    wantAddr 0 65536 a (fun off => do return { stk := (← dataRd c.e off) :: st })
  else if op = 0x909 then
    match st with
    | w :: r => do
      copyOk w
      let a ← c.topM
      wantAddr 0 65536 a (fun off => .ok { stk := r, fx := dataWr c.key off w })
    | _ => trapUnder
  else if op = 0x910 then do
    let w ← c.topM
    copyOk w
    return { stk := w :: st }
  else if op < 0x91C then .ok { stk := wUint ((c.t.loops[op % 4]?.map (·.lc)).getD 0) :: st }
  else if op = 0x920 then
    match st with
    | u :: r => do
      let v ← c.topV
      if laneCount v.tag = 0 ∧ tagOf u = .poison ∧ payOk u then trapMix
      else wantTag .uint u (do return { stk := (← vLaneWord v (pay32 u)) :: r })
    | _ => trapUnder
  else if op < 0xB00 then do return { stk := (← vLaneWord (← c.topV) (op % 256)) :: st }
  else .ok { stk := c.now (op % 8) :: st }

/-- One S syllable against the pre-chord state (R198–R208). -/
def sEval (c : ECtx) (op lit : Nat) : TR (Eff EWord) := do
  let st := c.t.sStk
  let x : Bool := (! sReadsM op || ! c.t.mStk.isEmpty) && (! sReadsV op || ! c.t.vStk.isEmpty)
  depthOk (sPQ op).1 (sPQ op).2 st.length 16 x
  if op < 0x100 then return { stk := ← sMove op st }
  else if op < 0x300 then return { stk := (← sLit op lit) :: st }
  else if op < 0x400 then return { stk := ← sConv c op st }
  else if op < 0x800 then return { stk := ← sArith c.pc op st }
  else if op < 0x806 then
    match st with
    | y :: x :: r => return { stk := (← cmpW (op % 8) x y) :: r }
    | _ => trapUnder
  else if op = 0x808 then
    match st with
    | b :: w2 :: w1 :: r => do
      copiesOk [w1, w2]
      wantTag .bool b (.ok { stk := (if pay b = 1 then w1 else w2) :: r })
    | _ => trapUnder
  else sMem c op st

end Sys2Proof.Machine
end

