-- ==== Sys2Proof/Machine/VString.lean ====
section
/-! DEFINITION. The V string: vector moves, batch and record reads, lane arithmetic and reductions (R218–R223). -/

namespace Sys2Proof.Machine

/-- An interpreted vector: tag V8 to VQ16 (R218, R219). -/
def vOk (v : Vec) : TR Unit := if laneCount v.tag = 0 then trapMix else .ok ()

/-- A copied vector: no reserved tag (R218). -/
def vCopy (v : Vec) : TR Unit := if 5 ≤ v.tag then trapMix else .ok ()

/-- Every vector of a list may be copied. -/
def vCopies : List Vec → TR Unit
  | [] => .ok ()
  | v :: l => do vCopy v; vCopies l

/-- One vector of an allowed tag, lane by lane, into a tag (R219). -/
def vMap (allowed : List Nat) (out : Nat → Nat) (f : Nat → Lane → Lane) (v : Vec) : TR Vec :=
  if allowed.contains v.tag then .ok (mkVec (out v.tag) ((lanes v).map (f (laneBits v.tag)))) else trapMix

/-- Two vectors of one allowed tag, lane by lane (R219). -/
def vZip (allowed : List Nat) (f : Nat → Lane → Lane → Lane) (x y : Vec) : TR Vec :=
  if allowed.contains x.tag ∧ x.tag = y.tag then
    .ok (mkVec x.tag (List.zipWith (f x.tag) (lanes x) (lanes y)))
  else trapMix

/-- A saturated two-operand lane (R219). -/
def lane2 (g : Int → Int → Int) (tag : Nat) (a b : Lane) : Lane :=
  satLane (laneBits tag) (g a.1 b.1) (max a.2 b.2)

/-- V.MUL's rule (R222): integer, or Q15.16 rounded. -/
def mulLane (tag : Nat) (a b : Int) : Int := if tag = 4 then (a * b + 32768) / 65536 else a * b

/-- V.MULQ's rule: Q15 rounded (R222). -/
def mulq (a b : Int) : Int := (a * b + 16384) / 32768

/-- The INT an interpreting XFER from S gives V.MACS, V.MULS and V.KEEPGE: none for POISON (R223). -/
def vScalar (w : EWord) : TR (Option Int) :=
  if tagOf w = .reserved ∨ ! payOk w then trapTag w
  else match tagOf w with
    | .int => .ok (some (iVal w))
    | .poison => .ok none
    | _ => trapTag w

/-- Every lane POISON (R222, R223). -/
def allPoison (tag : Nat) : Vec := mkVec tag (List.replicate (laneCount tag) (0, 3))

/-- V.SPLAT, V.SPLAT16 and V.SPLAT8 (R222): the tag for an INT, and whether FIX is accepted. -/
def vSplat (tag : Nat) (fix : Bool) (w : EWord) : TR Vec :=
  if tagOf w = .reserved ∨ ! payOk w then trapTag w
  else match tagOf w with
    | .int => .ok (mkVec tag (List.replicate (laneCount tag) (satLane (laneBits tag) (iVal w) 0)))
    | .fix => if fix then .ok (mkVec 4 (List.replicate 64 (satLane 32 (fVal w) 0))) else trapTag w
    | .poison => .ok (allPoison tag)
    | _ => trapTag w

/-- V.MACS (R223). -/
def vMacs (w : EWord) (acc x : Vec) : TR Vec := do
  if x.tag ≠ acc.tag ∨ ¬ (x.tag = 2 ∨ x.tag = 3) then trapMix
  else do
    let sc ← vScalar w
    match sc with
    | none => return allPoison x.tag
    | some k =>
      let m := satTo 16 k
      return mkVec x.tag (List.zipWith (fun a b =>
        satLane (laneBits x.tag) (a.1 + (if x.tag = 2 then mulq b.1 m else b.1 * k)) (max a.2 b.2)) (lanes acc) (lanes x))

/-- V.MULS (R223). -/
def vMuls (w : EWord) (x : Vec) : TR Vec := do
  vOk x
  let sc ← vScalar w
  match sc with
  | none => return allPoison x.tag
  | some k => return mkVec x.tag ((lanes x).map (fun a =>
      satLane (laneBits x.tag)
        (if x.tag = 2 then mulq a.1 (satTo 16 k) else mulLane x.tag a.1 (if x.tag = 4 then k * 65536 else k)) a.2))

/-- V.KEEPGE (R222, R223). -/
def vKeepge (w : EWord) (x : Vec) : TR Vec := do
  vOk x
  let sc ← vScalar w
  match sc with
  | none => return allPoison x.tag
  | some k =>
    let thr := if x.tag = 4 then k * 65536 else k
    return mkVec x.tag ((lanes x).map (fun a => (if a.1 < thr then 0 else a.1, a.2)))

/-- Bitwise operations on lanes of w bits. -/
def bitLane (f : Nat → Nat → Nat) (tag : Nat) (a b : Lane) : Lane :=
  let w := laneBits tag
  (sgn w (f (wrapN w a.1) (wrapN w b.1)), max a.2 b.2)

/-- Pairs of lanes (2i, 2i + 1). -/
def pairs : List Lane → List (Lane × Lane)
  | a :: b :: l => (a, b) :: pairs l
  | _ => []

/-- V.MAG2 (R222). -/
def vMag2 (v : Vec) : TR Vec :=
  if v.tag = 1 ∨ v.tag = 2 then
    .ok (mkVec (v.tag + 1) ((pairs (lanes v)).map (fun p =>
      satLane (laneBits (v.tag + 1)) (p.1.1 * p.1.1 + p.2.1 * p.2.1) (max p.1.2 p.2.2))))
  else trapMix

/-- V.WLO and V.WHI (R222). -/
def vWide (hi : Bool) (v : Vec) : TR Vec :=
  if v.tag = 1 ∨ v.tag = 2 then
    let l := lanes v
    .ok (mkVec (v.tag + 1) (if hi then l.drop (laneCount v.tag / 2) else l.take (laneCount v.tag / 2)))
  else trapMix

/-- V.NARROW ( hi lo -- v ) (R222): two V16 to one V8, or two V32 to one V16; lo first. -/
def vNarrow (hi lo : Vec) : TR Vec :=
  if hi.tag = lo.tag ∧ (lo.tag = 2 ∨ lo.tag = 3) then
    .ok (mkVec (lo.tag - 1) ((lanes lo ++ lanes hi).map (fun a => satLane (laneBits (lo.tag - 1)) a.1 a.2)))
  else trapMix

/-- The contributing lanes of a reduction: all but GAP, with their indices (R223). -/
def contrib (v : Vec) : List (Lane × Nat) := (lanes v).zipIdx.filter (fun e => decide (e.1.2 ≠ 2))

/-- A reduction's result (R223): POISON first, then all lanes GAP, else the value with CLIP where a contributing lane is CLIP. -/
def reduceWith (v : Vec) (idx : Bool) (val : List (Lane × Nat) → Int × Nat × Bool) : TR Vec := do
  vOk v
  let cs := contrib v
  match cs.find? (fun e => decide (e.1.2 = 3)) with
  | some p => return mkVec 3 ((0, 3) :: (if idx then ((p.2 : Nat) : Int) else 0, 0) :: List.replicate 62 (0, 0))
  | none =>
    if cs.isEmpty then return mkVec 3 ((0, 2) :: (0, if idx then 2 else 0) :: List.replicate 62 (0, 0))
    else
      let (x, i, sat) := val cs
      let fl := if sat || cs.any (fun e => decide (e.1.2 = 1)) then 1 else 0
      return mkVec 3 ((x, fl) :: (if idx then ((i : Nat) : Int) else 0, 0) :: List.replicate 62 (0, 0))

/-- The extreme value and its lowest lane index. -/
def extreme (big : Bool) : List (Lane × Nat) → Int × Nat
  | [] => (0, 0)
  | e :: l => l.foldl (fun a x => if (if big then decide (a.1 < x.1.1) else decide (x.1.1 < a.1)) then (x.1.1, x.2) else a)
      (e.1.1, e.2)

/-- V.RSUM, V.RMAX, V.RMIN, V.RCNT (R223). -/
def vReduce (op : Nat) (v : Vec) : TR Vec :=
  if op = 0x700 then
    reduceWith v false (fun cs => let t := (cs.map (·.1.1)).sum; (satTo 32 t, 0, decide (satTo 32 t ≠ t)))
  else if op = 0x703 then
    reduceWith v false (fun cs => (((cs.filter (fun e => decide (e.1.1 ≠ 0))).length : Nat), 0, false))
  else reduceWith v true (fun cs => let e := extreme (op = 0x701) cs; (e.1, e.2, false))

/-- V.SLD n (R223). -/
def vSld (n : Nat) (a b : Vec) : TR Vec :=
  if a.tag ≠ b.tag ∨ laneCount a.tag = 0 then trapMix
  else if laneCount a.tag ≤ n then trapRange n
  else .ok (mkVec a.tag ((lanes a ++ lanes b).drop n))

/-! ### Batches and records (R89, R220, R221) -/

/-- The fields of a batch header that reading needs (R89). -/
structure BatchHdr where
  gap : Bool
  complex : Bool
  w16 : Bool
  n : Nat
  flagOff : Nat

def batchHdr (b : Buf) : BatchHdr :=
  let w0 := leNat (bufRd b 0 4)
  { gap := decide (bits w0 31 28 = 1), complex := bit w0 27, w16 := bit w0 26, n := leNat (bufRd b 28 4) % 2 ^ 17,
    flagOff := leNat (bufRd b 44 4) }

/-- Component i of a batch with its flag (R89, R220). -/
def batchComp (b : Buf) (h : BatchHdr) (i : Nat) : Lane :=
  let w := if h.w16 then 2 else 1
  let fo := h.flagOff + i / 4
  let at_ := 64 + i * w
  if h.gap ∨ (if h.complex then 2 * h.n else h.n) ≤ i then (0, 2)
  else if b.bad.any (fun x => decide (at_ ≤ x ∧ x < at_ + w) || decide (x = fo)) then (0, 3)
  else (sgn (8 * w) (leNat (bufRd b at_ w)), bits (leNat (bufRd b fo 1)) (2 * (i % 4) + 1) (2 * (i % 4)))

/-- V.LDB, and V.LDBW with `wide` (R220). -/
def vLdb (c : ECtx) (wide : Bool) : TR Vec := do
  let h ← c.topM
  let ix ← c.topS
  wantTag .handle h (wantNum ix (fun n =>
    if n < 0 ∨ 131072 ≤ n then trapRange (wrapN 32 n)
    else handleUse c h false (fun key b =>
      if hPool key ≠ 1 then .error ⟨.handle, some (statusCode .range * 2 ^ 24 + key), none⟩
      else
        let hd := batchHdr b
        let tag := if wide ∨ hd.w16 then 2 else 1
        .ok (mkVec tag ((List.range (laneCount tag)).map (fun i => batchComp b hd (n.toNat + i)))))))

/-- The byte offset of a vector record (R221). -/
def recOff {α : Type} (c : ECtx) (write : Bool) (k : Nat → Nat → Buf → TR α) : TR α := do
  let h ← c.topM
  let o ← c.topS
  wantTag .handle h (wantNum o (fun n =>
    if n < 0 ∨ n % 64 ≠ 0 then trapRange (wrapN 32 n)
    else handleUse c h write (fun key b =>
      if b.size < n.toNat + 320 then trapRange n.toNat else k n.toNat key b)))

/-- V.LDQ t (R221): lanes whose bytes are uncorrectable read POISON. -/
def vLdq (c : ECtx) (tag : Nat) : TR Vec :=
  recOff c false (fun off _ b =>
    let w := laneBits tag / 8
    let d := leNat (bufRd b off 256)
    let f := leNat (bufRd b (off + 256) 64)
    let ls := lanesFrom (laneBits tag) (laneCount tag) d f
    .ok (mkVec tag (ls.zipIdx.map (fun e =>
      if b.bad.any (fun x => decide (off + w * e.2 ≤ x ∧ x < off + w * e.2 + w) || decide (x = off + 256 + e.2 / 4))
      then (0, 3) else e.1))))

/-- The 320-byte record of a vector (R221). -/
def vecRecord (v : Vec) : List Nat := leBytes 256 v.data.toNat ++ leBytes 64 (shownFlags v).toNat

/-! ### The opcode table -/

/-- Entries popped and pushed by an op value (R222). -/
def vPQ (op : Nat) : Nat × Nat :=
  if op = 0 then (1, 2) else if op = 1 then (1, 0) else if op = 2 then (2, 2) else if op = 3 then (2, 3)
  else if op = 4 then (3, 3) else if op = 5 then (2, 1)
  else if op < 0x200 then (0, 1) else if op < 0x300 then (1, 0)
  else if op < 0x310 then (0, 1) else if op = 0x310 then (1, 0)
  else if op < 0x408 then (0, 1)
  else if op = 0x40C then (2, 1)
  else if op < 0x500 then (1, 1)
  else if op < 0x504 then (2, 1) else if op < 0x506 then (1, 1) else if op < 0x510 then (2, 1)
  else if op = 0x540 ∨ op = 0x601 ∨ (0x800 ≤ op ∧ op < 0x900) then (2, 1)
  else if op = 0x900 then (0, 0)
  else (1, 1)

/-- The XFERs of the V string that read M, and those that read S (R222). -/
def vReadsM (op : Nat) : Bool :=
  decide (op = 0x180 ∨ op = 0x280 ∨ (0x300 ≤ op ∧ op ≤ 0x310) ∨ op = 0x900)
def vReadsS (op : Nat) : Bool :=
  decide ((0x300 ≤ op ∧ op ≤ 0x310) ∨ (0x400 ≤ op ∧ op ≤ 0x402) ∨ op = 0x540 ∨ op = 0x541 ∨ op = 0x600 ∨ op = 0x900)

/-- One vector. -/
def vUn (f : Vec → TR Vec) (st : List Vec) : TR (Eff Vec) :=
  match st with
  | x :: r => do return { stk := (← f x) :: r }
  | _ => trapUnder

/-- Two vectors, f of the deeper and the top one. -/
def vBin (f : Vec → Vec → TR Vec) (st : List Vec) : TR (Eff Vec) :=
  match st with
  | y :: x :: r => do return { stk := (← f x y) :: r }
  | _ => trapUnder

/-- The stack operations (R222). -/
def vMove (op : Nat) (st : List Vec) : TR (Eff Vec) :=
  match op, st with
  | 0, v :: r => do vCopy v; return { stk := v :: v :: r }
  | 1, v :: r => do vCopy v; return { stk := r }
  | 2, y :: x :: r => do vCopies [x, y]; return { stk := x :: y :: r }
  | 3, y :: x :: r => do vCopies [x, y]; return { stk := x :: y :: x :: r }
  | 4, z :: y :: x :: r => do vCopies [x, y, z]; return { stk := x :: z :: y :: r }
  | _, y :: x :: r => do vCopies [x, y]; return { stk := y :: r }
  | _, _ => trapUnder

/-- Lane arithmetic, group 0x5 (R222). -/
def vArith (op : Nat) (st : List Vec) : TR (Eff Vec) :=
  let any := [1, 2, 3, 4]
  if op = 0x500 then vBin (vZip any (lane2 (· + ·))) st
  else if op = 0x501 then vBin (vZip any (lane2 (· - ·))) st
  else if op = 0x502 then vBin (vZip any (fun t a b => satLane (laneBits t) (mulLane t a.1 b.1) (max a.2 b.2))) st
  else if op = 0x503 then vBin (vZip [2] (lane2 mulq)) st
  else if op = 0x504 then vUn (vMap any id (fun w a => satLane w (a.1.natAbs : Int) a.2)) st
  else if op = 0x505 then vUn (vMap any id (fun w a => satLane w (-a.1) a.2)) st
  else if op = 0x506 then vBin (vZip any (lane2 min)) st
  else if op = 0x507 then vBin (vZip any (lane2 max)) st
  else if op = 0x508 then vBin (vZip [1, 2, 3] (bitLane (· &&& ·))) st
  else if op = 0x509 then vBin (vZip [1, 2, 3] (bitLane (· ||| ·))) st
  else if op = 0x50A then vBin (vZip [1, 2, 3] (bitLane (· ^^^ ·))) st
  else if op < 0x520 then vUn (vMap any id (fun _ a => (a.1 / 2 ^ (op % 16), a.2))) st
  else if op < 0x530 then vUn (vMap any id (fun w a => satLane w (a.1 * 2 ^ (op % 16)) a.2)) st
  else vUn vMag2 st

/-- One V syllable against the pre-chord state (R198, R222). -/
def vEval (c : ECtx) (op : Nat) : TR (Eff Vec) := do
  let st := c.t.vStk
  let x : Bool := (! vReadsM op || ! c.t.mStk.isEmpty) && (! vReadsS op || ! c.t.sStk.isEmpty)
  depthOk (vPQ op).1 (vPQ op).2 st.length 8 x
  if op < 0x100 then vMove op st
  else if op < 0x180 then return { stk := (← vecRd c.e (op % 128)) :: st }
  else if op = 0x180 then
    let a ← c.topM
    wantAddr 1 128 a (fun n => do return { stk := (← vecRd c.e n) :: st })
  else if op < 0x280 then
    match st with
    | v :: r => do vCopy v; return { stk := r, fx := vecWr c.key (op % 128) v }
    | _ => trapUnder
  else if op = 0x280 then
    match st with
    | v :: r => do
      vCopy v
      let a ← c.topM
      wantAddr 1 128 a (fun n => .ok { stk := r, fx := vecWr c.key n v })
    | _ => trapUnder
  else if op = 0x300 then return { stk := (← vLdb c false) :: st }
  else if op = 0x301 then return { stk := (← vLdb c true) :: st }
  else if op < 0x310 then return { stk := (← vLdq c (op % 4 + 1)) :: st }
  else if op = 0x310 then
    match st with
    | v :: r => do
      vOk v
      recOff c true (fun off key _ => .ok { stk := r, fx := bufWr key off (vecRecord v) })
    | _ => trapUnder
  else if op = 0x400 then return { stk := (← vSplat 3 true (← c.topS)) :: st }
  else if op = 0x401 then return { stk := (← vSplat 2 false (← c.topS)) :: st }
  else if op = 0x402 then return { stk := (← vSplat 1 false (← c.topS)) :: st }
  else if op = 0x408 then vUn (vWide false) st
  else if op = 0x409 then vUn (vWide true) st
  else if op = 0x40C then vBin vNarrow st
  else if op = 0x410 then vUn (vMap [3] (fun _ => 4) (fun _ a => satLane 32 (a.1 * 65536) a.2)) st
  else if op = 0x411 then vUn (vMap [4] (fun _ => 3) (fun _ a => ((a.1 + 32768) / 65536, a.2))) st
  else if op < 0x540 then vArith op st
  else if op = 0x540 then vBin (vMacs (← c.topS)) st
  else if op = 0x541 then vUn (vMuls (← c.topS)) st
  else if op = 0x600 then vUn (vKeepge (← c.topS)) st
  else if op = 0x601 then vBin (vZip [1, 2, 3, 4] (fun _ a t => (if a.1 < t.1 then 0 else a.1, max a.2 t.2))) st
  else if op < 0x800 then vUn (vReduce op) st
  else if op < 0x900 then vBin (vSld (op % 256)) st
  else return { stk := st }

end Sys2Proof.Machine
end

