-- ==== Sys2Proof/Machine/MString.lean ====
section
/-! DEFINITION. The M string: addresses, loans, buffers, messages, trigger primitives and fences (R225–R234). -/

namespace Sys2Proof.Machine

/-! ### Operands of several kinds, checked by rank (R180) -/

/-- An operand: a word consumed under a test; a data-store word copied, or consumed under a test; a data-store word written.
`in_` tells that the word lies in the store; where it does not, `off` is the DETAIL. -/
inductive Opnd where
  | word (w : EWord) (ok : EWord → Bool)
  | copyMem (in_ : Bool) (off : Nat)
  | mem (in_ : Bool) (off : Nat) (ok : EWord → Bool)
  | place (in_ : Bool) (off : Nat)

/-- The word an operand gives. -/
def Opnd.val (e : EngSt) : Opnd → EWord
  | .word w _ => w
  | .copyMem _ off => mget emptyWord e.data off
  | .mem _ off _ => mget emptyWord e.data off
  | .place _ _ => emptyWord

/-- A store word that can be read. -/
def Opnd.good (e : EngSt) (in_ : Bool) (off : Nat) : Bool := in_ && (mfind e.bad (badKey 0 off)).isNone

/-- The word of an operand that fails its tag or payload test. -/
def Opnd.badTag (e : EngSt) (o : Opnd) : Option EWord :=
  let w := o.val e
  match o with
  | .word _ ok => if ! payOk w || (decide (tagOf w ≠ .poison) && ! ok w) then some w else none
  | .copyMem i off => if Opnd.good e i off && decide (tagOf w = .reserved) then some w else none
  | .mem i off ok =>
    if Opnd.good e i off && (! payOk w || (decide (tagOf w ≠ .poison) && ! ok w)) then some w else none
  | .place _ _ => none

/-- The POISON word of a consumed operand. -/
def Opnd.poisoned (e : EngSt) (o : Opnd) : Option EWord :=
  let w := o.val e
  match o with
  | .word _ _ => if tagOf w = .poison then some w else none
  | .mem i off _ => if Opnd.good e i off && decide (tagOf w = .poison) then some w else none
  | _ => none

/-- The offset of an operand outside the store. -/
def Opnd.outside : Opnd → Option Nat
  | .copyMem i off | .mem i off _ | .place i off => if i then none else some off
  | .word _ _ => none

/-- Reads the store words of the operands in turn (R167). -/
def Opnd.ecc (e : EngSt) : List Opnd → TR Unit
  | [] => .ok ()
  | .copyMem i off :: l | .mem i off _ :: l => do
    if i then eccOk e 0 off else .ok ()
    Opnd.ecc e l
  | .word _ _ :: l | .place _ _ :: l => Opnd.ecc e l

/-- Checks operands by rank: TAG, POISON_USE, MEM_RANGE, then what the operation itself raises, then ECC (R180). -/
def opnds {α : Type} (e : EngSt) (l : List Opnd) (k : List EWord → TR α) : TR α :=
  match l.findSome? (Opnd.badTag e) with
  | some w => trapTag w
  | none => match l.findSome? (Opnd.poisoned e) with
    | some w => trapPoison w
    | none => match l.findSome? Opnd.outside with
      | some off => trapRange off
      | none => do
        let r ← k (l.map (Opnd.val e))
        Opnd.ecc e l
        return r

def isTag (t : Tag) (w : EWord) : Bool := decide (tagOf w = t)
/-- Word i of a block at an ADDR lies in the data store. -/
def addrIn (a : EWord) (i : Nat) : Bool := decide (aSpace a = 0 ∧ pay32 a + i < 65536)
/-- A UINT whose value passes a test. -/
def uintP (p : Nat → Bool) (w : EWord) : Bool := isTag .uint w && p (pay32 w)

/-! ### Destinations and status words (R226, R231) -/

/-- A destination word is well formed, of kind 1, or of kind 2 where that is allowed (R231). -/
def destOk (evb : Bool) (w : EWord) : Bool :=
  uintP (fun v => decide (v < 65536) &&
    (decide (v / 4096 = 1 ∧ v / 64 % 64 < 48 ∧ v / 16 % 4 = 0) || (evb && decide (v = 0x2000)))) w

/-- Writes slot k's status word (R226). [DESIGN CHOICE, log 11] -/
def statusWr (c : ECtx) (st : Status) (aux : Nat) (s : State) : State :=
  dataWr c.key (0xFFF0 + c.slot) (wUint (aux % 65536 * 65536 + statusCode st)) s

/-! ### Pushes onto M (R157) -/

def mTagOk (w : EWord) : TR Unit :=
  match tagOf w with
  | .addr | .handle | .stream => .ok ()
  | _ => trapTag w

def mTagsOk : List EWord → TR Unit
  | [] => .ok ()
  | w :: l => do mTagOk w; mTagsOk l

/-! ### Addresses (R225) -/

/-- An ADDR moved by a number of units. -/
def moveAddr (a : EWord) (d : Int) : TR EWord :=
  let v := (pay32 a : Int) + d
  if v < 0 ∨ 4294967295 < v then trapRange (wrapN 32 v) else .ok (wAddr (aSpace a) v.toNat)

/-- M.INC, M.DEC and M.ADV. -/
def mMove (c : ECtx) (op : Nat) (st : List EWord) : TR (Eff EWord) :=
  match st with
  | a :: r =>
    if op = 0x130 then do
      let w ← c.topS
      opnds c.e [.word a (isTag .addr), .word w (fun w => isTag .int w || isTag .uint w)]
        (fun _ => do return { stk := (← moveAddr a (if isTag .int w then iVal w else (pay32 w : Int))) :: r })
    else
      let k : Int := (op % 16 + 1 : Nat)
      wantTag .addr a (do return { stk := (← moveAddr a (if op < 0x120 then k else -k)) :: r })
  | _ => trapUnder

/-! ### Loans (R228, R230) -/

/-- The stream id of a lent batch, from its header (R89). -/
def loanStreamId (key : Nat) (s : State) : Nat := leNat (bufRd (buf key s) 0 4) % 2 ^ 20

/-- The slot's oldest unconsumed loan, of one stream where a STREAM word is given (R228). -/
def oldestLoan (c : ECtx) (w : Option EWord) : Option Loan :=
  (unconsumed c.t).find? (fun l => match w with
    | none => true
    | some x => decide (l.stream = bits x.toNat 35 34 * 16384 + bits x.toNat 33 20)
        && decide (loanStreamId l.buf c.s = bits x.toNat 19 0))

/-- Marks the first unconsumed loan that equals one as consumed. -/
def consumeLoan (l : Loan) : List Loan → List Loan
  | [] => []
  | x :: r => if x = l then { x with consumed := true } :: r else x :: consumeLoan l r

/-- Removes the first loan of a buffer. -/
def dropLoan (key : Nat) : List Loan → List Loan
  | [] => []
  | x :: r => if x.buf = key then r else x :: dropLoan key r

/-- M.TAKE and M.TAKEANY (R228). -/
def mTake (c : ECtx) (w : Option EWord) (rest : List EWord) : Eff EWord :=
  match oldestLoan c w with
  | some l =>
    { stk := wHandle l.buf l.gen :: rest,
      fx := fun s => statusWr c .ok ((unconsumed c.t).length - 1)
        (setTask c.key c.slot (fun t => { t with loans := consumeLoan l t.loans }) s) }
  | none => { stk := nullHandle c.q :: rest, fx := statusWr c .noResource (unconsumed c.t).length }

/-- A HANDLE trap with a status code (R227). -/
def trapHandle {α : Type} (st : Status) (key : Nat) : TR α :=
  .error ⟨.handle, some (statusCode st * 2 ^ 24 + key), none⟩

/-- M.DONE (R228). -/
def mDone (c : ECtx) (h : EWord) (r : List EWord) : TR (Eff EWord) :=
  wantTag .handle h (
    let key := hKey h; let b := buf key c.s
    if hPool key ≠ 1 ∨ hQuad key ≠ c.q then trapHandle .range key
    else if b.owner = 0 ∨ b.gen ≠ hGen h then trapHandle .stale key
    else match c.t.loans.find? (fun l => decide (l.buf = key ∧ l.gen = b.gen)) with
      | some l =>
        let fx (s : State) : State := endLoan c.key c.slot l
          (setTask c.key c.slot (fun t => { t with loans := dropLoan key t.loans }) s)
        .ok { stk := r, fx := fx }
      | none => trapHandle (if b.ended.contains (ownEngine c.local_ c.slot) then .stale else .notOwner) key)

/-- A use of a lent batch (R220, R230): a buffer of another kind is refused with RANGE. -/
def batchUse {α : Type} (c : ECtx) (h : EWord) (k : Nat → Buf → TR α) : TR α :=
  handleUse c h false (fun key b => if hPool key ≠ 1 then trapHandle .range key else k key b)

/-- The STREAM word of a lent batch (R225). -/
def streamWord (c : ECtx) (key : Nat) : EWord :=
  let k := ((c.t.loans.find? (fun l => decide (l.buf = key))).map (·.stream)).getD (buf key c.s).stream
  mkW .stream (k / 16384 * 2 ^ 34 + k % 16384 * 2 ^ 20 + loanStreamId key c.s)

/-- The 11 words of R230. -/
def hdrWords (b : Buf) (s : State) : List EWord :=
  let u (off : Nat) : EWord := wUint (leNat (bufRd b off 4))
  let base := bits (leNat (bufRd b 0 4)) 25 23
  [u 0, u 4, wTime (tb base s).valid base (leNat (bufRd b 8 4)), u 12, u 8, u 20, wUint (leNat (bufRd b 24 2)), u 28, u 32,
   u 16, u 40]

/-- Writes words to consecutive data-store addresses. -/
def dataWrs (key addr : Nat) (l : List EWord) (s : State) : State :=
  l.zipIdx.foldl (fun s e => dataWr key (addr + e.2) e.1 s) s

/-- M.HDR (R230). -/
def mHdr (c : ECtx) (h : EWord) (st : List EWord) : TR (Eff EWord) := do
  let a ← c.topS
  opnds c.e (.word h (isTag .handle) :: .word a (isTag .addr)
      :: (List.range 11).map (fun i => .place (addrIn a i) (pay32 a + i)))
    (fun _ => batchUse c h (fun _ b => .ok { stk := st, fx := dataWrs c.key (pay32 a) (hdrWords b c.s) }))

/-! ### Work buffers (R229, R323) -/

/-- Work-buffer bytes that a logical engine owns. -/
def workBytes (q local_ : Nat) (s : State) : Nat :=
  ((liveBufs q 2 s).filter (fun e => decide (e.2.owner / 4096 = 1 ∧ e.2.owner / 64 % 64 = local_))).map
    (fun e => granules e.2.size) |>.sum

/-- M.ALLOC (R229). -/
def mAlloc (c : ECtx) (st : List EWord) : TR (Eff EWord) := do
  let w ← c.topS
  let n := pay32 w
  let fail (x : Status) : Eff EWord := { stk := nullHandle c.q :: st, fx := statusWr c x 0 }
  wantTag .uint w (.ok (
    if n < 64 ∨ 1048576 < n ∨ n % 64 ≠ 0 then fail .range
    else if mget 1048576 c.s.evt.engQuota (48 * c.q + c.local_) < workBytes c.q c.local_ c.s + n then fail .quota
    else match allocBuf c.q 2 n (ownEngine c.local_ c.slot) c.s with
      | none => fail .noResource
      | some (key, _) =>
        { stk := wHandle key (buf key c.s).gen :: st,
          fx := fun s => statusWr c .ok 0
            (setBuf key (fun b => { gen := b.gen, owner := ownEngine c.local_ c.slot, size := n }) s) }))

/-- M.FREE (R229). -/
def mFree (c : ECtx) (h : EWord) (r : List EWord) : TR (Eff EWord) :=
  handleUse c h true (fun key _ => .ok { stk := r, fx := freeBuf key })

/-- M.GIVE (R229). -/
def mGive (c : ECtx) (h : EWord) (st : List EWord) : TR (Eff EWord) := do
  let w ← c.topS
  opnds c.e [.word h (isTag .handle), .word w (destOk true)] (fun _ => handleUse c h true (fun key _ =>
    let d := pay32 w
    let give (own : Nat) : Eff EWord :=
      { stk := st, fx := fun s => statusWr c .ok 0 (setBuf key (fun b => { b with owner := own }) s) }
    .ok (if d = 0x2000 then give ownEvb
      else
        let t := task (engOf (48 * c.q + d / 64 % 64) c.s) (d % 16) c.s
        if t.state = .free ∨ t.state = .cancelling then { stk := st, fx := statusWr c .stale 0 } else give d)))

/-! ### Messages (R231) -/

/-- M.SEND (R231). -/
def mSend (c : ECtx) (a : EWord) (st : List EWord) : TR (Eff EWord) := do
  let w ← c.topS
  opnds c.e [.word a (isTag .addr), .word w (destOk false), .copyMem (addrIn a 0) (pay32 a),
      .copyMem (addrIn a 1) (pay32 a + 1)] (fun ws =>
    let d := pay32 w; let l := 48 * c.q + d / 64 % 64; let k := d % 16
    let t := task (engOf l c.s) k c.s
    let m : Msg := ⟨ws.getD 2 0, ws.getD 3 0, ownEngine c.local_ c.slot⟩
    let fx (s : State) : State :=
      if t.state = .free ∨ t.state = .cancelling then statusWr c .stale 0 s
      else if 8 ≤ inboxLoad l k c.s then statusWr c .busy 0 (bump (engCnt (engOf l s) 6) s)
      else statusWr c .ok 0 { s with msgs := s.msgs ++ [(l, k, m)] }
    .ok { stk := st, fx := fx })

/-- M.RECV (R231). -/
def mRecv (c : ECtx) (a : EWord) (st : List EWord) : TR (Eff EWord) :=
  match c.t.inbox with
  | [] => wantTag .addr a (.ok { stk := st, fx := statusWr c .noResource 0 })
  | m :: rest =>
    opnds c.e (.word a (isTag .addr) :: (List.range 3).map (fun i => .place (addrIn a i) (pay32 a + i))) (fun _ =>
      let fx (s : State) : State := statusWr c .ok rest.length
        (setTask c.key c.slot (fun t => { t with inbox := t.inbox.drop 1 })
          (dataWrs c.key (pay32 a) [m.w0, m.w1, wUint m.sender] s))
      .ok { stk := st, fx := fx })

/-! ### Trigger primitives (R232–R234, R241, R242) -/

/-- The TP word of R241. -/
def mkTp (t base : Nat) (attach clip : Bool) (pflags stream cls engine score device seq : Nat) : TpWord :=
  BitVec.ofNat 128 (t % 2 ^ 32
    + (base * 2 ^ 29 + b1 attach * 2 ^ 28 + b1 clip * 2 ^ 27 + pflags * 2 ^ 20 + stream) * 2 ^ 32
    + (cls * 2 ^ 24 + engine * 2 ^ 16 + score) * 2 ^ 64 + (device * 2 ^ 20 + seq % 65536) * 2 ^ 96)

/-- The template words every emission reads (R232): t0, stream, class, flags, attachment. -/
def tplOpnds (a : EWord) : List Opnd :=
  [.mem (addrIn a 0) (pay32 a) (fun w => isTag .time w && tValid w),
   .mem (addrIn a 1) (pay32 a + 1) (isTag .stream),
   .mem (addrIn a 2) (pay32 a + 2) (isTag .class_),
   .mem (addrIn a 3) (pay32 a + 3) (uintP (fun v => decide (v < 16))),
   .mem (addrIn a 4) (pay32 a + 4) (isTag .handle)]

/-- The attachment of a template: none for the null handle, else a buffer the task owns (R233). -/
def attachOf {α : Type} (c : ECtx) (h : EWord) (k : Option Nat → TR α) : TR α :=
  if hPool (hKey h) = 0 then k none else handleUse c h true (fun key _ => k (some key))

/-- Hands an attachment to the quadrant's EVB (R233, R331): at most 1,024 are held, the oldest released early. -/
def handOff (q : Nat) (x : Attach) (s : State) : State :=
  let s1 := setBuf x.buf (fun b => { b with owner := ownEvb }) s
  let held := mget [] s1.evt.attach q
  match held with
  | o :: r =>
    if 1024 ≤ held.length then
      bump (evbCnt q 12) (freeBuf o.buf (setEvt (fun e => { e with attach := mput e.attach q (r ++ [x]) }) s1))
    else setEvt (fun e => { e with attach := mput e.attach q (held ++ [x]) }) s1
  | [] => setEvt (fun e => { e with attach := mput e.attach q [x] }) s1

/-- Queues one TP (R233, R234, R242). -/
def emitTp (c : ECtx) (ws : List EWord) (t : Nat) (att : Option Nat) (clip : Bool) (score : Nat) (s : State) : State :=
  let w (i : Nat) : EWord := ws.getD i 0
  let seq := (eng c.key s).tpSeq
  let engine := (c.e.logical.getD 0) % 256
  let stream := bits (w 1).toNat 19 0
  let cls := bits (w 2).toNat 23 16
  let tp := mkTp t (tBase (w 0)) att.isSome clip (pay32 (w 3)) stream cls engine score (deviceNum s) seq
  let s1 := setEng c.key (fun e => { e with tpq := e.tpq ++ [⟨tp, c.slot, s.ticks⟩], tpSeq := (e.tpSeq + 1) % 65536 }) s
  match att with
  | none => s1
  | some key => handOff c.q ⟨key, engine, seq, t % 2 ^ 32, tBase (w 0), stream, cls, s.ticks⟩ s1

/-- M.TP (R232, R233). -/
def mTp (c : ECtx) (a : EWord) (st : List EWord) : TR (Eff EWord) :=
  opnds c.e (.word a (isTag .addr) :: tplOpnds a) (fun l =>
    let ws := l.drop 1
    attachOf c (ws.getD 4 0) (fun att =>
      let fx (s : State) : State :=
        let s1 := emitTp c ws (pay32 (ws.getD 0 0)) att false (bits (ws.getD 2 0).toNat 15 0) s
        statusWr c .ok 0 (if att.isSome then dataWr c.key (pay32 a + 4) (nullHandle c.q) s1 else s1)
      .ok { stk := st, fx := fx }))

/-! ### The opcode table (R225) -/

/-- Entries popped and pushed by an op value. -/
def mPQ (op : Nat) : Nat × Nat :=
  if op = 0 then (1, 2) else if op = 1 then (1, 0) else if op = 2 then (2, 2) else if op = 3 then (2, 3)
  else if op = 0x100 then (0, 1)
  else if op < 0x200 then (1, 1)
  else if op = 0x200 then (1, 2) else if op = 0x201 then (0, 1) else if op = 0x202 then (1, 0)
  else if op = 0x203 then (1, 2) else if op = 0x204 then (1, 1)
  else if op = 0x300 then (0, 1) else if op = 0x301 then (1, 0)
  else if op = 0x600 then (0, 0)
  else if 0x700 ≤ op then (2, 2)
  else (1, 1)

/-- The operations that read S by XFER. -/
def mReadsS (op : Nat) : Bool :=
  [0x100, 0x130, 0x204, 0x300, 0x302, 0x400, 0x702].contains op

/-- The stack operations. -/
def mStack (op : Nat) (st : List EWord) : TR (Eff EWord) :=
  match op, st with
  | 0, a :: r => do copyOk a; mTagOk a; return { stk := a :: a :: r }
  | 1, a :: r => do copyOk a; return { stk := r }
  | 2, b :: a :: r => do copiesOk [a, b]; mTagsOk [a, b]; return { stk := a :: b :: r }
  | 3, b :: a :: r => do copiesOk [a, b]; mTagsOk [a, b]; return { stk := a :: b :: a :: r }
  | _, _ => trapUnder

/-- One M syllable that is no micro-routine against the pre-chord state (R198, R225). -/
def mEval (c : ECtx) (op : Nat) : TR (Eff EWord) := do
  let st := c.t.mStk
  depthOk (mPQ op).1 (mPQ op).2 st.length 8 (! mReadsS op || ! c.t.sStk.isEmpty)
  if op < 0x100 then mStack op st
  else if op = 0x100 then
    let w ← c.topS
    mTagOk w
    return { stk := w :: st }
  else if op < 0x200 then mMove c op st
  else if op = 0x201 then return mTake c none st
  else if op = 0x300 then mAlloc c st
  else if op = 0x600 then return { stk := st }
  else match st with
    | a :: r =>
      if op = 0x200 then wantTag .stream a (.ok (mTake c (some a) st))
      else if op = 0x202 then mDone c a r
      else if op = 0x203 then batchUse c a (fun key _ => .ok { stk := streamWord c key :: st })
      else if op = 0x204 then mHdr c a st
      else if op = 0x301 then mFree c a r
      else if op = 0x302 then mGive c a st
      else if op = 0x400 then mSend c a st
      else if op = 0x401 then mRecv c a st
      else mTp c a st
    | [] => trapUnder

end Sys2Proof.Machine
end

