-- ==== Sys2Proof/Machine/Micro.lean ====
section
/-! DEFINITION. The micro-routines: V.SORT, M.EMIT, M.GATHER, M.SCATTER and M.HCOPY, step by step (R232, R235–R239). -/

namespace Sys2Proof.Machine

/-- What a step of a micro-routine gives: its effect outside the stacks, what the routine keeps, and the next step, or none
after the last. -/
structure MrRes where
  fx : State → State
  mr : MrSt
  next : Option Nat

/-- A micro-routine's operation. -/
inductive MrOp where
  | sort | emit | gather | scatter | hcopy
  deriving DecidableEq

/-- The micro-routine of a syllable (R235). -/
def mrOp (y : Syl) : MrOp :=
  if y.str = 2 then .sort
  else if y.op = 0x501 then .emit else if y.op = 0x700 then .gather else if y.op = 0x701 then .scatter else .hcopy

/-! ### V.SORT (R239) -/

/-- A lane's place in the order: values, then GAP, then POISON. -/
def laneLe (a b : Lane) : Bool :=
  let r (l : Lane) : Nat := if l.2 < 2 then 0 else l.2
  if r a ≠ r b then decide (r a < r b) else if r a = 0 then decide (a.1 ≤ b.1) else true

/-- Inserts before the first lane that is greater: with `insSort`, a stable sort. -/
def laneIns (x : Lane) : List Lane → List Lane
  | [] => [x]
  | y :: l => if laneLe x y then x :: y :: l else y :: laneIns x l

def laneSort : List Lane → List Lane
  | [] => []
  | x :: l => laneIns x (laneSort l)

/-- ceil(log2 n) for n from 1 to 64. -/
def clog2 (n : Nat) : Nat := ((List.range 7).find? (fun k => decide (n ≤ 2 ^ k))).getD 6

/-- Reads vectors of one tag from consecutive locations. -/
def vecsRd (e : EngSt) (tag : Nat) : Nat → Nat → TR (List Lane)
  | _, 0 => .ok []
  | at_, n + 1 => do
    let v ← vecRd e at_
    if v.tag ≠ tag then trapMix else
      let r ← vecsRd e tag (at_ + 1) n
      return lanes v ++ r

/-- The operands of V.SORT (R239). -/
def sortStart (c : ECtx) : TR MrSt := do
  let a ← c.topM
  let w ← c.topS
  opnds c.e [.word a (isTag .addr), .word w (isTag .uint)] (fun _ =>
    let n := pay32 w; let base := pay32 a
    let v0 : Vec := mget {} c.e.vec base
    if aSpace a ≠ 1 then trapRange base
    else if n = 0 ∨ 64 < n then trapRange n
    else if 128 < base + 2 * n then trapRange (base + 2 * n - 1)
    else if laneCount v0.tag = 0 ∨ (List.range n).any (fun i => decide ((mget {} c.e.vec (base + i)).tag ≠ v0.tag)) then
      trapMix
    else .ok { m0 := a, s0 := w, v0 := { tag := v0.tag }, pc := c.pc })

/-- One output vector of one pass (R236, R239). [DEDUCED, log 38] -/
def sortStep (c : ECtx) (mr : MrSt) (k : Nat) : TR MrRes := do
  let n := pay32 mr.s0; let base := pay32 mr.m0; let tag := mr.v0.tag
  let p := k / 64; let o := k % 64
  let l := clog2 n
  let last := if l % 2 = 1 then l + 1 else l
  let src := if p = 0 ∨ p % 2 = 0 then base else base + n
  let dst := if p % 2 = 0 then base + n else base
  let run := if l < p then 1 else 2 ^ p
  let r0 := o / run * run
  let ls ← vecsRd c.e tag (src + r0) (min run (n - r0))
  let out := ((laneSort ls).drop ((o - r0) * laneCount tag)).take (laneCount tag)
  return { fx := vecWr c.key (dst + o) (mkVec tag out), mr := mr,
           next := if o + 1 < n then some (k + 1) else if p = last then none else some ((p + 1) * 64) }

/-! ### M.EMIT (R232, R234) -/

/-- The lanes a step emits and the lane after the last it scans: from lane k, until four are found, 32 are scanned, or as many
as are left to emit. -/
def emitScan : Nat → Nat → Nat → List Lane → List (Nat × Lane) × Nat
  | 0, _, k, _ => ([], k)
  | _, _, k, [] => ([], k)
  | fuel + 1, room, k, l :: ls =>
    if room = 0 then ([], k)
    else if 0 < l.1 ∧ l.2 < 2 then
      let r := emitScan fuel (room - 1) (k + 1) ls
      ((k, l) :: r.1, r.2)
    else emitScan fuel room (k + 1) ls

def emitPlan (v : Vec) (k left : Nat) : List (Nat × Lane) × Nat := emitScan 32 (min 4 left) k ((lanes v).drop k)

/-- The time of lane i: t0 + round(i × spacing), rounded half up (R232). -/
def laneTime (t0 : EWord) (sp : EWord) (i : Nat) : Nat :=
  wrapN 32 ((pay32 t0 : Int) + ((i : Int) * fVal sp + 32768) / 65536)

/-- The template of M.EMIT: 7 words (R232). -/
def emitOpnds (a : EWord) : List Opnd :=
  .word a (isTag .addr) :: tplOpnds a
    ++ [.mem (addrIn a 5) (pay32 a + 5) (fun w => isTag .fix w && decide (0 < fVal w)),
        .mem (addrIn a 6) (pay32 a + 6) (uintP (fun v => decide (1 ≤ v ∧ v ≤ 256)))]

def emitStart (c : ECtx) : TR MrSt := do
  let v ← c.topV
  match c.t.mStk with
  | a :: _ =>
    opnds c.e (emitOpnds a) (fun _ => .ok ())
    if 1 ≤ v.tag ∧ v.tag ≤ 3 then return { m0 := a, v0 := v, pc := c.pc } else trapMix
  | [] => trapUnder

/-- One step of M.EMIT. -/
def emitStep (c : ECtx) (mr : MrSt) (k : Nat) : TR MrRes :=
  let a := mr.m0
  opnds c.e (emitOpnds a) (fun l =>
    let ws := l.drop 1
    let w (i : Nat) : EWord := ws.getD i 0
    let mx := pay32 (w 6)
    let plan := emitPlan mr.v0 k (mx - mr.count)
    let n := laneCount mr.v0.tag
    attachOf c (w 4) (fun att =>
      let fx1 (s : State) : State := plan.1.zipIdx.foldl (fun s e =>
        emitTp c ws (laneTime (w 0) (w 5) e.1.1) (if e.2 = 0 then att else none) (decide (e.1.2.2 = 1))
          (min 65535 e.1.2.1.toNat) s) s
      let fx2 (s : State) : State :=
        if att.isSome ∧ ¬ plan.1.isEmpty then dataWr c.key (pay32 a + 4) (nullHandle c.q) (fx1 s) else fx1 s
      let count := mr.count + plan.1.length
      let fin := decide (n ≤ plan.2) || decide (count = mx)
      let fx (s : State) : State :=
        if fin then statusWr c .ok count
          (dataWr c.key (pay32 a) (wTime true (tBase (w 0)) (laneTime (w 0) (w 5) n)) (fx2 s))
        else fx2 s
      .ok { fx := fx, mr := { mr with count := count }, next := if fin then none else some plan.2 }))

/-! ### M.GATHER and M.SCATTER (R237) -/

/-- The descriptor: offset, count, form, stride, first data-store word. -/
def descOpnds (a : EWord) : List Opnd :=
  [.word a (isTag .addr),
   .mem (addrIn a 0) (pay32 a) (isTag .uint),
   .mem (addrIn a 1) (pay32 a + 1) (uintP (fun v => decide (1 ≤ v ∧ v ≤ 4096))),
   .mem (addrIn a 2) (pay32 a + 2) (uintP (fun v => decide (v < 4))),
   .mem (addrIn a 3) (pay32 a + 3) (isTag .uint),
   .mem (addrIn a 4) (pay32 a + 4) (isTag .addr)]

/-- Bytes of an element of a form. -/
def formBytes (form : Nat) : Nat := if form = 2 then 2 else 4

/-- The tags M.SCATTER accepts for a form. -/
def formTag (form : Nat) : Tag := if form = 0 then .uint else if form = 3 then .s16x2 else .int

/-- The flags of a form-3 element: from the flag plane of a lent 16-bit batch where it is aligned and lies in the sample plane,
else CLEAN; none where the flag byte is uncorrectable. [DEDUCED, log 41] -/
def s16Flags (key : Nat) (b : Buf) (off : Nat) : Option (Nat × Nat) :=
  let h := batchHdr b
  let comps := if h.complex then 2 * h.n else h.n
  if hPool key = 1 ∧ h.w16 ∧ off % 4 = 0 ∧ 64 ≤ off ∧ off + 4 ≤ 64 + 2 * comps then
    let i := (off - 64) / 2
    let fl (i : Nat) : Nat := bits (leNat (bufRd b (h.flagOff + i / 4) 1)) (2 * (i % 4) + 1) (2 * (i % 4))
    if b.bad.contains (h.flagOff + i / 4) then none else some (fl i, fl (i + 1))
  else some (0, 0)

/-- The word of a gathered element; POISON with origin ECC where its bytes are uncorrectable. -/
def gatherWord (key : Nat) (b : Buf) (form off dst : Nat) : EWord :=
  let n := formBytes form
  let v := leNat (bufRd b off n)
  if b.bad.any (fun x => decide (off ≤ x ∧ x < off + n)) then wPoison 4 dst
  else if form = 0 then wUint v
  else if form = 1 then wInt (sgn 32 v)
  else if form = 2 then wInt (sgn 16 v)
  else match s16Flags key b off with
    | none => wPoison 4 dst
    | some (f0, f1) => mkW .s16x2 (f1 * 2 ^ 34 + f0 * 2 ^ 32 + v)

/-- The bytes M.SCATTER writes for a word of a form. [DEDUCED, log 41] -/
def scatterBytes (form : Nat) (w : EWord) : List Nat :=
  if form = 2 then leBytes 2 (wrapN 16 (satTo 16 (iVal w))) else leBytes 4 (pay32 w)

/-- The elements of a step: their byte offsets and data-store addresses. -/
def elements (off stride dst k n : Nat) : List (Nat × Nat) :=
  (List.range n).map (fun i => (off + (k + i) * stride, dst + k + i))

/-- The first element that lies outside the buffer or the data store. -/
def outElement (b : Buf) (bytes : Nat) (l : List (Nat × Nat)) : Option Nat :=
  (l.find? (fun e => decide (b.size < e.1 + bytes ∨ 65536 ≤ e.2))).map (·.1)

def pairStart (c : ECtx) : TR MrSt :=
  match c.t.mStk with
  | a :: h :: _ => consumes (isTag .addr) [a] (consumes (isTag .handle) [h] (.ok { m0 := a, m1 := h, pc := c.pc }))
  | _ => trapUnder

/-- One step of M.GATHER, or of M.SCATTER with `out`: up to 32 elements. -/
def moveStep (c : ECtx) (out : Bool) (mr : MrSt) (k : Nat) : TR MrRes :=
  opnds c.e (.word mr.m1 (isTag .handle) :: descOpnds mr.m0) (fun l =>
    let ws := l.drop 2
    let v (i : Nat) : Nat := pay32 (ws.getD i 0)
    let form := v 2
    let stride := if v 3 = 0 then formBytes form else v 3
    let count := v 1
    let n := min 32 (count - k)
    let els := elements (v 0) stride (v 4) k n
    if aSpace (ws.getD 4 0) ≠ 0 then trapRange (v 4)
    else
      let next := if k + n < count then some (k + n) else none
      if out then
        opnds c.e (els.map (fun e => .mem (decide (e.2 < 65536)) (if e.2 < 65536 then e.2 else e.1) (isTag (formTag form))))
          (fun src =>
          handleUse c mr.m1 true (fun key b =>
            match outElement b (formBytes form) els with
            | some o => trapRange o
            | none => .ok { fx := fun s => (els.zip src).foldl (fun s e => bufWr key e.1.1 (scatterBytes form e.2) s) s,
                            mr := mr, next := next }))
      else
        opnds c.e (els.map (fun e => .place (decide (e.2 < 65536)) e.1)) (fun _ => handleUse c mr.m1 false (fun key b =>
          match outElement b (formBytes form) els with
          | some o => trapRange o
          | none => .ok { fx := fun s => els.foldl (fun s e => dataWr c.key e.2 (gatherWord key b form e.1 e.2) s) s,
                          mr := mr, next := next })))

/-! ### M.HCOPY (R238) -/

/-- Bytes of a buffer that holds n instants in the layout of R89. -/
def batchSize (complex w16 : Bool) (n : Nat) : Nat :=
  64 + granules (n * cpi complex * cbytes w16) + granules ((n * cpi complex + 3) / 4)

/-- What M.HCOPY copies, or none for RANGE (R238). [DEDUCED, log 38] -/
def hcopyPlan (c : ECtx) (strm t d : EWord) (size : Nat) : Option MrSt :=
  let key := bits strm.toNat 35 34 * 16384 + bits strm.toNat 33 20
  let base := tBase t
  let dt := sdiff (pay32 t) (tbNs base c.s)
  match mfind c.s.streams key with
  | none => none
  | some x =>
    let bs := indexBatches c.q x.id c.s
    let w0 := extendNs (pay32 t) (tbNs base c.s) * 65536
    let w1 := w0 + (iVal d).toNat * 65536
    if key / 16384 ≠ c.q ∨ x.id ≠ bits strm.toNat 19 0 ∨ dt < -2000000000 ∨ 0 < dt then none
    else match windowRuns bs w0 w1 with
      | [] => none
      | (r, _, hi) :: _ =>
        let stop := min hi w1
        let first := gridFrom r.first r.period w0
        let n := gridCount first r.period stop
        if r.tb ≠ base ∨ size < batchSize r.complex r.w16 n then none
        else some { first := first, period := r.period, n := n, complex := r.complex, w16 := r.w16, tb := r.tb,
                    part := decide (hi < w1), pc := c.pc }

/-- [DEDUCED, log 38] -/
def hcopyStart (c : ECtx) : TR MrSt := do
  let a ← c.topS
  match c.t.mStk with
  | strm :: h :: _ =>
    opnds c.e [.word h (isTag .handle), .word strm (isTag .stream), .word a (isTag .addr),
        .mem (addrIn a 0) (pay32 a) (fun w => isTag .time w && tValid w),
        .mem (addrIn a 1) (pay32 a + 1) (fun w => isTag .dur w && decide (0 < iVal w))] (fun ws =>
      handleUse c h true (fun _ b =>
        .ok (match hcopyPlan c strm (ws.getD 3 0) (ws.getD 4 0) b.size with
          | some m => { m with m0 := strm, m1 := h, s0 := a, count := 1 }
          | none => { m0 := strm, m1 := h, s0 := a, pc := c.pc })))
  | _ => trapUnder

/-- One step of M.HCOPY: up to 2 KiB of the buffer, the header in the last. The instants whose samples lie in the step are read from history
in it; flags and counts are those of what was copied. -/
def hcopyStep (c : ECtx) (mr : MrSt) (k : Nat) : TR MrRes :=
  if mr.count = 0 then .ok { fx := statusWr c .range 0, mr := mr, next := none }
  else
    let id := bits mr.m0.toNat 19 0
    let bs := heldBatches c.q id c.s
    let done := mr.comps.length / cpi mr.complex
    let upTo := min mr.n ((2048 * (k + 1) - 64) / (cpi mr.complex * cbytes mr.w16))
    let first := mr.first + done * mr.period
    let missing := (List.range (upTo - done)).any (fun i => (instantAt bs (first + i * mr.period)).isNone)
    let copied := mr.comps ++ (gridInstants bs mr.complex first mr.period (upTo - done)).flatten
    let comps := copied ++ List.replicate (mr.n * cpi mr.complex - copied.length) (0, 2)
    let part := mr.part || missing
    let b : Batch := { gap := false, complex := mr.complex, w16 := mr.w16, tb := mr.tb, stream := id, seq := 0,
                       tFirst := mr.first, arrivalTime := false, afterGap := false, clip := false, suspect := false, cut := part,
                       period := mr.period, n := mr.n % 2 ^ 17, comps := comps, arr := 0, gapId := 0 }
    let all := batchBytes b
    let fin := decide (all.length ≤ 2048 * (k + 1))
    handleUse c mr.m1 true (fun key _ =>
      let body (s : State) : State :=
        if k = 0 then bufWr key 64 (sliceB all 64 1984) s else bufWr key (2048 * k) (sliceB all (2048 * k) 2048) s
      let fx (s : State) : State := if fin then statusWr c .ok 0 (bufWr key 0 (all.take 64) (body s)) else body s
      .ok { fx := fx, mr := { mr with part := part, comps := copied }, next := if fin then none else some (k + 1) })

/-! ### A step of any of them (R235, R236) -/

/-- The stack depths a micro-routine needs (R157, R200). -/
def mrDepth (c : ECtx) (o : MrOp) : TR Unit :=
  let st := c.t.mStk
  match o with
  | .sort => depthOk 0 0 0 8 (! st.isEmpty && ! c.t.sStk.isEmpty)
  | .emit => depthOk 1 1 st.length 8 (! c.t.vStk.isEmpty)
  | .gather | .scatter => depthOk 2 2 st.length 8 true
  | .hcopy => depthOk 2 2 st.length 8 (! c.t.sStk.isEmpty)

/-- The first step's operands. -/
def mrStart (c : ECtx) (o : MrOp) : TR MrSt := do
  mrDepth c o
  match o with
  | .sort => sortStart c
  | .emit => emitStart c
  | .gather | .scatter => pairStart c
  | .hcopy => hcopyStart c

/-- Step k. -/
def mrStep (c : ECtx) (o : MrOp) (mr : MrSt) (k : Nat) : TR MrRes :=
  match o with
  | .sort => sortStep c mr k
  | .emit => emitStep c mr k
  | .gather => moveStep c false mr k
  | .scatter => moveStep c true mr k
  | .hcopy => hcopyStep c mr k

/-- TPs that step k of M.EMIT will emit, counted before it issues (R234). -/
def emitNeed (c : ECtx) (mr : MrSt) (k : Nat) : Nat :=
  (emitPlan mr.v0 k (pay32 (mget emptyWord c.e.data (pay32 mr.m0 + 6)) - mr.count)).1.length

end Sys2Proof.Machine
end

