-- ==== Sys2Proof/Machine/CString.lean ====
section
/-! DEFINITION. The C string: branches, calls, hardware loops, trap handlers and task operations (R209–R217). -/

namespace Sys2Proof.Machine

/-- How a chord goes on. -/
inductive Flow where
  /-- Falls through to an address, where a loop may end (R213). -/
  | fall (addr : Nat)
  /-- Transfers control. -/
  | go (addr : Nat)

/-- What ends or suspends a task after its chord. -/
inductive Fin_ where
  | none | wait | finish | yield | fence
  deriving DecidableEq

/-- What the C syllable of a chord does. -/
structure CAct where
  flow : Flow
  loops : List LoopLv
  rets : List RetEnt
  upd : Task → Task := id
  fin : Fin_ := .none
  /-- A C.RTHN whose faulting chord has no known length (R216). -/
  nested : Bool := false
  /-- The handler ended at this address, or without one, so that an interrupted micro-routine is abandoned or kept (R235). -/
  ended : Bool := false

/-- A handler's entry is on the return stack: the task is in its trap handler (R215). -/
def isHandler (r : RetEnt) : Bool := match r with | .handler .. => true | .call .. => false
def inHandler (t : Task) : Bool := t.rets.any isHandler

/-- Call entries above the handler's entry, or all outside a handler. -/
def callDepth (t : Task) : Nat := (t.rets.takeWhile (fun r => ! isHandler r)).length

/-- The innermost levels beyond n are closed. -/
def keepLevels (n : Nat) (l : List LoopLv) : List LoopLv := l.drop (l.length - n)

/-- Fall-through to an address: the innermost level is counted down; a level that closes hands on to the next of the same LE
(R213). -/
def fallTo (addr : Nat) : List LoopLv → Nat × List LoopLv
  | [] => (addr, [])
  | lv :: r =>
    if lv.le = addr then
      if 2 ≤ lv.lc then (lv.ls, { lv with lc := lv.lc - 1 } :: r) else fallTo addr r
    else (addr, lv :: r)

/-- A target within the program store (R210). -/
def target (a : Int) (k : Nat → TR CAct) : TR CAct :=
  if a < 0 ∨ 65535 < a then trapRange (wrapN 32 a) else k a.toNat

/-- A transfer of control. -/
def goTo (c : ECtx) (a : Int) : TR CAct := target a (fun n => .ok { flow := .go n, loops := c.t.loops, rets := c.t.rets })

/-- Room for a call (R214, R215): five deep outside a handler, two inside. -/
def callRoom (c : ECtx) : TR Unit :=
  if (if inHandler c.t then 2 else 5) ≤ callDepth c.t then .error ⟨.stackOver, none, none⟩ else .ok ()

/-- A call (R214). -/
def callTo (c : ECtx) (next : Nat) (a : Int) : TR CAct := do
  callRoom c
  target a (fun n =>
    .ok { flow := .go n, loops := c.t.loops, rets := .call next c.t.loops.length :: c.t.rets })

/-- Opens a loop level with a body length and a count (R212). -/
def openLoop (c : ECtx) (next body count : Nat) : TR CAct :=
  let le := next + body
  if count ≠ 0 ∧ 4 ≤ c.t.loops.length then .error ⟨.loopDepth, none, none⟩
  else if 65535 < le then trapRange le
  else if count = 0 then .ok { flow := .fall le, loops := c.t.loops, rets := c.t.rets }
  else .ok { flow := .fall next, loops := ⟨next, le, count⟩ :: c.t.loops, rets := c.t.rets }

/-- A branch on the pre-chord top of S (R209, R210). -/
def branch (c : ECtx) (next : Nat) (on : Bool) (a : Int) : TR CAct := do
  let w ← c.topS
  wantTag .bool w (
    if decide (pay w = 1) = on then goTo c a
    else .ok { flow := .fall next, loops := c.t.loops, rets := c.t.rets })

/-- A program address at the pre-chord top of S (R210). -/
def topProg (c : ECtx) (k : Nat → TR CAct) : TR CAct := do
  let w ← c.topS
  wantAddr 2 65536 w k

/-- The handler's end (R216). -/
def endHandler (c : ECtx) (levels : Nat) (rest : List RetEnt) (a : Nat) : TR CAct :=
  target a (fun n => .ok { flow := .go n, loops := keepLevels levels c.t.loops, rets := rest, ended := true })

/-- The handler's entry and what lies below it. -/
def handlerEntry : List RetEnt → Option (Option Nat × Nat × List RetEnt)
  | [] => none
  | .handler _ succ levels :: r => some (succ, levels, r)
  | .call .. :: r => handlerEntry r

/-- The group-0 functions (R211). `sAfter` is the depth of S after the chord's own S syllable. -/
def cFun (c : ECtx) (f next sAfter : Nat) : TR CAct :=
  let t := c.t
  let seq : CAct := { flow := .fall next, loops := t.loops, rets := t.rets }
  if f = 0 then .ok seq
  else if f = 1 then .ok { seq with fin := .finish }
  else if f = 2 then if 16 ≤ sAfter then .error ⟨.stackOver, none, none⟩ else .ok { seq with fin := .wait }
  else if f = 3 then .ok { seq with fin := .yield }
  else if f = 4 then .ok { seq with fin := .fence }
  else if f = 5 then
    match t.rets with
    | .call a levels :: r =>
      target a (fun n => .ok { flow := .go n, loops := keepLevels levels t.loops, rets := r })
    | _ => trapUnder
  else if f = 6 then
    match t.loops with
    | lv :: r => .ok { flow := .fall lv.le, loops := r, rets := t.rets }
    | [] => trapUnder
  else if f = 8 then topProg c (fun a => goTo c a)
  else if f = 9 then do
    let _ ← c.topS
    callRoom c
    topProg c (fun a => callTo c next a)
  else if f = 0xA then topProg c (fun a =>
    match handlerEntry t.rets with
    | some (_, levels, r) => endHandler c levels r a
    | none => goTo c a)
  else if f = 0xB then
    match handlerEntry t.rets with
    | some (some a, levels, r) => endHandler c levels r a
    | some (none, _, _) => .ok { seq with nested := true }
    | none => trapUnder
  else if f = 0xC then do
    let w ← c.topS
    wantTag .time w (.ok { seq with upd := wakeArm w (tbNs (tBase w) c.s) })
  else if f = 0xD then .ok { seq with upd := fun t => { t with wake := none } }
  else if f < 0x18 then do
    let w ← c.topS
    wantTag .dur w (
      let now := c.now (f % 8)
      .ok { seq with upd := wakeArm (timeAdd now (iVal w)) (pay32 now) })
  else .ok { seq with upd := fun t => { t with waitMask := f % 16 } }

/-- One C syllable against the pre-chord state (R209). -/
def cEval (c : ECtx) (op lit next sAfter : Nat) : TR CAct :=
  let x := op % 512
  let off : Int := (c.pc : Int) + sgn 9 x
  let abs : Int := ((x * 32768 + lit : Nat) : Int)
  match op / 512 with
  | 0 => cFun c x next sAfter
  | 1 => goTo c off
  | 2 => branch c next true off
  | 3 => branch c next false off
  | 4 => callTo c next abs
  | 5 => goTo c abs
  | 6 => branch c next true abs
  | 7 => branch c next false abs
  | 8 | 9 => openLoop c next x lit
  | _ => do
    let w ← c.topS
    wantTag .uint w (openLoop c next x (pay32 w))

/-- A chord without a C syllable. -/
def cNone (c : ECtx) (next : Nat) : CAct := { flow := .fall next, loops := c.t.loops, rets := c.t.rets }

/-- A chord that ends at 0xFFFF and transfers no control (R197). [DEDUCED, log 34] -/
def lastOk (a : CAct) : TR Unit :=
  match a.flow with
  | .fall n => if 65535 < n ∧ ! a.nested then trapRange n else .ok ()
  | .go _ => .ok ()

/-- Where the chord goes, with the loops after it. -/
def CAct.place (a : CAct) : Nat × List LoopLv :=
  match a.flow with
  | .fall n => fallTo n a.loops
  | .go n => (n, a.loops)

end Sys2Proof.Machine
end

