-- ==== Sys2Proof/Machine/Chord.lean ====
section
/-! DEFINITION. A chord boundary: what one chord or micro-routine step of a task does, its trap, and the debug halt around it
(R174, R180, R181, R185, R197–R201, R235). -/

namespace Sys2Proof.Machine

/-! ### Traps (R181) -/

/-- A task stopped by a trap is reported to the function that started it (R181, R399, R400). -/
def reportTrap (key slot : Nat) (s : State) : State :=
  let t := task key slot s
  match t.src with
  | none => s
  | some src =>
    let entry : Compl :=
      { kind := .trap, status := .fault, opcode := src.opcode, ring := src.ring, index := src.index % 65536,
        aux := b1 t.trapNested * 2 ^ 15 + t.trapStr * 2 ^ 12, cookie := src.cookie, jseq := src.jseq,
        result := ((eng key s).logical.getD 0) % 256 * 2 ^ 56 + slot * 2 ^ 52 + t.trapCode * 2 ^ 48 + t.trapAddr * 2 ^ 32
          + t.trapDetail }
    complEntry src entry s

/-- The task enters TRAPPED (R181). -/
def enterTrapped (key slot : Nat) (s : State) : State :=
  reportTrap key slot (setEng key (fun e => { e with
    tasks := mmod {} e.tasks slot (fun t => { t with state := .trapped }),
    running := if e.running = some slot then none else e.running }) (saveV key slot s))

/-- What follows the trap record (R181): the handler, or TRAPPED. [DEDUCED, log 35] -/
def trapAction (key slot : Nat) (succ : Option Nat) (s : State) : State :=
  let t := task key slot s
  if t.handlerOn then
    if inHandler t ∨ 14 < t.sStk.length then
      enterTrapped key slot (setTask key slot (fun t => { t with trapNested := true }) s)
    else
      let marks (m : FMap Bool) : FMap Bool :=
        wroteMarks 3 slot t.sStk.length 15 (wroteMarks 5 slot (4 + t.rets.length) 11 (wroteMarks 5 slot 15 15 m))
      setEng key (fun e => { e with bad := marks e.bad })
        (setTask key slot (fun t => { t with
          sStk := wAddr 2 t.trapAddr :: wUint t.trapCode :: t.sStk,
          rets := .handler t.trapAddr succ t.loops.length :: t.rets,
          pc := t.handler }) s)
  else enterTrapped key slot s

/-- The halt bits of ENG_DBG_CTL (R185, R191). -/
def dbgCtl (key : Nat) : Nat := engBase (key / 64) (key % 64) + 0x00C

/-- The engine halts at a chord (R185, R240). [DEDUCED, log 35] -/
def haltHere (key pc : Nat) (s : State) : State :=
  setEng key (fun e => { e with halted := true, haltAt := some pc }) (setFld (dbgCtl key) 31 31 1 (markBack key s))

/-- The chord of a slot traps (R181): the record, TRAPS, then the action, or a halt before it (R185). An uncorrectable location
is counted once (R167). [DEDUCED, log 35] -/
def raiseTrap (key slot : Nat) (code str detail : Nat) (loc : Option Nat) (succ : Option Nat) (s : State) : State :=
  let s1 := match loc with
    | some k =>
      if mfind (eng key s).bad k = some true then s
      else bump (engCnt key 5) (setEng key (fun e => { e with bad := mput e.bad k true }) s)
    | none => s
  let s2 := bump (engCnt key 2) (setTask key slot (fun t => { t with
    trapCode := code, trapStr := str, trapNested := false, trapAddr := t.pc, trapDetail := detail, begun := true }) s1)
  let pc := (task key slot s).pc
  if bit (reg (dbgCtl key) s) 29 then haltHere key pc (setTask key slot (fun t => { t with trapHeld := some succ }) s2)
  else trapAction key slot succ s2

/-- A syllable's trap: DETAIL is a free value where the spec names nothing that offends. [DEDUCED, log 33] -/
def raise (key slot str : Nat) (t : Trap) (succ : Option Nat) (s : State) : State :=
  match t.detail with
  | some d => raiseTrap key slot (trapNum t.code) str d t.loc succ s
  | none => let (w, s1) := takeFree s
    raiseTrap key slot (trapNum t.code) str (w.toNat % 2 ^ 32) t.loc succ s1

/-- A C.RTHN whose faulting chord has no known length: TRAPPED, nested, with the record of the original trap, or a halt before it
(R185, R216). [DEDUCED, log 35] -/
def rthnNested (key slot : Nat) (s : State) : State :=
  let s1 := setTask key slot (fun t => { t with trapNested := true, begun := true }) s
  if bit (reg (dbgCtl key) s) 29 then
    haltHere key (task key slot s).pc (setTask key slot (fun t => { t with trapHeld := some none }) s1)
  else enterTrapped key slot s1

/-! ### Parity-protected latches (R168) -/

/-- The first marked latch entry among some. -/
def latchBad (c : ECtx) (l : List Nat) : TR Unit :=
  match l.find? (fun k => (mfind c.e.bad k).isSome) with
  | some k => .error ⟨.ecc, none, some k⟩
  | none => .ok ()

/-- The p top entries of a stack of depth d. -/
def topEntries (store slot d p : Nat) : List Nat := (List.range (min p d)).map (fun i => latchKey store slot (d - 1 - i))

/-- The top entry, where an XFER reads it. -/
def xferEntry (x : Bool) (store slot d : Nat) : List Nat := if x then topEntries store slot d 1 else []

/-- The C string reads S by XFER. -/
def cReadsS (op : Nat) : Bool :=
  match op / 512 with
  | 0 => [8, 9, 0xA, 0xC].contains op || decide (0x10 ≤ op ∧ op < 0x18)
  | 2 | 3 | 6 | 7 | 10 => true
  | _ => false

/-- The latch entries that a C syllable, or its absence, reads. -/
def cLatches (c : ECtx) (op : Option Nat) (falls : Bool) : List Nat :=
  let t := c.t
  latchKey 5 c.slot 15
    :: (if falls ∨ op = some 6 then (if t.loops.isEmpty then [] else [latchKey 5 c.slot (t.loops.length - 1)]) else [])
    ++ (match op with
      | some o => xferEntry (cReadsS o) 3 c.slot t.sStk.length
          ++ (if [5, 0xA, 0xB].contains o ∧ ¬ t.rets.isEmpty then [latchKey 5 c.slot (4 + t.rets.length - 1)] else [])
      | none => [])

/-- A V stack entry that the switch to its slot could not restore (R166–R168). -/
def vBad (c : ECtx) (l : List Nat) : TR Unit :=
  match l.find? (fun k => (mfind c.e.bad k).isSome) with
  | some k => .error ⟨.ecc, some (128 + 8 * c.slot + k % 16), some k⟩
  | none => .ok ()

/-- The latch entries that an S, V or M syllable reads. -/
def sLatches (c : ECtx) (op : Nat) : List Nat :=
  let d := c.t.sStk.length
  topEntries 3 c.slot d (sPQ op).1 ++ xferEntry (sReadsM op) 4 c.slot c.t.mStk.length
    ++ (if 0x10 ≤ op ∧ op < 0x20 ∧ op % 16 < d then [latchKey 3 c.slot (d - 1 - op % 16)] else [])
    ++ (if 0x918 ≤ op ∧ op < 0x91C ∧ op % 4 < c.t.loops.length then [latchKey 5 c.slot (c.t.loops.length - 1 - op % 4)] else [])
/-- The V stack entries that a V syllable reads, and the one an XFER of another string reads. -/
def vEntries (c : ECtx) (op : Nat) : List Nat := topEntries 6 c.slot c.t.vStk.length (vPQ op).1
def xferV (x : Bool) (c : ECtx) : List Nat := xferEntry x 6 c.slot c.t.vStk.length
def vLatches (c : ECtx) (op : Nat) : List Nat :=
  xferEntry (vReadsM op) 4 c.slot c.t.mStk.length ++ xferEntry (vReadsS op) 3 c.slot c.t.sStk.length
def mLatches (c : ECtx) (op : Nat) : List Nat :=
  topEntries 4 c.slot c.t.mStk.length (mPQ op).1 ++ xferEntry (mReadsS op) 3 c.slot c.t.sStk.length

/-- The engine is no longer halted at a chord. -/
def clearHalt (key : Nat) (s : State) : State :=
  if (eng key s).haltAt.isNone then s else setEng key (fun e => { e with haltAt := none }) s

/-! ### One chord (R198–R201) -/

/-- The syllable of a string. -/
def sylOf (str : Nat) (l : List Syl) : Option Syl := l.find? (fun y => decide (y.str = str))

/-- The S depth after the chord's own S syllable. -/
def sAfter (c : ECtx) (l : List Syl) : Nat :=
  match sylOf 1 l with
  | some y => c.t.sStk.length - (sPQ y.op).1 + (sPQ y.op).2
  | none => c.t.sStk.length

/-- What every syllable of a chord gives. -/
structure ChordRes where
  act : CAct
  s : Option (Eff EWord)
  v : Option (Eff Vec)
  m : Option (Eff EWord)

/-- A syllable's value, or the trap with the string it is charged to. -/
def onStr {α : Type} (str : Nat) (x : TR α) : Except (Nat × Trap) α :=
  match x with
  | .ok a => .ok a
  | .error t => .error (str, t)

/-- The C string of a chord. -/
def evalC (c : ECtx) (l : List Syl) (next : Nat) : TR CAct := do
  let a ← match sylOf 0 l with
    | some y => cEval c y.op y.lit next (sAfter c l)
    | none => .ok (cNone c next)
  lastOk a
  latchBad c (cLatches c ((sylOf 0 l).map (·.op)) (match a.flow with | .fall _ => true | .go _ => false))
  return a

/-- An optional syllable of a string. -/
def evalOpt {α : Type} (o : Option Syl) (f : Syl → TR α) : TR (Option α) :=
  match o with
  | some y => do return some (← f y)
  | none => .ok none

/-- Evaluates the syllables in string order: the first faulting one is the chord's trap (R180). [DEDUCED, log 33] -/
def evalChord (c : ECtx) (l : List Syl) (next : Nat) : Except (Nat × Trap) ChordRes := do
  let a ← onStr 0 (evalC c l next)
  if a.nested then return { act := a, s := none, v := none, m := none }
  let s ← onStr 1 (evalOpt (sylOf 1 l) (fun y => do
    let r ← sEval c y.op y.lit
    latchBad c (sLatches c y.op)
    vBad c (xferV (sReadsV y.op) c)
    return r))
  let v ← onStr 2 (evalOpt (sylOf 2 l) (fun y => do
    let r ← vEval c y.op
    latchBad c (vLatches c y.op)
    vBad c (vEntries c y.op)
    return r))
  let m ← onStr 3 (evalOpt (sylOf 3 l) (fun y => do
    let r ← mEval c y.op
    latchBad c (mLatches c y.op)
    return r))
  return { act := a, s := s, v := v, m := m }

/-- What a task does at the end of its chord (R184, R217). -/
def finishChord (key slot : Nat) (f : Fin_) (s : State) : State :=
  match f with
  | .none => s
  | .finish => freeSlotTask key slot s
  | .fence => s
  | .wait =>
    let s1 := setTask key slot (fun t => { t with inWait := true }) s
    if pendingBits (task key slot s1) &&& (task key slot s1).waitMask ≠ 0 then s1
    else setEng key (fun e => { e with
      running := none, tasks := mmod {} e.tasks slot (fun t => { t with state := .waiting }) }) (saveV key slot s1)
  | .yield =>
    let p := (task key slot s).prio
    if (eng key s).tasks.any (fun x => decide (x.1 ≠ slot ∧ x.2.state = .ready ∧ x.2.prio = p)) then
      setEng key (fun e => { e with running := none }) (makeReady key slot (saveV key slot s))
    else s

/-- V_LANE_OPS of R423: a V syllable other than a stack operation works on 128 lanes of 16-bit equivalents, whatever its width. -/
def countLanes (key : Nat) (l : List Syl) (s : State) : State :=
  if l.any (fun y => decide (y.str = 2 ∧ 6 ≤ y.op)) then bumpN (paceCnt (11 + key / 64)) 128 s else s

/-- What an optional syllable does outside its stack. -/
def optFx {α : Type} (o : Option (Eff α)) (s : State) : State := match o with | some e => e.fx s | none => s

/-- Commits a chord (R198, R199): the stacks, then the effects in string order, then where the task goes. -/
def commitChord (key slot pc next : Nat) (l : List Syl) (r : ChordRes) (s : State) : State :=
  let t0 := task key slot s
  let pl := r.act.place
  let fence (on : Bool) (x : Option FenceSt) : Option FenceSt := if on then some ⟨pc, s.ticks⟩ else x
  let keepMr (t : Task) : Bool := t.mrActive
    && (if inHandler t then ! r.act.ended || decide (pl.1 = t.mr.pc) else decide (pl.1 = next ∨ pl.1 = t.mr.pc))
  let s1 := setTask key slot (fun t => { r.act.upd t with
    tpWait := false, sStk := (r.s.map (·.stk)).getD t.sStk, vStk := (r.v.map (·.stk)).getD t.vStk, mStk := (r.m.map (·.stk)).getD t.mStk,
    loops := pl.2, rets := r.act.rets, pc := pl.1, begun := true,
    mrActive := keepMr t, mrp := if keepMr t then t.mrp else 0 }) s
  let low (p : Option Nat) (d : Nat) : Nat := d - p.getD 0
  let sP := (sylOf 1 l).map (fun y => (sPQ y.op).1)
  let mP := (sylOf 3 l).map (fun y => (mPQ y.op).1)
  let vP := (sylOf 2 l).map (fun y => (vPQ y.op).1)
  let marks (m : FMap Bool) : FMap Bool :=
    wroteMarks 3 slot (low sP t0.sStk.length) 15 (wroteMarks 4 slot (low mP t0.mStk.length) 15
      (wroteMarks 6 slot (low vP t0.vStk.length) 15 (wroteMarks 5 slot (min t0.loops.length pl.2.length) 3
        (wroteMarks 5 slot (4 + min t0.rets.length r.act.rets.length) 11 m))))
  let s2 := clearHalt key (if (eng key s1).bad.isEmpty then s1 else setEng key (fun e => { e with bad := marks e.bad }) s1)
  let s5 := optFx r.m (optFx r.v (optFx r.s s2))
  let mF := (sylOf 3 l).any (fun y => decide (y.op = 0x600))
  let s6 := if r.act.fin = .fence ∨ mF then setTask key slot (fun t => { t with
    cFence := fence (decide (r.act.fin = .fence)) t.cFence, mFence := fence mF t.mFence }) s5 else s5
  finishChord key slot r.act.fin (wakeSlot key slot (bump (engCnt key 0) (countLanes key l s6)))

/-! ### One step of a micro-routine (R235) -/

/-- A syllable's identity. -/
def sylId (y : Syl) : Nat := y.str * 8192 + y.op

/-- The micro-routine in progress that a chord at the task's address resumes: the same chord (R235). -/
def mrResumes (t : Task) (d : Dec) : Bool :=
  t.mrActive && decide (t.mr.pc = t.pc) && decide (t.mr.inH = inHandler t)
    && (match d with | .ok [y] _ => decide (sylId y = t.mr.syl) | _ => false)

/-- The step at which a task's micro-routine goes on: V.SORT restarts its pass after an interruption (R240). -/
def mrAt (o : MrOp) (t : Task) : Nat := if o = .sort ∧ t.mr.back then t.mrp / 64 * 64 else t.mrp

/-- Commits a step: its writes take effect; after the last the chord is complete (R235). -/
def commitStep (key slot next : Nat) (y : Syl) (r : MrRes) (s : State) : State :=
  let t := task key slot s
  let s1 := clearHalt key (r.fx s)
  match r.next with
  | some k => setTask key slot (fun x => { x with
      mrActive := true, mrp := k, mr := { r.mr with back := false, inH := inHandler t, syl := sylId y }, tpWait := false, begun := true }) s1
  | none =>
    let pl := fallTo next t.loops
    bump (engCnt key 0) (countLanes key [y] (setTask key slot (fun x => { x with
      mrActive := false, mrp := 0, pc := pl.1, loops := pl.2, tpWait := false, begun := true }) s1))

/-- What a micro-routine's step works on, and which step it is: those it keeps, or at its first step its operands (R235). -/
def stepStart (c : ECtx) (y : Syl) (next : Nat) : TR (MrSt × Nat) :=
  let o := mrOp y
  if mrResumes c.t (.ok [y] next) then .ok (c.t.mr, mrAt o c.t)
  else do
    let m ← mrStart c o
    latchBad c (latchKey 5 c.slot 15 :: (if y.str = 2 then vLatches c y.op else mLatches c y.op))
    vBad c (xferV (decide (o = .emit)) c)
    return (m, 0)

/-- One step of a micro-routine, or its trap. A step that finds too little room in the TP queue is not issued (R234). [DEDUCED, log 32; DEDUCED, log 34] -/
def runStep (c : ECtx) (y : Syl) (next : Nat) (s : State) : State :=
  let o := mrOp y
  match stepStart c y next with
  | .error e => raise c.key c.slot y.str e (some next) s
  | .ok (m, k) =>
    if o = .emit ∧ 32 < (eng c.key s).tpq.length + emitNeed c m k then
      setTask c.key c.slot (fun t => { t with tpWait := true }) s
    else match mrStep c o m k with
      | .error e => raise c.key c.slot y.str e (some next) s
      | .ok r =>
        if r.next.isNone ∧ 65535 < next then
          raise c.key c.slot 0 ⟨.memRange, some next, none⟩ (some next) s
        else commitStep c.key c.slot next y r s

/-! ### A chord boundary (R174, R185, R197) -/

/-- A breakpoint of the engine lies at an address (R185). [DEDUCED, log 120] -/
def bpHit (key pc : Nat) (s : State) : Bool :=
  (List.range 4).any (fun n => bit (reg (dbgCtl key) s) (24 + n)
    && decide (rfld (engBase (key / 64) (key % 64) + 0x010 + 4 * n) 15 0 s = pc))

/-- Issues a decoded chord. -/
def runDecoded (key slot : Nat) (d : Dec) (s : State) : State :=
  let t := task key slot s
  let c : ECtx := { key := key, slot := slot, pc := t.pc, s := s }
  match d with
  | .illegal f raw pos => raiseTrap key slot 1 0 (raw * 65536 + f * 16 + pos) none none s
  | .ecc a => raiseTrap key slot 7 0 a (some (badKey 2 a)) none s
  | .ok l len =>
    let next := t.pc + len
    match l with
    | [y] =>
      if isMicro y then runStep c y next s
      else runPlain c l next s
    | _ => runPlain c l next s
where
  /-- A chord that holds no micro-routine. -/
  runPlain (c : ECtx) (l : List Syl) (next : Nat) (s : State) : State :=
    if l.any (fun y => decide (y.str = 3 ∧ y.op = 0x500)) ∧ 32 ≤ (eng c.key s).tpq.length then
      setTask c.key c.slot (fun t => { t with tpWait := true }) s
    else match evalChord c l next with
      | .error (str, t) =>
        let free : Bool := decide (str = 3 ∧ t.code = .handle) && l.any (fun y => decide (y.str = 3 ∧ y.op = 0x301))
        let d := t.detail.getD 0
        let s1 := if free then
            refuseRelease (if d / 2 ^ 24 = 3 then .range else if d / 2 ^ 24 = 5 then .stale else .notOwner) (d % 2 ^ 24)
              (hGen (c.t.mStk.head?.getD 0)) (ownEngine c.local_ c.slot) s
          else s
        raise c.key c.slot str t (some next) s1
      | .ok r => if r.act.nested then rthnNested c.key c.slot s else commitChord c.key c.slot c.pc next l r s

/-- The trap that the task's next chord or step would raise if it issued, with the string it is charged to. -/
def chordTrap (key slot : Nat) (d : Dec) (s : State) : Option (Nat × Trap) :=
  let t := task key slot s
  let c : ECtx := { key := key, slot := slot, pc := t.pc, s := s }
  let plain (l : List Syl) (next : Nat) : Option (Nat × Trap) :=
    match evalChord c l next with
    | .error e => some e
    | .ok _ => none
  match d with
  | .illegal .. => some (0, ⟨.illegal, none, none⟩)
  | .ecc a => some (0, ⟨.ecc, some a, some (badKey 2 a)⟩)
  | .ok l len =>
    match l with
    | [y] =>
      if isMicro y then
        match stepStart c y (t.pc + len) with
        | .error e => some (y.str, e)
        | .ok (m, k) => match mrStep c (mrOp y) m k with
          | .error e => some (y.str, e)
          | .ok _ => none
      else plain l (t.pc + len)
    | _ => plain l (t.pc + len)

/-- The single-bit errors in the syllables a chord's fetch reads are corrected (R167). -/
def fixFetch (key pc : Nat) (d : Dec) (s : State) : State :=
  let n := match d with | .ok _ len => len | .illegal _ _ pos => pos + 1 | .ecc a => a - pc
  ((eng key s).soft.filter (fun k => decide (badKey 2 pc ≤ k ∧ k < badKey 2 (pc + n)))).foldl (fun s k => fixLoc key k s) s

/-- The single-bit errors in the words a chord reads are corrected, one by one, before it executes (R167). -/
def fixReads (key slot : Nat) (d : Dec) : Nat → State → State
  | 0, s => s
  | n + 1, s =>
    match (chordTrap key slot d s).bind (fun e => softOf e.2) with
    | some k => fixReads key slot d n (fixLoc key k s)
    | none => s

/-- Fetches and issues the task's next chord. -/
def fetchRun (key slot : Nat) (s : State) : State :=
  let d := nextChord key slot s
  let s1 := fixFetch key (task key slot s).pc d s
  runDecoded key slot d (fixReads key slot d (eng key s1).soft.length s1)

/-- The selected slot's boundary: a held trap action, a breakpoint unless the engine was halted at it, a readiness word, then its chord or
step. [DEDUCED, log 35] -/
def issue (key slot : Nat) (s : State) : State :=
  let t := task key slot s
  match t.trapHeld with
  | some succ =>
    trapAction key slot succ (clearHalt key (setTask key slot (fun t => { t with trapHeld := none }) s))
  | none =>
    let at_ := (eng key s).haltAt
    if bpHit key t.pc s ∧ at_ ≠ some t.pc ∧ ! mrResumes t (nextChord key slot s) then haltHere key t.pc s
    else
      let s0 := clearHalt key s
      let s1 := if t.inWait then setTask key slot returnFromWait s0 else s0
      let s2 := fetchRun key slot s1
      if (task key slot s2).tpWait then setEng key (fun e => { e with haltAt := at_ }) s2 else s2

/-- The engine stands at a boundary where slot `slot` is next. -/
def boundary (key : Nat) (s : State) : Option Nat :=
  if engLive key s then selectSlot key s else none

/-- An op value range of a string, as the rows of the table name operations. -/
def hasOp (str lo hi : Nat) (d : Dec) : Bool :=
  match d with
  | .ok l _ => l.any (fun y => decide (y.str = str ∧ lo ≤ y.op ∧ y.op ≤ hi))
  | _ => false

/-- One chord boundary of an engine whose next chord holds an operation of a row; a step of a micro-routine in progress is its
own row. [DESIGN CHOICE, log 30] -/
def chordRow (str lo hi q k : Nat) (s : State) : State :=
  let key := ekey q k
  match boundary key s with
  | none => s
  | some slot =>
    if ! engStopped key s ∧ hasOp str lo hi (nextChord key slot s) ∧ ! mrResumes (task key slot s) (nextChord key slot s)
        ∧ ! (task key slot s).tpWait then
      issue key slot (switchTo key slot s)
    else s

end Sys2Proof.Machine
end

