-- ==== Sys2Proof/Machine/CRows.lean ====
section
/-! DEFINITION. The C-string operations as commands: one chord boundary of a physical engine slot whose next chord holds the
operation (R174, R198). -/

namespace Sys2Proof.Machine

/-- R209, C.JMP. -/
def execCJmp (q : Fin 4) (k : Fin 52) (s : State) : Host.Outcome State Fault Refusal :=
  .next (chordRow 0 0x200 0x3FF q k s)

/-- R209, C.BRT. -/
def execCBrt (q : Fin 4) (k : Fin 52) (s : State) : Host.Outcome State Fault Refusal :=
  .next (chordRow 0 0x400 0x5FF q k s)

/-- R209, C.BRF. -/
def execCBrf (q : Fin 4) (k : Fin 52) (s : State) : Host.Outcome State Fault Refusal :=
  .next (chordRow 0 0x600 0x7FF q k s)

/-- R214, C.CALL. -/
def execCCall (q : Fin 4) (k : Fin 52) (s : State) : Host.Outcome State Fault Refusal :=
  .next (chordRow 0 0x800 0x801 q k s)

/-- R209, C.JMPL. -/
def execCJmpl (q : Fin 4) (k : Fin 52) (s : State) : Host.Outcome State Fault Refusal :=
  .next (chordRow 0 0xA00 0xA01 q k s)

/-- R209, C.BRTL. -/
def execCBrtl (q : Fin 4) (k : Fin 52) (s : State) : Host.Outcome State Fault Refusal :=
  .next (chordRow 0 0xC00 0xC01 q k s)

/-- R209, C.BRFL. -/
def execCBrfl (q : Fin 4) (k : Fin 52) (s : State) : Host.Outcome State Fault Refusal :=
  .next (chordRow 0 0xE00 0xE01 q k s)

/-- R212, C.LOOPI1. -/
def execCLoopi1 (q : Fin 4) (k : Fin 52) (s : State) : Host.Outcome State Fault Refusal :=
  .next (chordRow 0 0x1000 0x11FF q k s)

/-- R212, C.LOOPI2. -/
def execCLoopi2 (q : Fin 4) (k : Fin 52) (s : State) : Host.Outcome State Fault Refusal :=
  .next (chordRow 0 0x1200 0x13FF q k s)

/-- R212, C.LOOPS. -/
def execCLoops (q : Fin 4) (k : Fin 52) (s : State) : Host.Outcome State Fault Refusal :=
  .next (chordRow 0 0x1400 0x15FF q k s)

/-- R211, C.NOP. -/
def execCNop (q : Fin 4) (k : Fin 52) (s : State) : Host.Outcome State Fault Refusal :=
  .next (chordRow 0 0x0 0x0 q k s)

/-- R217, C.END. -/
def execCEnd (q : Fin 4) (k : Fin 52) (s : State) : Host.Outcome State Fault Refusal :=
  .next (chordRow 0 0x1 0x1 q k s)

/-- R217, C.WAIT. -/
def execCWait (q : Fin 4) (k : Fin 52) (s : State) : Host.Outcome State Fault Refusal :=
  .next (chordRow 0 0x2 0x2 q k s)

/-- R217, C.YIELD. -/
def execCYield (q : Fin 4) (k : Fin 52) (s : State) : Host.Outcome State Fault Refusal :=
  .next (chordRow 0 0x3 0x3 q k s)

/-- R184, C.FENCE. -/
def execCFence (q : Fin 4) (k : Fin 52) (s : State) : Host.Outcome State Fault Refusal :=
  .next (chordRow 0 0x4 0x4 q k s)

/-- R214, C.RET. -/
def execCRet (q : Fin 4) (k : Fin 52) (s : State) : Host.Outcome State Fault Refusal :=
  .next (chordRow 0 0x5 0x5 q k s)

/-- R213, C.LEAVE. -/
def execCLeave (q : Fin 4) (k : Fin 52) (s : State) : Host.Outcome State Fault Refusal :=
  .next (chordRow 0 0x6 0x6 q k s)

/-- R211, C.JMPS. -/
def execCJmps (q : Fin 4) (k : Fin 52) (s : State) : Host.Outcome State Fault Refusal :=
  .next (chordRow 0 0x8 0x8 q k s)

/-- R211, C.CALLS. -/
def execCCalls (q : Fin 4) (k : Fin 52) (s : State) : Host.Outcome State Fault Refusal :=
  .next (chordRow 0 0x9 0x9 q k s)

/-- R216, C.RTH. -/
def execCRth (q : Fin 4) (k : Fin 52) (s : State) : Host.Outcome State Fault Refusal :=
  .next (chordRow 0 0xA 0xA q k s)

/-- R216, C.RTHN. -/
def execCRthn (q : Fin 4) (k : Fin 52) (s : State) : Host.Outcome State Fault Refusal :=
  .next (chordRow 0 0xB 0xB q k s)

/-- R211, C.WAKE. -/
def execCWake (q : Fin 4) (k : Fin 52) (s : State) : Host.Outcome State Fault Refusal :=
  .next (chordRow 0 0xC 0xC q k s)

/-- R211, C.UNWAKE. -/
def execCUnwake (q : Fin 4) (k : Fin 52) (s : State) : Host.Outcome State Fault Refusal :=
  .next (chordRow 0 0xD 0xD q k s)

/-- R211, C.WAKER. -/
def execCWaker (q : Fin 4) (k : Fin 52) (s : State) : Host.Outcome State Fault Refusal :=
  .next (chordRow 0 0x10 0x17 q k s)

/-- R217, C.SETMASK. -/
def execCSetmask (q : Fin 4) (k : Fin 52) (s : State) : Host.Outcome State Fault Refusal :=
  .next (chordRow 0 0x21 0x2F q k s)

end Sys2Proof.Machine
end

