-- ==== Sys2Proof/Machine/SpiOps.lean ====
section
/-! DEFINITION. The operations of the serial ports as controllers: FIFOs, transfers, flushes (16_serial_port.md, R537, R538). -/

namespace Sys2Proof.Machine

def spiBase (n : Nat) : Nat := 0x40000 + n * 0x1000
def spi (n : Nat) (s : State) : SpiSt := mget {} s.spis n
def setSpi (n : Nat) (f : SpiSt → SpiSt) (s : State) : State := { s with spis := mmod {} s.spis n f }

def spiEn (n : Nat) (s : State) : Bool := bit (reg (spiBase n) s) 31
def spiTarget (n : Nat) (s : State) : Bool := decide (n = 1) && bit (reg (spiBase n) s) 30

/-- A flush of the receive FIFO (R538). -/
def spiRxFlush (n : Nat) (s : State) : State := setSpi n (fun x => { x with rx := [], flushed := true, frame := [] }) s

/-- A flush of the transmit FIFO (R538). -/
def spiTxFlush (n : Nat) (s : State) : State := setSpi n (fun x => { x with tx := [] }) s

/-- A word pushed to the transmit FIFO; a push to a full FIFO has no place (R486, R537). -/
def spiPush (n w : Nat) (s : State) : State :=
  if (spi n s).tx.length < 64 then setSpi n (fun x => { x with tx := x.tx ++ [w] }) s else s

/-- SPIn_RX_INFO of a popped word (R503). -/
def rxInfo (w : SpiWord) : Nat :=
  2 ^ 31 + b1 w.part * 2 ^ 29 + b1 w.selEnd * 2 ^ 28 + w.count % 64 * 2 ^ 22

/-- A read of SPIn_RX: pops a word and latches SPIn_RX_INFO (R503). The first read after a flush returns no item and shows valid 0 with
flushed 1; a read of an empty FIFO shows valid 0 (R538). The value read then is not stated: a free value. -/
def spiPop (n : Nat) (s : State) : Nat × State :=
  let none_ (flushed : Bool) : Nat × State :=
    let (f, s1) := takeFree s
    (f.toNat % 2 ^ 32, setReg (spiBase n + 0x20) (b1 flushed * 2 ^ 30) (setSpi n (fun x => { x with flushed := false }) s1))
  if (spi n s).flushed then none_ true
  else match (spi n s).rx with
    | w :: r => (w.word, setReg (spiBase n + 0x20) (rxInfo w) (setSpi n (fun x => { x with rx := r }) s))
    | [] => none_ false

/-- Device ticks of a number of SCK half-periods (R488). -/
def sckTicks (n k : Nat) (s : State) : Nat :=
  let c := reg (spiBase n + 4) s
  let d := bits c 11 0
  if bit c 31 then
    let f := match rfld 0x12000 1 0 s with | 0 => 10000000 | 1 => 25000000 | 2 => 100000000 | _ => 156250000
    (k * 625000000 * d + 2 * f - 1) / (2 * f)
  else k * d / 2

/-- Data lines of a width code (R484). -/
def spiLines (n : Nat) (s : State) : Nat := match rfld (spiBase n) 28 27 s with | 1 => 2 | 2 => 4 | _ => 1

/-- A go written to SPIn_CMD: the transfer starts (R487); on SPI0 it waits for the window's operation (R493). [DESIGN CHOICE, log 70] -/
def spiGo (n cmd : Nat) (s : State) : State :=
  if ! spiEn n s ∨ spiTarget n s then s
  else if n = 0 ∧ s.flash.wip.isSome then setSpi 0 (fun x => { x with waits := some cmd }) s
  else
    let cs := bits cmd 25 24
    let bits_ := rfld (spiBase n + 8) 12 0 s
    let d := reg (spiBase n + 0xC) s
    let pre := if (spi n s).sel = some cs then 0 else bits d 23 16
    let start := max s.ticks (spi n s).gapEnd
    let stop := start + sckTicks n (pre + 2 * (bits_ / spiLines n s) + bits d 15 8) s
    setSpi n (fun x => { x with
      sel := some cs, xfer := some ⟨cs, bits_, bit cmd 30, bit cmd 29, bit cmd 28, stop⟩ }) s

/-- SPIn_STATUS.busy: a transfer is in progress, or waits to start (R487, R493). -/
def spiBusy (n : Nat) (s : State) : Bool := (spi n s).xfer.isSome || (spi n s).waits.isSome

/-- 32-bit words still to be clocked. [DESIGN CHOICE, log 70] -/
def xferWords (x : SpiXfer) : Nat := (x.left + 31) / 32

/-- Words the FIFOs allow now (R486). -/
def burstWords (p : SpiSt) (x : SpiXfer) : Nat :=
  min (xferWords x) (min (if x.txEn then p.tx.length else xferWords x) (if x.rxEn then 64 - p.rx.length else xferWords x))

/-- The words of a burst: the sizes of k words of a transfer with so many bits left. -/
def wordSizes : Nat → Nat → List Nat
  | 0, _ => []
  | k + 1, left => min 32 left :: wordSizes k (left - 32)

/-- Received words from bits, first bit highest, by their sizes. [DESIGN CHOICE, log 70] -/
def rxWords : List Nat → Nat → Nat → List SpiWord
  | [], _, _ => []
  | z :: zs, total, v => ⟨(v >>> (total - z)) % 2 ^ z, false, false, z⟩ :: rxWords zs (total - z) v

/-- Clocks the words the FIFOs allow; `input` holds the bits received meanwhile, first bit highest (R485, R486). -/
def spiClock (n input : Nat) (s : State) : State :=
  let p := spi n s
  match p.xfer with
  | none => s
  | some x =>
    let k := burstWords p x
    let zs := wordSizes k x.left
    let total := zs.sum
    let sent := (zs.zipIdx).foldl (fun a e =>
      a * 2 ^ e.1 + (if x.txEn then p.tx.getD e.2 0 % 2 ^ e.1 else 2 ^ e.1 - 1)) 0
    emit (.spi n x.cs sent total) (setSpi n (fun p => { p with
      tx := if x.txEn then p.tx.drop k else p.tx
      rx := if x.rxEn then p.rx ++ rxWords zs total input else p.rx
      xfer := some { x with left := x.left - total } }) s)

/-- The end of a transfer: the select is released unless hold is set (R487). -/
def spiEnd (n : Nat) (s : State) : State :=
  match (spi n s).xfer with
  | none => s
  | some x =>
    setSpi n (fun p => { p with
      xfer := none
      sel := if x.hold then some x.cs else none
      gapEnd := if x.hold then p.gapEnd else s.ticks + sckTicks n (rfld (spiBase n + 0xC) 7 0 s) s }) s

/-- Clearing SPIn_CTL.en (R487). -/
def spiDisable (n : Nat) (s : State) : State :=
  setSpi n (fun p => { p with xfer := none, sel := none, selected := false, waits := none }) (spiRxFlush n (spiTxFlush n s))

end Sys2Proof.Machine
end

