-- ==== Sys2Proof/Machine/FlashOps.lean ====
section
/-! DEFINITION. The operations of the flash on SPI0: its bytes, erases and programs, steward records, images (16_serial_port.md,
R445, R446, R474–R478). -/

namespace Sys2Proof.Machine

def setFlash (f : FlashSt → FlashSt) (s : State) : State := { s with flash := f s.flash }

/-- Key of a flash byte. -/
def flKey (cs off : Nat) : Nat := cs * 2 ^ 32 + off

/-- n bytes of the flash on a chip select (R492); an erased byte reads 0xFF. [PRESUMED, log 72] -/
def flRead (cs off n : Nat) (s : State) : List Nat :=
  (List.range n).map (fun i => (mget (0xFF : Byte) s.flash.bytes (flKey cs (off + i))).toNat)

/-- Programs bytes: a program clears bits and sets none (the NOR flash family). [PRESUMED, log 72] -/
def flProgram (cs off : Nat) (l : List Nat) (s : State) : State :=
  setFlash (fun f => { f with bytes := l.zipIdx.foldl (fun m e =>
    let k := flKey cs (off + e.2)
    stPut (0xFF : Byte) m k (mget (0xFF : Byte) m k &&& BitVec.ofNat 8 e.1)) f.bytes }) s

/-- Erases n bytes. [PRESUMED, log 72] -/
def flErase (cs off n : Nat) (s : State) : State :=
  setFlash (fun f => { f with bytes := mfilter (fun k => ! decide (flKey cs off ≤ k ∧ k < flKey cs off + n)) f.bytes }) s

/-- Bytes that a flash operation left open become free values (R499). [DEDUCED, log 98] -/
def flScramble (cs off n : Nat) (s : State) : State :=
  let m := (List.range n).foldl (fun m i =>
    stPut (0xFF : Byte) m (flKey cs (off + i)) ((Config.freeWord (s.freeIdx + i)).truncate 8)) s.flash.bytes
  setFlash (fun f => { f with bytes := m }) { s with freeIdx := s.freeIdx + n }

/-! ### CRC-32 (IEEE 802.3) -/

/-- One bit step of CRC-32, reflected. -/
def crc32Step (c : Nat) : Nat := if c % 2 = 1 then (c >>> 1) ^^^ 0xEDB88320 else c >>> 1

/-- One byte of CRC-32. -/
def crc32Byte (c b : Nat) : Nat :=
  crc32Step (crc32Step (crc32Step (crc32Step (crc32Step (crc32Step (crc32Step (crc32Step (c ^^^ b))))))))

/-- CRC-32 (IEEE 802.3) over bytes (R446, R495). -/
def crc32 (l : List Nat) : Nat := (l.foldl crc32Byte 0xFFFFFFFF) ^^^ 0xFFFFFFFF

/-! ### Steward records (R446, R495) -/

/-- Of two copies' sequence numbers, where valid, the copy in force: the later by signed 32-bit difference (R446). [DESIGN CHOICE, log 10] -/
def chooseCopy (a b : Option Nat) : Option Nat :=
  match a, b with
  | some x, some y => if 0 < sdiff y x then some 1 else some 0
  | some _, none => some 0
  | none, some _ => some 1
  | none, none => none

def configAt (copy : Nat) : Nat := 0x01000000 + copy * 0x10000
def mapAt (copy : Nat) : Nat := 0x01020000 + copy * 0x10000

/-- A configuration record copy's bytes when its magic, length and crc are good (R495). [DEDUCED, log 73] -/
def configCopy (copy : Nat) (s : State) : Option (List Nat) :=
  let h := flRead 0 (configAt copy) 16 s
  let n := leNat (sliceB h 8 4)
  if leNat (h.take 4) = 0x47504346 ∧ 64 ≤ n ∧ n ≤ 4096 ∧ n % 4 = 0 then
    let l := flRead 0 (configAt copy) n s
    if crc32 (l.take 12 ++ l.drop 16) = leNat (sliceB h 12 4) then some l else none
  else none

/-- A repair map copy's bytes when its magic and crc are good (R446). [DEDUCED, log 73] -/
def mapCopy (copy : Nat) (s : State) : Option (List Nat) :=
  let l := flRead 0 (mapAt copy) 2112 s
  if leNat (l.take 4) = 0x4750524D ∧ crc32 (l.take 12 ++ l.drop 64) = leNat (sliceB l 12 4) then some l else none

/-- Sequence number of a record copy. -/
def recSeq (l : List Nat) : Nat := leNat (sliceB l 4 4)

/-- The window reaches the steward's region (R491, R492, R494): a flash used as 16 MiB ends below it. -/
def stewardArea (s : State) : Bool := decide (25 ≤ rfld 0x40104 31 24 s)

/-- The configuration record in force, with its copy (R495). -/
def configRecord (s : State) : Option (Nat × List Nat) :=
  if ! stewardArea s then none
  else match chooseCopy ((configCopy 0 s).map recSeq) ((configCopy 1 s).map recSeq) with
  | some c => (configCopy c s).map (fun l => (c, l))
  | none => none

/-- The flash repair map in force, with its copy (R446). -/
def mapRecord (s : State) : Option (Nat × List Nat) :=
  if ! stewardArea s then none
  else match chooseCopy ((mapCopy 0 s).map recSeq) ((mapCopy 1 s).map recSeq) with
  | some c => (mapCopy c s).map (fun l => (c, l))
  | none => none

/-- The register and value pairs of a section of a record (R495): its sections' words from byte 64. -/
def sectionPairs (type : Nat) : Nat → List Nat → List (Nat × Nat)
  | 0, _ => []
  | fuel + 1, l =>
    if l.length < 4 then []
    else
      let h := leNat (l.take 4)
      let n := bits h 15 0
      if bits h 31 24 = 0 then []
      else
        let own := (List.range n).map (fun i => (leNat (sliceB l (4 + 8 * i) 4), leNat (sliceB l (8 + 8 * i) 4)))
        (if bits h 31 24 = type then own else []) ++ sectionPairs type fuel (l.drop (4 + 8 * n))

/-- One section of a record (R495). -/
def sectionBytes (type : Nat) (pairs : List (Nat × Nat)) : List Nat :=
  leBytes 4 (type <<< 24 ||| pairs.length) ++ (pairs.map (fun p => leBytes 4 p.1 ++ leBytes 4 p.2)).flatten

/-- Saved registers of a range of offsets: the RW ones that are not at their reset value, in offset order. [DEDUCED, log 74] -/
def savedRegs (lo hi : Nat) (s : State) : List (Nat × Nat) :=
  (s.regs.filter (fun e => decide (lo ≤ e.1 ∧ e.1 < hi) &&
    (match regAt e.1 with
      | some (r, _) => r.fields.any (fun f => decide (f.acc = .rw))
      | none => false))).map (fun e => (e.1, e.2.toNat))

/-- The boot mode a record saves (R496). -/
def savedMode (m : Mode) : Nat :=
  match m with | .calibrate => 3 | .retain => 3 | _ => 2

/-- A configuration record with the values now in force (R495, R496): the pairs that fit 4,096 bytes. [DEDUCED, log 74] -/
def configBytes (seq epoch pref : Nat) (s : State) : List Nat :=
  let sys := savedRegs 0x84000 0x8C000 s
  let pace := (savedRegs 0x50000 0x51000 s).take 100
  let body := sectionBytes 1 (sys.take 400) ++ sectionBytes 2 pace ++ [0, 0, 0, 0]
  let boot := if s.mode.current = .bringup then (match configRecord s with
    | some (_, l) => bits (leNat (sliceB l 20 4)) 2 0
    | none => 2) else savedMode s.mode.current
  let head := leBytes 4 0x47504346 ++ leBytes 4 seq ++ leBytes 4 (64 + body.length)
  let rest := leBytes 4 epoch ++ leBytes 4 (pref <<< 3 ||| boot) ++ List.replicate 40 0 ++ body
  head ++ leBytes 4 (crc32 (head ++ rest)) ++ rest

/-- A repair map copy (R446). -/
def mapBytes (seq : Nat) (entries : List (BitVec 32)) : List Nat :=
  let head := leBytes 4 0x4750524D ++ leBytes 4 seq ++ leBytes 4 entries.length
  let body := (entries.map (fun e => leBytes 4 e.toNat)).flatten ++ List.replicate (4 * (512 - entries.length)) 0
  head ++ leBytes 4 (crc32 (head ++ body)) ++ List.replicate 48 0 ++ body

/-- Page programs of a store of bytes (R492): merged within one page. -/
def pageSteps (cs page : Nat) : Nat → Nat → List Nat → List FlashStep
  | 0, _, _ => []
  | fuel + 1, off, l =>
    if l.isEmpty then []
    else
      let n := page - off % page
      .program cs off (l.take n) :: pageSteps cs page fuel (off + n) (l.drop n)

/-- A program or erase is issued: Write Enable, then its opcode with the bytes (R492). -/
def flOut (cs op off : Nat) (bytes : List Nat) (s : State) : State :=
  emit (.flash cs op (some off) bytes) (emit (.flash cs 0x06 none []) s)

/-- The opcode that erases so many bytes; 0 where the part has none (R504). -/
def eraseCode (n : Nat) (s : State) : Nat :=
  if n = 4096 then rfld 0x40108 31 24 s else if n = 32768 then rfld 0x40108 23 16 s else rfld 0x40108 15 8 s

/-- Programs pages on CS0_N, in address order. -/
def progPages (page off : Nat) (l : List Nat) (s : State) : State :=
  (pageSteps 0 page l.length off l).foldl (fun s st => match st with
    | .program cs o b => flProgram cs o b (flOut cs (rfld 0x40100 7 0 s) o b s)
    | .erase _ _ _ => s) s

/-- Writes a record copy in the order of R498: its sector erased, every page but the first, the first page. [DEDUCED, log 73] -/
def writeRecord (off : Nat) (l : List Nat) (s : State) : State :=
  let page := 2 ^ rfld 0x40104 23 16 s
  let s1 := flErase 0 off 4096 (flOut 0 (eraseCode 4096 s) off [] s)
  progPages page off (l.take page) (progPages page (off + page) (l.drop page) s1)

/-! ### Images (R474, R475) -/

/-- [DESIGN CHOICE, log 10] -/
def slotAt (slot : Nat) : Nat := slot * 0x800000

/-- Reserved bits of an image header are not all 0 (R474, R475). -/
def imgReserved (h : List Nat) : Bool :=
  let w := leNat (sliceB h 4 4)
  decide (bits w 22 17 ≠ 0 ∨ bits w 15 0 ≠ 0) || (sliceB h 16 48).any (· ≠ 0) || (sliceB h 161 31).any (· ≠ 0)
    || (sliceB h 288 224).any (· ≠ 0)

/-- The checks of R475, in order, on an image slot. [DEDUCED, log 75] -/
def imageVerify (slot : Nat) (s : State) : Bool :=
  let h := flRead 0 (slotAt slot) 512 s
  let w := leNat (sliceB h 4 4)
  let k := bits w 16 16
  let n := leNat (sliceB h 12 4)
  let key := sliceB h 64 97
  if leNat (h.take 4) ≠ 0x47504657 ∨ bits w 31 24 ≠ 1 ∨ imgReserved h then false
  else if ! bit s.fuses.prog k ∨ bit s.fuses.revoked k then false
  else if some (Config.sha384 key) ≠ mfind s.fuses.keyHash k then false
  else if n < 64 ∨ 6 * 2 ^ 20 < n ∨ n % 64 ≠ 0 then false
  else
    let d := Config.sha384 (h.take 192 ++ h.drop 288 ++ flRead 0 (slotAt slot + 512) n s)
    Config.ecdsaVerify key d (sliceB h 192 96)

/-! ### Flash commands at work (R492, R493) -/

/-- The power-loss warning stops new flash operations (R450). -/
def flashHeld (s : State) : Bool := s.repair.warned.isSome

/-- The step that is next, unless one is in progress. -/
def flashFront (s : State) : Option FlashStep :=
  match s.flash.wip, s.flash.jobs with
  | none, j :: _ => j.steps.head?
  | _, _ => none

/-- The step that may begin: none during a raw transfer (R493). -/
def flashNext (s : State) : Option FlashStep := if (spi 0 s).xfer.isSome then none else flashFront s

/-- Shows wip and pending in SPI0_WIN_STATUS (R504). -/
def flashShow (s : State) : State :=
  let pend : Bool := match flashFront s with | some (.program _ _ _) => true | _ => false
  setFld 0x40114 30 30 (b1 pend) (setFld 0x40114 31 31 (b1 s.flash.wip.isSome) s)

/-- A program or erase begins (R492). -/
def flashIssue (cs op off : Nat) (bytes : List Nat) (s : State) : State :=
  flashShow (flOut cs op off bytes (setFlash (fun f => { f with wip := some s.ticks, polled := s.ticks }) s))

/-- An erase is issued at once; page programs wait in the page buffer for FLASH_PAGE_FLUSH (R492). -/
def flashBegin (s : State) : State :=
  match flashNext s with
  | some (.erase cs off n) => if flashHeld s then flashShow s else flashIssue cs (eraseCode n s) off [] s
  | _ => flashShow s

/-- The window's operation is over: a raw transfer that waited starts, or the next step (R493). [DESIGN CHOICE, log 70] -/
def flashFree (s : State) : State :=
  match (spi 0 s).waits with
  | some cmd => flashShow (spiGo 0 cmd (setSpi 0 (fun x => { x with waits := none }) s))
  | none => flashBegin s

/-- Adds a job. -/
def flashAdd (j : FlashJob) (s : State) : State :=
  flashBegin (setFlash (fun f => { f with jobs := f.jobs ++ [j] }) s)

/-- Erases that cover n bytes from an aligned offset, in 4 KiB sectors. -/
def eraseSteps (cs off n : Nat) : List FlashStep :=
  (List.range ((n + 4095) / 4096)).map (fun i => .erase cs (off + 4096 * i) 4096)

end Sys2Proof.Machine
end

