-- ==== Sys2Proof/Machine/SysOps.lean ====
section
/-! DEFINITION. Coincidence messages between devices: system-up links, routes, the message in bytes, origination, forwarding and
the reception checks (R280–R297). -/

namespace Sys2Proof.Machine

/-- The device takes part in a system with a valid number: it sends and takes coincidence messages (R280, R304). -/
def sysOn (s : State) : Bool := bit (reg 0x84000 s) 31 && bit (reg 0x84004 s) 31

def helloUs (s : State) : Nat := rfld 0x8400C 31 16 s
def beaconUs (s : State) : Nat := rfld 0x8400C 15 0 s

/-- A port is in the broadcast tree (R285). -/
def inTree (p : Nat) (s : State) : Bool := bit (reg (0x84080 + 4 * (p / 32)) s) (p % 32)
def treePorts (s : State) : List Nat := (List.range 128).filter (fun p => inTree p s && sysUp p s)

/-- The port toward a device (R285): the primary, else the alternate, while it is system-up. -/
def route (d : Nat) (s : State) : Option Nat :=
  let r := reg (0x88000 + 4 * d) s
  if bit r 31 ∧ sysUp (bits r 30 24) s then some (bits r 30 24)
  else if bit r 23 ∧ sysUp (bits r 22 16) s then some (bits r 22 16)
  else none

/-- The sender's tb0_state (R287). -/
def tb0State (s : State) : Nat :=
  let t := tb 0 s
  if ! t.valid then 0
  else match t.servo with
    | .free | .acquiring => 1
    | .locked => 2
    | .holdover => 3

/-- Bytes of a GCM behind the Ethernet header (R287). -/
def gcmBytes (g : Gcm) : List Nat :=
  beBytes 4 (g.version <<< 28 ||| g.kind <<< 24 ||| g.count <<< 22 ||| g.tb0 <<< 20 ||| g.ttl <<< 16 ||| g.src)
    ++ beBytes 4 (b1 g.bcast <<< 31 ||| g.dst) ++ beBytes 4 g.tSend ++ beBytes 4 (g.seq <<< 16) ++ g.body.map (·.toNat)

/-- The frame of a GCM on a port (R282, R287): neighbour's address, own address, EtherType, padding to 60 bytes. [DEDUCED, log 61] -/
def gcmFrame (p : Nat) (g : Gcm) (s : State) : List Nat :=
  let peer := reg (0x84400 + 8 * p) s ||| rfld (0x84404 + 8 * p) 15 0 s <<< 32
  let mac := reg (portBase p + 8) s ||| rfld (portBase p + 12) 15 0 s <<< 32
  let l := beBytes 6 peer ++ beBytes 6 mac ++ beBytes 2 0x88B6 ++ gcmBytes g
  l ++ List.replicate (60 - l.length) 0

/-- A link HELLO (R283). -/
def linkHello (g : Gcm) : Bool := decide (g.kind = 5) && ! g.bcast

/-- Puts a GCM into a link port's queue of 64, of which 8 while its transmit side settles: one that does not fit is dropped and counted in
FWD_DROP, or in TX_DROP (R103, R292). `stomp`: it ends with an inverted FCS. -/
def gcmPut (g : Gcm) (s : State) (p : Nat) (stomp : Bool := false) : State :=
  let n := ((port p s).txQ.filter isGcm).length
  if (port p s).txSettle ∧ 8 ≤ n then bump (portCnt p 15) s
  else if 64 ≤ n then bump (sysCnt 9) s
  else setPort p (fun x => { x with txQ := x.txQ ++ [.gcm ⟨gcmFrame p g s, decide (g.kind = 5), linkHello g, stomp⟩] }) s

/-- The header of a message of this device (R286, R287); the sequence number advances. -/
def gcmNew (kind count ttl : Nat) (bcast : Bool) (dst : Nat) (body : List Nat) (s : State) : Gcm × State :=
  (⟨1, kind, count, tb0State s, ttl, deviceNum s, bcast, dst, tbNs 0 s % 2 ^ 32, s.sys.seq, false, body.map (BitVec.ofNat 8)⟩,
   setSys (fun y => { y with seq := (y.seq + 1) % 65536 }) s)

/-- Originates a GCM other than a HELLO, in a system alone (R280): unicast by the route table, counted in NO_ROUTE without one, or along
the tree (R285, R305). Returns whether it left. -/
def gcmSend (kind count : Nat) (dst : Option Nat) (body : List Nat) (s : State) : State × Bool :=
  let r := gcmNew kind count (rfld 0x84014 3 0 s) dst.isNone (dst.getD 0) body s
  if ! sysOn s then (s, false)
  else match dst with
  | some d => match route d s with
    | some p => (bump (sysCnt 1) (gcmPut r.1 r.2 p), true)
    | none => (bump (sysCnt 5) s, false)
  | none => match treePorts s with
    | [] => (s, false)
    | ps => (bump (sysCnt 1) (ps.foldl (gcmPut r.1) r.2), true)

/-! ### Arbiters (R296, R297) -/

def isArbiter (s : State) : Bool := bit (reg 0x84000 s) 30
/-- A standby is suppressed while its primary's beacons arrive (R297). -/
def suppressed (s : State) : Bool :=
  bit (reg 0x84000 s) 29 && bit (reg 0x84008 s) 31 && s.sys.primary.isSome
def activeArbiter (s : State) : Bool := sysOn s && isArbiter s && ! suppressed s

/-- An arbiter slot's device while the slot is in use. -/
def arbSlot (i : Nat) (s : State) : Option Nat :=
  if bit (reg (0x84020 + 4 * i) s) 31 then some (rfld (0x84020 + 4 * i) 11 0 s) else none
def arbAlive (i : Nat) (s : State) : Bool := (mfind s.sys.beacons i).isSome

/-- Words of a TP in network byte order (R289). -/
def tpBytes (w : TpWord) : List Nat := ((List.range 4).map (fun i => beBytes 4 (w.toNat / 2 ^ (32 * i) % 2 ^ 32))).flatten

/-- Sends what one arbiter slot has packed; to a slot no longer alive it is lost (R296). -/
def packSend (i : Nat) (s : State) : State :=
  let s1 := setSys (fun y => { y with pack := mdel y.pack i }) s
  match mfind s.sys.pack i, arbSlot i s with
  | some p, some d =>
    if arbAlive i s then (gcmSend 1 p.tps.length (some d) (p.tps.map tpBytes).flatten s1).1
    else bumpN (sysCnt 14) p.tps.length s1
  | _, _ => s1

/-- The egress toward a device is busy: a frame is on the line or GCMs wait (R296). [DEDUCED, log 150] -/
def egressBusy (d : Nat) (s : State) : Bool :=
  match route d s with
  | some p => decide (s.ticks < (port p s).busyUntil) || (port p s).txQ.any isGcm
  | none => false

/-- A released TP is exported to the arbiters (R296): up to three share a GCM, and those that come while the egress is busy are packed. -/
def exportTp (w : TpWord) (s : State) : State :=
  let v := w.toNat
  let cls := bits v 95 88
  if ! sysOn s ∨ s.mode.current = .safe ∨ bits v 63 61 ≠ 0 ∨ ! bit (reg (0x84040 + 4 * (cls / 32)) s) (cls % 32) then s
  else (List.range 4).foldl (fun s i =>
    match arbSlot i s with
    | none => s
    | some d =>
      if d = deviceNum s then s
      else if ! arbAlive i s then bump (sysCnt 14) s
      else
        let busy := egressBusy d s
        let old : Pack := (mfind s.sys.pack i).getD ⟨[], s.ticks, false⟩
        let s1 := setSys (fun y => { y with pack := mput y.pack i ⟨old.tps ++ [w], old.since, old.busy || busy⟩ }) s
        if 3 ≤ old.tps.length + 1 ∨ (rfld 0x84000 23 16 s = 0 ∧ ! busy) then packSend i s1 else s1) s

/-! ### The TA in words (R257) -/

/-- The eight words of a TA. -/
def taWords (t : Ta) : List Nat :=
  [t.trig % 2 ^ 32, t.trig / 2 ^ 32 * 2 ^ 16 + t.tb * 2 ^ 13 + b1 t.system * 2 ^ 12 + t.device, t.t % 2 ^ 32,
   t.t / 2 ^ 32 % 2 ^ 32, t.cond % 2 ^ 32, t.cond / 2 ^ 32 % 2 ^ 32,
   t.primary * 2 ^ 26 + t.profile * 2 ^ 16 + min 65535 t.hits, t.pips * 2 ^ 16]

def taBytes (t : Ta) : List Nat := ((taWords t).map (beBytes 4)).flatten

/-- A TA from its 32 bytes in network byte order. -/
def taOf (l : List Nat) : Ta :=
  let w (i : Nat) : Nat := beNat (sliceB l (4 * i) 4)
  { trig := bits (w 1) 31 16 * 2 ^ 32 + w 0, tb := bits (w 1) 15 13, system := bit (w 1) 12, device := bits (w 1) 11 0,
    t := w 3 * 2 ^ 32 + w 2, cond := w 5 * 2 ^ 32 + w 4, primary := bits (w 6) 31 26, profile := bits (w 6) 23 16,
    hits := bits (w 6) 15 0, pips := bits (w 7) 31 16 }

/-- Broadcasts an issued TA (R298): an active arbiter every one, any device those of TB0 that it exports. -/
def exportTa (t : Ta) (s : State) : State :=
  let mask := reg 0x84060 s ||| reg 0x84064 s <<< 32
  if sysOn s && (activeArbiter s || decide (t.tb = 0 ∧ t.cond &&& mask ≠ 0)) then (gcmSend 2 1 none (taBytes t) s).1 else s

/-! ### Reception (R290, R291) -/

/-- Bytes of a record of a kind (R288). -/
def recBytes : Nat → Nat
  | 1 => 16 | 2 => 32 | 3 => 64 | 4 => 16 | _ => 16

def badHeader (g : Gcm) : Bool :=
  decide (g.version ≠ 1 ∨ g.kind = 0 ∨ 6 ≤ g.kind ∨ g.count = 0 ∨ 4 ≤ g.count ∨ (3 ≤ g.kind ∧ g.count ≠ 1)
    ∨ (g.bcast = true ∧ g.dst ≠ 0)) || g.rsv

/-- Record i of a GCM. -/
def gcmRec (g : Gcm) (i : Nat) : List Nat := sliceB (g.body.map (·.toNat)) (i * recBytes g.kind) (recBytes g.kind)

/-- A link HELLO's word 0 arbiter and active bits. -/
def helloArbiter (g : Gcm) : Bool := bit (beNat (sliceB (gcmRec g 0) 0 4)) 31
def helloActive (g : Gcm) : Bool := bit (beNat (sliceB (gcmRec g 0) 0 4)) 30

/-- A link HELLO sets the port's state (R284). -/
def takeLinkHello (p : Nat) (g : Gcm) (s : State) : State :=
  let s1 := setReg (linkReg p) (putBits (putBits (putBits (reg (linkReg p) s) 27 16 g.src) 15 14 g.tb0) 13 13 (b1 (helloArbiter g))) s
  linkJudge p (setLink p (fun l => { l with up := true, last := s.ticks }) s1)

/-- The age of a GCM is out of range; not judged for HELLO or while TB0 is not valid (R291). -/
def ageBad (g : Gcm) (s : State) : Bool :=
  let age := sdiff (tbNs 0 s % 2 ^ 32) g.tSend
  let mx : Int := (reg 0x84010 s : Nat)
  decide (g.kind ≠ 5) && (tb 0 s).valid && decide (mx < age ∨ age < -mx)

/-- Forwards a GCM with one hop less (R290): a frame whose FCS turns out bad is ended with an inverted FCS and counted. -/
def gcmForward (g : Gcm) (ps : List Nat) (good : Bool) (s : State) : State :=
  if ps.isEmpty then s
  else if 1 < g.ttl then
    let s1 := bump (sysCnt 2) (ps.foldl (fun s p => gcmPut { g with ttl := g.ttl - 1 } s p (! good)) s)
    if good then s1 else bump (sysCnt 10) s1
  else bump (sysCnt 6) s

/-- A GCM of one kind received on a port (R282, R284, R290, R291): header checks, forwarding, and local delivery of a frame whose
FCS is good. [DESIGN CHOICE, log 23] -/
def gcmReceive (kind p : Nat) (g : Gcm) (good : Bool) (deliver : State → State) (s : State) : State :=
  if ! linkPort p s ∨ ! (port p s).linkUp ∨ ! centralUp s then s
  else if ! linkHello g ∧ ! sysUp p s then bump (sysCnt 8) s
  else if badHeader g then bump (sysCnt 3) s
  else if g.kind ≠ kind then s
  else
    let s := bump (sysCnt 0) s
    if linkHello g then (if good then takeLinkHello p g s else s)
    else if g.kind ≠ 5 ∧ ! sysOn s then s
    else if g.src = deviceNum s ∧ bit (reg 0x84004 s) 31 then bump (sysCnt 7) s
    else
      let local_ (s : State) : State :=
        if ! good then s else if ageBad g s then bump (sysCnt 11) s else deliver s
      if g.bcast then
        if ! inTree p s then bump (sysCnt 4) s
        else local_ (gcmForward g ((treePorts s).filter (fun x => decide (x ≠ p))) good s)
      else if g.dst = deviceNum s then local_ s
      else match route g.dst s with
        | some r => gcmForward g [r] good s
        | none => bump (sysCnt 5) s

end Sys2Proof.Machine
end

