-- ==== Sys2Proof/Machine/Qcu.lean ====
section
/-! DEFINITION. The quadrant coincidence units: filter, time check, coalescing, reordering, release and marks (R243–R248). -/

namespace Sys2Proof.Machine

def qcu (q : Nat) (s : State) : QcuSt := mget {} s.trig.qcus q
def setQcu (q : Nat) (f : QcuSt → QcuSt) (s : State) : State :=
  setTrig (fun t => { t with qcus := mmod {} t.qcus q f }) s

/-- Fields of a TP (R241). -/
def tpT (w : TpWord) : Nat := bits w.toNat 31 0
def tpTb (w : TpWord) : Nat := bits w.toNat 63 61
def tpAttach (w : TpWord) : Bool := bit w.toNat 60
def tpFlags (w : TpWord) : Nat := bits w.toNat 59 52
def tpStream (w : TpWord) : Nat := bits w.toNat 51 32
def tpClass (w : TpWord) : Nat := bits w.toNat 95 88
def tpEngine (w : TpWord) : Nat := bits w.toNat 87 80
def tpScore (w : TpWord) : Nat := bits w.toNat 79 64
def tpSeq (w : TpWord) : Nat := bits w.toNat 111 96

/-- [DEDUCED, log 45] -/
def qcuEn (q : Nat) (s : State) : Bool := bit (reg (qcuBase q) s) 31
def qcuLag (q : Nat) (s : State) : Nat := reg (qcuBase q + 4) s
def qcuClass (base q cls : Nat) (s : State) : Bool := bit (reg (qcuBase q + base + 4 * (cls / 32)) s) (cls % 32)

/-- The quadrant is gated by Vigil (R47, R54). -/
def quadGated (q : Nat) (s : State) : Bool := vigilOnly s && decide (s.mode.vigilQ ≠ q)

/-- The QCU counts in the watermarks (R255, R263). -/
def qcuIn (q : Nat) (s : State) : Bool := qcuEn q s && ! (qcu q s).out && quadUp q s && ! quadGated q s

/-- A time base is in its step shadow (R262). -/
def inShadow (b : Nat) (s : State) : Bool := (mfind s.trig.shadow b).isSome

/-- Release is held (R248). -/
def qcuHolding (q : Nat) (s : State) : Bool := (qcu q s).hold && bit (reg (qcuBase q) s) 30

/-- The mark that a time base has now: its current time less QCU_LAG, or the mark held at a castling's freeze (R245, R248). -/
def markNow (q b : Nat) (s : State) : Nat :=
  if qcuHolding q s then mget 0 (qcu q s).holdMarks b else wrapN 32 ((tbNs b s : Int) - qcuLag q s)

/-- A TP may be released: its time is at or before the mark (R245). -/
def tpDue (q : Nat) (w : TpWord) (s : State) : Bool := decide (0 ≤ sdiff (markNow q (tpTb w) s) (tpT w))

/-- A held TP into which another merges (R244). -/
def mergeable (coal : Nat) (held w : TpWord) : Bool :=
  let d := sdiff (tpT w) (tpT held)
  decide (tpClass held = tpClass w ∧ tpStream held = tpStream w ∧ tpTb held = tpTb w ∧ 0 ≤ d ∧ d ≤ coal)
    && ! tpAttach held && ! tpAttach w

/-- The merged TP: the larger score, the OR of clip and the program flags (R244). -/
def mergeTp (held w : TpWord) : TpWord :=
  let v := held.toNat
  let v1 := putBits v 79 64 (max (tpScore held) (tpScore w))
  BitVec.ofNat 128 (putBits v1 59 52 (tpFlags held ||| tpFlags w))

/-- Merges into the first TP of the buffer that takes it. [DEDUCED, log 44] -/
def mergeInto (coal : Nat) (w : TpWord) : List TpWord → Option (List TpWord)
  | [] => none
  | h :: l => if mergeable coal h w then some (mergeTp h w :: l) else (mergeInto coal w l).map (h :: ·)

/-- The four stages on one TP (R243–R246). [DESIGN CHOICE, log 42] -/
def qcuTake (q : Nat) (w : TpWord) (s : State) : State :=
  let b := tpTb w; let cls := tpClass w
  let now := tbNs b s
  let age := sdiff now (tpT w)
  let late : Bool := decide ((qcuLag q s : Int) < age) && (! qcuHolding q s || decide (0 < sdiff (markNow q b s) (tpT w)))
  let s := bump (qcuCnt q 0) s
  if ! qcuEn q s then bump (qcuCnt q 2) s
  else if inShadow b s then bump (qcuCnt q 6) s
  else if ! qcuClass 0x10 q cls s then bump (qcuCnt q 2) s
  else if late then
    let s1 := bump (qcuCnt q 3) s
    if bit (reg (qcuBase q + 0x60) s1) 31 then s1
    else (List.range 4).foldl (fun s i => setReg (qcuBase q + 0x70 + 4 * i) (w.toNat / 2 ^ (32 * i) % 2 ^ 32) s)
      (setFld (qcuBase q + 0x60) 31 31 1 s1)
  else if age < -1000000000 then bump (qcuCnt q 4) s
  else
    let coal := rfld (qcuBase q + 0x30) 15 0 s
    let merged := if coal ≠ 0 ∧ qcuClass 0x40 q cls s then mergeInto coal w (qcu q s).buffer else none
    match merged with
    | some l => bump (qcuCnt q 5) (setQcu q (fun x => { x with buffer := l }) s)
    | none => setQcu q (fun x => { x with buffer := x.buffer ++ [w] }) s

/-- TP a leaves before TP b of the same time base (R245). -/
def tpBefore (now : Nat) (a b : TpWord) : Bool :=
  let x := sdiff (tpT a) now; let y := sdiff (tpT b) now
  if x ≠ y then decide (x < y)
  else if tpEngine a ≠ tpEngine b then decide (tpEngine a < tpEngine b) else decide (tpSeq a < tpSeq b)

/-- The next TP of a time base to leave. -/
def nextTp (now b : Nat) : List TpWord → Option TpWord
  | [] => none
  | w :: l => match nextTp now b l with
    | none => if tpTb w = b then some w else none
    | some x => if tpTb w = b ∧ ! tpBefore now x w then some w else some x

/-- Removes the first TP equal to one. -/
def dropTp (w : TpWord) : List TpWord → List TpWord
  | [] => []
  | x :: l => if x = w then l else x :: dropTp w l

/-- Sends the marks of the time bases that have no TP left to release (R245); a mark held by a castling does not go back (R248).
[DEDUCED, log 44] -/
def sendMarks (q : Nat) (s : State) : State :=
  (List.range 8).foldl (fun s b =>
    let ahead : Bool := match mfind (qcu q s).marks b with
      | some m => decide (0 < sdiff m (markNow q b s))
      | none => false
    if (qcu q s).buffer.any (fun w => decide (tpTb w = b) && tpDue q w s) ∨ (qcuHolding q s ∧ ahead) then s
    else setQcu q (fun x => { x with marks := mput x.marks b (markNow q b s) }) s) s

/-- The CCU input of a released TP (R250). -/
def tpInput (group q : Nat) (w : TpWord) : CcuInput :=
  ⟨group, q, tpClass w, tpScore w, tpStream w, 0, tpTb w, tpT w, 0, 0, 0⟩

/-- A castling's freeze: the release marks it would hold are kept (R248). -/
def holdMarks (q : Nat) (s : State) : State :=
  setQcu q (fun x => { x with
    hold := true, holdEnd := none, holdMarks := (List.range 8).map (fun b => (b, wrapN 32 ((tbNs b s : Int) - qcuLag q s))) }) s

/-- The castled engine resumes: the hold ends 10 µs later (R248). -/
def resumeMarks (q : Nat) (s : State) : State :=
  if (qcu q s).hold then setQcu q (fun x => { x with holdEnd := some (s.ticks + usTicks 10) }) s else s

/-- A forced step of a time base at one QCU (R262): a mark that a castling holds is taken anew. [DEDUCED, log 44] -/
def qcuStep (q b : Nat) (s : State) : State :=
  let n := ((qcu q s).buffer.filter (fun w => decide (tpTb w = b))).length
  bumpN (qcuCnt q 6) n (setQcu q (fun x => { x with
    buffer := x.buffer.filter (fun w => decide (tpTb w ≠ b)), marks := mdel x.marks b
    holdMarks := if x.hold then mput x.holdMarks b (wrapN 32 ((tbNs b s : Int) - qcuLag q s)) else x.holdMarks }) s)

end Sys2Proof.Machine
end

