-- ==== Sys2Proof/Machine/TwOps.lean ====
section
/-! DEFINITION. The two-wire blocks: TW0's attention causes and stretches, and TW1's PMBus transactions (17_two_wire.md). -/

namespace Sys2Proof.Machine

def setTw (f : TwSt → TwSt) (s : State) : State := { s with tw := f s.tw }

/-! ### Attention (R518, R519) -/

/-- Pending causes that TW0_ATTN enables. -/
def attnPending (s : State) : Nat := reg 0x42018 s &&& rfld 0x42014 15 0 s

/-- A cause becomes pending; an enabled one wants a request (R518, R519). -/
def attnRaise (b : Nat) (s : State) : State :=
  let was := bit (reg 0x42018 s) b
  let s1 := setFld 0x42018 b b 1 s
  if ! was ∧ bit (reg 0x42014 s) 31 ∧ bit (reg 0x42014 s) b then setTw (fun t => { t with attnWant := true }) s1 else s1

/-- The condition of a cause still holds, so a clear is refused (R518). -/
def attnHolds (b : Nat) (s : State) : Bool :=
  match b with
  | 0 => decide (s.mode.current = .safe)
  | 1 => decide (((rfld 0x2030 7 0 s : Nat) : Int) < s.mode.hottest)
  | 3 => bit (reg 0x60004 s) 28
  | 4 => s.repair.warned.isSome
  | 5 => s.rst.fallback
  | 6 => bit (reg 0x50004 s) 31
  | 7 => ! s.host.linkUp
  | _ => false

/-- Clears the causes of a mask whose condition does not hold (R518). [DEDUCED, log 115] -/
def attnClear (mask : Nat) (s : State) : State :=
  (List.range 8).foldl (fun s b => if bit mask b ∧ ! attnHolds b s then setFld 0x42018 b b 0 s else s) s

/-! ### TW1 (R419, R520, R521) -/

/-- TW1 can transact: on, and no line stuck (R522). -/
def tw1Ready (s : State) : Bool := bit (reg 0x43000 s) 31 && ! bit (reg 0x43008 s) 29

/-- One transaction with its retries: the value it returns, unless all fail; what the bus does is consumed in order. A try that is
not there is one that the pace period's end cuts off (R419, R521). [DEDUCED, log 78] -/
def twTry (o : Output) (s : State) : Nat → List TwTry → Option Nat × List TwTry × State
  | _, [] => (none, [], s)
  | retries, t :: bus =>
    let s1 := bump (tw1Cnt 0) (emit o s)
    match t with
    | .done v => (some v, bus, s1)
    | .lost => twTry o (bump (tw1Cnt 3) s1) retries bus
    | .nack =>
      let s2 := bump (tw1Cnt 1) s1
      match retries with
      | 0 => (none, bus, s2)
      | r + 1 => twTry o (bump (paceCnt 4) s2) r bus
    | .badPec =>
      let s2 := bump (tw1Cnt 2) s1
      match retries with
      | 0 => (none, bus, s2)
      | r + 1 => twTry o (bump (paceCnt 4) s2) r bus

/-- A PMBus transaction to a regulator, after PAGE where address or page differ from the last (R520). [DEDUCED, log 78] -/
def pmTrans (addr page code : Nat) (value : Option Nat) (bus : List TwTry) (s : State) : Option Nat × List TwTry × State :=
  if ! tw1Ready s then (none, bus, s)
  else
    let go (bus : List TwTry) (s : State) := twTry (.pmbus addr page code value) s 3 bus
    if s.pace.page = some (addr, page) then go bus s
    else
      let (r, bus1, s1) := twTry (.pmbus addr page 0 (some page)) s 3 bus
      match r with
      | none => (none, bus1, s1)
      | some _ => go bus1 { s1 with pace := { s1.pace with page := some (addr, page) } }

end Sys2Proof.Machine
end

