-- ==== Sys2Proof/Machine/PaceOps.lean ====
section
/-! DEFINITION. The pace controller: backlog, the loop, regulators, modes and energy (13_fabric_pace.md). -/

namespace Sys2Proof.Machine

def setPace (f : PaceSt → PaceSt) (s : State) : State := { s with pace := f s.pace }
def rail (r : Nat) (s : State) : Rail := mget {} s.pace.rails r
def setRail (r : Nat) (f : Rail → Rail) (s : State) : State :=
  setPace (fun p => { p with rails := mmod {} p.rails r f }) s
def railBase (r : Nat) : Nat := 0x50100 + r * 0x20
def monBase (m : Nat) : Nat := 0x50200 + m * 0x10
def paceEn (s : State) : Bool := bit (reg 0x50000 s) 31
def railAuto (r : Nat) (s : State) : Bool := bit (reg (railBase r) s) 31
def railVmin (r : Nat) (s : State) : Nat := rfld (railBase r) 9 0 s
def railVmax (r : Nat) (s : State) : Nat := rfld (railBase r) 25 16 s
/-- The last value commanded, mV. -/
def railCur (r : Nat) (s : State) : Nat := rfld (railBase r + 0xC) 25 16 s

/-! ### Backlog (R416) -/

/-- Oldest of a list of device ticks, as an age in ns. -/
def ageNs (l : List Nat) (s : State) : Nat := (l.map (fun t => nsSince t s)).foldl max 0

/-- Ticks since which the loans and TPs of a quadrant's powered engines wait. -/
def quadWaits (q : Nat) (s : State) : List Nat :=
  ((s.engines.filter (fun e => decide (e.1 / 64 = q) && e.2.powered)).map (fun e =>
    (e.2.tasks.map (fun t => (unconsumed t.2).map (·.since))).flatten ++ e.2.tpq.map (·.since))).flatten

/-- Ticks since which CCU inputs wait. Commands wait at the steward for no time in the model. -/
def ccuWaits (s : State) : List Nat :=
  s.trig.arrivals.map (·.since)
    ++ (s.trig.conds.map (fun c => (c.2.defs.map (fun d => d.queue.map (·.since))).flatten)).flatten

/-- The backlog of a rail now, ns (R416). [DESIGN CHOICE, log 81] -/
def railBacklog (r : Nat) (s : State) : Nat := if r < 4 then ageNs (quadWaits r s) s else ageNs (ccuWaits s) s

/-- The monitors follow the worst backlog of the period, tick by tick (R416). [DESIGN CHOICE, log 81] -/
def paceTick (s : State) : State :=
  if paceEn s then
    (List.range 5).foldl (fun s r => setRail r (fun x => { x with worst := max x.worst (railBacklog r s) }) s) s
  else s

/-- SKIPPED and LATE counts of a rail's domain (R417). -/
def railSkips (r : Nat) (s : State) : Nat :=
  if r < 4 then
    ((s.streams.filter (fun e => decide (e.1 / 16384 = r))).map (fun e => (e.2.skipped.map (·.2)).sum)).sum + cnt (qcuCnt r 3) s
  else 0

/-- Some fast condition is enabled (R417). -/
def anyFast (s : State) : Bool := (List.range 8).any (fun k => bit (reg (fastBase k) s) 31)

/-! ### Regulators (R419) -/

/-- The loop has given a rail up until tw1_fault is cleared (R419). -/
def railLost (r : Nat) (s : State) : Bool := (rail r s).lost

/-- All tries failed: the rail is held, tw1_fault is set (R419, R518). -/
def railFault (r : Nat) (s : State) : State :=
  bump (paceCnt 5) (attnRaise 6 (setFld 0x50004 31 31 1 (setRail r (fun x => { x with lost := true }) s)))

def railAddr (r : Nat) (s : State) : Nat := rfld (railBase r + 0x14) 14 8 s
def railPage (r : Nat) (s : State) : Nat := rfld (railBase r + 0x14) 7 0 s

/-- A transaction with a rail's regulator; a failure holds the rail. [DEDUCED, log 78] -/
def railTrans (r code : Nat) (value : Option Nat) (bus : List TwTry) (s : State) : Option Nat × List TwTry × State :=
  let (v, b, s1) := pmTrans (railAddr r s) (railPage r s) code value bus s
  match v with
  | some _ => (v, b, s1)
  | none => (none, b, railFault r s1)

/-- mV in a linear format's mantissa, and back; the rounding is open (R419). [PRESUMED, log 80] -/
def linOf (exp : Int) (mv : Nat) : Nat :=
  if exp < 0 then (divOpen ((mv : Int) * 2 ^ exp.natAbs) 1000).toNat % 65536
  else (divOpen mv (1000 * 2 ^ exp.natAbs)).toNat % 65536
def mvOf (exp : Int) (m : Nat) : Nat :=
  if exp < 0 then (divOpen ((m : Int) * 1000) (2 ^ exp.natAbs)).toNat else m * 1000 * 2 ^ exp.natAbs

/-- mA of a READ_IOUT value in PMBus's 11-bit linear format. [PRESUMED, log 80] -/
def maOf (w : Nat) : Int :=
  let e := sgn 5 (bits w 15 11); let m := sgn 11 (bits w 10 0)
  if e < 0 then divOpen (m * 1000) (2 ^ e.natAbs) else m * 1000 * 2 ^ e.natAbs

/-- Commands a rail (R419): VOUT_COMMAND, and cur_mv when it succeeds. -/
def railCommand (r mv : Nat) (bus : List TwTry) (s : State) : List TwTry × State :=
  match (rail r s).exp with
  | none => (bus, s)
  | some e =>
    let (v, b, s1) := railTrans r 0x21 (some (linOf e mv)) bus s
    (b, match v with | some _ => setFld (railBase r + 0xC) 25 16 mv s1 | none => s1)

/-- Commands a rail for a mode; the transaction succeeds. [DEDUCED, log 79] -/
def railForce (r mv : Nat) (s : State) : State :=
  (railCommand r mv [.done 0, .done 0] s).2

/-- Reads VOUT_MODE of a rail's regulator (R419): only a linear format is driven. A rail that no value has been commanded on starts
from what its regulator holds. -/
def railStart (r : Nat) (bus : List TwTry) (s : State) : List TwTry × State :=
  let (v, b, s1) := railTrans r 0x20 none bus s
  match v with
  | none => (b, setRail r (fun x => { x with exp := none }) s1)
  | some m =>
    if bits m 7 5 ≠ 0 then (b, attnRaise 6 (setFld 0x50004 31 31 1 (setRail r (fun x => { x with exp := none }) s1)))
    else
      let e := sgn 5 (bits m 4 0)
      let s2 := setRail r (fun x => { x with exp := some e, quiet := 0, skips := railSkips r s, worst := 0 }) s1
      if railCur r s2 ≠ 0 then (b, s2)
      else
        let (v2, b2, s3) := railTrans r 0x21 none b s2
        (b2, match v2 with | some w => setFld (railBase r + 0xC) 25 16 (mvOf e w) s3 | none => s3)

/-- Every rail whose regulator has an address: the rails the controller drives (R416, R419). [DEDUCED, log 79] -/
def usedRails (s : State) : List Nat := (List.range 5).filter (fun r => decide (railAddr r s ≠ 0))

/-- PACE_CTL.en going to 1 (R419). [DEDUCED, log 78] -/
def paceStart (bus : List TwTry) (s : State) : State :=
  let start (x : List TwTry × State) (r : Nat) : List TwTry × State := railStart r x.1 x.2
  let (b, s1) := (usedRails s).foldl start (bus, setPace (fun p => { p with last := s.ticks }) s)
  let mon (x : List TwTry × State) (m : Nat) : List TwTry × State :=
    let c := reg (monBase m) x.2
    if bit c 31 then
      let (v, b, s2) := pmTrans (bits c 14 8) (bits c 7 0) 0x20 none x.1 x.2
      (b, match v with
        | some w => setPace (fun p => { p with mons := mput p.mons m (sgn 5 (bits w 4 0)) }) s2
        | none => s2)
    else x
  ((List.range 3).foldl mon (b, s1)).2

/-! ### The loop (R417, R418, R420) -/

/-- A value for a rail, at least 700 mV for VCOREC while a fast condition is enabled (R37). -/
def railFloor (r v : Nat) (s : State) : Nat := if r = 4 ∧ anyFast s then max v 700 else v

/-- Floor and ceiling of a rail (R417, R420). [DEDUCED, log 79] -/
def railBounds (r : Nat) (s : State) : Nat × Nat :=
  let f0 := max (railVmin r s) (if bit (reg 0x50000 s) 30 then 700 else 600)
  let f1 := railFloor r f0 s
  let c0 := railVmax r s
  if s.mode.current = .vigil ∧ r = s.mode.vigilQ then
    let c1 := min c0 650
    (min f1 c1, c1)
  else (f1, c0)

/-- The loop acts on a rail now: auto, not lost, in a mode and a quadrant that it serves (R417, R419, R420). [DEDUCED, log 79] -/
def railActive (r : Nat) (s : State) : Bool :=
  railAuto r s && (rail r s).exp.isSome && ! railLost r s && decide (s.mode.current ≠ .safe ∧ s.mode.current ≠ .bringup)
    && ! (decide (s.mode.current = .vigil ∧ r < 4 ∧ r ≠ s.mode.vigilQ)) && (decide (r = 4) || quadUp r s)

/-- What one period of R417 makes of a rail's voltage: the new value, the quiet count and the counter it counts in. [DEDUCED, log 79] -/
def railDecide (v quiet b hi lo : Nat) (low skip : Bool) : Nat × Nat × Option Nat :=
  if low then (v + 40, 0, some 3)
  else if skip then (v + 40, 0, some 2)
  else if hi * 1000 < b then (v + 20, 0, some 0)
  else if b < lo * 1000 then (if 4 ≤ quiet + 1 then (v - 10, 0, some 1) else (v, quiet + 1, none))
  else (v, 0, none)

/-- A further read of a rail in a period; a rail given up meanwhile is left alone (R419). -/
def railAsk (r code : Nat) (bus : List TwTry) (s : State) : Option Nat × List TwTry × State :=
  if railLost r s then (none, bus, s) else railTrans r code none bus s

/-- One rail in one period (R417–R419): telemetry and read-back, then one command at most: the controller's own value again after a
foreign write, else the loop's. [DEDUCED, log 79] -/
def railPeriod (low : Nat → Bool) (x : List TwTry × State) (r : Nat) : List TwTry × State :=
  match (rail r x.2).exp with
  | none => x
  | some e =>
    if railLost r x.2 then x
    else
      let (v, b, s1) := railTrans r 0x8B none x.1 x.2
      let s2 := match v with | some w => setFld (railBase r + 0xC) 9 0 (mvOf e w) s1 | none => s1
      let (c, b2, s3) := railAsk r 0x21 b s2
      let (i, b3, s4) := railAsk r 0x8C b2 s3
      let uj : Int := match v, i with
        | some w, some k => divOpen ((mvOf e w : Int) * maOf k * rfld 0x50000 15 0 s4) 1000000
        | _, _ => 0
      let s5 := bumpN (railBase r + 0x18) uj.toNat s4
      let worst := (rail r s5).worst
      let s6 := setReg (railBase r + 0x10) worst s5
      let skips := railSkips r s6
      let skip := decide ((rail r s6).skips < skips)
      let s7 := setRail r (fun y => { y with worst := 0, skips := skips }) s6
      let foreign : Bool := match c with | some w => decide (w ≠ linOf e (railCur r s7)) | none => false
      if foreign then railCommand r (railFloor r (railCur r s7) s7) b3 (bump (paceCnt 6) (setFld 0x50004 29 29 1 s7))
      else if ! railActive r s7 then (b3, s7)
      else
        let s8 := if low r then setFld 0x50004 30 30 1 s7 else s7
        let cur := railCur r s8
        let (n, quiet, k) := railDecide cur (rail r s8).quiet worst (rfld (railBase r + 4) 31 16 s8)
          (rfld (railBase r + 4) 15 0 s8) (low r) skip
        let bd := railBounds r s8
        let n2 := max bd.1 (min bd.2 n)
        let s9 := setRail r (fun y => { y with quiet := quiet }) s8
        if n2 = cur then (b3, s9)
        else railCommand r n2 b3 (match k with | some j => bump (paceCnt j) s9 | none => s9)

/-- Telemetry of a monitored rail (R423). [DESIGN CHOICE, log 81] -/
def monPeriod (x : List TwTry × State) (m : Nat) : List TwTry × State :=
  let c := reg (monBase m) x.2
  match bit c 31, mfind x.2.pace.mons m with
  | true, some e =>
    let (v, b, s1) := pmTrans (bits c 14 8) (bits c 7 0) 0x8B none x.1 x.2
    let (i, b2, s2) := pmTrans (bits c 14 8) (bits c 7 0) 0x8C none b s1
    match v, i with
    | some w, some k =>
      (b2, bumpN (monBase m + 8) (divOpen ((mvOf e w : Int) * maOf k * rfld 0x50000 15 0 s2) 1000000).toNat s2)
    | _, _ => (b2, s2)
  | _, _ => x

/-- PACE_PERIOD (R417): period_us has passed; `low` is the margin monitors' word for each rail, `bus` what TW1's transactions meet. -/
def execPacePeriod (low : BitVec 5) (bus : List TwTry) (s : State) : Host.Outcome State Fault Refusal :=
  if paceEn s ∧ passed s.pace.last (usTicks (rfld 0x50000 15 0 s)) s ∧ s.mode.current ≠ .bringup then
    let s1 := setPace (fun p => { p with last := s.ticks }) s
    let x := (usedRails s1).foldl (railPeriod (fun r => low.getLsbD r)) (bus, s1)
    .next ((List.range 3).foldl monPeriod x).2
  else .next s

/-! ### Modes (R420) -/

/-- A rail under the loop. -/
def loopRail (r : Nat) (s : State) : Bool :=
  paceEn s && decide (railAddr r s ≠ 0) && railAuto r s && (rail r s).exp.isSome && ! railLost r s

/-- The mode holds a rail: every rail in Safe, a gated quadrant's in Vigil (R420). -/
def modeHolds (r : Nat) (s : State) : Bool :=
  decide (s.mode.current = .safe) || decide (s.mode.current = .vigil ∧ r < 4 ∧ r ≠ s.mode.vigilQ)

/-- PACE_STATUS.holding (R419, R420, R424). [DEDUCED, log 82] -/
def holdingRails (s : State) : Nat :=
  ((List.range 5).map (fun r => if railLost r s ∨ (loopRail r s ∧ modeHolds r s) then 2 ^ r else 0)).sum

/-- What the mode does to a rail under the loop (R420): Safe holds it at 700 mV or more; Vigil sets a gated quadrant's rail to vmin; else it
runs on from where it stands. [DEDUCED, log 82] -/
def railMode (s : State) (r : Nat) : State :=
  if loopRail r s ∧ modeHolds r s then
    if s.mode.current = .safe then (if railCur r s < 700 then railForce r 700 s else s)
    else if railCur r s ≠ railVmin r s then railForce r (railVmin r s) s else s
  else s

/-- What a new mode does to the rails (R420). -/
def paceMode (s : State) : State := (List.range 5).foldl railMode s

end Sys2Proof.Machine
end

