-- ==== Sys2Proof/Machine/RepairOps.lean ====
section
/-! DEFINITION. The repair controller's operations: the map, castlings of every kind, abandoning and committing
(14_spares_repair.md). -/

namespace Sys2Proof.Machine

def setRepair (f : RepairSt → RepairSt) (s : State) : State := { s with repair := f s.repair }
def engWear (i : Nat) : Nat := 0x61000 + 4 * i
def laneWear (i : Nat) : Nat := 0x62000 + 4 * i
def pchCorr (i : Nat) : Nat := 0x63000 + 8 * i
def pchFlags (i : Nat) : Nat := 0x63004 + 8 * i
def bankWear (i : Nat) : Nat := 0x63800 + 4 * i
def lmapReg (e : Nat) : Nat := 0x60100 + 4 * e
/-- [DEDUCED, log 83] -/
def sliceReg (q g : Nat) : Nat := 0x60410 + q * 0x20 + 4 * g
/-- [DEDUCED, log 83] -/
def pchReg (st : Nat) : Nat := 0x60500 + 4 * st
def repairObj : ObjId := ⟨12, 0⟩

/-! ### The map (R445, R447) -/

/-- What an entry retires, and the spare it uses, as keys (R445). -/
def entryUnit (e : Nat) : Nat :=
  match bits e 31 28 with
  | 1 => 2 ^ 32 + bits e 21 20 * 64 + bits e 19 14
  | 2 => 2 * 2 ^ 32
  | 3 => 3 * 2 ^ 32 + bits e 21 16
  | 4 => 4 * 2 ^ 32 + bits e 21 20 * 32 + bits e 12 8
  | 5 => 5 * 2 ^ 32 + bits e 21 20 * 256 + bits e 19 19 * 128 + bits e 14 8
  | _ => 6 * 2 ^ 32 + bits e 27 8 * 32 + bits e 4 0
def entrySpare (e : Nat) : Nat :=
  match bits e 31 28 with
  | 1 => 2 ^ 32 + bits e 21 20 * 64 + bits e 5 0
  | 2 => 2 * 2 ^ 32 + 1
  | 3 => 3 * 2 ^ 32 + bits e 21 16
  | 4 => 4 * 2 ^ 32 + bits e 21 20 * 2 + bits e 0 0
  | 5 => 5 * 2 ^ 32 + bits e 21 20 * 256 + bits e 19 19 * 128 + bits e 14 12
  | _ => 6 * 2 ^ 32 + bits e 27 8 * 32 + bits e 4 0

/-- Applies one entry to a map, counting conflicts (R447). -/
def applyEntry (x : List (BitVec 32) × Nat) (e : BitVec 32) : List (BitVec 32) × Nat :=
  let k := bits e.toNat 31 28
  if k = 0 ∨ x.1.contains e then x
  else if 7 ≤ k ∨ x.1.any (fun y => decide (bits y.toNat 31 28 = k) &&
      (decide (entryUnit y.toNat = entryUnit e.toNat) || decide (entrySpare y.toNat = entrySpare e.toNat))) then (x.1, x.2 + 1)
  else (x.1 ++ [e], x.2)

/-- The map of R447: eFuse entries in index order, then the flash map's. -/
def buildMap (fuse flash : List (BitVec 32)) : List (BitVec 32) × Nat := (fuse ++ flash).foldl applyEntry ([], 0)

/-- The physical slot of a local logical engine under a map. -/
def slotUnder (map : List (BitVec 32)) (q l : Nat) : Nat :=
  map.foldl (fun k e =>
    let n := e.toNat
    if bits n 31 28 = 1 ∧ bits n 21 20 = q ∧ bits n 19 14 = k then bits n 5 0 else k) l

/-- Shows which slot serves a logical engine (R452). -/
def showLmap (e slot : Nat) (s : State) : State :=
  setReg (lmapReg e) (b1 (decide (slot ≠ e % 48)) * 2 ^ 31 + slot) s

/-- A slot serves a logical engine: its window, the routes and REPAIR_LMAP (R191, R452). [DEDUCED, log 83] -/
def serveOn (e slot : Nat) (s : State) : State :=
  showLmap e slot (setEng (ekey (e / 48) slot) (fun x => { x with powered := true, logical := some e })
    { s with engMap := if slot = e % 48 then mdel s.engMap e else mput s.engMap e slot })

/-- Puts the engines of a quadrant where the map in force says (R447). -/
def mapEngines (q : Nat) (s : State) : State :=
  (List.range 48).foldl (fun s l =>
    let slot := slotUnder s.repair.map q l
    let e := 48 * q + l
    if slot = l then showLmap e l { s with engMap := mdel s.engMap e }
    else serveOn e slot (setEng (ekey q l) (fun x => { x with logical := none }) s)) s

/-- What one entry shows in the registers of R452 and R453 beside REPAIR_LMAP. -/
def showEntry (e : Nat) (s : State) : State :=
  match bits e 31 28 with
  | 1 => let i := engWear (52 * bits e 21 20 + bits e 19 14); setFld i 29 29 1 s
  | 2 => setFld (engWear 208) 29 29 1 (setFld 0x60400 31 31 1 s)
  | 3 => setReg (sliceReg (bits e 21 20) (bits e 19 16)) (2 ^ 31 + bits e 11 8) s
  | 4 =>
    let st := bits e 21 20; let c := bits e 12 8
    let s1 := setFld (pchFlags (32 * st + c)) 0 0 1 s
    if bit e 0 then setFld (pchReg st) 4 0 c (setFld (pchReg st) 30 30 1 s1)
    else setFld (pchReg st) 9 5 c (setFld (pchReg st) 31 31 1 s1)
  | 5 =>
    let i := if bit e 19 then 272 + bits e 14 8 else 68 * bits e 21 20 + bits e 14 8
    setFld (bankWear i) 29 29 1 s
  | _ => s

/-- Shows the whole map in force. -/
def showMap (s : State) : State := s.repair.map.foldl (fun s e => showEntry e.toNat s) s

/-! ### Castlings in progress -/

def castleOf (kind q : Nat) (s : State) : Option Castle :=
  s.repair.castles.find? (fun c => decide (c.kind = kind ∧ c.quadrant = q))

/-- REPAIR_ACT of a kind and quadrant (R452). -/
def actReg (kind q : Nat) : Nat := if kind = 1 then 0x60030 else 0x60040 + q * 0x20 + kind * 4

/-- Shows a castling in REPAIR_ACT, with the copy's pass and dirty KiB (R452). -/
def showAct (c : Castle) (pass dirty : Nat) (s : State) : State :=
  if c.kind = 5 then s
  else setReg (actReg c.kind c.quadrant)
    (2 ^ 31 + b1 c.suspended * 2 ^ 30 + c.step % 8 * 2 ^ 27 + pass % 4 * 2 ^ 25 + dirty % 512 * 2 ^ 16 + c.unit % 2 ^ 16) s

/-- Puts a castling in place of the one of its kind and quadrant, and shows the step it has reached. [DESIGN CHOICE, log 156] -/
def putCastle (c : Castle) (s : State) : State :=
  showAct c 0 0 (setRepair (fun r => { r with
    castles := r.castles.filter (fun x => ! decide (x.kind = c.kind ∧ x.quadrant = c.quadrant)) ++ [c] }) s)

/-- Ends a castling. -/
def dropCastle (c : Castle) (s : State) : State :=
  let s1 := setRepair (fun r => { r with
    castles := r.castles.filter (fun x => ! decide (x.kind = c.kind ∧ x.quadrant = c.quadrant)) }) s
  if c.kind = 5 then s1 else setReg (actReg c.kind c.quadrant) 0 s1

/-- Completes the CASTLE that asked for a castling, if one did. -/
def answerCastle (src : Option Src) (st : Status) (s : State) : State :=
  match src with | some x => complete x st 0 s | none => s

/-- The map entry a castling commits (R445). -/
def castleEntry (c : Castle) : BitVec 32 :=
  BitVec.ofNat 32 (match c.kind with
    | 0 => 2 ^ 28 + c.quadrant * 2 ^ 20 + c.orig * 2 ^ 14 + c.spare
    | 1 => 2 * 2 ^ 28 + 1
    | 2 => 3 * 2 ^ 28 + c.quadrant * 2 ^ 20 + c.spare * 2 ^ 16 + c.old * 2 ^ 8
    | 3 => 4 * 2 ^ 28 + c.quadrant * 2 ^ 20 + c.old * 2 ^ 8 + c.spare
    | 4 => 5 * 2 ^ 28 + c.quadrant * 2 ^ 20 + bits c.unit 7 7 * 2 ^ 19 + bits c.unit 6 0 * 2 ^ 8
    | _ => 6 * 2 ^ 28 + c.unit)

/-- A CASTLE descriptor that an automatic castling is journaled as (R431). -/
def castleDesc (kind unit : Nat) : Desc :=
  { func := 0, ring := 0, flags := 0, expVersion := 0, cookie := 0,
    body := BitVec.ofNat 384 (kind * 2 ^ 28 + 0xFF * 2 ^ 16 + unit % 2 ^ 16) }

/-- Journals an automatic castling at its start as a CASTLE from function 0 (R431). Kinds BANK and WIRE have no descriptor value, so the
checksum of the descriptor they stand for is a free value. -/
def castleJournal (kind unit : Nat) (s : State) : State :=
  if kind < 4 then journalReg 0x61 .ok (castleDesc kind unit) [repairObj] s
  else
    let (w, s1) := takeFree s
    journal 0x61 .ok 0 true 0 0 (w.toNat % 2 ^ 32) 0 0 repairObj noObj (bumpVer repairObj s1)

/-! ### Spares and units -/

/-- Free spare slots of a quadrant, lowest first (R432): not serving, not retired and not in use. [DEDUCED, log 83] -/
def freeSpares (q : Nat) (s : State) : List Nat :=
  [48, 49, 50, 51].filter (fun k =>
    (eng (ekey q k) s).logical.isNone && ! bit (reg (engWear (52 * q + k)) s) 29
      && (match castleOf 0 q s with | some c => decide (c.spare ≠ k) | none => true))

/-- Free spare pseudo-channels of a stack (R441). [DEDUCED, log 83] -/
def freePchs (st : Nat) (s : State) : List Nat :=
  [0, 1].filter (fun n => ! bit (reg (pchReg st) s) (31 - n)
    && (match castleOf 3 st s with | some c => decide (c.spare ≠ n) | none => true))

/-- The entries whose castlings are in force, committed or not (R447, R448). -/
def entriesLive (s : State) : List (BitVec 32) := s.repair.map ++ s.repair.live

/-- The spare steward is free: it does not serve, and no verify has retired it (R437, R438). [DEDUCED, log 85] -/
def stewardFree (s : State) : Bool := ! bit (reg 0x60400 s) 31 && ! bit (reg (engWear 209) s) 29

/-- The spare bank of a bank's group of 16 is free (R426). [DEDUCED, log 86] -/
def bankFree (q unit : Nat) (s : State) : Bool :=
  ! (entriesLive s).any (fun e => decide (bits e.toNat 31 28 = 5 ∧ bits e.toNat 21 20 = q ∧ bits e.toNat 19 19 = bits unit 7 7
    ∧ bits e.toNat 14 12 = bits unit 6 4))

/-- A slice castling's shifted ports: local ports from the retired position's to the group's last (R439). -/
def shiftedPorts (q g pos : Nat) : List Nat :=
  (List.range 4).filterMap (fun j => if pos / 4 ≤ j then some (32 * q + 4 * g + j) else none)

/-- The modes with HBM history (R430, R442). -/
def hbmMode (s : State) : Bool := decide (s.mode.current = .retain ∨ s.mode.current = .calibrate)

/-! ### Commit (R448) -/

/-- A commit has failed: the castling stays in force until the next L0 or L1 (R448). [DEDUCED, log 84] -/
def commitFailed (c : Castle) (st : Status) (s : State) : State :=
  answerCastle c.src st (bump (repairCnt 9) (dropCastle c (showEntry (castleEntry c).toNat
    (setRepair (fun r => { r with live := r.live ++ [castleEntry c] }) s))))

/-- Step 8: the copy not in force is written with the entry appended and read back; then the AON map takes the entry. [DEDUCED, log 84] -/
def commitMap (c : Castle) (ok : Bool) (s : State) : State :=
  let e := castleEntry c
  if 512 ≤ s.repair.entries.length then commitFailed c .noResource s
  else
    let dst := match s.repair.copy with | some 0 => 1 | _ => 0
    let seq := (s.repair.seq + 1) % 2 ^ 32
    let ents := s.repair.entries ++ [e]
    if ! ok then commitFailed c .fault (flErase 0 (mapAt dst) 4096 (writeRecord (mapAt dst) (mapBytes seq ents) s))
    else
      let s1 := writeRecord (mapAt dst) (mapBytes seq ents) s
      let s2 := setRepair (fun r => { r with copy := some dst, seq := seq, entries := ents, map := (applyEntry (r.map, 0) e).1 }) s1
      let s3 := showEntry e.toNat (setFld 0x60004 19 10 ents.length (setReg 0x60008 seq s2))
      answerCastle c.src .ok (dropCastle c (if c.kind = 2 then bump (repairCnt 1) s3 else s3))

/-! ### Engine and steward castlings (R433–R438) -/

/-- Starts an engine castling: the spare powers up with cleared stores (R433). -/
def startEngine (e slot spare orig : Nat) (src : Option Src) (s : State) : State :=
  let q := e / 48
  putCastle { kind := 0, quadrant := q, unit := e, old := slot, spare := spare, orig := orig, step := 1, since := s.ticks, src := src }
    (setEng (ekey q spare) (fun _ => { powered := true }) s)

/-- Starts a steward castling onto the spare, 1, or back, 0 (R437, R438). -/
def startSteward (spare : Nat) (src : Option Src) (s : State) : State :=
  putCastle { kind := 1, quadrant := 0, unit := 0, old := 1 - spare, spare := spare, orig := 0, step := 1, since := s.ticks, src := src } s

/-- The spare steward serves, or the steward again (R438, R452). -/
def resumeSteward (c : Castle) (s : State) : State :=
  bump (repairCnt 0) (putCastle { c with step := 7, since := s.ticks } (setFld 0x60400 31 31 c.spare
    (setRepair (fun r => { r with paused := false }) (setRst (fun r => { r with wdogFrom := s.ticks }) s))))

/-- The freeze: the engine stops at a boundary, castle_freeze shows in both windows, release marks are held (R433, R434, R248). -/
def freezeEngine (c : Castle) (pass dirty : Nat) (s : State) : State :=
  let q := c.quadrant
  let fz (k : Nat) (s : State) : State := setEng (ekey q k) (fun x => { x with castleFreeze := true }) s
  let c1 := { c with step := 3, since := s.ticks }
  showAct c1 pass dirty (putCastle c1 (holdMarks q (fz c.spare (fz c.old (markBack (ekey q c.old) s)))))

/-- A counter block copied from one slot's window to another's, and ENG_CFG and the debug registers with it (R433, R434). [DEDUCED, log 85] -/
def copyWindow (q a b : Nat) (s : State) : State :=
  let s1 := (List.range 8).foldl (fun s i => { s with cnts := mput s.cnts (engCnt (ekey q b) i) (cnt (engCnt (ekey q a) i) s) }) s
  [8, 0xC, 0x10, 0x14, 0x18, 0x1C].foldl (fun s o => setReg (engBase q b + o) (reg (engBase q a + o) s) s) s1

/-- An L4 reset of a logical engine on a physical slot (R188, R191, R386, R456): its slots are emptied, its save area is discarded, its window
returns to its reset values and counters to 0, and its task slots to version 0. -/
def engWipe (e key : Nat) (s : State) : State :=
  let base := engBase (key / 64) (key % 64)
  let out (a : Nat) : Bool := ! decide (base ≤ a ∧ a < base + 0x400)
  let save (x : Nat) : Bool := decide (x / 2 ^ 24 = 1 ∧ 128 ≤ x % 2 ^ 24)
  let s1 := setEng key (fun x => { x with
    tasks := [], running := none, halted := false, haltAt := none, vec := x.vec.filter (fun v => decide (v.1 < 128)),
    bad := x.bad.filter (fun b => decide (b.1 / 2 ^ 24 < 3) && ! save b.1), soft := x.soft.filter (fun b => ! save b) }) (clearSlots key s)
  { s1 with
    regs := mfilter out s1.regs, cnts := mfilter out s1.cnts
    jrnl := { s1.jrnl with vers := mfilter (fun k => ! decide (k / 2 ^ 24 = 4 ∧ k % 2 ^ 24 / 16 = e)) s1.jrnl.vers } }

/-- Steps 4 to 6: stores and contexts copied, routes redirected, and the scheduler runs on the spare (R433–R436). -/
def resumeEngine (c : Castle) (s : State) : State :=
  let q := c.quadrant; let a := ekey q c.old; let b := ekey q c.spare
  let e := eng a s
  let s1 := setEng b (fun _ => { e with castleFreeze := false, powered := true, logical := none }) s
  let s2 := setEng a (fun x => { x with castleFreeze := false, running := none, tasks := [], tpq := [], logical := none }) s1
  let s3 := resumeMarks q (serveOn c.unit c.spare (copyWindow q c.old c.spare s2))
  let s4 := setRepair (fun r => { r with overLoans := b :: r.overLoans.filter (· ≠ b) }) s3
  let s5 := if c.l4 then engWipe c.unit b s4 else s4
  stopWaitingCancels b (bump (repairCnt 0) (putCastle { c with step := 7, since := s.ticks, l4 := false } s5))

/-- Abandons a castling before its commit (R436, R449, R60): the spare is free again; ABANDONED counts; a castling restarted carries
its command with it, unless the command has been answered. -/
def abandonCastle (c : Castle) (again : Option (Option Src)) (s : State) : State :=
  let s1 := if c.kind = 0 ∧ c.step < 7 then
      let unfz (k : Nat) (s : State) : State := setEng (ekey c.quadrant k) (fun x => { x with castleFreeze := false }) s
      setEng (ekey c.quadrant c.spare) (fun _ => { powered := false }) (unfz c.old (resumeMarks c.quadrant s))
    else s
  let s2 := if c.kind = 1 then setRepair (fun r => { r with paused := false }) s1 else s1
  let s3 := bump (repairCnt 5) (dropCastle c s2)
  match again with
  | some src => setRepair (fun r => { r with again := r.again ++ [⟨c.kind, c.quadrant, c.unit, src⟩] }) s3
  | none => s3

/-- A failed verify (R437, R438): the spare is retired, a commanded CASTLE ends with FAULT, and the unit is castled again, onto another free
spare or back to where it came from; where it stands on that already, nothing is left to castle to. [DEDUCED, log 85] -/
def verifyFailed (c : Castle) (s : State) : State :=
  let q := c.quadrant
  let i := if c.kind = 1 then 208 + c.spare else 52 * q + c.spare
  let s1 := setFld (engWear i) 29 29 1 (bump (repairCnt 6) (answerCastle c.src .fault (dropCastle c s)))
  let next := if c.kind = 1 then c.orig else (freeSpares q s1).headD c.orig
  if next = c.spare then s1
  else if c.kind = 1 then startSteward next none (castleJournal 1 0 s1)
  else startEngine c.unit c.spare next c.orig none (castleJournal 0 c.unit s1)

/-! ### Slice castlings (R439, R440) -/

/-- The shifted ports that are configured on have their link up. -/
def sliceUp (c : Castle) (s : State) : Bool :=
  (shiftedPorts c.quadrant c.spare c.old).all (fun p =>
    decide (rfld (portBase p) 27 24 s = 0) || (port p s).linkUp)

/-- Commits a slice castling whose shifted ports are all link-up again; the power-loss warning holds it (R440, R450). -/
def sliceCommit (c : Castle) (s : State) : State :=
  if sliceUp c s ∧ s.repair.warned.isNone then commitMap c true s else s

/-- A port's link came up: a slice castling of its group may commit (R440). -/
def sliceLinkUp (p : Nat) (s : State) : State :=
  match castleOf 2 (p / 32) s with
  | some c => sliceCommit c s
  | none => s

end Sys2Proof.Machine
end

