-- ==== Sys2Proof/Machine/TmrOps.lean ====
section
/-! DEFINITION. The operations of the timer unit: source edges, the prescaler, counting, pin actions, time compare, sleep and
catch-up (18_timers_fifos.md). -/

namespace Sys2Proof.Machine

def tmrBase (n : Nat) : Nat := 0x44100 + n * 0x40
def tmr (n : Nat) (s : State) : TmrSt := mget {} s.tmr.tmrs n
def setTmr (n : Nat) (f : TmrSt → TmrSt) (s : State) : State :=
  { s with tmr := { s.tmr with tmrs := mmod {} s.tmr.tmrs n f } }

def tmrEn (n : Nat) (s : State) : Bool := bit (reg (tmrBase n) s) 31
def tmrMode (n : Nat) (s : State) : Nat := rfld (tmrBase n) 30 29 s
def tmrSrc (n : Nat) (s : State) : Nat := rfld (tmrBase n) 28 24 s
/-- The reload buffer and the compare preload (R530). -/
def tmrReload (n : Nat) (s : State) : Nat := reg (tmrBase n + 8) s + rfld (tmrBase n + 0xC) 15 0 s * 2 ^ 32
def tmrPre (n : Nat) (s : State) : Nat := reg (tmrBase n + 0x10) s + rfld (tmrBase n + 0x14) 15 0 s * 2 ^ 32
/-- The prescaler ratio, Q16.16 (R527). -/
def tmrPresc (n : Nat) (s : State) : Nat := reg (tmrBase n + 4) s

/-- The island sleeps (R535). -/
def tmrAsleep (s : State) : Bool := s.tmr.slept.isSome

/-! ### Flags and pins (R531, R532) -/

/-- Sets an event flag of TMRn_STATUS; only a rising flag sends the physical function's vector (R532). -/
def tmrFlag (n b : Nat) (s : State) : State :=
  if bit (reg (tmrBase n + 0x28) s) b then s
  else
    let s1 := setFld (tmrBase n + 0x28) b b 1 s
    if bit (reg (tmrBase n) s) 19 then sendVec 0 (rfld 0x44000 7 0 s) s1 else s1

/-- Sets a flag of TMRn_STATUS that is no event: overrun, late, far, slept. -/
def tmrNote (n b : Nat) (s : State) : State := setFld (tmrBase n + 0x28) b b 1 s

/-- The level an action gives (R531). -/
def pinAct (act : Nat) (level : Bool) : Bool :=
  match act with | 1 => true | 2 => false | 3 => ! level | _ => level

/-- Drives a TMR pin: TMR_PIN.level holds the level driven (R531, R539). -/
def pinSet (p : Nat) (level : Bool) (s : State) : State :=
  emit (.tmrPin p level) (setFld 0x44004 p p (b1 level) s)

/-- What a timer's action does to its pin, when the timer uses it and the pin is enabled (R531). -/
def tmrPinDo (n : Nat) (f : Bool → Bool) (s : State) : State :=
  let p := rfld (tmrBase n) 18 16 s
  let old := bit (reg 0x44004 s) p
  if bit (reg (tmrBase n) s) 15 ∧ bit (reg 0x44004 s) (8 + p) ∧ f old ≠ old then pinSet p (f old) s else s

def tmrMatchAct (n : Nat) (s : State) : Nat := rfld (tmrBase n) 14 13 s
def tmrReloadAct (n : Nat) (s : State) : Nat := rfld (tmrBase n) 12 11 s

/-! ### Counting (R527–R529) -/

/-- Edges and the accumulator they leave: ticks, at most one per edge (R527). [DEDUCED, log 67] -/
def prescale (acc presc edges : Nat) : Nat × Nat :=
  let t := min edges ((acc + edges * 0x10000) / presc)
  (t, acc + edges * 0x10000 - t * presc)

/-- Plain ticks from a count to its next match or reload (R529). -/
def plainTicks (t : TmrSt) : Nat := if t.cmp < t.count then t.count - 1 - t.cmp else t.count

/-- Takes the ticks that neither match nor reload; the rest wait for TIMER_MATCH or TIMER_RELOAD. -/
def takePlain (t : TmrSt) : TmrSt :=
  let k := min t.due (plainTicks t)
  { t with count := t.count - k, due := t.due - k }

/-- Source edges of a timer that counts (R527, R529). -/
def tmrEdges (n edges : Nat) (s : State) : State :=
  if edges = 0 ∨ ! tmrEn n s ∨ tmrMode n s = 2 ∨ tmrPresc n s = 0 then s
  else setTmr n (fun t =>
    let r := prescale t.acc (tmrPresc n s) edges
    takePlain { t with acc := r.2, due := t.due + r.1, dueAt := if t.due = 0 then s.ticks else t.dueAt }) s

/-- The next tick matches (R529). -/
def tmrMatches (t : TmrSt) : Bool := decide (0 < t.due ∧ 0 < t.count ∧ t.count - 1 = t.cmp)

/-- A tick that brings the count to the active compare value (R529, R531, R532). -/
def tmrMatch (n : Nat) (s : State) : State :=
  let a := tmrMatchAct n s
  tmrFlag n 30 (tmrPinDo n (pinAct a) (setTmr n (fun t => takePlain { t with count := t.count - 1, due := t.due - 1 }) s))

/-- A tick at count 0: PERIODIC reloads and takes the compare preload; ONESHOT ends (R528, R529). -/
def tmrReloadTick (n : Nat) (s : State) : State :=
  let a := tmrReloadAct n s
  let s1 :=
    if tmrMode n s = 1 then setFld (tmrBase n) 31 31 0 (setTmr n (fun t => { t with count := 0, due := 0 }) s)
    else setTmr n (fun t => takePlain { t with count := tmrReload n s, cmp := tmrPre n s, due := t.due - 1 }) s
  tmrFlag n 29 (tmrPinDo n (pinAct a) s1)

/-- REFIN's frequency in Hz (R140). -/
def refHz (s : State) : Nat :=
  match rfld 0x12000 1 0 s with | 0 => 10000000 | 1 => 25000000 | 2 => 100000000 | _ => 156250000

/-- Tick interval of a time base's output, ns (R153). -/
def tbTickDiv (b : Nat) (s : State) : Nat := reg (tbBase b + 0x54) s

/-- Edges of a timer's source in one 625 MHz tick that took `a` to `b` (R526). [DEDUCED, log 67] -/
def tickEdges (n : Nat) (refEdge : Bool) (a b : State) : Nat :=
  let src := tmrSrc n b
  if src = 1 then 1
  else if src = 2 then b1 refEdge
  else if src = 3 then b1 (decide (b.ticks % 625 = 0))
  else if 4 ≤ src ∧ src ≤ 11 then
    let d := tbTickDiv (src - 4) b
    if d = 0 then 0 else tbNs (src - 4) b / d - tbNs (src - 4) a / d
  else 0

/-- One 625 MHz tick of the timer unit: the state before the tick and after the time unit's tick (R526). [DEDUCED, log 67] -/
def tmrTick (a b : State) : State :=
  let ph := b.tmr.refPhase + (if b.time.refinPresent then refHz b else 0)
  let edge : Bool := decide (625000000 ≤ ph)
  let away := if tmrAsleep b ∧ ! b.time.refinPresent then b.tmr.refAway + 1 else b.tmr.refAway
  let c := { b with tmr := { b.tmr with refPhase := ph % 625000000, refAway := away } }
  if tmrAsleep b then c
  else (List.range 16).foldl (fun s n => tmrEdges n (tickEdges n edge a b) s) c

/-! ### TIME mode (R534) -/

/-- A TIME timer fires (R534). -/
def tmrFire (n : Nat) (late : Bool) (s : State) : State :=
  let a := tmrMatchAct n s
  let s1 := setFld (tmrBase n) 31 31 0 (setTmr n (fun t => { t with armed := false }) s)
  let s2 := if late then tmrNote n 25 s1 else s1
  tmrFlag n 26 (tmrPinDo n (pinAct a) s2)

/-- Nanoseconds from a TIME timer's target's time base to its target, as a signed difference (R114, R534). -/
def tmrLeft (n : Nat) (s : State) : Int := sdiff (reg (tmrBase n + 0x10) s) (tbNs (rfld (tmrBase n) 23 21 s) s % 2 ^ 32)

/-- The first two tests of R534: far, and at or before the present. [DEDUCED, log 67] -/
def tmrTest (n : Nat) (s : State) : Option State :=
  if tmrLeft n s = -2147483648 then
    some (tmrNote n 24 (setFld (tmrBase n) 31 31 0 (setTmr n (fun t => { t with armed := false }) s)))
  else if tmrLeft n s ≤ 0 then some (tmrFire n true s)
  else none

/-- Arms a TIME timer (R534). [DEDUCED, log 67] -/
def tmrArm (n : Nat) (s : State) : State :=
  match tmrTest n s with
  | some s1 => s1
  | none =>
    if ! (tb (rfld (tmrBase n) 23 21 s) s).valid then tmrFire n true s
    else setTmr n (fun t => { t with armed := true }) s

/-- A forced step of a time base tests every armed timer again (R127, R534). -/
def tmrStep (b : Nat) (s : State) : State :=
  if tmrAsleep s then s
  else (List.range 16).foldl (fun s n =>
    if (tmr n s).armed ∧ rfld (tmrBase n) 23 21 s = b then (tmrTest n s).getD s else s) s

/-- What TMRn_CTL.en going from 0 to 1 does (R527, R529, R534), and from 1 to 0. -/
def tmrCtlEffect (n old new : Nat) (s : State) : State :=
  if bit new 31 ∧ ! bit old 31 then
    let s1 := setTmr n (fun t => { t with acc := 0, due := 0, cmp := tmrPre n s, armed := false }) s
    if bits new 30 29 = 2 then (if tmrAsleep s then setTmr n (fun t => { t with armed := true }) s1 else tmrArm n s1) else s1
  else if ! bit new 31 then setTmr n (fun t => { t with due := 0, armed := false }) s
  else s

/-! ### Sleep (R535) -/

/-- Reloads, matches, the count left, and what they did to the pin's level, of a number of ticks (R529, R535). -/
structure Caught where
  reloads : Nat
  matches_ : Nat
  count : Nat
  cmp : Nat
  pin : Bool → Bool

/-- A pin function applied so many times. -/
def pinRepeat (f : Bool → Bool) (n : Nat) (b : Bool) : Bool := if n = 0 then b else if n % 2 = 1 then f b else f (f b)

/-- Ticks of a PERIODIC or ONESHOT timer in the order R529 gives, without pin actions (R535). [DEDUCED, log 68] -/
def catchUp (oneshot : Bool) (count cmp reload pre ma ra ticks : Nat) : Caught :=
  let m1 : Bool := decide (cmp < count ∧ count - cmp ≤ ticks)
  let f1 : Bool → Bool := if m1 then pinAct ma else id
  if ticks ≤ count then ⟨0, b1 m1, count - ticks, cmp, f1⟩
  else if oneshot then ⟨1, b1 m1, 0, cmp, fun b => pinAct ra (f1 b)⟩
  else
    let r := ticks - count - 1
    let per := r / (reload + 1); let rem := r % (reload + 1)
    let mp : Bool := decide (pre < reload)
    let ml : Bool := mp && decide (reload - pre ≤ rem)
    let fp : Bool → Bool := fun b => pinAct ra (if mp then pinAct ma b else b)
    ⟨1 + per, b1 m1 + per * b1 mp + b1 ml, reload - rem, pre,
      fun b => let x := pinRepeat fp per (pinAct ra (f1 b)); if ml then pinAct ma x else x⟩

/-- Source edges in a sleep of so many microseconds (R535). [DEDUCED, log 68] -/
def sleepEdges (n us : Nat) (s : State) : Nat :=
  let src := tmrSrc n s
  if src = 1 then us * 625
  else if src = 2 then (us - s.tmr.refAway / 625) * refHz s / 1000000
  else if src = 3 then us
  else if 4 ≤ src ∧ src ≤ 11 then (if tbTickDiv (src - 4) s = 0 then 0 else us * 1000 / tbTickDiv (src - 4) s)
  else 0

/-- One running timer at wake (R535). [DEDUCED, log 68] -/
def tmrWake (us : Nat) (s : State) (n : Nat) : State :=
  if ! tmrEn n s then s
  else if tmrMode n s = 2 then
    (if (tmr n s).armed ∧ tmrLeft n s ≤ 0 then tmrFire n true s else s)
  else if bit (reg (tmrBase n) s) 20 ∧ tmrSrc n s < 12 then
    let t := tmr n s
    let p := prescale t.acc (tmrPresc n s) (if tmrPresc n s = 0 then 0 else sleepEdges n us s)
    let c := catchUp (decide (tmrMode n s = 1)) t.count t.cmp (tmrReload n s) (tmrPre n s) (tmrMatchAct n s)
      (tmrReloadAct n s) (t.due + p.1)
    let s1 := setTmr n (fun t => { t with acc := p.2, count := c.count, cmp := c.cmp, due := 0 }) s
    let s2 := if tmrMode n s = 1 ∧ c.reloads = 1 then setFld (tmrBase n) 31 31 0 s1 else s1
    let s3 := setReg (tmrBase n + 0x2C) (min (2 ^ 32 - 1) (reg (tmrBase n + 0x2C) s + c.reloads + c.matches_)) s2
    let s4 := tmrNote n 23 (tmrPinDo n c.pin s3)
    let s5 := if c.matches_ = 0 then s4 else tmrFlag n 30 s4
    if c.reloads = 0 then s5 else tmrFlag n 29 s5
  else tmrNote n 23 s

/-- The island falls asleep or wakes as the mode and sleep_en say; the elapsed time is measured within 2 µs: a free value (R535). [DEDUCED, log 68] -/
def tmrSleepUpdate (s : State) : State :=
  let want : Bool := bit (reg 0x44000 s) 31 && decide (s.mode.current = .vigil)
  match s.tmr.slept, want with
  | none, true => { s with tmr := { s.tmr with slept := some s.ticks, refAway := 0 } }
  | some t, false =>
    let (w, s1) := takeFree s
    let us := ((s.ticks - t) / 625 + w.toNat % 5) - 2
    (List.range 16).foldl (tmrWake us) { s1 with tmr := { s1.tmr with slept := none } }
  | _, _ => s

end Sys2Proof.Machine
end

