-- ==== Sys2Proof/Machine/Ccu.lean ====
section
/-! DEFINITION. The central coincidence unit: conditions, watermarks, occurrences, decisions and trigger accepts (R249–R263). -/

namespace Sys2Proof.Machine

def cond (c : Nat) (s : State) : Cond := mget {} s.trig.conds c
def setCond (c : Nat) (f : Cond → Cond) (s : State) : State :=
  setTrig (fun t => { t with conds := mmod {} t.conds c f }) s
def ccuEn (s : State) : Bool := bit (reg 0x80000 s) 31
def ccuLag (s : State) : Nat := reg 0x80010 s
def ccuNow (b : Nat) (s : State) : Nat := tbNs b s % 2 ^ 32

/-- The same with pips, modulo 2^48 (R114). -/
def ccuNowP (b : Nat) (s : State) : Nat := tbPips b s % 2 ^ 48
/-- Nanoseconds in pips. -/
def nsPips (n : Nat) : Int := (n * 65536 : Nat)
/-- An input's short time with its pips; a TP has none. -/
def inAt (x : CcuInput) : Nat := x.t * 65536 + x.pips

/-! ### Terms (R250, R252) -/

/-- A term counts an input (R250): `qin` tells which QCUs are in. [DEDUCED, log 51] -/
def termCounts (qin : Nat → Bool) (t : Term) (x : CcuInput) : Bool :=
  let local_ : Bool := decide (x.group = 1 ∧ x.cls = t.sel ∧ t.minScore ≤ x.score) && bit t.qmask x.index && qin x.index
  let remote : Bool := decide (x.group = 2 ∧ x.cls = t.sel ∧ t.minScore ≤ x.score)
  match t.src with
  | 1 => local_
  | 2 => remote
  | 3 => local_ || remote
  | 4 => decide (x.group = 4 ∧ x.index = t.sel)
  | 5 => decide (x.group = 5 ∧ x.index = t.sel)
  | 6 => decide (x.group = 6) && bit x.cond t.sel
  | _ => false

/-- A definition takes an input: one of its terms counts it, on its time base; a replaced definition takes veto hits only
(R261). [DEDUCED, log 47] -/
def defTakes (qin : Nat → Bool) (d : CondDef) (x : CcuInput) : Bool :=
  decide (x.tb = d.cfg.tb) && d.cfg.terms.any (fun t => termCounts qin t x && (d.live || t.veto))

/-- The place of an input's group in R253. -/
def groupRank (x : CcuInput) : Nat := match x.group with | 4 => 0 | 5 => 1 | 1 => 2 | _ => 3

/-- Input x stands before y (R253), `now` in pips modulo 2^48. -/
def inputBefore (now : Nat) (x y : CcuInput) : Bool :=
  let a := sdiffP (inAt x) now; let b := sdiffP (inAt y) now
  if a ≠ b then decide (a < b)
  else if groupRank x ≠ groupRank y then decide (groupRank x < groupRank y)
  else if groupRank x = 3 then false else decide (x.index < y.index)

/-- Inserts an input in the order of R253, behind its equals. -/
def inputIns (now : Nat) (x : CcuInput) : List CcuInput → List CcuInput
  | [] => [x]
  | y :: l => if inputBefore now x y then x :: y :: l else y :: inputIns now x l

/-- Distinct streams of hits. -/
def distinctStreams : List Hit → List Nat
  | [] => []
  | h :: l => let r := distinctStreams l
    if r.contains h.stream then r else h.stream :: r

/-- What a term has counted (R252). -/
def termCount (t : Term) (h : List Hit) : Nat := if t.distinct then (distinctStreams h).length else h.length

/-- The terms of a definition with their hits. [DEDUCED, log 51] -/
def termHits (d : CondDef) : List (Term × List Hit) := d.cfg.terms.zipIdx.map (fun e => (e.1, d.hits.getD e.2 []))

/-- Every non-veto term in use is met. -/
def condMet (d : CondDef) : Bool :=
  (termHits d).all (fun e => decide (e.1.src = 0) || e.1.veto || decide (e.1.mult ≤ termCount e.1 e.2))

/-- Drops the hits that have left the window; veto hits stay while an occurrence, pending or to come, can meet them (R252). [DEDUCED, log 47] -/
def condExpire (w : Nat) (d : CondDef) : CondDef :=
  let keepVeto (h : Hit) : Bool :=
    decide (sdiffP w h.t ≤ nsPips (d.cfg.vetoPre + d.cfg.vetoPost))
      || d.pending.any (fun o => decide (sdiffP (inAt o.x) h.t ≤ nsPips d.cfg.vetoPre))
  { d with hits := (termHits d).map (fun e =>
      e.2.filter (fun h => if e.1.veto then keepVeto h else decide (sdiffP w h.t ≤ nsPips d.cfg.window))) }

/-- A mark: the condition may fall, never rise (R252). -/
def condMark (w : Nat) (d : CondDef) : CondDef :=
  let d1 := condExpire w d
  { d1 with sat := d1.sat && condMet d1 }

/-- Inputs the non-veto terms count, for n_hits (R257). -/
def countedHits (d : CondDef) : Nat :=
  ((termHits d).map (fun e => if e.1.veto || decide (e.1.src = 0) then 0 else e.2.length)).sum

/-- One input at a definition (R252): whether it makes an occurrence. `room` tells that a further one can be held. -/
def condInput (qin : Nat → Bool) (room : Bool) (x : CcuInput) (d0 : CondDef) : CondDef × Bool :=
  let d := condMark (inAt x) d0
  let hits := (termHits d).map (fun e =>
    if termCounts qin e.1 x && (d.live || e.1.veto) then ((⟨inAt x, x.stream⟩ : Hit) :: e.2).take 256 else e.2)
  let d1 := condExpire (inAt x) { d with hits := hits }
  if ! d.live then (d1, false)
  else
    let sat := condMet d1
    let rise := sat && ! d.sat
    ({ d1 with sat := sat, pending := if rise && room then d1.pending ++ [⟨x, countedHits d1⟩] else d1.pending }, rise)

/-! ### Watermarks (R255) -/

/-- The marks of the input groups a definition uses, in pips relative to the time base's current time; none for a mark that has not
come. -/
def defMarks (d : CondDef) (s : State) : List (Option Int) :=
  let b := d.cfg.tb; let now := ccuNowP b s
  let used := d.cfg.terms.filter (fun t => decide (t.src ≠ 0))
  let loc : List (Option Int) := (List.range 4).filterMap (fun q =>
    if used.any (fun t => decide (t.src = 1 ∨ t.src = 3) && bit t.qmask q) && qcuIn q s then
      some ((mfind (qcu q s).marks b).map (fun m => sdiffP (m * 65536) now))
    else none)
  let pins : List (Option Int) := if used.any (fun t => decide (t.src = 4 ∨ t.src = 5)) then [some (-nsPips 20)] else []
  let rem : List (Option Int) := if used.any (fun t => decide (t.src = 2 ∨ t.src = 3 ∨ t.src = 6)) then [some (-nsPips (ccuLag s))] else []
  loc ++ pins ++ rem

/-- The watermark of a definition, in pips modulo 2^48: the lowest mark; an input still on its way to the CCU holds it back. None while
a mark is missing. [DEDUCED, log 44] -/
def watermark (d : CondDef) (s : State) : Option Nat :=
  let b := d.cfg.tb; let now := ccuNowP b s
  let way : List (Option Int) := (s.trig.arrivals.filter (fun x => decide (x.tb = b))).map (fun x => some (sdiffP (inAt x) now - 1))
  let l := some 0 :: defMarks d s ++ way
  if l.any Option.isNone then none
  else some (wrapN 48 ((now : Int) + (l.filterMap id).foldl min 0))

/-! ### Trigger accepts (R256–R258) -/

/-- A TA drives the TRIGOUT lines of source TA whose mask it meets (R272, R273). -/
def taPulse (t : Ta) (s : State) : State :=
  (outsOf 2 none s).foldl (fun s n =>
    let m := reg (trigOutBase n + 4) s ||| reg (trigOutBase n + 8) s <<< 32
    let o := trigOut n s
    if t.cond &&& m = 0 then s
    else if o.pulse.isSome ∨ fnow s < o.quiet then
      let c := rfld (trigOutBase n + 0xC) 31 5 s
      setFld (trigOutBase n + 0xC) 31 5 (min (c + 1) (2 ^ 27 - 1)) s
    else
      let w := fns (rfld (trigOutBase n) 15 0 s)
      driveOut n true (setTrigOut n (fun o => { o with pulse := some (fnow s + w), quiet := fnow s + 2 * w }) s)) s

/-- The EVBs that take TAs: those of the quadrants out of reset and powered (R326). -/
def evbUp (q : Nat) (s : State) : Bool := quadUp q s && ! quadGated q s

/-- Holds a TA until every EVB that is up has taken it (R258, R326). [DEDUCED, log 49] -/
def taHold (t : Ta) (imported : Bool) (s : State) : State :=
  let left := (List.range 4).filter (fun q => evbUp q s)
  if left.isEmpty then s else setTrig (fun x => { x with taQueue := x.taQueue ++ [⟨t, imported, left, false⟩] }) s

/-- The TAs held, with the accepts that wait to be issued as one, `but` the one of an input (R258). [DEDUCED, log 49] -/
def taHeld (but : Option Nat) (s : State) : Nat :=
  s.trig.taQueue.length + (s.trig.joined.filter (fun j => decide (some j.x.num ≠ but))).length
/-- [DEDUCED, log 49] -/
def taFull (s : State) (but : Option Nat := none) : Bool := decide (256 ≤ taHeld but s)

/-- CCU_TRIGNO. -/
def trigNo (s : State) : Nat := reg 0x80008 s ||| rfld 0x8000C 15 0 s <<< 32
def setTrigNo (n : Nat) (s : State) : State := setReg 0x8000C (n / 2 ^ 32 % 2 ^ 16) (setReg 0x80008 (n % 2 ^ 32) s)

/-- The first accepted condition of lowest number. -/
def primaryOf : List Accepted → Option Accepted
  | [] => none
  | a :: l => match primaryOf l with
    | some b => if b.cond < a.cond then some b else some a
    | none => some a

/-- Issues the TA of an accepted input (R256, R257, R297). [DEDUCED, log 49] -/
def taIssue (j : Joined) (s : State) : State :=
  match primaryOf j.accepted with
  | none => s
  | some p =>
    let n := trigNo s
    let t : Ta :=
      { trig := n, tb := j.x.tb, system := sysOn s && isArbiter s, device := deviceNum s,
        t := extendNs j.x.t (tbNs j.x.tb s), cond := (j.accepted.map (fun a => 2 ^ a.cond)).foldl (· ||| ·) 0, primary := p.cond,
        profile := p.profile, hits := min 65535 p.hits, pips := if j.x.group = 1 ∨ j.x.group = 2 then 0 else j.x.pips }
    exportTa t (taPulse t (taHold t false (bump (ccuCnt 3) (setTrigNo ((n + 1) % 2 ^ 48) s))))

/-- A condition may still hold an occurrence at an input (R256). [DEDUCED, log 49] -/
def holdsInput (num : Nat) (c : Cond) : Bool :=
  c.defs.any (fun d => d.pending.any (fun o => decide (o.x.num = num))
    || (d.live && d.queue.any (fun x => decide (x.num = num))))

/-- An earlier accept of one of an accept's conditions still waits: TAs of one condition leave in increasing time (R259). [DEDUCED, log 49] -/
def issueBehind (js : List Joined) (j : Joined) : Bool :=
  js.any (fun k =>
    let d := sdiffP (inAt k.x) (inAt j.x)
    (decide (d < 0) || (decide (d = 0) && decide (k.x.num < j.x.num)))
      && k.accepted.any (fun a => j.accepted.any (fun b => decide (a.cond = b.cond))))

/-- The next accept that may be issued: every condition has decided its input, and none of its conditions has an earlier one waiting
(R256, R259). -/
def issueNext (s : State) : Option Joined :=
  s.trig.joined.find? (fun j => ! s.trig.conds.any (fun c => holdsInput j.x.num c.2) && ! issueBehind s.trig.joined j)

/-- Issues the TAs that may be issued (R256, R259). -/
def issueReady (s : State) : State :=
  (List.range s.trig.joined.length).foldl (fun s _ => match issueNext s with
    | none => s
    | some j => taIssue j (setTrig (fun t => { t with joined := t.joined.filter (fun k => decide (k.x.num ≠ j.x.num)) }) s)) s

/-- Joins an accept to the TA of its input (R256). -/
def joinTa (x : CcuInput) (a : Accepted) (s : State) : State :=
  let old := s.trig.joined
  let l := if old.any (fun k => decide (k.x.num = x.num)) then
      old.map (fun k => if k.x.num = x.num then { k with accepted := k.accepted ++ [a] } else k)
    else old ++ [⟨x, [a]⟩]
  setTrig (fun t => { t with joined := l }) s

/-! ### Presenting inputs (R252, R253) -/

/-- Changes one definition of a condition. -/
def setDef (c i : Nat) (f : CondDef → CondDef) (s : State) : State :=
  setCond c (fun x => { x with defs := x.defs.zipIdx.map (fun e => if e.2 = i then f e.1 else e.1) }) s

/-- Pending occurrences of a condition. -/
def pendCount (c : Cond) : Nat := (c.defs.map (fun d => d.pending.length)).sum

/-- Presents the inputs of one definition up to its watermark. -/
def present (c i w : Nat) : Nat → State → State
  | 0, s => s
  | fuel + 1, s =>
    match (cond c s).defs[i]? with
    | none => s
    | some d => match d.queue with
      | [] => s
      | x :: r =>
        if sdiffP w (inAt x) < 0 then s
        else
          let qin (q : Nat) : Bool := qcuIn q s
          let room := decide (pendCount (cond c s) < 16)
          let y := condInput qin room x { d with queue := r }
          let s1 := setDef c i (fun _ => y.1) s
          let s2 := if y.2 then bump (condCnt c 0) (if room then s1 else bump (condCnt c 6) s1) else s1
          present c i w fuel s2

/-- Brings every definition of a condition up to its watermark; has_last ends once the watermark passes last_accept + min_gap (R254). -/
def condRun (s : State) (c : Nat) : State :=
  (List.range (cond c s).defs.length).foldl (fun s i =>
    match (cond c s).defs[i]? with
    | none => s
    | some d => match watermark d s with
      | none => s
      | some w =>
        let s1 := present c i w (d.queue.length + 1) s
        setDef c i (fun d =>
          let d1 := condMark w d
          let isOver : Bool := match d1.last with
            | some l => decide (nsPips d1.cfg.minGap < sdiffP w l)
            | none => false
          { d1 with upTo := some w, last := if isOver then none else d1.last }) s1) s

/-- Every condition up to its watermark. -/
def ccuRun (s : State) : State := (s.trig.conds.map (·.1)).foldl condRun s

/-- The CCU takes an input (R252, R253): those of a time base in its step shadow are discarded (R262). [DESIGN CHOICE, log 42; DEDUCED, log 47] -/
def ccuTake (x : CcuInput) (s : State) : State :=
  let s0 := if x.group = 1 ∨ x.group = 2 then bump (ccuCnt 0) s else s
  if inShadow x.tb s then bump (ccuCnt 2) s0
  else if ! ccuEn s then s0
  else
    let now := ccuNowP x.tb s
    let qin (q : Nat) : Bool := qcuIn q s
    let fresh (y : CcuInput) : Bool := decide (sdiff (ccuNow y.tb s) y.t ≤ 2000000)
    let s1 := setTrig (fun t => { t with
      taken := (t.taken.filter fresh) ++ [x],
      conds := t.conds.map (fun c => (c.1, { c.2 with defs := c.2.defs.map (fun d =>
        if defTakes qin d x then { d with queue := inputIns now x d.queue } else d) })) }) s0
    issueReady (ccuRun s1)

/-! ### Decisions (R254, R263, R297) -/

/-- A line was stuck within a veto window: from pre before a time to post after it (R266). [DEDUCED, log 48] -/
def spanHit (b : Nat) (t : Nat) (pre post : Int) (p : StuckSpan) : Bool :=
  match mfind p.starts b with
  | none => false
  | some a => decide (sdiffP a t ≤ post) && (match p.ends with
    | none => true
    | some (_, e) => (mfind e b).any (fun z => decide (sdiffP t z ≤ pre)))

/-- A veto term has a hit in the veto window of an occurrence, a line that is stuck giving one at every instant (R254, R266).
[DEDUCED, log 48] -/
def vetoHit (d : CondDef) (t : Nat) (s : State) : Bool :=
  let pre := nsPips d.cfg.vetoPre; let post := nsPips d.cfg.vetoPost
  (termHits d).any (fun e => e.1.veto && decide (e.1.src ≠ 0) &&
    (e.2.any (fun h => decide (sdiffP t h.t ≤ pre ∧ sdiffP h.t t ≤ post))
      || (decide (e.1.src = 4) && (trigIn e.1.sel s).spans.any (spanHit d.cfg.tb t pre post))))

/-- Decides the oldest occurrence of a definition (R254). -/
def decideOcc (c i : Nat) (s : State) : State :=
  match (cond c s).defs[i]? with
  | none => s
  | some d => match d.pending with
    | [] => s
    | o :: rest =>
      let set (f : CondDef → CondDef) (s : State) : State := setDef c i (fun d => f { d with pending := rest }) s
      let gapped : Bool := match d.last with
        | some l => decide (sdiffP (inAt o.x) l < nsPips d.cfg.minGap)
        | none => false
      let acc := d.acc + 0x10000
      if vetoHit d (inAt o.x) s then bump (condCnt c 1) (set id s)
      else if gapped then bump (condCnt c 2) (set id s)
      else if acc < d.cfg.prescale then bump (condCnt c 3) (set (fun d => { d with acc := acc }) s)
      else
        let left := acc - d.cfg.prescale
        if taFull s (some o.x.num) then bump (condCnt c 5) (set (fun d => { d with acc := left }) s)
        else if s.mode.current = .safe then bump (condCnt c 7) (set (fun d => { d with acc := left }) s)
        else if sysOn s ∧ isArbiter s ∧ suppressed s then
          bump (sysCnt 15) (set (fun d => { d with acc := left, last := some (inAt o.x) }) s)
        else
          bump (condCnt c 4) (joinTa o.x ⟨c, o.hits, d.cfg.profile⟩
            (set (fun d => { d with acc := left, last := some (inAt o.x) }) s))

/-- The oldest occurrence of a definition may be decided: the watermark has reached its time plus veto_post (R254). -/
def occDue (d : CondDef) (s : State) : Bool :=
  match d.pending, watermark d s with
  | o :: _, some w => decide (nsPips d.cfg.vetoPost ≤ sdiffP w (inAt o.x))
  | _, _ => false

/-- Replaced definitions with nothing left to decide go. [DEDUCED, log 46] -/
def dropOld (c : Nat) (s : State) : State :=
  setCond c (fun x => { x with defs := x.defs.filter (fun d => d.live || ! d.pending.isEmpty) }) s

/-- Index of the definition that holds a condition's oldest pending occurrence, when that one is due: pending occurrences are decided in the
order in which they occurred, those of an older definition first (R254, R261). [DEDUCED, log 46] -/
def dueDef (c : Nat) (s : State) : Option Nat :=
  (((cond c s).defs.zipIdx.find? (fun e => ! e.1.pending.isEmpty)).filter (fun e => occDue e.1 s)).map (·.2)

/-! ### Setting a condition, steps and resets (R261–R263) -/

/-- A definition from its parameters (R254). [DEDUCED, log 46] -/
def newDef (c : CondCfg) : CondDef := { cfg := c, hits := c.terms.map (fun _ => []), acc := c.prescale - 0x10000 }

/-- The definition in force is replaced, or stopped: occurrences already pending keep their old definition (R261). The new one
takes the inputs that the old one has not been presented with. [DEDUCED, log 46] -/
def condReplace (c : Nat) (new : Option CondCfg) (s : State) : State :=
  let s1 := condRun s c
  let qin (q : Nat) : Bool := qcuIn q s1
  let from_ (d : CondDef) : Option Nat :=
    match (cond c s1).defs.find? (fun x => x.live && decide (x.cfg.tb = d.cfg.tb)) with
    | some o => o.upTo
    | none => watermark d s1
  let add : List CondDef := match new with
    | none => []
    | some cfg =>
      let d := newDef cfg
      let now := ccuNowP cfg.tb s1
      let q := s1.trig.taken.filter (fun x => defTakes qin d x && (match from_ d with
        | some w => decide (0 < sdiffP (inAt x) w)
        | none => true))
      [{ d with queue := q.foldl (fun l x => inputIns now x l) [] }]
  let keep (d : CondDef) (y : CcuInput) : Bool := d.cfg.terms.any (fun t => t.veto && termCounts qin t y)
  let old (d : CondDef) : CondDef := { d with live := false, queue := d.queue.filter (keep d) }
  dropOld c (setCond c (fun x => { x with defs := x.defs.map old ++ add }) s1)

/-- A definition after a forced step of its time base (R262). -/
def stepDef (d : CondDef) : CondDef :=
  { d with hits := d.cfg.terms.map (fun _ => []), pending := [], queue := [], sat := false, last := none, upTo := none }

/-- A stuck time after a forced step of a time base: what lies before the step meets no occurrence after it. [DEDUCED, log 48] -/
def spanStep (b now : Nat) (p : StuckSpan) : StuckSpan :=
  match p.ends with
  | none => { p with starts := mput p.starts b now }
  | some (k, e) => { starts := mdel p.starts b, ends := some (k, mdel e b) }

/-- A forced step of a time base at the CCU and the QCUs (R262). -/
def trigStep (b : Nat) (s : State) : State :=
  let s1 := (List.range 4).foldl (fun s q => qcuStep q b s) s
  let s2 := (s1.trig.conds.map (·.1)).foldl (fun s c =>
    let n := (((cond c s).defs.filter (fun d => decide (d.cfg.tb = b))).map (fun d => d.pending.length)).sum
    let upd (d : CondDef) : CondDef := if d.cfg.tb = b then stepDef d else d
    dropOld c (bumpN (condCnt c 7) n (setCond c (fun x => { x with defs := x.defs.map upd }) s))) s1
  let s3 := (List.range 8).foldl (fun s n => setTrigIn n (fun x => { x with spans := x.spans.map (spanStep b (ccuNowP b s)) }) s) s2
  let lost := (s2.trig.taken.filter (fun x => decide (x.tb = b) && s.trig.conds.any (fun c =>
    c.2.defs.any (fun d => d.queue.any (fun y => decide (y.num = x.num)))))).length
  let lags := (List.range 4).filterMap (fun q => if qcuEn q s then some (qcuLag q s) else none)
  let sh := 2 * lags.foldl max (ccuLag s)
  issueReady (bumpN (ccuCnt 2) lost (setTrig (fun t =>
    { t with taken := t.taken.filter (fun x => decide (x.tb ≠ b)), shadow := mput t.shadow b (s.ticks + nsTicks sh) }) s3))

end Sys2Proof.Machine
end

