-- ==== Sys2Proof/Machine/TrigOps.lean ====
section
/-! DEFINITION. TRIGIN lines, the fast path's ends, TRIGOUT pulses and their timed queues (R264–R274). -/

namespace Sys2Proof.Machine

/-! ### TRIGIN (R143, R264–R266) -/

/-- The nearest expected edge's offset, in pips (R143): with period 0 the anchor alone is expected. [DEDUCED, log 54] -/
def nearestEdge (edge anchor period : Int) : Int :=
  let d := edge - anchor
  if period = 0 then d
  else
    let m := d % period
    if period < 2 * m then m - period else m

/-- The phase detector's period and anchor of a time base, in pips (R143, R153). [DEDUCED, log 54] -/
def trigPeriod (b : Nat) (s : State) : Nat := reg (tbBase b + 0x58) s + rfld (tbBase b + 0x5C) 15 0 s * 2 ^ 32
/-- [DEDUCED, log 54] -/
def trigAnchor (b : Nat) (s : State) : Nat := (reg (tbBase b + 0x60) s + reg (tbBase b + 0x64) s * 2 ^ 32) * 65536

/-- A stamped edge at the phase detector of one time base: one in div + 1 goes to the servo (R143). -/
def phaseEdge (n : Nat) (err : Int) (s : State) (b : Nat) : State :=
  if tbSrc b s = 3 ∧ rfld (tbBase b) 23 17 s = n then
    let div := rfld (tbBase b + 0x68) 31 16 s
    if (tb b s).trigDiv < div then setTb b (fun t => { t with trigDiv := t.trigDiv + 1 }) s
    else
      let edge : Int := (tbPips b s : Int) + err
      offerOffset b (nearestEdge edge (trigAnchor b s) (trigPeriod b s)) (tbNs b s) (setTb b (fun t => { t with trigDiv := 0 }) s)
  else s

/-- The capture FIFO takes a stamp; a full FIFO discards it (R265). -/
def capturePush (n stamp : Nat) (s : State) : State :=
  if 64 ≤ (trigIn n s).fifo.length then setFld (trigInBase n + 8) 28 28 1 s
  else setTrigIn n (fun x => { x with fifo := x.fifo ++ [stamp] }) s

/-- The capture path of one rising edge at the filter's output (R265). -/
def captureEdge (n : Nat) (err : Int) (s : State) : State :=
  let gap : Nat := match (trigIn n s).last with
    | some k => nsSince k s
    | none => 2 ^ 32
  if gap < 4 then s
  else if gap < rfld (trigInBase n) 15 0 s then bump (trigInBase n + 0x20) s
  else
    let b := rfld (trigInBase n) 25 23 s
    let s1 := bump (trigInBase n + 0x18) (setTrigIn n (fun x => { x with last := some s.ticks }) s)
    let s2 := (List.range 8).foldl (phaseEdge n err) (ccuOffer 4 n err s1)
    capturePush n (wrapN 80 ((tbPips b s : Int) + err)) s2

/-- A change of level at the filter's output: a rising edge feeds the fast conditions and the capture path unless the line is
stuck (R264–R266). -/
def lineEdge (n : Nat) (err : Int) (high : Bool) (s : State) : State :=
  if (trigIn n s).level = high then s
  else
    let s1 := setTrigIn n (fun x => { x with level := high, since := s.ticks }) s
    if high && ! (trigIn n s).stuck then captureEdge n err (fastEdges n s1) else s1

/-- The present on every time base, in pips modulo 2^48. -/
def stampsNow (s : State) : FMap Nat := (List.range 8).map (fun b => (b, ccuNowP b s))

/-- A line is stuck from now on; times that no occurrence can look back to are forgotten (R266). -/
def stuckOn (n : Nat) (s : State) : State :=
  setTrigIn n (fun x => { x with
    stuck := true
    spans := ⟨stampsNow s, none⟩ :: x.spans.filter (fun p => match p.ends with
      | some (k, _) => decide (s.ticks < k + msTicks 3000)
      | none => true) }) s

/-- It is no longer. -/
def stuckOff (n : Nat) (s : State) : State :=
  setTrigIn n (fun x => { x with
    stuck := false, spans := x.spans.map (fun p => if p.ends.isNone then { p with ends := some (s.ticks, stampsNow s) } else p) }) s

/-- A level that the line's filter takes (R264): at once, or delayed by the minimum width. -/
def lineIn (n : Nat) (err : Int) (active : Bool) (s : State) : State :=
  let fw := rfld (trigInBase n) 29 26 s
  if fw = 0 then lineEdge n err active s
  else setTrigIn n (fun x => { x with filter := x.filter ++ [(fnow s + 10 * fw, active, err)] }) s

/-- The edges that the filter puts out by now (R264). -/
def lineTick (n : Nat) (s : State) : State :=
  let due := (trigIn n s).filter.filter (fun e => decide (e.1 ≤ fnow s))
  if due.isEmpty then s
  else due.foldl (fun s e => lineEdge n (e.2.2 - fastAgo e.1 s) e.2.1 s)
    (setTrigIn n (fun x => { x with filter := x.filter.filter (fun e => decide (fnow s < e.1)) }) s)

/-- The active level that the line's receiver last passed on. -/
def lineLast (x : TrigIn) : Bool := match x.filter.getLast? with | some e => e.2.1 | none => x.level

/-- Whether a level that lasts `len` twentieths of a nanosecond is taken (R264, R268): from 1.0 ns and the filter's width on always, below 0.4 ns
or that width never, between them as a free value says. [DESIGN CHOICE, log 53] -/
def pulseTaken (n len : Nat) (s : State) : Bool × State :=
  let w := 10 * rfld (trigInBase n) 29 26 s
  let slack := if w = 0 then 0 else fastSlack w
  if max 20 (w + slack) ≤ len then (true, s)
  else if len < max 8 (w - slack) then (false, s)
  else let f := takeFree s; (f.1.getLsbD 0, f.2)

/-- The line stays active for stuck_us (R266). [DEDUCED, log 48] -/
def lineStuck (n : Nat) (s : State) : State :=
  let us := rfld (trigInBase n + 4) 19 0 s
  let x := trigIn n s
  if us ≠ 0 ∧ x.level ∧ ! x.stuck ∧ passed x.since (usTicks us) s then
    bump (trigInBase n + 0x28) (setFld (trigInBase n + 8) 29 29 1 (stuckOn n s))
  else s

/-- A stuck line has been inactive for 1 µs (R266). -/
def lineUnstuck (n : Nat) (s : State) : State :=
  let x := trigIn n s
  if x.stuck ∧ ! x.level ∧ passed x.since (usTicks 1) s then stuckOff n s else s

/-! ### The fast path's ends (R267–R269) -/

/-- A stretched pulse of an input ends (R267). -/
def stretchEnd (k inp : Nat) (veto : Bool) (s : State) : State :=
  let s0 := fastAdvance k s
  let f := fast k s0
  match mfind (if veto then f.veto else f.req) inp with
  | some stop =>
    if fastTol stop (fastLen k veto s) ≤ fnow s then
      setFast k (fun f => if veto then { f with veto := mdel f.veto inp } else { f with req := mdel f.req inp }) s0
    else s
  | none => s

/-- The output width or the dead time ends (R269). -/
def outputEnd (k : Nat) (s : State) : State :=
  let f := fast k s
  match f.out, f.dead with
  | some stop, _ => if fastTol stop (fastWidth k s) ≤ fnow s then fastLow k (fnow s) s else s
  | none, some stop => if fastTol stop (fastDead k s) ≤ fnow s then setFast k (fun f => { f with dead := none }) s else s
  | none, none => s

/-- Nothing of a fast condition is active: its tracking loop may move a tap (R268). -/
def fastIdle (k : Nat) (s : State) : Bool :=
  let f := fast k s
  f.req.isEmpty && f.veto.isEmpty && f.out.isNone

/-! ### TRIGOUT (R272, R273) -/

/-- A TRIGOUT line carries a pulse: its own, or that of its fast condition. -/
def outBusy (n : Nat) (s : State) : Bool :=
  (trigOut n s).pulse.isSome
    || (decide (rfld (trigOutBase n) 29 27 s = 1) && (fast (rfld (trigOutBase n) 26 24 s) s).out.isSome)

/-- Starts a TIMED pulse. -/
def outPulse (n : Nat) (s : State) : State :=
  let w := fns (rfld (trigOutBase n) 15 0 s)
  driveOut n true (setTrigOut n (fun o => { o with pulse := some (fnow s + w), quiet := fnow s + 2 * w }) s)

/-- A TA or TIMED pulse falls. -/
def pulseLow (n : Nat) (s : State) : State := driveOut n false (setTrigOut n (fun o => { o with pulse := none }) s)

/-- A TA or TIMED pulse ends (R273). -/
def pulseEnd (n : Nat) (s : State) : State :=
  match (trigOut n s).pulse with
  | some stop => if fastTol stop (fns (rfld (trigOutBase n) 15 0 s)) ≤ fnow s then pulseLow n s else s
  | none => s

/-- One that is past its latest time by now has ended (R268). [DEDUCED, log 43] -/
def pulseExpire (n : Nat) (s : State) : State :=
  match (trigOut n s).pulse with
  | some stop => if fastPast stop (fns (rfld (trigOutBase n) 15 0 s)) s then pulseLow n s else s
  | none => s

/-- One tick of TRIGIO: filtered edges come out, delayed pulses start, and what is past its time ends (R264, R267–R269, R273). -/
def trigTick (s : State) : State :=
  let s1 := (List.range 8).foldl (fun s n => lineTick n s) s
  let s2 := (List.range 8).foldl (fun s k => fastExpire k (fastAdvance k s)) s1
  (List.range 8).foldl (fun s n => pulseExpire n s) s2

/-- Removes an entry of a TIMED queue by its command. -/
def outDrop (n jseq : Nat) (s : State) : State :=
  setTrigOut n (fun o => { o with queue := o.queue.filter (fun l => l.src.jseq != jseq) }) s

/-- The late policy at an entry of a TIMED queue (R152, R273). -/
def outLate (n : Nat) (l : Launch) (s : State) : State :=
  if l.sendLate then
    setTrigOut n (fun o => { o with queue := o.queue.map (fun y => if y.src.jseq = l.src.jseq then { y with late := true } else y) }) s
  else complete l.src .late 0 (outDrop n l.src.jseq s)

/-- An entry's pulse rises and its command completes with the start (R152, R273, R400). [DEDUCED, log 55] -/
def outSent (n : Nat) (l : Launch) (start : Nat) (s : State) : State :=
  completeWith l.src .ok (start / 65536) (start % 65536) l.late false (outPulse n (outDrop n l.src.jseq s))

/-- An entry of a TIMED queue falls due (R273): one that falls due during a pulse is late; a late entry under SEND_LATE rises as
soon as the line is free. [DEDUCED, log 55] -/
def outDue (n : Nat) (err : Int) (s : State) : State :=
  match launchReady (trigOut n s).queue s with
  | none => s
  | some l =>
    if l.late then (if outBusy n s then s else outSent n l (tbPips l.tb s) s)
    else if outBusy n s then outLate n l s
    else outSent n l (wrapN 80 ((launchPips l : Int) + err)) s

/-- Re-evaluates the entries of a TIMED queue on a stepped time base (R127), and sorts it anew (R102, R273). -/
def outStep (b n : Nat) (s : State) : State :=
  let s1 := (trigOut n s).queue.foldl (fun s l =>
    if l.tb ≠ b ∨ l.late then s
    else if launchLeft l s ≤ 0 then outLate n l s
    else if farNs * 65536 < launchLeft l s then complete l.src .tooFar 0 (outDrop n l.src.jseq s)
    else s) s
  if (trigOut n s1).queue.any (fun l => decide (l.tb = b)) then
    setTrigOut n (fun o => { o with queue := launchSort s1 o.queue }) s1
  else s1

/-- Empties a TIMED queue: every entry completes with ABORTED (R274). -/
def outAbort (n : Nat) (s : State) : State :=
  (trigOut n s).queue.foldl (fun s l => complete l.src .aborted 0 s) (setTrigOut n (fun o => { o with queue := [] }) s)

end Sys2Proof.Machine
end

