-- ==== Sys2Proof/Machine/StepHooks.lean ====
section
/-! DEFINITION. What a forced step of a time base does to everything that depends on it (R127). -/

namespace Sys2Proof.Machine

/-- PPSOUT, synthesizers and launch entries after a forced step (R127, R146). -/
def stepTimeUnit (n : Nat) (s : State) : State :=
  (List.range 128).foldl (fun s p => launchStep n p s)
    (synRelockAll (fun m => decide (rfld (synBase m) 30 28 s = n)) s)

/-- Fences that wait for a time of the stepped time base (R377): one now too far ahead completes with TOO_FAR and stops its ring;
one now in the past is satisfied. [DEDUCED, log 137] -/
def fenceStep (n : Nat) (s : State) : State :=
  fences (s.jrnl.inflight.foldl (fun s p => match p.wait with
    | .fence mask _ b time =>
      if bit mask 3 ∧ b = n ∧ tbNs n s + 2147483647 < time then
        let s1 := complete p.src .tooFar 0 s
        if (fn p.src.func s1).epoch = p.src.epoch then stopRing p.src.func p.src.ring .tooFar s1 else s1
      else s
    | _ => s) s)

/-- Everything that depends on a stepped time base (R127, R171, R262, R273, R377, R534). -/
def stepDependants (n : Nat) (s : State) : State :=
  tmrStep n (fenceStep n (wakeStep n (trigStep n
    ((List.range 8).foldl (fun s l => outStep n l s) (stepTimeUnit n s)))))

end Sys2Proof.Machine
end

