-- ==== Sys2Proof/WellFormed.lean ====
section
/-! DEFINITION. Well-formed commands: the bounds of operands that their types do not carry. -/

namespace Sys2Proof

/-- A measurement error of at most so many pips (R139). -/
def errWithin (bound : Nat) (err : Int) : Bool := decide (err.natAbs ≤ bound)

/-- 0.8 ns, 0.5 ns and 1.0 ns in whole pips of 2^-16 ns (R139). -/
def stampErr : Nat := 52428
def edgeErr : Nat := 32768
def launchErr : Nat := 65536

/-- The fields of an Announce fit IEEE 1588's (R128). -/
def announceWf (a : Announce) : Bool :=
  decide (a.priority1 < 256 ∧ a.clockClass < 256 ∧ a.accuracy < 256 ∧ a.variance < 65536 ∧ a.priority2 < 256 ∧ a.gmId < 2 ^ 64
    ∧ a.stepsRemoved < 65536 ∧ a.sender < 2 ^ 80 ∧ a.utcOffset < 65536 ∧ a.flags < 64 ∧ a.timeSource < 256)

/-- A PTP message's fields fit IEEE 1588's (R110, R128). -/
def ptpMsgWf (m : PtpMsg) : Bool :=
  decide (m.seq < 65536 ∧ m.sec < 2 ^ 48 ∧ m.nsec < 10 ^ 9 ∧ -(2 ^ 63) ≤ m.corr ∧ m.corr < 2 ^ 63 ∧ m.sender < 2 ^ 80
    ∧ m.domain < 256 ∧ m.sdo < 4096 ∧ m.req < 2 ^ 80)
    && (match m.ann with | some a => announceWf a | none => true)

/-- The slots named together lie on distinct places of the doorbell page (R356). -/
def wordsWf (l : List (Fin 193 × BitVec 64)) : Bool := decide ((l.map (fun w => w.1)).Nodup)

/-- A command's operands keep what the spec says of the event: stamp errors of R139, distinct doorbell words, sensors in a signed byte (R513),
a link of R345, a whole pair or a DW in BAR2's 64 KiB. Every other operand is bounded by its type, or may have any value. -/
def Instr.wf : Instr → Bool
  | .frameReceive _ f => errWithin stampErr f.stampErr
  | .portTxSelect _ err => errWithin stampErr err
  | .launchDue _ err => errWithin launchErr err
  | .ptpSyncReceive _ m err _ => ptpMsgWf m && errWithin stampErr err
  | .ptpDelayReqReceive _ m err _ => ptpMsgWf m && errWithin stampErr err
  | .ptpPdelayReqReceive _ m err _ => ptpMsgWf m && errWithin stampErr err
  | .ptpPdelayRespReceive _ m err _ => ptpMsgWf m && errWithin stampErr err
  | .ptpFollowUpReceive _ m _ => ptpMsgWf m
  | .ptpDelayRespReceive _ m _ => ptpMsgWf m
  | .ptpAnnounceReceive _ m _ => ptpMsgWf m
  | .ppsinEdge err => errWithin edgeErr err
  | .triginEdge _ err _ => errWithin edgeErr err
  | .trigoutLaunchDue _ err => errWithin edgeErr err
  | .doorbellPoll _ w => wordsWf w
  | .doorbellInvalidate _ line w => wordsWf w && w.all (fun x => decide (x.1.val / 8 = line.val))
  | .nudge _ w => wordsWf w
  | .fenceExec _ w => wordsWf w
  | .fenceFunc _ w => wordsWf w
  | .fenceData _ w => wordsWf w
  | .fenceTime _ w => wordsWf w
  | .dmaReadFault _ slots => decide slots.Nodup
  | .thermalTrip t => decide (-128 ≤ t ∧ t ≤ 127)
  | .thermalTripRelease t => decide (-128 ≤ t ∧ t ≤ 127)
  | .thermalWarning l => decide (l.length = 5) && l.all (fun t => decide (-128 ≤ t ∧ t ≤ 127))
  | .hostLinkUp gen width flit _ _ _ _ =>
    decide (3 ≤ gen ∧ gen ≤ 6) && [1, 2, 4, 8, 16].contains width && (flit || decide (gen ≠ 6))
  | .registerWrite _ bar2 ofs _ _ => ! bar2 || decide (ofs.toNat < 65536)
  | .loReadLatch _ bar2 ofs n => decide (1 ≤ n.val) && (! bar2 || decide (ofs.toNat + 4 * n.val ≤ 65536))
  | _ => true

end Sys2Proof
end

