-- ==== Sys2Proof/Machine/Time.lean ====
section
/-! DEFINITION. The meanings of the time commands and events: offsets, steps, holdover, references, PPS, synthesizers, launches
(04_time_bases.md). -/

namespace Sys2Proof.Machine

/-! ### TB_OFFSET (R120) -/

/-- The offset field pair of TB_OFFSET and TB_STEP: signed ns and an unsigned fraction that always adds, in pips (R120, R125). -/
def fieldPips (ns pips : Nat) : Int := sgn 64 ns * 65536 + pips

/-- TB_OFFSET's generic checks. -/
def specTbOffset (d : Desc) : CmdSpec :=
  { op := 0x42, group := some 3, namesTb0 := decide (bf d 16 2 0 = 0),
    fields := [(16, 2, 0), (20, 31, 16), (24, 63, 0), (32, 63, 0)] }

/-- Milliseconds of a time base's holdover timeout, in ns (R124). -/
def holdNs (n : Nat) (s : State) : Nat := rfld (tbBase n + 0x24) 15 0 s * 1000000

/-- An offset measured before a forced step and applied after it (R126): its age exceeds the time since the step. -/
def beforeStep (n t : Nat) (s : State) : Bool :=
  match (tb n s).stepTick with
  | some k => decide (nsSince k s < tbNs n s - t)
  | none => false

/-- TB_OFFSET's own acceptance checks (R120); one measured before a forced step is discarded, not refused (R126). -/
def ownTbOffset (d : Desc) (s : State) : Status :=
  let n := bf d 16 2 0; let t := bf d 32 63 0
  if tbSrc n s ≠ 4 then .range
  else if tbNs n s < t ∨ holdNs n s < tbNs n s - t then .range
  else if jumps n (fieldPips (bf d 24 63 0) (bf d 20 31 16)) s ∧ ! beforeStep n t s then .jumpRefused
  else .ok

/-- TB_OFFSET (R120): the offset goes to the servo; one measured before a forced step is discarded (R126). [DEDUCED, log 14] -/
def execTbOffset (d : Desc) (s : State) : Host.Outcome State Fault Refusal :=
  let n := bf d 16 2 0; let o := fieldPips (bf d 24 63 0) (bf d 20 31 16); let t := bf d 32 63 0
  .next (serve (specTbOffset d) d (ownTbOffset d)
    (fun src s => complete src .ok 0 (if beforeStep n t s then s else offerOffset n o t s)) s
    (fun st s => if st = .jumpRefused then refuseOffset n o t s else s))

/-! ### TB_STEP (R125–R127) -/

/-- TB_STEP's generic checks: modes 4 to 7 are reserved, and MEASURED takes no amount (R125, R389). -/
def specTbStep (mode : Nat) (d : Desc) : CmdSpec :=
  { op := 0x41, group := some 3, objs := [⟨7, bf d 16 2 0⟩], namesTb0 := decide (bf d 16 2 0 = 0),
    fields := [(16, 7, 4), (16, 2, 0), (20, 31, 16), (24, 63, 0)],
    badEnc := decide (4 ≤ bf d 16 6 4) || decide (mode = 3 ∧ (bf d 24 63 0 ≠ 0 ∨ bf d 20 31 16 ≠ 0)) }

/-- Serves a TB_STEP descriptor whose mode field is the row's, SLEW's row also the reserved modes; another descriptor is not this
row's. A force flag that does not match the mode is refused with RSVD_FIELD by the command's own check (R125, R394). [DEDUCED, log 14] -/
def serveStep (mode : Nat) (d : Desc) (own : State → Status) (run : Src → State → State) (s : State)
    (rej : Status → State → State := fun _ s => s) : State :=
  if bf d 16 6 4 = mode ∨ (mode = 0 ∧ 4 ≤ bf d 16 6 4) then
    serve (specTbStep mode d) d (fun s => if bf d 16 7 7 ≠ (if mode = 0 then 0 else 1) then .rsvdField else own s) run s rej
  else s

/-- A Sync that waits for its Follow_Up was measured before a forced step of its time base: its offset is discarded (R126). -/
def syncDiscard (n : Nat) (s : State) : State :=
  setTime (fun t => { t with ptps := t.ptps.map (fun e => (e.1, if ptpTb e.1 s = n then { e.2 with sync := none } else e.2)) }) s

/-- A forced step at one tick: the new count, the servo to ACQUIRING or still FREE with i unchanged, the holdover timer
restarted, the time base valid, TBn_STEPS counted, and the dependants (R113, R125–R127). [DESIGN CHOICE, log 21] -/
def stepApply (n : Nat) (f : TbSt → TbSt) (s : State) : State :=
  stepDependants n (syncDiscard n (setTb n (fun t =>
    let t := f t
    { t with
      servo := if tbSrc n s = 0 then .free else .acquiring
      run := 0, holdFrom := s.ticks, valid := true, stepTick := some s.ticks,
      steps := (t.steps + 1) % 2 ^ 32 }) s))

/-- TB_STEP SLEW (R125): refused with RANGE when the source is NONE, and by the jump limit. -/
def ownSlew (d : Desc) (s : State) : Status :=
  if tbSrc (bf d 16 2 0) s = 0 then .range
  else if jumps (bf d 16 2 0) (fieldPips (bf d 24 63 0) (bf d 20 31 16)) s then .jumpRefused
  else .ok

/-- TB_STEP SLEW (R125): one measurement for the servo. TBn_STEPS counts forced steps (R153), so it stays. [DESIGN CHOICE, log 148] -/
def execTbStepSlew (d : Desc) (s : State) : Host.Outcome State Fault Refusal :=
  let n := bf d 16 2 0; let o := fieldPips (bf d 24 63 0) (bf d 20 31 16)
  .next (serveStep 0 d (ownSlew d)
    (fun src s => complete src .ok 0 (offerOffset n o (tbNs n s) s)) s
    (fun st s => if st = .jumpRefused then refuseOffset n o (tbNs n s) s else s))

/-- TB_STEP RELATIVE (R125): the count changes by amount + pips / 65,536 ns. -/
def execTbStepRelative (d : Desc) (s : State) : Host.Outcome State Fault Refusal :=
  .next (serveStep 1 d (fun _ => .ok)
    (fun src s => complete src .ok 0
      (stepApply (bf d 16 2 0) (addCount (fieldPips (bf d 24 63 0) (bf d 20 31 16) * 2 ^ 32)) s)) s)

/-- TB_STEP ABSOLUTE (R125): the count is set to ns and pips. -/
def execTbStepAbsolute (d : Desc) (s : State) : Host.Outcome State Fault Refusal :=
  .next (serveStep 2 d (fun _ => .ok)
    (fun src s => complete src .ok 0
      (stepApply (bf d 16 2 0) (fun t => { t with ns := bf d 24 63 0, frac := bf d 20 31 16 * 65536, resid := 0 }) s)) s)

/-- TB_STEP MEASURED is refused with RANGE when no offset is held or it was measured more than 2,000 ms ago (R125). -/
def ownMeasured (d : Desc) (s : State) : Status :=
  let t := tb (bf d 16 2 0) s
  if t.held ∧ (s.ticks : Int) ≤ t.ofsTick + msTicks 2000 then .ok else .range

/-- TB_STEP MEASURED (R125): the count changes by the negative of the held offset. -/
def execTbStepMeasured (d : Desc) (s : State) : Host.Outcome State Fault Refusal :=
  .next (serveStep 3 d (ownMeasured d)
    (fun src s => complete src .ok 0
      (stepApply (bf d 16 2 0) (addCount (-((tb (bf d 16 2 0) s).ofs) * 2 ^ 32)) s)) s)

/-! ### Holdover and references -/

/-- HOLDOVER_TIMEOUT (R124): no offset accepted for TBn_HOLD_TIMEOUT. -/
def execHoldoverTimeout (n : Fin 8) (s : State) : Host.Outcome State Fault Refusal :=
  let t := tb n s
  .next (if (t.servo = .acquiring ∨ t.servo = .locked) ∧ passed t.holdFrom (msTicks (rfld (tbBase n + 0x24) 15 0 s)) s then
    setTb n enterHoldover s else s)

/-- Lane 0 of a port is gone while its time base runs on the recovered clock: l1_lost is set (R136, R153). -/
def l1Lost (p : Nat) (s : State) : State :=
  let n := ptpTb p s
  if (tb n s).l1.isSome ∧ receiverPort n s = some p then setTb n (fun t => { t with l1Lost := true }) s else s

/-- LANE0_LOCK_LOSS (R136): lane 0 of a port loses lock; its time base returns to the servo frequency and sets l1_lost. -/
def execLane0LockLoss (p : Fin 128) (s : State) : Host.Outcome State Fault Refusal :=
  .next (l1Update (ptpTb p s) (l1Lost p (setPort p (fun x => { x with laneLock := x.laneLock - x.laneLock % 2 }) s)))

/-- REFIN_LOSS (R141): the PLL holds; every LOCKED or ACQUIRING time base enters HOLDOVER. -/
def execRefinLoss (s : State) : Host.Outcome State Fault Refusal :=
  if s.time.refinPresent then
    let s1 := setTime (fun t => { t with refinPresent := false, pllLock := false, refinLost := true }) s
    .next ((List.range 8).foldl (fun s n =>
      if (tb n s).servo = .locked ∨ (tb n s).servo = .acquiring then setTb n enterHoldover s else s) s1)
  else .next s

/-- PLL_RELOCK (R141, R146): REFIN is back and the PLL locked; enabled synthesizers relock. -/
def execPllRelock (s : State) : Host.Outcome State Fault Refusal :=
  if s.time.running ∧ ! s.time.pllLock then
    .next (synRelockAll (fun _ => true) (setTime (fun t => { t with refinPresent := true, pllLock := true }) s))
  else .next s

/-! ### PPS (R142, R144) -/

/-- 10^9 ns in pips. -/
def secPips : Nat := 65536000000000

/-- A time folded into −5 × 10^8 to +5 × 10^8 ns, in pips (R142). -/
def foldSecond (t : Int) : Int :=
  let m := t % secPips
  if (secPips : Int) / 2 < m then m - secPips else m

/-- PPSIN_EDGE (R142): an edge, with the error of its measurement, gives every PPSIN time base its phase offset; one less
than 500 ms after the last is ignored and counted, the count saturating (R154). -/
def execPpsinEdge (err : Int) (s : State) : Host.Outcome State Fault Refusal :=
  if ! s.time.running then .next s
  else if (match s.time.ppsIn with | some k => ! passed k (msTicks 500) s | none => false) then
    .next (setTime (fun t => { t with ppsIgnored := min 65535 (t.ppsIgnored + 1) }) s)
  else
    let s1 := setTime (fun t => { t with ppsIn := some s.ticks, ppsEdges := (t.ppsEdges + 1) % 65536 }) s
    .next ((List.range 8).foldl (fun s n =>
      if tbSrc n s = 2 then
        offerOffset n (foldSecond (tbPips n s + err - sgn 32 (reg 0x12404 s) * 65536)) (tbNs n s) s
      else s) s1)

/-- A free value as an edge's error in pips, within the 0.5 ns of R139. -/
def edgeError (w : BitVec 64) : Int := ((w.toNat % (2 * edgeErr + 1) : Nat) : Int) - (edgeErr : Int)

/-- PPSOUT_PULSE (R144): a whole second of out_tb, advanced by TIME_PPS_OUT_COMP, at least 500 ms after the last rise; the edge's error
of R139 is free. -/
def execPpsoutPulse (s : State) : Host.Outcome State Fault Refusal :=
  let c := reg 0x12400 s
  let t : Int := ((tbNs (bits c 30 28) s : Nat) : Int) + sgn 32 (reg 0x12408 s)
  let due : Bool := decide (t % 1000000000 < 2)
  let spaced : Bool := match s.time.ppsRise with | some k => passed k (msTicks 500) s | none => true
  if s.time.running ∧ bit c 31 ∧ due ∧ spaced ∧ ! s.time.ppsOut then
    let (w, s1) := takeFree s
    .next (emit (.pps true ((t / 1000000000 * 1000000000 - sgn 32 (reg 0x12408 s)) * 65536 + edgeError w))
      (setTime (fun t => { t with ppsOut := true, ppsRise := some s.ticks }) s1))
  else .next s

/-- PPSOUT_PULSE_END (R144): width_us after the rise. -/
def execPpsoutPulseEnd (s : State) : Host.Outcome State Fault Refusal :=
  let isOver : Bool := match s.time.ppsRise with | some k => passed k (usTicks (rfld 0x12400 18 0 s)) s | none => false
  if s.time.ppsOut ∧ isOver then
    .next (emit (.pps false (tbPips (rfld 0x12400 30 28 s) s)) (setTime (fun t => { t with ppsOut := false }) s))
  else .next s

/-! ### Synthesizers -/

/-- SYN_RELOCK_DONE (R148): lock and 100 µs of settle are over; the A0 gate begins (R147). -/
def execSynRelockDone (m : Fin 4) (s : State) : Host.Outcome State Fault Refusal :=
  if (syn m s).stage = .relock ∧ passed (syn m s).since (usTicks 100) s then
    .next (setSyn m (fun y => { y with stage := .gate, since := s.ticks, locked := true }) s)
  else .next s

/-- SYN_GATE_RELEASE (R145–R148): the A0 gate lasts three periods of the new frequency; at least one new period after it opens, the output
rises at an aligned edge. -/
def execSynGateRelease (m : Fin 4) (s : State) : Host.Outcome State Fault Refusal :=
  let y := syn m s
  let now : Int := tbPips (synTb m s) s
  let past := (now - y.phase) % y.period
  if y.stage = .gate ∧ passed y.since (nsTicks (4 * y.period / 65536)) s ∧ past < 131072 then
    .next (synRise m (now - past) (setSyn m (fun y => { y with stage := .idle, since := s.ticks, gated := false }) s))
  else .next s

/-! ### Launches and the transmit side (R101–R103, R149–R152) -/

/-- The mode powers a port (R43): in Vigil, and in Safe entered from it (R54), only the Vigil set. -/
def portPowered (p : Nat) (s : State) : Bool :=
  decide (s.mode.current ≠ .bringup)
    && (! vigilOnly s || (decide (s.mode.vigilQ = p / 32) && bit s.mode.vigilPorts (p % 32)))

/-- LAUNCH's generic checks (R389). -/
def specLaunch (d : Desc) (data : Option (List Byte)) : CmdSpec :=
  let kind := bf d 16 31 31
  { op := 0x43, group := some 3, namesTb0 := decide (bf d 16 26 24 = 0),
    objs := [⟨11, if kind = 0 then bf d 16 6 0 else 128 + bf d 16 2 0⟩],
    fields := [(16, 31, 31), (16, 29, 28), (16, 26, 24), (16, 6, 0), (20, 31, 16), (24, 63, 0), (32, 63, 0), (40, 13, 0)],
    badEnc := decide (2 ≤ bf d 16 29 28) || (decide (kind = 1) &&
      decide (bf d 16 6 3 ≠ 0 ∨ bf d 32 63 0 ≠ 0 ∨ bf d 40 13 0 ≠ 0)),
    dataCrc := match data with | some l => crc32c (l.map (·.toNat)) | none => 0, wait := .launch }

/-- LAUNCH's own checks for a port frame: TOO_FAR, NO_RESOURCE, RANGE, and MODE for a port the mode has off (R53, R102, R149,
R394). -/
def ownLaunchFrame (d : Desc) (s : State) : Status :=
  let p := bf d 16 6 0
  if farNs * 65536 < ((bf d 24 63 0 * 65536 + bf d 20 31 16 : Nat) : Int) - tbPips (bf d 16 26 24) s then .tooFar
  else if 64 ≤ (port p s).launchQ.length then .noResource
  else if bf d 40 13 0 < 60 ∨ rfld (portBase p + 0x28) 13 0 s < bf d 40 13 0 + 4 then .range
  else if ! portPowered p s then .mode
  else .ok

/-- LAUNCH of a port frame (R149): queued; at or before the current time its late policy applies at once; a failed read of
the frame completes with FAULT (R382). -/
def execLaunchFrame (d : Desc) (data : Option (List Byte)) (s : State) : Host.Outcome State Fault Refusal :=
  let p := bf d 16 6 0
  if bf d 16 31 31 = 0 then
    .next (serve (specLaunch d data) d (ownLaunchFrame d)
      (fun src s => match data with
        | none => complete src .fault 0 s
        | some l =>
          let e : Launch := { time := ⟨bf d 24 63 0, bf d 20 31 16⟩, tb := bf d 16 26 24,
                              sendLate := decide (bf d 16 29 28 = 1), late := false,
                              frame := (l.map (·.toNat)).take (bf d 40 13 0), src := src }
          let s1 := setPort p (fun x => { x with launchQ := launchInsert e s x.launchQ }) s
          if launchLeft e s ≤ 0 then launchLate p e s1 else s1) s)
  else .next s

/-- The start of a launch entry is reported in ns and pips and its command completes (R152, R400). -/
def launchSent (p : Nat) (l : Launch) (start : Nat) (s : State) : State :=
  completeWith l.src .ok (start / 65536) (start % 65536) l.late false
    (sendFrame p l.frame (launchDrop p l.src.jseq s))

/-- LAUNCH_DUE (R101, R102, R149, R150): the first entry of the queue that has fallen due starts, within the accuracy of R139; a late
entry under SEND_LATE starts as soon as the port can. -/
def execLaunchDue (p : Fin 128) (err : Int) (s : State) : Host.Outcome State Fault Refusal :=
  match launchReady (port p s).launchQ s with
  | none => .next s
  | some l =>
    if canTx p s then
      .next (launchSent p l (if l.late then tbPips l.tb s else wrapN 80 ((launchPips l : Int) + err)) s)
    else .next s

/-- An entry that has not started by its launch time plus 2 ns (R150). -/
def launchMissed (q : List Launch) (s : State) : Option Launch :=
  q.find? (fun l => ! l.late && decide (launchLeft l s < -131072))

/-- LAUNCH_LATE (R150, R273): the first such entry of a queue, ports 0 to 127 and TRIGOUT lines from 128; its late policy applies. -/
def execLaunchLate (p : Fin 136) (s : State) : Host.Outcome State Fault Refusal :=
  if p.val < 128 then
    match launchMissed (port p s).launchQ s with
    | some l => .next (launchLate p l s)
    | none => .next s
  else
    match launchMissed (trigOut (p.val - 128) s).queue s with
    | some l => .next (outLate (p.val - 128) l s)
    | none => .next s

/-- The priority class of a waiting item (R101). -/
def txClass : TxItem → Nat
  | .ptp _ => 0 | .gcm _ => 1 | .reply _ => 2 | .event _ _ => 3

/-- Bytes of a waiting item without its FCS, for the line time and the launch-clear test (R101). -/
def txLen (p : Nat) (x : TxItem) (s : State) : Nat :=
  match x with
  | .ptp m => ptpFrameLen p m s
  | .gcm g => g.bytes.length | .reply b => b.length | .event _ b => b.length

/-- The first item of the lowest class, with the queue's rest. -/
def txPick : List TxItem → Option (TxItem × List TxItem)
  | [] => none
  | x :: q => match txPick q with
    | some (y, r) => if txClass y < txClass x then some (y, x :: r) else some (x, q)
    | none => some (x, q)

/-- What a PTP message holds as it leaves at a stamp (R133): a one-step Sync its departure, a one-step Pdelay_Resp its turnaround. -/
def ptpFill (m : PtpMsg) (stamp : Int) : PtpMsg :=
  match m.type with
  | .sync => if m.twoStep then m else ptpStamped m stamp false
  | .pdelayResp => if m.twoStep then m else { m with sec := 0, nsec := 0, corr := m.corr + stamp - ptpStamp m }
  | _ => m

/-- A PTP message leaves: its frame, over UDP with the checksum of what it then holds, and its stamp (R130, R133). A two-step Sync or
Pdelay_Resp keeps its stamp queue entry until its Follow_Up; a delay request hands its departure to the offset calculator and frees its
entry at once. The destination MAC and the network header fields over UDP are free values. [PRESUMED, log 15] -/
def ptpSent (p : Nat) (m : PtpMsg) (stamp : Int) (s0 : State) : State :=
  let udp := decide (ptpTransport p s0 ≠ 0)
  let a := if udp then takeFree s0 else (0, s0)
  let b := if udp then takeFree a.2 else (0, s0)
  let s := b.2
  let out := ptpFill m stamp
  let s1 := emit (.ptp p out (ptpFrameOf p out (a.1.toNat % 2 ^ 48) b.1.toNat s) stamp) s
  match m.type with
  | .sync | .pdelayResp => if m.twoStep then setPtp p (fun x => { x with stamps := x.stamps ++ [(m, stamp)] }) s1 else s1
  | .delayReq | .pdelayReq => setPtp p (fun x => { x with req := some (m.seq, stamp) }) s1
  | _ => s1

/-- An event message waits until a stamp queue entry is free: in two-step mode each takes one (R133). -/
def txHeld (p : Nat) (x : TxItem) (s : State) : Bool :=
  match x with
  | .ptp m => (m.twoStep || (ptpEvent m.type && ptpTwoStep p s)) && decide (16 ≤ (ptp p s).stamps.length)
  | _ => false

/-- No launch entry falls due within the transmission of a frame (R101). -/
def launchClear (p n : Nat) (s : State) : Bool :=
  (port p s).launchQ.all (fun l => decide (((frameNs p n s * 65536 : Nat) : Int) < launchLeft l s))

/-- The buffer of a frame that waits on a port. -/
def holdsBuf (key : Nat) (x : TxItem) : Bool := match x with | .event k _ => decide (k = key) | _ => false

/-- The port is done with a frame of a staging buffer: the last one frees it (R317). -/
def frameDone (p key : Nat) (s : State) : State :=
  if (port p s).txQ.any (holdsBuf key) ∨ hPool key ≠ 3 then s else freeBuf key s

/-- A GCM that may not be sent now: on a port that carries none (R282), on one that is not system-up unless it is a link HELLO (R284), and
of a device without a valid number unless it is a HELLO (R280). It stays queued. [DESIGN CHOICE, log 149] -/
def txBarred (p : Nat) (x : TxItem) (s : State) : Bool :=
  match x with
  | .gcm g => ! linkPort p s || (! g.link && ! sysUp p s) || (! g.hello && ! bit (reg 0x84004 s) 31)
  | _ => false

/-- PORT_TX_SELECT (R101): an idle port takes its next item by strict priority; `err` is the stamp error of R139. [DEDUCED, log 65] -/
def execPortTxSelect (p : Fin 128) (err : Int) (s : State) : Host.Outcome State Fault Refusal :=
  if canTx p s then
    match txPick ((port p s).txQ.filter (fun x => ! txBarred p x s)) with
    | none => .next s
    | some (x, _) =>
      if launchClear p (txLen p x s) s ∧ ! txHeld p x s then
        let s1 := setPort p (fun y => { y with txQ := y.txQ.erase x }) s
        .next (match x with
          | .ptp m => ptpSent p m ((tbPips (ptpTb p s) s : Int) + err)
              (bump (portCnt p 14) (setPort p (fun y =>
                { y with busyUntil := s.ticks + nsTicks (frameNs p (txLen p x s) s) }) s1))
          | .gcm g => sendOut p (if g.stomp then .stomp p g.bytes else .frame p g.bytes) g.bytes.length s1
          | .reply b => sendFrame p b s1
          | .event k b => frameDone p k (sendFrame p b s1))
      else .next s
  else .next s

/-- TX_SETTLE_DONE (R103): the transmit synthesizer has settled; waiting items may be sent. -/
def execTxSettleDone (p : Fin 128) (s : State) : Host.Outcome State Fault Refusal :=
  .next (setPort p (fun x => { x with txSettle := false }) s)

end Sys2Proof.Machine
end

