-- ==== Sys2Proof/Machine/Ingest.lean ====
section
/-! DEFINITION. Sample ingest: batches, gaps, the pre-filter, the GSF checks and the receive path of a port
(03_sample_ingest.md). -/

namespace Sys2Proof.Machine

/-! ### Streams -/

def stream (k : Nat) (s : State) : Option Stream := mfind s.streams k

/-- Changes a stream's entry, if the slot holds one. -/
def modStream (k : Nat) (f : Stream → Stream) (s : State) : State :=
  match stream k s with
  | some x => { s with streams := mput s.streams k (f x) }
  | none => s

/-- The key of a stream id in a quadrant's table (R86). [DEDUCED, log 26] -/
def streamKey (q id : Nat) (s : State) : Option Nat :=
  (s.streams.find? (fun e => decide (e.1 / 16384 = q) && decide (e.2.id = id))).map (·.1)

/-- The mode routes a port's streams (R47, R49, R99). -/
def modeRoutes (p : Nat) (s : State) : Bool :=
  portPowered p s && decide (s.mode.current ≠ .safe)
    && ! (decide (s.mode.current = .calibrate) && s.mode.calSet.getLsbD p)

/-! ### Batches (R89, R90) -/

/-- Closes the open batch and hands it on, with partial set when it holds fewer instants than batch_samples (R90). -/
def closeBatch (k : Nat) (s : State) : State :=
  match stream k s with
  | none => s
  | some x => match x.open_ with
    | none => s
    | some b =>
      let b := { b with seq := x.batchSeq, cut := decide (b.n < x.cfg.batch), afterGap := x.afterGap,
                        gapId := if x.afterGap then x.gapId else 0 }
      deliver k x b (modStream k (fun y => { y with
        open_ := none, batchSeq := (y.batchSeq + 1) % 2 ^ 32, batches := y.batches + 1, afterGap := false }) s)

/-! ### Gaps (R94, R95, R98) -/

/-- The GAP marker of a stream (R89, R95). No frame contributes to it: its arrival is the stream's last one. [DESIGN CHOICE, log 143] -/
def gapMarker (x : Stream) (tb n : Nat) : Batch :=
  { gap := true, complex := decide (x.cfg.format % 2 = 0 ∨ x.cfg.format = 7), w16 := ! x.cfg.w8, tb := tb,
    stream := x.id, seq := x.batchSeq, tFirst := x.expTime, arrivalTime := x.cfg.timeSrc, afterGap := false,
    clip := false, suspect := false, cut := false, period := 0, n := 0, comps := [], arr := x.lastArr,
    gapId := n % 65536 }

/-- The next gap log index of a quadrant (R107). -/
def gapNext (q : Nat) (s : State) : Nat := mget 0 s.gapHead q

/-- Reserves a gap log entry with open set (R95, R100). -/
def gapReserve (q cause : Nat) (x : Stream) (s : State) : State :=
  let n := gapNext q s
  { s with
    gapLog := mput s.gapLog (q * 512 + n % 512)
      { cause := cause, rebased := false, resynced := false, open_ := true, stream := x.id, exp := x.exp, rcv := 0,
        marker := x.batchSeq, start := x.expTime / 65536, resume := 0, lastArr := x.lastArr / 65536, resumeArr := 0 }
    gapHead := mput s.gapHead q ((n + 1) % 2 ^ 32) }

/-- Opens a gap: the open batch closes partial and is handed on, a log entry is reserved, and the GAP marker is sent to the subscribers
and to HIST (R95, R310). A stream whose gap is open opens no second one. [DEDUCED, log 22] -/
def openGap (k cause : Nat) (silent : Bool) (s : State) : State :=
  match stream k s with
  | none => s
  | some x0 =>
    if x0.gap.isSome then modStream k (fun y => { y with silent := y.silent || silent }) s
    else
      let s1 := closeBatch k s
      match stream k s1 with
      | none => s1
      | some x =>
        let q := k / 16384
        let n := gapNext q s1
        let s2 := histGap q cause x.expTime x (gapReserve q cause x s1)
        let s3 := deliver k x (gapMarker x (rfld (portBase x.cfg.port) 18 16 s) n) s2
        modStream k (fun y => { y with
          gap := some ⟨cause, n, false, false⟩, batchSeq := (y.batchSeq + 1) % 2 ^ 32,
          gaps := (y.gaps + 1) % 65536, silent := y.silent || silent }) s3

/-- Changes a gap's log entry while the entry still belongs to it. -/
def modGapEntry (q n : Nat) (f : GapEntry → GapEntry) (s : State) : State :=
  match mfind s.gapLog (q * 512 + n % 512) with
  | some e => if gapNext q s - n ≤ 512 then { s with gapLog := mput s.gapLog (q * 512 + n % 512) (f e) } else s
  | none => s

/-- Closes the open gap at a taken frame: its entry is completed, and the next data batch has after_gap set; the sample index
starts again (R82, R95). [DEDUCED, log 22] -/
def closeGap (k rcv resume arr : Nat) (resynced rebased : Bool) (s : State) : State :=
  match stream k s with
  | none => s
  | some x => match x.gap with
    | none => s
    | some g =>
      modStream k (fun y => { y with
        gap := none, afterGap := true, gapId := g.n % 65536, index := 0, line := [], clipPend := false, zsSince := 256, zsTail := [] })
        (modGapEntry (k / 16384) g.n (fun e => { e with
          open_ := false, rcv := rcv, resume := resume, resumeArr := arr, resynced := resynced, rebased := rebased }) s)

/-! ### Samples (R72, R77, R82) -/

/-- Bytes per instant × 2 of a format (R72). -/
def fmtHalf : Nat → Nat
  | 1 => 2 | 2 => 4 | 3 => 4 | 4 => 8 | 5 => 3 | 6 => 6 | 7 => 2 | _ => 0

/-- The component width in bits of a format (R72). -/
def fmtBits : Nat → Nat
  | 1 => 8 | 2 => 8 | 3 => 16 | 4 => 16 | 5 => 12 | 6 => 12 | 7 => 4 | _ => 8

/-- n components of w bits from a bit stream whose first bit is the highest (R72). -/
def unpackBits (w total v : Nat) : Nat → Nat → List Int
  | 0, _ => []
  | n + 1, k => sgn w (v >>> (total - (k + 1) * w)) :: unpackBits w total v n (k + 1)

/-- The components of a payload, in instant order, I before Q (R72). -/
def unpack (fmt count : Nat) (payload : List Nat) : List Int :=
  let n := if fmtComplex fmt then 2 * count else count
  unpackBits (fmtBits fmt) (8 * payload.length) (beNat payload) n 0

/-- A component outside the stream's limits is 0 and POISON (R77). -/
def limitComp (c : StreamCfg) (v : Int) : Comp := if v < c.limLo ∨ c.limHi < v then (0, 3) else (v, 0)

/-- Splits components into instants of one or two. -/
def instants (two : Bool) : List Comp → List (List Comp)
  | [] => []
  | a :: l => if two then (match l with
      | b :: m => [a, b] :: instants two m
      | [] => [[a]])
    else [a] :: instants two l

/-- Saturates to int16, telling whether it did (R82). -/
def sat16 (v : Int) : Int × Bool := (clampI (-32768) 32767 v, decide (v < -32768 ∨ 32767 < v))

/-- One FIR output component from its inputs, newest first, with coefficients h[0] up (R82, R83). -/
def firComp (c : StreamCfg) (xs : List Comp) : Comp :=
  let hx := (List.range 16).map (fun j => (c.h.getD j 0, xs.getD j (0, 0)))
  if hx.any (fun e => decide (e.1 ≠ 0) && decide (e.2.2 = 3)) then (0, 3)
  else
    let acc := (hx.map (fun e => e.1 * e.2.1)).sum
    let rnd : Int := if c.shift = 0 then 0 else 2 ^ (c.shift - 1)
    let y := sat16 ((acc + rnd) / 2 ^ c.shift)
    (y.1, if y.2 || hx.any (fun e => decide (e.1 ≠ 0) && decide (e.2.2 = 1)) then 1 else 0)

/-- One MEAN output component of D inputs, rounded half up (R82, R83). -/
def meanComp (d : Nat) (xs : List Comp) : Comp :=
  if xs.any (fun x => decide (x.2 = 3)) then (0, 3)
  else (((xs.map (·.1)).sum * 2 + d) / (2 * d), if xs.any (fun x => decide (x.2 = 1)) then 1 else 0)

/-- Component j of the newest instants, newest first. -/
def compCol (j : Nat) (line : List (List Comp)) : List Comp := line.map (fun x => x.getD j (0, 0))

/-- The output of the pre-filter at an input instant, if one falls there: its components (R81, R82). `line` holds the input
instants, the new one first; `n` is the new one's index. -/
def prefilter (c : StreamCfg) (line : List (List Comp)) (n : Nat) : Option (List Comp) :=
  let w := (line.headD []).length
  if c.fir then
    if n % c.decim = 0 then some ((List.range w).map (fun j => firComp c (compCol j line))) else none
  else if c.mean then
    if n % c.decim = c.decim - 1 then
      some ((List.range w).map (fun j => meanComp c.decim ((compCol j line).take c.decim)))
    else none
  else if n % c.decim = 0 then some (line.headD []) else none

/-- The input instants that contribute to an output, newest first (R83). -/
def contributors (c : StreamCfg) (line : List InSamp) : List InSamp :=
  if c.fir then ((line.take 16).zipIdx.filter (fun e => decide (c.h.getD e.2 0 ≠ 0))).map (·.1)
  else if c.mean then line.take c.decim
  else line.take 1

/-- What a frame brings to the batches it fills. -/
structure FrameCtx where
  tb : Nat
  arr : Nat
  t0 : Nat
  period : Nat
  suspect : Bool

/-- No work buffer for the next batch of a stream: a gap with cause NO_BUFFER opens on the engine path at the instant that would open
the batch, while history goes on (R92, R95). -/
def openNoBuf (k tb : Nat) (s : State) : State :=
  match stream k s with
  | none => s
  | some x =>
    let q := k / 16384
    if x.open_.isSome || x.noBuf.isSome || canAllocBatch q (batchRoom x.cfg) s then s
    else
      let n := gapNext q s
      let y := { x with expTime := x.groupTime }
      let s1 := deliver k y (gapMarker y tb n) (gapReserve q 7 y s)
      modStream k (fun z => { z with
        noBuf := some ⟨7, n, false, false⟩, batchSeq := (z.batchSeq + 1) % 2 ^ 32, gaps := (z.gaps + 1) % 65536 }) s1

/-- Adds one output instant to the open batch, opening one when there is none, and closes it when full (R89, R90). The batch's arrival
is that of the first contributing frame; a frame's clip goes to the batch whose output takes its first sample (R80), and a
kept frame that failed TIME_SKEW to every batch it contributes to. [DESIGN CHOICE, log 143] -/
def addInstant (k : Nat) (fc : FrameCtx) (y : List Comp) (from_ : List InSamp) (s : State) : State :=
  match stream k s with
  | none => s
  | some x =>
    let b0 : Batch := x.open_.getD
      { gap := false, complex := fmtComplex x.cfg.format, w16 := ! x.cfg.w8, tb := fc.tb, stream := x.id, seq := 0,
        tFirst := x.groupTime, arrivalTime := x.cfg.timeSrc, afterGap := false, clip := false, suspect := false,
        cut := false, period := fc.period * x.cfg.decim, n := 0, comps := [],
        arr := (from_.getLast?.map (·.arr)).getD fc.arr, gapId := 0 }
    let b := { b0 with comps := b0.comps ++ y, n := b0.n + 1, clip := b0.clip || x.clipPend,
                       suspect := b0.suspect || from_.any (·.suspect) }
    let s1 := modStream k (fun z => { z with
      open_ := some b, clipPend := false, openTick := if x.open_.isNone then s.ticks else z.openTick }) s
    if x.cfg.batch ≤ b.n then closeBatch k s1 else s1

/-- Takes the instants of a frame through the pre-filter into batches (R81, R82, R89, R92). -/
def takeInstants (k : Nat) (fc : FrameCtx) : List (List Comp) → Nat → State → State
  | [], _, s => s
  | x :: xs, j, s =>
    match stream k s with
    | none => s
    | some st =>
      let line := ((⟨x, fc.arr, fc.suspect⟩ : InSamp) :: st.line).take (max 16 st.cfg.decim)
      let s1 := modStream k (fun y => { y with
        line := line, index := y.index + 1,
        groupTime := if st.index % st.cfg.decim = 0 then fc.t0 + j * fc.period else y.groupTime }) s
      match prefilter st.cfg (line.map (·.comps)) st.index with
      | some out => takeInstants k fc xs (j + 1) (addInstant k fc out (contributors st.cfg line) (openNoBuf k fc.tb s1))
      | none => takeInstants k fc xs (j + 1) s1

/-! ### The GSF header and checks (R71, R75–R80) -/

/-- A parsed GSF header (R71). -/
structure Gsf where
  version : Nat
  format : Nat
  restart : Bool
  gapBefore : Bool
  clip : Bool
  last : Bool
  stream : Nat
  seq : Nat
  time : Nat
  count : Nat
  payload : Nat
  unitNs : Bool
  period : Nat
  frac : Nat
  rsv : Nat
  crc : Nat

def parseGsf (h : List Nat) : Gsf :=
  let w0 := beNat (sliceB h 0 4)
  let w5 := beNat (sliceB h 20 4)
  { version := bits w0 31 28, format := bits w0 27 24, restart := bit w0 23, gapBefore := bit w0 22, clip := bit w0 21,
    last := bit w0 20, stream := bits w0 19 0, seq := beNat (sliceB h 4 4), time := beNat (sliceB h 8 8),
    count := beNat (sliceB h 16 2), payload := beNat (sliceB h 18 2), unitNs := bit w5 31, period := bits w5 30 0,
    frac := beNat (sliceB h 24 2), rsv := beNat (sliceB h 26 2), crc := beNat (sliceB h 28 4) }

/-- The sample period in pips (R71). -/
def gsfPeriod (g : Gsf) : Nat := if g.unitNs then g.period * 65536 else g.period

/-- Sender time in pips (R71). -/
def gsfTime (g : Gsf) : Nat := g.time * 65536 + g.frac

/-- Counts a failed check and, while its capture is armed, records the frame (R75, R76). -/
def failCheck (p code : Nat) (h : List Nat) (frameLen arr tb : Nat) (s : State) : State :=
  let s1 := bump (chkCnt p code) s
  if bit (reg (portBase p + 0x400) s) code then s1
  else
    let sid := if h.length < 20 then 0 else bits (beNat (sliceB h 0 4)) 19 0
    let words := [sid ||| tb <<< 20 ||| code <<< 24, (arr / 65536) % 2 ^ 32,
      frameLen % 65536 ||| (arr % 65536) <<< 16] ++
      (List.range 5).map (fun w => leNat (sliceB h (4 * w) 4))
    let s2 := words.zipIdx.foldl (fun s e => setReg (portBase p + 0x200 + 32 * code + 4 * e.2) e.1 s) s1
    setFld (portBase p + 0x400) code code 1 s2

/-- The first header check that drops the frame, codes 1 to 9 (R75), or 0. `plen` is the payload length the frame carries
and `pad` a 64-byte layer 2 frame, whose padding is ignored (R73). [DEDUCED, log 22; DEDUCED, log 26] -/
def headerCheck (p : Nat) (h : List Nat) (g : Gsf) (plen : Nat) (pad : Bool) (s : State) : Nat :=
  if h.length < 32 ∨ crc32c (h.take 28) ≠ g.crc then 1
  else if g.version ≠ 1 then 2
  else if g.rsv ≠ 0 then 3
  else if g.format = 0 ∨ 8 ≤ g.format then 4
  else if g.payload * 2 ≠ g.count * fmtHalf g.format ∨ g.count = 0 ∨ (g.format = 5 ∧ g.count % 2 = 1) ∨ g.period = 0
      ∨ ¬ (g.payload = plen ∨ (pad ∧ g.payload ≤ plen)) then 5
  else match streamKey (p / 32) g.stream s with
    | none => 6
    | some k => match stream k s with
      | none => 6
      | some x =>
        if ! x.cfg.en || ! modeRoutes x.cfg.port s then 7
        else if x.cfg.port ≠ p then 8
        else if x.cfg.format ≠ g.format then 9
        else 0

/-- What the sequence check of R79 decides: dropped, taken, taken with a restart, or taken ahead. -/
inductive SeqVerdict where
  | old | take | resync | ahead
  deriving DecidableEq

/-- [DEDUCED, log 22] -/
def seqVerdict (x : Stream) (g : Gsf) (arrNs : Nat) : SeqVerdict :=
  let d := sdiff g.seq x.exp
  let restartOk := x.cfg.resync && (g.restart || decide (2147483648 < (arrNs : Int) - (x.lastArr / 65536 : Nat)))
  if x.fresh ∨ x.ended then .take
  else if d = 0 then .take
  else if restartOk then .resync
  else if 0 < d then .ahead
  else .old

/-- TIME_SKEW (R78): the lag outside the stream's window, or not expressible in 32 bits. -/
def skewed (c : StreamCfg) (arrNs senderNs : Nat) : Bool :=
  let lag : Int := (arrNs : Int) - senderNs
  decide (lag < c.latMin ∨ c.latMax < lag ∨ lag < -2147483648 ∨ 2147483647 < lag)

/-- Takes a frame that no check dropped: gaps, expected sequence and time, samples, end of stream (R77–R80, R95–R98). -/
def takeFrame (p k : Nat) (g : Gsf) (payload : List Nat) (v : SeqVerdict) (suspect : Bool) (arr : Nat)
    (h : List Nat) (flen : Nat) (s : State) : State :=
  match stream k s with
  | none => s
  | some x =>
    let tb := rfld (portBase p) 18 16 s
    let running := ! x.fresh && ! x.ended && ! x.silent
    let rebased := ! x.fresh && decide (2147483648 < ((arr / 65536 : Nat) : Int) - (x.lastArr / 65536 : Nat))
    let jump := decide (v = .take) && running && ! rebased
      && decide (x.cfg.timeTol * 65536 < ((gsfTime g : Int) - x.expTime).natAbs)
    let s1 := if v = .ahead ∧ ! x.silent then openGap k 3 false s else s
    let s2 := if jump then openGap k 4 false (failCheck p 0xD h flen arr tb s1) else s1
    let s3 := if g.gapBefore ∧ running then openGap k 5 false s2 else s2
    let s4 := closeGap k g.seq g.time (arr / 65536) (decide (v = .resync)) rebased s3
    let comps := (unpack g.format g.count payload).map (limitComp x.cfg)
    let bad := (comps.filter (fun c => decide (c.2 = 3))).length
    let s5 := if bad = 0 then s4 else
      bumpN (chkCnt p 0xE) (bad - 1) (failCheck p 0xE h flen arr tb s4)
    let t0 := if x.cfg.timeSrc then wrapN 80 ((arr : Int) - x.cfg.latComp * 65536) else gsfTime g
    -- samples first: a NO_BUFFER gap that they reveal stands at the state before the frame (R92, R95)
    let fc : FrameCtx := ⟨tb, arr, t0, gsfPeriod g, suspect⟩
    let s6 := takeInstants k fc (instants (fmtComplex g.format) comps) 0
      (modStream k (fun y => { y with clipPend := y.clipPend || g.clip }) s5)
    let dropped : Bool := match stream k s6 with | some y => y.noBuf.isSome | none => false
    let s7 := if dropped then failCheck p 0xF h flen arr tb s6 else s6
    let s8 := modStream k (fun y => { y with
      fresh := false, ended := false, silent := false, exp := (g.seq + 1) % 2 ^ 32, lastArr := arr, lastTick := s.ticks,
      lastSend := g.time, expTime := (gsfTime g + g.count * gsfPeriod g) % 2 ^ 80, framesTaken := y.framesTaken + 1 }) s7
    if g.last then modStream k (fun y => { y with ended := true }) (openGap k 6 false (closeBatch k s8)) else s8

/-- The GSF path of a frame: header at the front of `h`, `payload` behind it (R75). -/
def gsfFrame (p : Nat) (h payload : List Nat) (plen : Nat) (pad : Bool) (flen arr : Nat) (s : State) : State :=
  let g := parseGsf h
  let tb := rfld (portBase p) 18 16 s
  match headerCheck p h g plen pad s with
  | 0 => match streamKey (p / 32) g.stream s with
    | none => s
    | some k => match stream k s with
      | none => s
      | some x =>
        let v := seqVerdict x g (arr / 65536)
        if v = .old then failCheck p 0xA h flen arr tb s
        else
          let s1 := if v = .ahead ∧ ! x.silent then failCheck p 0xB h flen arr tb s else s
          let sk := skewed x.cfg (arr / 65536) g.time
          let s2 := if sk then failCheck p 0xC h flen arr tb s1 else s1
          if sk ∧ x.cfg.drop then s2
          else takeFrame p k g (payload.take g.payload) v sk arr h flen s2
  | c => failCheck p c h flen arr tb s

/-! ### The receive path (R67–R69) -/

/-- Drops a frame, counting one port counter (R67). -/
def dropFrame (p i : Nat) (s : State) : State := bump (portCnt p i) s

/-- The UDP length is at least its header's and no more than what the packet carries; another is a bad datagram (R68). [DESIGN CHOICE,
log 144] -/
def udpLenOk (u : List Nat) (len : Nat) : Bool := decide (8 ≤ len ∧ len ≤ u.length)

/-- Queues a responder's answer, or drops it while the transmit side settles (R69, R103). -/
def respond (p : Nat) (bytes : List Nat) (s : State) : State :=
  if (port p s).txSettle then bump (portCnt p 15) s
  else setPort p (fun x => { x with txQ := x.txQ ++ [.reply bytes] }) s

/-- The answer to an ARP request for PORT_IPV4 (R69). -/
def arpReply (p : Nat) (l : List Nat) (s : State) : List Nat :=
  sliceB l 6 6 ++ beBytes 6 (portMac p s) ++ [0x08, 0x06, 0, 1, 8, 0, 6, 4, 0, 2] ++ beBytes 6 (portMac p s)
    ++ beBytes 4 (reg (portBase p + 0x10) s) ++ sliceB l 22 6 ++ sliceB l 28 4 ++ List.replicate 18 0

/-- The answer to a neighbour solicitation for PORT_IPV6 (R69): a solicited, overriding advertisement to the
solicitation's source, whatever that is. [DESIGN CHOICE, log 144] -/
def naReply (p : Nat) (l : List Nat) (s : State) : List Nat :=
  let me := beBytes 16 (portIp6 p s)
  let you := sliceB l 22 16
  let icmp0 := [136, 0, 0, 0, 0x60, 0, 0, 0] ++ me ++ [2, 1] ++ beBytes 6 (portMac p s)
  let ck := 65535 - fold16 (sum16 me + sum16 you + 32 + 58 + sum16 icmp0)
  sliceB l 6 6 ++ beBytes 6 (portMac p s) ++ [0x86, 0xDD, 0x60, 0, 0, 0, 0, 32, 58, 255] ++ me ++ you
    ++ [136, 0] ++ beBytes 2 ck ++ icmp0.drop 4

/-- A PTP message in a frame (R128): a management message, and a signalling message other than the L1_SYNC of layer-1 syntonization, are not
supported. The messages that the unit takes come by their own commands. [PRESUMED, log 15] -/
def ptpFrame (p : Nat) (b : List Nat) (s : State) : State :=
  let ty := b.getD 0 0 % 16
  if ptpRuns p s ∧ (ty = 13 ∨ (ty = 12 ∧ beNat (sliceB b 44 2) ≠ 0x8001)) then ptpUnsupported p s else s

/-- UDP dispatch of a datagram whose UDP header is at the front of `u` (R67 step 5, R68). [DESIGN CHOICE, log 144] -/
def udpFrame (p : Nat) (u : List Nat) (ipSum : Nat) (v6 : Bool) (flen arr : Nat) (s : State) : State :=
  let len := beNat (sliceB u 4 2)
  let ck := beNat (sliceB u 6 2)
  let dport := beNat (sliceB u 2 2)
  let gsf := rfld (portBase p + 0x24) 15 0 s
  let body := u.take len
  let ckBad := if ck = 0 then v6 && ! bit (reg (portBase p) s) 20
    else decide (fold16 (ipSum + len + 17 + sum16 body) ≠ 0xFFFF)
  if ! udpLenOk u len ∨ ckBad then dropFrame p 9 s
  else if dport = 319 ∨ dport = 320 then ptpFrame p (body.drop 8) s
  else if gsf ≠ 0 ∧ dport = gsf then gsfFrame p (sliceB u 8 32) (sliceB u 40 (len - 40)) (len - 40) false flen arr s
  else dropFrame p 10 s

/-- IPv4 checks and dispatch (R68). -/
def ip4Frame (p : Nat) (l : List Nat) (flen arr : Nat) (s : State) : State :=
  let ip := l.drop 14
  let own := reg (portBase p + 0x10) s
  if ip.length < 20 ∨ fold16 (sum16 (ip.take 20)) ≠ 0xFFFF ∨ ip.getD 0 0 ≠ 0x45 ∨ beNat (sliceB ip 6 2) % 0x4000 ≠ 0
      ∨ beNat (sliceB ip 16 4) ≠ own ∨ own = 0 then dropFrame p 8 s
  else if ip.getD 9 0 ≠ 17 then dropFrame p 10 s
  else udpFrame p ((ip.drop 20).take (beNat (sliceB ip 2 2) - 20)) (sum16 (sliceB ip 12 8)) false flen arr s

/-- The solicited-node multicast address of PORT_IPV6 (R67). -/
def solicited (p : Nat) (s : State) : Nat := 0xFF0200000000000000000001FF000000 + portIp6 p s % 2 ^ 24

/-- The extension headers of IPv6. -/
def extHeader (n : Nat) : Bool := [0, 43, 44, 50, 51, 60, 135, 139, 140].contains n

/-- An IPv6 neighbour solicitation: ICMPv6 of type 135 behind the fixed header. Hop limit and ICMPv6 checksum are not looked at. [DESIGN
CHOICE, log 144] -/
def isSolicit (ip : List Nat) : Bool := decide (ip.getD 6 0 = 58 ∧ ip.getD 40 0 = 135)

/-- IPv6 checks and dispatch, and the neighbour responder (R68, R69). -/
def ip6Frame (p : Nat) (l : List Nat) (flen arr : Nat) (s : State) : State :=
  let ip := l.drop 14
  let own := portIp6 p s
  let nh := ip.getD 6 0
  let dst := beNat (sliceB ip 24 16)
  let ns : Bool := isSolicit ip && decide (beNat (sliceB ip 48 16) = own ∧ own ≠ 0)
  if ip.length < 40 ∨ ip.getD 0 0 / 16 ≠ 6 ∨ extHeader nh ∨ own = 0
      ∨ ¬ (dst = own ∨ (ns ∧ dst = solicited p s)) then dropFrame p 8 s
  else if ns then respond p (naReply p l s) s
  else if nh ≠ 17 then dropFrame p 10 s
  else udpFrame p ((ip.drop 40).take (beNat (sliceB ip 4 2))) (sum16 (sliceB ip 8 32)) true flen arr s

/-- The destination address is accepted (R67 step 3), `l` being the frame behind at most one tag and `et` its EtherType. -/
def addrOk (p dst et : Nat) (l : List Nat) (s : State) : Bool :=
  decide (dst = portMac p s) || (decide (dst = 0xFFFFFFFFFFFF) && decide (et = 0x0806))
    || (decide (dst = 0x333300000000 + solicited p s % 2 ^ 32) && decide (et = 0x86DD) && isSolicit (l.drop 14))
    || (decide (dst = 0x011B19000000 ∨ dst = 0x0180C200000E) && decide (et = 0x88F7))

/-- A PAUSE frame pauses transmit when honour_pause is 1 (R64): quanta of 512 bit times. -/
def pauseFrame (p : Nat) (l : List Nat) (s : State) : State :=
  if bit (reg (portBase p) s) 21 ∧ beNat (sliceB l 14 2) = 1 then
    setPort p (fun x => { x with pause := s.ticks + nsTicks (beNat (sliceB l 16 2) * 512 / portGbps x.speed) }) s
  else s

/-- Dispatch on the EtherType, `l` being the frame with its tag removed (R67 step 5). [DESIGN CHOICE, log 23] -/
def dispatchFrame (p et : Nat) (l : List Nat) (flen arr : Nat) (s : State) : State :=
  if et = 0x88F7 then ptpFrame p (l.drop 14) s
  else if et = 0x88B6 then (if bit (reg (portBase p) s) 23 then s else dropFrame p 10 s)
  else if et = 0x88B5 then
    gsfFrame p (sliceB l 14 32) (l.drop 46) (l.length - 46) (decide (flen = 64)) flen arr s
  else if et = 0x0800 then ip4Frame p l flen arr s
  else if et = 0x86DD then ip6Frame p l flen arr s
  else if et = 0x0806 ∧ beNat (sliceB l 20 2) = 1 ∧ beNat (sliceB l 38 4) = reg (portBase p + 0x10) s
      ∧ reg (portBase p + 0x10) s ≠ 0 then respond p (arpReply p l s) s
  else dropFrame p 10 s

/-- Where the GSF header of a frame would begin, its tag removed: at layer 2, or over UDP to PORT_UDP.gsf_dport. -/
def gsfAt (p : Nat) (l : List Nat) (s : State) : Option Nat :=
  let et := beNat (sliceB l 12 2)
  let gsf := rfld (portBase p + 0x24) 15 0 s
  let udp (at_ : Nat) : Option Nat := if gsf ≠ 0 ∧ beNat (sliceB l (at_ + 2) 2) = gsf then some (at_ + 8) else none
  if et = 0x88B5 then some 14
  else if et = 0x0800 ∧ l.getD 23 0 = 17 then udp (14 + 4 * (l.getD 14 0 % 16))
  else if et = 0x86DD ∧ l.getD 20 0 = 17 then udp 54
  else none

/-- In Safe a frame only counts and moves its stream's last arrival, `l` being the frame with its tag removed (R99). [DESIGN CHOICE, log 23] -/
def safeFrame (p : Nat) (l : List Nat) (arr : Nat) (s : State) : State :=
  match (gsfAt p l s).bind (fun n => streamKey (p / 32) (parseGsf (sliceB l n 32)).stream s) with
  | some k => modStream k (fun y => { y with lastArr := arr, lastTick := s.ticks }) s
  | none => s

/-- FRAME_RECEIVE (R67, R74): the frame is stamped, filtered and dispatched; a frame that fails a step is dropped and counts
once. The codewords that FEC corrected or could not since the last frame count as they are (R105). A service tag, EtherType 0x88A8, is a
refused tag. [DESIGN CHOICE, log 144] -/
def execFrameReceive (p : Fin 128) (f : RxFrame) (s : State) : Host.Outcome State Fault Refusal :=
  if ! (port p s).linkUp then .next s
  else
    let s0 := bumpN (portCnt p 12) f.fecUncorr (bumpN (portCnt p 11) f.fecCorr s)
    let l := f.bytes.map (·.toNat)
    let flen := l.length + 4
    let tb := rfld (portBase p) 18 16 s
    let arr := wrapN 80 ((tbPips tb s : Int) + f.stampErr)
    if ! f.fcsOk then .next (dropFrame p 2 s0)
    else
      let s1 := bumpN (portCnt p 1) flen (bump (portCnt p 0) s0)
      let tagged : Bool := decide (beNat (sliceB l 12 2) = 0x8100)
      let l1 := if tagged then l.take 12 ++ l.drop 16 else l
      if s.mode.current = .safe then .next (safeFrame p l1 arr s1)
      else if flen < 64 then .next (dropFrame p 3 s1)
      else if rfld (portBase p + 0x28) 13 0 s < flen then .next (dropFrame p 4 s1)
      else
        let et := beNat (sliceB l1 12 2)
        if et = 0x8808 then .next (pauseFrame p l1 (bump (portCnt p 7) s1))
        else if ! addrOk p (beNat (sliceB l 0 6)) et l1 s then .next (dropFrame p 5 s1)
        else if (tagged ∧ ! bit (reg (portBase p) s) 19) ∨ et = 0x8100 ∨ et = 0x88A8 then .next (dropFrame p 6 s1)
        else .next (dispatchFrame p et l1 flen arr s1)

/-! ### Stream timers -/

/-- BATCH_TIMEOUT (R90): batch_timeout since the first sample of the open batch; in Safe no batch runs (R99). -/
def execBatchTimeout (q : Fin 4) (slot : Fin 16384) (s : State) : Host.Outcome State Fault Refusal :=
  let k := q.val * 16384 + slot.val
  .next (match stream k s with
    | some x => if x.open_.isSome ∧ s.mode.current ≠ .safe ∧ passed x.openTick (usTicks x.cfg.batchUs) s then closeBatch k s else s
    | none => s)

/-- SILENCE_TIMEOUT (R96): no frame for gap_timeout on a running stream; none is declared in Safe (R99). -/
def execSilenceTimeout (q : Fin 4) (slot : Fin 16384) (s : State) : Host.Outcome State Fault Refusal :=
  let k := q.val * 16384 + slot.val
  .next (match stream k s with
    | some x =>
      if ! x.fresh ∧ ! x.ended ∧ ! x.silent ∧ s.mode.current ≠ .safe ∧ passed x.lastTick (usTicks x.cfg.gapUs) s then
        openGap k 1 true (modStream k (fun y => { y with silences := y.silences + 1 }) s)
      else s
    | none => s)

/-- NO_BUFFER_GAP_CLOSE (R92): a work buffer is available again. The batch that history has open meanwhile has no buffer: it closes, and
the engine path goes on with a new one. The entry is completed with the last frame taken. The sample index and the filter line,
which history shares, go on. Not in Safe, where no batch runs (R99). [DEDUCED, log 22; DESIGN CHOICE, log 143] -/
def execNoBufferGapClose (q : Fin 4) (slot : Fin 16384) (s : State) : Host.Outcome State Fault Refusal :=
  let k := q.val * 16384 + slot.val
  .next (match stream k s with
    | some x => match x.noBuf with
      | some g =>
        if canAllocBatch q (batchRoom x.cfg) s ∧ s.mode.current ≠ .safe then
          modStream k (fun y => { y with noBuf := none, afterGap := true, gapId := g.n % 65536 })
            (modGapEntry q g.n (fun e => { e with
              open_ := false, rcv := (x.exp + 2 ^ 32 - 1) % 2 ^ 32, resume := x.lastSend, resumeArr := x.lastArr / 65536 })
              (closeBatch k s))
        else s
      | none => s
    | none => s)

/-! ### Links -/

/-- The keys of the streams of a port. -/
def portStreams (p : Nat) (s : State) : List Nat :=
  (s.streams.filter (fun e => decide (e.2.cfg.port = p))).map (·.1)

/-- Opens a gap on every stream of a port (R96, R99), or, leaving Safe, on every running one. -/
def portGaps (p cause : Nat) (s : State) (running : Bool := false) : State :=
  (portStreams p s).foldl (fun s k => match stream k s with
    | some x => if running ∧ (! x.cfg.en ∨ x.fresh ∨ x.ended) then s else openGap k cause true s
    | none => s) s

/-- Event frames that wait on a port which is off or whose link is down are dropped and counted, and their buffers are freed (R322,
R337). -/
def dropEvents (p : Nat) (s : State) : State :=
  let isEvt (x : TxItem) : Bool := match x with | .event _ _ => true | _ => false
  let evs := (port p s).txQ.filter isEvt
  let s1 := setPort p (fun x => { x with txQ := x.txQ.filter (fun y => ! isEvt y) }) s
  evs.foldl (fun s x => match x with
    | .event k _ => bump (evbCnt (p / 32) 16) (if (buf k s).owner = 0 then s else frameDone p k s)
    | _ => s) s1

/-- A port's link goes down (R96, R136, R138, R303, R337): its streams open gaps, its PTP port is FAULTY, a link port is lost, the time
base it syntonizes falls back with l1_lost set, and event frames that wait on it are dropped. -/
def linkDown (p cause : Nat) (s : State) : State :=
  if (port p s).linkUp then
    let s1 := bump (portCnt p 13) (setPort p (fun x => { x with linkUp := false, laneLock := 0 }) s)
    let s2 := dropEvents p (portGaps p cause (linkLost p (l1Lost p s1)))
    l1Update (ptpTb p s) (setPtp p (fun x => { x with
      state := if ptpRole p s = 0 then .disabled else .faulty, foreign := [], parent := 0, sync := none, req := none, presp := none }) s2)
  else s

/-- What may wait while the transmit side settles (R103): of the GCMs the first eight, and no ARP or neighbour reply. -/
def settleKeeps : Nat → List TxItem → List TxItem
  | _, [] => []
  | n, x :: l => match x with
    | .reply _ => settleKeeps n l
    | .gcm _ => if n = 0 then settleKeeps 0 l else x :: settleKeeps (n - 1) l
    | _ => x :: settleKeeps n l

/-- Starts training toward the configured speed (R66, R570); the transmit side settles, and what may not wait is dropped and counted
(R103). -/
def startTraining (p : Nat) (s : State) : State :=
  let q := (port p s).txQ
  let q' := settleKeeps 8 q
  bumpN (portCnt p 15) (q.length - q'.length)
    (setPort p (fun x => { x with training := true, attempt := s.ticks, txSettle := true, txQ := q' }) s)

/-- PORT_TRAINING_ATTEMPT_TIMEOUT (R570): the attempt has not reached FEC lock within 250 ms; the next begins. -/
def execPortTrainingAttemptTimeout (p : Fin 128) (s : State) : Host.Outcome State Fault Refusal :=
  if (port p s).training ∧ ! (port p s).linkUp ∧ passed (port p s).attempt (msTicks 250) s then
    .next (setPort p (fun x => { x with attempt := s.ticks }) s)
  else .next s

/-- Lanes of a speed, one bit each (R63). -/
def laneMask : Nat → Nat
  | 1 => 15 | 2 => 3 | 3 => 15 | 4 => 1 | 5 => 3 | 6 => 15 | 7 => 1 | 8 => 1 | _ => 0

/-- LINK_UP (R66): training and FEC lock complete, with the configuration of PORT_CFG.speed in force from then on [DESIGN CHOICE, log 145]; the PTP port leaves FAULTY or INITIALIZING; a slice castling may
commit (R440). -/
def execLinkUp (p : Fin 128) (s : State) : Host.Outcome State Fault Refusal :=
  if (port p s).training ∧ ! (port p s).linkUp ∧ portPowered p s ∧ portsUp (p.val / 32) s then
    let sp := rfld (portBase p) 27 24 s
    let s1 := setPort p (fun x => { x with linkUp := true, training := false, speed := sp, laneLock := laneMask sp }) s
    let s2 := setPtp p (fun x => { x with state := if ptpRole p s = 0 then .disabled else .listening, preAt := s.ticks }) s1
    .next (sliceLinkUp p (ptpDecide (ptpTb p s) none s2))
  else .next s

/-- LINK_DOWN (R96): the link is lost and training begins again (R570). -/
def execLinkDown (p : Fin 128) (s : State) : Host.Outcome State Fault Refusal :=
  if (port p s).linkUp then .next (setPort p (fun x => { x with training := true, attempt := s.ticks }) (linkDown p 2 s))
  else .next s

end Sys2Proof.Machine
end

