-- ==== Sys2Proof/Machine/StreamCmds.lean ====
section
/-! DEFINITION. STREAM_CFG and its release: the parameter block of R390, the ranges of R87 and the change of R88. -/

namespace Sys2Proof.Machine

/-- Bits [hi:lo] of the little-endian word at a byte of a parameter block (R390–R392). -/
def pbf {n : Nat} (pb : BitVec n) (byte hi lo : Nat) : Nat := bits (pb.toNat >>> (8 * byte)) hi lo

/-- The mask of a parameter block's fields. -/
def pbMask : List (Nat × Nat × Nat) → Nat
  | [] => 0
  | (b, h, l) :: m => ((2 ^ (h + 1 - l) - 1) <<< (8 * b + l)) ||| pbMask m

/-- A parameter block with a reserved bit set. [DEDUCED, log 25] -/
def pbBad {n : Nat} (pb : BitVec n) (m : List (Nat × Nat × Nat)) : Bool :=
  decide (pb.toNat &&& pbMask m ≠ pb.toNat)

/-- The fields of the STREAM_CFG parameter block (R390). -/
def streamPbFields : List (Nat × Nat × Nat) :=
  [(0, 31, 16), (0, 8, 0), (4, 30, 0), (8, 31, 0), (12, 31, 0), (16, 28, 0), (20, 31, 0), (24, 30, 16), (24, 14, 0),
   (28, 22, 0), (32, 16, 0), (36, 20, 0), (40, 255, 0)] ++
  (List.range 8).map (fun j => (72 + 4 * j, 31, 31)) ++ (List.range 8).map (fun j => (72 + 4 * j, 9, 0))

/-- The parameters of a STREAM_CFG parameter block for a port (R390). -/
def streamCfgOf (port : Nat) (pb : BitVec 1024) : StreamCfg :=
  let f := pbf pb
  { en := bit (f 0 31 31) 0, port := port, format := f 0 19 16, w8 := bit (f 0 23 23) 0, timeSrc := bit (f 0 25 25) 0,
    latComp := f 4 30 0, latMin := sgn 32 (f 8 31 0), latMax := sgn 32 (f 12 31 0), drop := bit (f 0 24 24) 0,
    timeTol := f 16 19 0, limLo := sgn 16 (f 20 15 0), limHi := sgn 16 (f 20 31 16), decim := f 0 8 0,
    mean := bit (f 0 21 21) 0, fir := bit (f 0 22 22) 0,
    h := (List.range 16).map (fun j => sgn 16 (f (40 + 2 * j) 15 0)), shift := f 16 24 20, engThr := f 24 14 0,
    gatePoison := bit (f 0 20 20) 0, zsThr := f 24 30 16, zsPre := f 28 15 8, zsPost := f 28 7 0,
    batch := 2 ^ (f 16 28 25 + 7), batchUs := f 32 16 0, gapUs := f 36 20 0, resync := bit (f 0 30 30) 0,
    hist := bit (f 0 29 29) 0, prio := f 0 28 26, maxLoans := f 28 22 16,
    subs := (List.range 8).map (fun j =>
      if f (72 + 4 * j) 31 31 = 1 then some (f (72 + 4 * j) 9 4, f (72 + 4 * j) 3 0) else none) }

/-- A power of two up to 256. -/
def pow2 (n : Nat) : Bool := [1, 2, 4, 8, 16, 32, 64, 128, 256].contains n

/-- The parameters keep the ranges of R87. [DEDUCED, log 25] -/
def streamCfgOk (c : StreamCfg) (bsCode : Nat) : Bool :=
  decide (1 ≤ c.format ∧ c.format ≤ 7)
    && (! c.w8 || (decide (c.format = 1 ∨ c.format = 2 ∨ c.format = 7) && ! c.fir))
    && decide (c.latMin ≤ c.latMax ∧ -2147483647 ≤ c.latMin) && decide (c.timeTol ≤ 1000000)
    && decide (c.limLo ≤ c.limHi) && decide (1 ≤ c.decim ∧ c.decim ≤ 256) && (! c.mean || pow2 c.decim)
    && decide (bsCode ≤ 9) && decide (1 ≤ c.batchUs ∧ c.batchUs ≤ 100000)
    && decide (1 ≤ c.gapUs ∧ c.gapUs ≤ 2000000) && decide (1 ≤ c.maxLoans ∧ c.maxLoans ≤ 64)
    && c.subs.all (fun x => match x with | some (e, _) => decide (e < 48) | none => true)

/-- The first slot from n on that a quadrant's table leaves free (R86). -/
def freeSlotFrom (m : FMap Stream) (base : Nat) : Nat → Nat → Option Nat
  | 0, _ => none
  | fuel + 1, n => if (mfind m (base + n)).isNone then some n else freeSlotFrom m base fuel (n + 1)

/-- The entries of a quadrant's stream table. -/
def tableSize (q : Nat) (s : State) : Nat := (s.streams.filter (fun e => decide (e.1 / 16384 = q))).length

/-- The slot a new stream takes: the lowest free one (R86). [DEDUCED, log 25] -/
def freeSlot (q : Nat) (s : State) : Option Nat :=
  if tableSize q s < 16384 then freeSlotFrom s.streams (q * 16384) (tableSize q s + 1) 0 else none

/-- The key of a stream id anywhere in the device. -/
def streamAny (id : Nat) (s : State) : Option Nat := (s.streams.find? (fun e => decide (e.2.id = id))).map (·.1)

/-- STREAM_CFG's generic checks (R382, R389, R390); one that does not release needs its port's quadrant (R472). [DEDUCED, log 154] -/
def specStreamCfg (d : Desc) (pb : Option (BitVec 1024)) : CmdSpec :=
  { op := 0x11, relOk := true, group := some 0, objs := [⟨2, bf d 16 19 0⟩], config := true,
    needs := if dRelease d then [] else [⟨1, bf d 20 6 0⟩],
    fields := [(16, 19, 0), (20, 6, 0), (24, 63, 0), (32, 31, 0)],
    badEnc := match pb with | some b => pbBad b streamPbFields || decide (8 ≤ pbf b 0 19 16) | none => false,
    pb := pb.map (fun b => leBytes 128 b.toNat) }

/-- STREAM_CFG's own checks: RANGE, then NO_RESOURCE (R86, R394). -/
def ownStreamCfg (d : Desc) (pb : BitVec 1024) (s : State) : Status :=
  let id := bf d 16 19 0; let p := bf d 20 6 0
  let other : Bool := match streamAny id s with | some k => decide (k / 16384 ≠ p / 32) | none => false
  if bf d 32 31 0 ≠ 128 ∨ bf d 24 5 0 ≠ 0 ∨ other ∨ ! streamCfgOk (streamCfgOf p pb) (pbf pb 16 28 25) then .range
  else if (streamAny id s).isNone ∧ (freeSlot (p / 32) s).isNone then .noResource
  else .ok

/-- A change that opens a CONFIG gap on a live stream (R88). -/
def cfgTouches (a b : StreamCfg) : Bool :=
  decide (a.format ≠ b.format ∨ a.decim ≠ b.decim ∨ a.mean ≠ b.mean ∨ a.fir ≠ b.fir ∨ a.h ≠ b.h ∨ a.shift ≠ b.shift
    ∨ a.timeSrc ≠ b.timeSrc)

/-- Puts a configuration in force between two frames: a live stream's open batch closes partial, a change of what R88 names
opens a gap with cause CONFIG, and the stream is fresh (R79, R88). [DEDUCED, log 25] -/
def applyStreamCfg (id p : Nat) (c : StreamCfg) (s : State) : State :=
  match streamAny id s with
  | some k =>
    let s1 := closeBatch k s
    let s2 := match stream k s1 with
      | some x => if ! x.fresh ∧ cfgTouches x.cfg c then openGap k 8 false s1 else s1
      | none => s1
    modStream k (fun y => { y with
      cfg := c, fresh := true, ended := false, silent := false, index := 0, line := [], clipPend := false }) s2
  | none => match freeSlot (p / 32) s with
    | some n => { s with streams := mput s.streams (p / 32 * 16384 + n) { id := id, cfg := c } }
    | none => s

/-- STREAM_CFG (R86–R88). [DEDUCED, log 25] -/
def execStreamCfg (d : Desc) (pb : Option (BitVec 1024)) (s : State) : Host.Outcome State Fault Refusal :=
  if dRelease d then .next s
  else .next (serve (specStreamCfg d pb) d (ownStreamCfg d (pb.getD 0))
    (fun src s => complete src .ok 0
      (applyStreamCfg (bf d 16 19 0) (bf d 20 6 0) (streamCfgOf (bf d 20 6 0) (pb.getD 0)) s)) s)

/-- Removes a stream: its open batch closes partial, its slot is freed and its history released (R316, R388). -/
def releaseStream (id : Nat) (s : State) : State :=
  match streamAny id s with
  | some k =>
    let s1 := closeBatch k s
    streamGone (k / 16384) id { s1 with streams := mdel s1.streams k }
  | none => s

/-- STREAM_CFG with release (R388): the parameter block must be 0; the stream is removed and its ownership ends. -/
def execStreamRelease (d : Desc) (pb : Option (BitVec 1024)) (s : State) : Host.Outcome State Fault Refusal :=
  if dRelease d then
    let spec := specStreamCfg d pb
    .next (serve { spec with badEnc := decide (pb.getD 0 ≠ 0) } d
      (fun s => if bf d 32 31 0 ≠ 128 ∨ bf d 24 5 0 ≠ 0 ∨ (streamAny (bf d 16 19 0) s).isNone then .range else .ok)
      (fun src s => complete src .ok 0 (disown ⟨2, bf d 16 19 0⟩ (releaseStream (bf d 16 19 0) s))) s)
  else .next s

end Sys2Proof.Machine
end

