-- ==== Sys2Proof/Machine/EvtOps.lean ====
section
/-! DEFINITION. Event records: matching streams, fragments, layout, staging, posts, host writes, event frames, and what a finished
record answers (R300–R302, R322–R339, R360–R362). -/

namespace Sys2Proof.Machine

/-! ### Builds -/

def buildOf (n : Nat) (s : State) : Option Build := mfind s.evt.builds n
def setBuild (n : Nat) (b : Build) (s : State) : State := setEvt (fun e => { e with builds := mput e.builds n b }) s
def delBuild (n : Nat) (s : State) : State := setEvt (fun e => { e with builds := mdel e.builds n }) s
/-- The parts of a new build: the quadrants that do not take part are out (R326). -/
def newParts (takes : List Nat) : FMap Part :=
  (List.range 4).foldl (fun m q => if takes.contains q then m else mput m q (.out false)) []
def addBuild (b : Build) (s : State) : State :=
  setEvt (fun e => { e with builds := mput e.builds e.nextBuild b, nextBuild := e.nextBuild + 1 }) s

/-- A readout profile (R325). -/
def profileOf (n : Nat) (s : State) : Profile := mget {} s.evt.profiles n

/-- The collector (R326): quadrant n mod 4, or the next that is neither gated nor in reset. [DEDUCED, log 56] -/
def collectorOf (n : Nat) (s : State) : Nat :=
  (((List.range 4).map (fun i => (n + i) % 4)).find? (fun q => evbUp q s)).getD (n % 4)

/-- The number that picks a build's collector. -/
def pickNum (ta : Ta) (r : Option Recall) : Nat :=
  match r with
  | some x => if x.trigValid then ta.trig else x.reqId
  | none => ta.trig

/-- Builds in which an EVB takes part, 64 at most (R340). -/
def buildsIn (q : Nat) (s : State) : Nat :=
  (s.evt.builds.filter (fun e => (mfind e.2.parts q).isSome)).length

/-! ### Matching and sizing (R325, R328–R331) -/

/-- A stream id matches a pattern (R300). -/
def patMatch (sel mask id : Nat) : Bool := decide (id &&& mask = sel &&& mask)

/-- The time base of a stream: its port's (R78). -/
def streamTb (x : Stream) (s : State) : Nat := rfld (portBase x.cfg.port) 18 16 s

/-- Inserts by stream id. -/
def insStream (x : Stream) : List Stream → List Stream
  | [] => [x]
  | y :: l => if x.id < y.id then x :: y :: l else y :: insStream x l

/-- The streams of a quadrant that match, by id (R330). -/
def matching (q sel mask : Nat) (s : State) : List Stream :=
  ((s.streams.filter (fun e => decide (e.1 / 16384 = q) && e.2.cfg.hist && patMatch sel mask e.2.id)).map (·.2)).foldr insStream []

/-- The EVB may size its part (R328): its time base has passed end by 10 µs and every matching stream is covered. -/
def covered (q : Nat) (b : Build) (s : State) : Bool :=
  (matching q b.prof.sel b.prof.mask s).all (fun x =>
    decide (streamTb x s ≠ b.ta.tb) || historyPast q x (b.stop * 65536) s)
def settled (b : Build) (extra : Nat) (s : State) : Bool := decide (b.stop + 10000 + extra ≤ tbNs b.ta.tb s)

/-- The fragment of a run (R330, R336). -/
def sampleFrag (q tb : Nat) (x : Stream) (bs : List HBatch) (part : Bool) (r : HBatch) (lo hi : Nat) : Frag :=
  let start := gridFrom r.first r.period lo
  let n := gridCount start r.period hi
  let comps := (gridInstants bs r.complex start r.period n).flatten
  { attach := false, quadrant := q, stream := x.id, complex := r.complex, w16 := r.w16, tb := tb, part := part,
    gap := comps.any (fun c => decide (c.2 = 2)), poisoned := comps.any (fun c => decide (c.2 = 3)), count := n,
    start := start, period := r.period, comps := comps, bytes := [], seq := 0, engine := 0, cls := 0 }

/-- The sample fragments of one stream; none when its index holds nothing (R330). -/
def streamFrags (q : Nat) (b : Build) (x : Stream) (s : State) : List Frag :=
  let bs := (heldBatches q x.id s).filter (fun z => decide (z.tb = b.ta.tb))
  let w0 := b.start * 65536; let w1 := b.stop * 65536
  let late : Bool := x.gap.isSome || (match x.open_ with | some o => decide (w1 ≤ o.tFirst) | none => false)
  let part := windowPartial q x.id late w0 w1 s
  (windowRuns ((indexBatches q x.id s).filter (fun z => decide (z.tb = b.ta.tb))) w0 w1).map (fun r =>
    sampleFrag q b.ta.tb x bs part r.1 r.2.1 r.2.2)

/-- The time of an attachment's TP, extended (R117, R331). -/
def attachTime (a : Attach) (s : State) : Nat := extendNs a.time (tbNs a.tb s)

/-- Inserts an attachment by engine and tp_seq (R332). -/
def insAttach (a : Attach) : List Attach → List Attach
  | [] => [a]
  | b :: l => if a.engine < b.engine ∨ (a.engine = b.engine ∧ a.seq < b.seq) then a :: b :: l else b :: insAttach a l

/-- The attachment fragments of a quadrant (R331). -/
def attachFrags (q : Nat) (b : Build) (s : State) : List Frag :=
  if b.prof.attach then
    let l := (mget [] s.evt.attach q).filter (fun a =>
      decide (a.tb = b.ta.tb ∧ b.start ≤ attachTime a s ∧ attachTime a s < b.stop))
    (l.foldr insAttach []).map (fun a =>
      let z := buf a.buf s
      { attach := true, quadrant := q, stream := a.stream, complex := false, w16 := false, tb := a.tb, part := false, gap := false,
        poisoned := false, count := z.size, start := attachTime a s * 65536, period := 0, comps := [],
        bytes := bufRd z 0 z.size, seq := a.seq, engine := a.engine, cls := a.cls })
  else []

/-- Sizes an EVB's part (R329–R331): its fragments, and whether a matching stream yielded none; streams of another time base
count in TB_SKIP. [DEDUCED, log 58] -/
def sizePart (q n : Nat) (s : State) : State :=
  match buildOf n s with
  | none => s
  | some b =>
    let ms := matching q b.prof.sel b.prof.mask s
    let own := ms.filter (fun x => decide (streamTb x s = b.ta.tb))
    let fr := own.map (fun x => streamFrags q b x s)
    let short := fr.any (·.isEmpty)
    let c := b.collector.getD (collectorOf (pickNum b.ta b.rcl) s)
    bumpN (evbCnt q 11) (ms.length - own.length)
      (setBuild n { b with collector := some c, parts := mput b.parts q (.sized (fr.flatten ++ attachFrags q b s) short) } s)

/-! ### The record's bytes (R332–R335) -/

/-- Bytes of a fragment (R334). -/
def fragLen (f : Frag) : Nat :=
  if f.attach then 64 + granules f.count
  else 64 + granules (f.comps.length * cbytes f.w16) + granules ((f.comps.length + 3) / 4)

/-- Bytes of a record. -/
def recordLen (l : List Frag) : Nat := 64 + granules (16 * l.length) + (l.map fragLen).sum

/-- A fragment as it stands in a record (R334). -/
def fragBytes (f : Frag) : List Nat :=
  let sp := pad64 (samplePlane f.w16 f.comps)
  let gaps : Nat := if f.attach then 0 else (f.comps.filter (fun c => decide (c.2 = 2))).length / cpi f.complex
  leBytes 4 (b1 f.attach <<< 28 ||| b1 f.complex <<< 27 ||| b1 f.w16 <<< 26 ||| f.tb <<< 23 ||| b1 f.part <<< 22 ||| b1 f.gap <<< 21
      ||| b1 f.poisoned <<< 20 ||| f.stream)
    ++ leBytes 4 f.count ++ leBytes 8 (f.start / 65536) ++ leBytes 4 ((f.start % 65536) <<< 16) ++ leBytes 8 (f.period % 2 ^ 48)
    ++ leBytes 4 (if f.attach then 0 else 64 + sp.length) ++ leBytes 4 (countFlag 3 f.comps <<< 16 ||| countFlag 1 f.comps)
    ++ leBytes 4 gaps ++ leBytes 4 (if f.attach then f.seq <<< 16 ||| f.engine <<< 8 ||| f.cls else 0) ++ List.replicate 20 0
    ++ (if f.attach then pad64 f.bytes else sp ++ pad64 (flagPlane f.comps))

/-- A directory entry (R333). -/
def dirEntry (f : Frag) (off : Nat) : List Nat :=
  leBytes 4 off ++ leBytes 4 (fragLen f)
    ++ leBytes 4 (b1 f.attach <<< 28 ||| f.quadrant <<< 26 ||| b1 f.part <<< 25 ||| b1 f.gap <<< 24 ||| b1 f.poisoned <<< 23 ||| f.stream)
    ++ [0, 0, 0, 0]

/-- The directory of fragments from an offset, those of quadrants that are left out skipped. -/
def dirBytes (skip : List Nat) : List Frag → Nat → List Nat
  | [], _ => []
  | f :: l, off => (if skip.contains f.quadrant then [] else dirEntry f off) ++ dirBytes skip l (off + fragLen f)

/-- A part's fragments. -/
def partFrags : Part → List Frag
  | .sized l _ => l
  | .done l _ => l
  | .gone l => l
  | _ => []

/-- The fragments of a part that was lost after the record was laid out are left out of it (R339). -/
def partLive : Part → Bool
  | .gone _ => false
  | _ => true

/-- The fragments the record holds. -/
def liveFrags (b : Build) : List Frag :=
  ((List.range 4).map (fun q => match mfind b.parts q with | some p => if partLive p then partFrags p else [] | none => [])).flatten

/-- All fragments of a build as it was laid out, by quadrant: they give every offset and the record's length. -/
def allFrags (b : Build) : List Frag := ((List.range 4).map (fun q => match mfind b.parts q with | some p => partFrags p | none => [])).flatten

/-- Offset of a quadrant's region. -/
def regionOff (b : Build) (q : Nat) : Nat :=
  64 + granules (16 * (allFrags b).length) + (((allFrags b).filter (fun f => decide (f.quadrant < q))).map fragLen).sum

/-- The quadrants whose part is present (R332). -/
def quadBits (b : Build) : Nat :=
  ((List.range 4).map (fun q => if (liveFrags b).any (fun f => decide (f.quadrant = q)) then 2 ^ q else 0)).sum

/-- The record's partial bit (R332). -/
def recPartial (b : Build) : Bool :=
  (allFrags b).any (·.part) || b.parts.any (fun p => match p.2 with
    | .out lost => lost
    | .sized _ short => short
    | .done _ short => short
    | .gone _ => true
    | .waiting => false)

/-- The header of the record (R332). -/
def recHeader (b : Build) (profNum dev : Nat) : List Nat :=
  let t := b.ta
  let req : Nat := match b.rcl with | some r => r.reqId | none => 0
  let h := leBytes 4 (1 <<< 28 ||| b1 (recPartial b) <<< 23 ||| b1 b.truncated <<< 22 ||| b1 b.rcl.isSome <<< 21
        ||| b1 (t.system && b.rcl.isNone) <<< 20 ||| profNum <<< 12 ||| t.device)
    ++ leBytes 4 (t.trig % 2 ^ 32) ++ leBytes 4 ((t.trig / 2 ^ 32 % 2 ^ 16) <<< 16 ||| t.tb <<< 13) ++ leBytes 8 t.t
    ++ leBytes 8 t.cond ++ leBytes 4 (recordLen (allFrags b)) ++ leBytes 4 (liveFrags b).length ++ leBytes 4 req
    ++ leBytes 8 b.start ++ leBytes 8 b.stop ++ leBytes 4 (quadBits b <<< 12 ||| dev)
  h ++ leBytes 4 (crc32c h)

/-- Header and directory, padded (R332). -/
def headBytes (b : Build) (dev : Nat) : List Nat :=
  let room := granules (16 * (allFrags b).length)
  let dir := dirBytes ((List.range 4).filter (fun q => ! (mfind b.parts q).all partLive)) (allFrags b) (64 + room)
  recHeader b b.ta.profile dev ++ dir ++ List.replicate (room - dir.length) 0

/-! ### Truncation (R335) -/

/-- A sample fragment cut after n instants, or an attachment after n bytes; gap and poisoned tell of what is left (R334, R335). -/
def cutFrag (f : Frag) (n : Nat) : Frag :=
  let comps := f.comps.take (n * cpi f.complex)
  { f with part := true, count := n, comps := comps, bytes := f.bytes.take n
           gap := comps.any (fun c => decide (c.2 = 2)), poisoned := comps.any (fun c => decide (c.2 = 3)) }

/-- The largest n up to a bound that satisfies a test, or 0. -/
def largest (p : Nat → Bool) : Nat → Nat
  | 0 => 0
  | n + 1 => if p (n + 1) then n + 1 else largest p n

/-- The fragments that fit max_bytes, and whether some were left out or cut. -/
def truncFrags (mx : Nat) (l : List Frag) : List Frag × Bool :=
  if recordLen l ≤ mx then (l, false)
  else
    let n := largest (fun k => decide (recordLen (l.take k) ≤ mx)) l.length
    match n, l with
    | 0, f :: _ => ([cutFrag f (largest (fun k => decide (recordLen [cutFrag f k] ≤ mx)) f.count)], true)
    | _, _ => (l.take n, true)

/-- Every EVB has sized or is out (R326). -/
def sizesIn (b : Build) : Bool :=
  (List.range 4).all (fun q => match mfind b.parts q with
    | none | some .waiting => false
    | some _ => true)

/-- Lays the record out (R326, R332, R335): fragments beyond max_bytes go. -/
def layOut (b : Build) : Build :=
  let t := truncFrags (b.prof.maxUnits * 4096) (allFrags b)
  { b with truncated := t.2, parts := b.parts.map (fun p => (p.1, match p.2 with
    | .sized _ short => .sized (t.1.filter (fun f => decide (f.quadrant = p.1))) short
    | x => x)) }

/-! ### Host route: quotas and posts (R323, R324, R360, R361) -/

/-- The host function and ring slot of a build. -/
def evSlot (b : Build) : Nat := 128 + b.prof.ring
def byteQuota (f : Nat) (s : State) : Nat := mget (256 * 2 ^ 20) s.evt.byteQuota f
def cntQuota (f : Nat) (s : State) : Nat := mget 65536 s.evt.cntQuota f

/-- Records on their way to a function. [DEDUCED, log 63] -/
def movingTo (f : Nat) (s : State) : List Build :=
  (s.evt.builds.map (·.2)).filter (fun b => decide (b.prof.func = f) && ! b.posts.isEmpty)

/-- Delivered and on the way: bytes and records (R323). [DEDUCED, log 63] -/
def outstanding (f : Nat) (s : State) : Nat × Nat :=
  let d := s.evt.delivered.filter (fun x => decide (x.func = f))
  let m := movingTo f s
  ((d.map (·.length)).sum + (m.map (fun b => recordLen (allFrags b))).sum, d.length + m.length)

/-- [DEDUCED, log 63] -/
def quotaRoom (f len : Nat) (s : State) : Bool :=
  let o := outstanding f s
  decide (o.1 + len ≤ byteQuota f s ∧ o.2 + 1 ≤ cntQuota f s)

/-- What reading posts for a record gives: the posts it takes, too little posted, a bad entry, a failed read, or more posts than
the ring can hold. -/
inductive Posts where
  | got (l : List PostUse) | few | bad | failed | never
  deriving DecidableEq

/-- A segment entry within its rules (R360). -/
def segOf (e : BitVec 128) : Option Seg :=
  let v := e.toNat
  let len := bits v 95 64
  if bits v 5 0 = 0 ∧ bits v 127 96 = 0 ∧ 64 ≤ len ∧ len % 64 = 0 then some ⟨bits v 63 0, len⟩ else none

/-- Reads one post (R360). -/
def readPost (p : Post) : Posts :=
  match p.raw with
  | none => .failed
  | some r =>
    let v := r.toNat
    let n := bits v 76 64
    if bits v 5 0 ≠ 0 ∨ bits v 127 77 ≠ 0 ∨ n = 0 ∨ 4096 < n ∨ bits v 511 192 ≠ 0 then .bad
    else match p.segs with
      | none => .failed
      | some l =>
        let g := (l.take n).map segOf
        if g.length < n then .failed
        else if g.any Option.isNone then .bad
        else .got [⟨bits v 191 128, g.filterMap id⟩]

def capacity (p : PostUse) : Nat := (p.segs.map (·.len)).sum

/-- Takes posts in index order until a length fits (R361): `room` are posted, `size` the ring holds. -/
def takePosts (len room size : Nat) : List Post → List PostUse → Posts
  | l, acc =>
    if len ≤ (acc.map capacity).sum then .got acc
    else if min size 65535 ≤ acc.length then .never
    else if room ≤ acc.length then .few
    else match l with
      | [] => .few
      | p :: r => match readPost p with
        | .got u => takePosts len room size r (acc ++ u)
        | x => x

/-- Bytes of a record at an offset, over segments (R361). -/
def segWrites : List Seg → Nat → List Nat → List (Nat × List Nat)
  | [], _, _ => []
  | g :: l, off, bs =>
    if bs.isEmpty then []
    else if g.len ≤ off then segWrites l (off - g.len) bs
    else (g.addr + off, bs.take (g.len - off)) :: segWrites l 0 (bs.drop (g.len - off))

/-- Writes record bytes into the posted buffers. -/
def hostPut (b : Build) (off : Nat) (bs : List Nat) (s : State) : State :=
  (segWrites ((b.posts.map (·.segs)).flatten) off bs).foldl (fun s w => emit (.hostWrite b.prof.func w.1 w.2) s) s

/-! ### Event frames (R337) -/

/-- The header of an event frame (R337). [DEDUCED, log 61] -/
def frameHead (b : Build) (q : Nat) (last : Bool) (off n seq dev : Nat) : List Nat :=
  let trigLo : Nat := match b.rcl with
    | some r => if r.trigValid then b.ta.trig % 2 ^ 32 else r.reqId
    | none => b.ta.trig % 2 ^ 32
  let h := beBytes 4 (1 <<< 28 ||| q <<< 26 ||| b1 last <<< 25 ||| dev) ++ beBytes 4 trigLo
    ++ beBytes 4 ((b.ta.trig / 2 ^ 32 % 2 ^ 16) <<< 16 ||| b.ta.device) ++ beBytes 4 (recordLen (allFrags b)) ++ beBytes 4 off
    ++ beBytes 4 n ++ beBytes 4 seq
  h ++ beBytes 4 (crc32c h)

/-- The chunk of a port (R337): the largest multiple of 64 that fits PORT_MAXLEN. -/
def chunkOf (p : Nat) (v6 : Bool) (s : State) : Nat :=
  (rfld (portBase p + 0x28) 13 0 s - (if v6 then 98 else 78)) / 64 * 64

/-- Queues the frames of a region on a port; one that meets a port that is OFF or down is dropped (R337). The header fields of the
network layer that the spec leaves open are free. [DEDUCED, log 65] -/
def queueFrames (b : Build) (q p key chunk : Nat) : Nat → Nat → List Nat → State → State
  | 0, _, _, s => s
  | fuel + 1, off, bs, s =>
    if bs.isEmpty then s
    else if ! (port p s).linkUp ∨ ! portPowered p s then
      queueFrames b q p key chunk fuel (off + chunk) (bs.drop chunk) (bump (evbCnt q 16) s)
    else
      let c := bs.take chunk
      let f := takeFree s
      let seq := (port p s).frameSeq
      let h := frameHead b q (decide (bs.length ≤ chunk)) off c.length seq (deviceNum s)
      let fr := udpPacket p b.prof.v6 b.prof.mac b.prof.ip b.prof.sport b.prof.dport f.1.toNat (h ++ c) s
      let s1 := setPort p (fun x => { x with txQ := x.txQ ++ [.event key fr], frameSeq := (seq + 1) % 2 ^ 32 }) f.2
      queueFrames b q p key chunk fuel (off + chunk) (bs.drop chunk) (bumpN (evbCnt q 4) c.length s1)

/-- Sends a region on the profile's port of a quadrant, from a staging buffer the port then owns (R317, R337). None while no
buffer can be had (R318). -/
def sendRegion (b : Build) (q off : Nat) (bs : List Nat) (s : State) : Option State :=
  match (b.prof.ports.getD q none) with
  | none => some s
  | some l =>
    let p := q * 32 + l
    if bs.isEmpty then some s
    else match allocBuf q 3 bs.length (ownPort l) s with
      | none => none
      | some (key, s1) =>
        let s2 := queueFrames b q p key (chunkOf p b.prof.v6 s1) (bs.length + 1) off bs s1
        some (if (port p s2).txQ.any (holdsBuf key) then s2 else freeBuf key s2)

/-! ### What a finished record answers (R302, R338, R399, R400) -/

/-- The result word of a RECALL (R400). -/
def recallResult (dev frags len : Nat) : Nat := dev * 2 ^ 52 + frags % 65536 * 2 ^ 32 + len % 2 ^ 32

/-- A REPLY's record (R302). -/
def replyBytes (reqId : Nat) (r : ReplyRec) : List Nat :=
  beBytes 4 reqId ++ beBytes 4 (r.status <<< 24 ||| b1 r.part <<< 23 ||| r.frags % 65536) ++ beBytes 4 r.length ++ beBytes 4 r.time

/-- A REPLY entry (R399). -/
def replyEntry (src : Src) (st : Status) (part : Bool) (result : Nat) (s : State) : State :=
  complEntry src { cmdEntry src st result 0 false part with kind := .reply } s

/-- The reply of a remembered request is known (R301). -/
def askedDone (num reqId : Nat) (x : ReplyRec) (s : State) : State :=
  setEvt (fun e => { e with asked := e.asked.map (fun a =>
    if a.device = num ∧ a.reqId = reqId ∧ a.reply = none then { a with reply := some x } else a) }) s

/-- What an answerer sends to the device that asked, when it asked for a REPLY (R302); a status other than OK counts (R305). -/
def sendReply (num reqId : Nat) (reply : Bool) (x : ReplyRec) (s : State) : State :=
  let s1 := if x.status = 0 then s else bump (sysCnt 19) s
  if reply then (gcmSend 4 1 (some num) (replyBytes reqId x) s1).1 else s1

/-- Answers a RECALL: its command, a REPLY entry for the requester itself, or a REPLY to the device that asked (R302, R399). [DEDUCED, log 60] -/
def finishRecall (r : Recall) (st : Status) (part : Bool) (frags len : Nat) (s : State) : State :=
  let x : ReplyRec := ⟨statusCode st, part, frags, len, tbNs 0 s % 2 ^ 32⟩
  match r.asker with
  | .host src self =>
    let res := if st = .ok ∨ self = true then recallResult (deviceNum s) frags len else 0
    if self then replyEntry src st part res (askedDone (deviceNum s) r.reqId x s) else completeWith src st res 0 false part s
  | .device num reply => sendReply num r.reqId reply x (askedDone num r.reqId x s)

/-- Frees what a build staged. [DEDUCED, log 64] -/
def freeStaged (b : Build) (s : State) : State := b.staged.foldl (fun s k => freeBuf k s) s

/-- A build ends: its staging is freed and its RECALL answered (R58, R327, R338). -/
def endBuild (n : Nat) (b : Build) (s : State) : State :=
  let s1 := delBuild n (freeStaged b s)
  match b.rcl with
  | some r => finishRecall r (if b.drained then .aborted else .ok) (recPartial b) (liveFrags b).length (recordLen (allFrags b)) s1
  | none => s1

/-! ### Waiting (R324) -/

/-- Stages a record in every quadrant that has fragments: none when EVB_STAGE_MAX or R318 forbids it. [DEDUCED, log 64] -/
def stageAll (b : Build) (s : State) : Option (List Nat × State) :=
  (List.range 4).foldl (fun acc q => match acc with
    | none => none
    | some (ks, s) =>
      let len := (((allFrags b).filter (fun f => decide (f.quadrant = q))).map fragLen).sum
      let used := ((liveBufs q 3 s).map (fun e => granules e.2.size)).sum
      if len = 0 then some (ks, s)
      else if rfld (evbBase q + 4) 4 0 s * 2 ^ 20 < used + len then none
      else (allocBuf q 3 len ownEvb s).map (fun r => (r.1 :: ks, r.2))) (some ([], s))

/-- The profile names a port. -/
def anyPort (p : Profile) : Bool := p.ports.any Option.isSome

/-- The policy of a record that may not wait (R324): spilled to the profile's ports, or dropped. [DEDUCED, log 62] -/
def applyPolicy (n : Nat) (b : Build) (s : State) : State :=
  let q := b.collector.getD 0
  if b.prof.policy = 1 ∧ anyPort b.prof then
    bump (evbCnt q 6) (setBuild n { b with stage := .moving true, staged := [] } (freeStaged b s))
  else endBuild n b (bump (evbCnt q 7) s)

/-- A record of a host route begins to wait (R324, R48): staged, or its policy at once. -/
def holdRecord (n : Nat) (b : Build) (s : State) : State :=
  if b.prof.policy = 2 then applyPolicy n b s
  else match stageAll b s with
    | none => applyPolicy n b s
    | some (ks, s1) =>
      let s2 := bump (evbCnt (b.collector.getD 0) 5) (setBuild n { b with stage := .held s.ticks, staged := ks } s1)
      if fnAwake b.prof.func s2 then s2 else wakeFn b.prof.func s2

/-- An earlier record of the same ring waits: records leave in build order (R324). -/
def earlierHeld (n : Nat) (b : Build) (s : State) : Bool :=
  s.evt.builds.any (fun e => decide (e.1 < n) && decide (e.2.prof.func = b.prof.func ∧ e.2.prof.ring = b.prof.ring)
    && (match e.2.stage with | .held _ => true | _ => false))

/-- Tries to give a laid-out record of a host route its posts (R324, R361): the record then moves; without room it waits; a bad or
failed post stops the ring. [DEDUCED, log 62] -/
def placeHost (n : Nat) (b : Build) (posts : List Post) (s : State) : State :=
  let f := b.prof.func; let r := evSlot b
  let len := recordLen (allFrags b)
  let wait (s : State) : State := match b.stage with | .held _ => s | _ => holdRecord n b s
  let size := ringSize f r s
  let room := (ring f r s).host - (ring f r s).dev - (ring f r s).resv
  if ! hostUp f s ∨ ! fnAwake f s ∨ ! ringRuns f r s ∨ ! quotaRoom f len s ∨ earlierHeld n b s then wait s
  else match takePosts len room size posts [] with
    | .got l =>
      let s1 := setRing f r (fun x => { x with resv := x.resv + l.length }) s
      setBuild n { b with stage := .moving false, posts := l, first := (ring f r s).dev + (ring f r s).resv } s1
    | .few => wait s
    | .bad => wait (stopRing f r .rsvdField s)
    | .failed => wait (stopRing f r .fault s)
    | .never => applyPolicy n b s

/-- The route of a laid-out record (R324, R325): under BOTH, a record without room for the host goes to the ports alone. -/
def route_ (n : Nat) (b : Build) (posts : List Post) (s : State) : State :=
  match b.prof.dest with
  | 0 => placeHost n b posts s
  | 1 => setBuild n { b with stage := .moving true } s
  | _ =>
    let s1 := placeHost n { b with stage := .held s.ticks, prof := { b.prof with policy := 1 } } posts (setBuild n b s)
    match buildOf n s1 with
    | some x =>
      let alone : Bool := x.posts.isEmpty && (match x.stage with | .moving _ => false | _ => true)
      if alone then bump (evbCnt (b.collector.getD 0) 6) (setBuild n { b with stage := .moving true } s1) else s1
    | none => s1

/-- A record goes to ports. [DEDUCED, log 62] -/
def toPorts (b : Build) : Bool := decide (b.prof.dest = 2) || (match b.stage with | .moving x => x | _ => false)

/-- The components of a fragment that HIST reads from HBM with an uncorrectable error become POISON, whose value is 0 (R83, R429). -/
def fragErr (l : List Nat) (f : Frag) : Frag :=
  let hit (c : Int × Nat) (i : Nat) : Bool := l.contains i && decide (c.2 ≠ 2)
  if f.attach then f
  else { f with comps := f.comps.zipIdx.map (fun x => if hit x.1 x.2 then (0, 3) else x.1)
                poisoned := f.poisoned || f.comps.zipIdx.any (fun x => hit x.1 x.2) }

/-- The uncorrectable errors met in reading an EVB's part, by fragment and component (R429). -/
def readErrs (q : Nat) (errs : List (Nat × Nat)) (b : Build) : Build :=
  match mfind b.parts q with
  | some (.sized l short) =>
    { b with parts := mput b.parts q (.sized (l.zipIdx.map (fun x =>
        fragErr ((errs.filter (fun e => decide (e.1 = x.2))).map (·.2)) x.1)) short) }
  | _ => b

/-- An EVB writes and sends its region (R326, R337); none while its staging cannot be had. -/
def regionDone (q n : Nat) (b : Build) (s : State) : Option State :=
  match mfind b.parts q with
  | some (.sized l short) =>
    let bs := (l.map fragBytes).flatten
    let off := regionOff b q
    let s1 := bumpN (evbCnt q 2) l.length (setBuild n { b with parts := mput b.parts q (.done l short) } s)
    let s2 := if b.posts.isEmpty then s1 else bumpN (evbCnt q 3) bs.length (hostPut b off bs s1)
    if toPorts b then sendRegion b q off bs s2 else some s2
  | _ => some s

/-! ### Delivery (R337, R361, R362) -/

/-- A delivery descriptor (R362). [DEDUCED, log 64] -/
def delivDesc (b : Build) (key gen : Nat) (cookie seq inPost : Nat) : List Nat :=
  let req : Nat := match b.rcl with | some r => r.reqId | none => 0
  leBytes 4 ((if seq = 0 then 1 else 2) <<< 28 ||| b1 (recPartial b) <<< 27 ||| b1 b.truncated <<< 26 ||| b1 b.rcl.isSome <<< 25
      ||| b1 (b.ta.system && b.rcl.isNone) <<< 24 ||| quadBits b <<< 20 ||| b.posts.length)
    ++ leBytes 4 (recordLen (allFrags b)) ++ leBytes 4 key ++ leBytes 4 gen ++ leBytes 8 cookie ++ leBytes 8 b.ta.t
    ++ leBytes 4 (b.ta.trig % 2 ^ 32) ++ leBytes 4 ((b.ta.trig / 2 ^ 32 % 2 ^ 16) <<< 16 ||| b.ta.device) ++ leBytes 4 req
    ++ leBytes 4 (seq <<< 16 ||| b.ta.profile <<< 8) ++ leBytes 8 b.ta.cond ++ leBytes 4 inPost ++ [0, 0, 0, 0]

/-- The delivery descriptors of a record, written over its posts. -/
def writeDescs (b : Build) (key gen r : Nat) : List PostUse → Nat → Nat → State → State
  | [], _, _, s => s
  | p :: l, i, left, s =>
    let n := min left (capacity p)
    writeDescs b key gen r l (i + 1) (left - n)
      (emit (.hostWrite b.prof.func (ringAddr b.prof.func r (b.first + i) s) (delivDesc b key gen p.cookie i n)) s)

/-- The device index passes the posts of written records, in order (R361, R374). -/
def passWritten (fuel f r : Nat) (s : State) : State :=
  match fuel with
  | 0 => s
  | k + 1 =>
    let x := ring f r s
    match x.written.find? (fun w => decide (w.1 = x.dev)) with
    | none => s
    | some w =>
      let upd (y : RingSt) : RingSt :=
        let left := y.written.filter (fun v => decide (v.1 ≠ w.1))
        { y with dev := y.dev + w.2, resv := y.resv - w.2, written := left, cnt := y.cnt + 1, oldest := some (y.oldest.getD s.ticks) }
      let s1 := setRing f r upd s
      passWritten k f r (coalesce f r (writeShadow f r (ring f r s1).dev s1))

/-- Posts a record to its host function: it holds a DELIVERED handle from then on (R337). None while the pool is full. [DEDUCED, log 64] -/
def deliverHost (q : Nat) (b : Build) (s : State) : Option State :=
  let f := b.prof.func; let r := evSlot b
  let len := recordLen (allFrags b)
  match allocBuf q 4 len (ownHost f) s with
  | none => none
  | some (key, s1) =>
    let head := headBytes b (deviceNum s)
    let s2 := bumpN (evbCnt q 3) head.length (hostPut b 0 head s1)
    let s3 := writeDescs b key (buf key s2).gen r b.posts 0 len s2
    let s4 := setEvt (fun e => { e with delivered := e.delivered ++ [⟨key, f, len⟩] }) s3
    let s5 := bumpN (fnCnt f 5) len (bump (fnCnt f 4) s4)
    let live := (ring f r s).en && decide ((ring f r s).dev ≤ b.first)
    some (if live then passWritten (b.posts.length + 64) f r (setRing f r (fun x => { x with
      written := x.written ++ [(b.first, b.posts.length)] }) s5) else s5)

/-- Every EVB has reported completion (R326). -/
def regionsDone (b : Build) : Bool :=
  b.parts.all (fun p => match p.2 with | .done _ _ | .out _ | .gone _ => true | _ => false)

/-- The collector completes the record by its route (R326, R332, R337). -/
def deliverRecord (n : Nat) (b : Build) (s : State) : Option State :=
  let q := b.collector.getD 0
  let s1 : Option State := if toPorts b then sendRegion b q 0 (headBytes b (deviceNum s)) s else some s
  let s2 : Option State := s1.bind (fun s => if b.posts.isEmpty then some s else deliverHost q b s)
  s2.map (fun s =>
    let s3 := bump (evbCnt q 1) s
    let s4 := if b.truncated then bump (evbCnt q 8) s3 else s3
    endBuild n b (if recPartial b then bump (evbCnt q 9) s4 else s4))

/-! ### Drains and resets (R58, R327, R339) -/

/-- A fragment whose reads have ended. -/
def unread (f : Frag) : Frag :=
  if f.attach then { f with part := true } else
    { f with part := true, gap := true, poisoned := false, comps := f.comps.map (fun _ => (0, 2)) }

/-- An EVB that may take part in a build has not done its part. -/
def partsOpen (b : Build) : Bool :=
  (List.range 4).any (fun q => match mfind b.parts q with
    | some (.done _ _) | some (.out _) | some (.gone _) => false
    | _ => true)

/-- A drain ends the reads of the builds that are not done (R58): what is unread is PARTIAL, and a RECALL will end ABORTED. -/
def drainBuilds (s : State) : State :=
  s.evt.builds.foldl (fun s e =>
    let s1 := (List.range 4).foldl (fun s q =>
      match buildOf e.1 s with
      | some b => (match mfind b.parts q with
        | none | some .waiting => if evbUp q s then sizePart q e.1 s else s
        | _ => s)
      | none => s) s
    match buildOf e.1 s1 with
    | some b =>
      let end_ (p : Part) : Part := match p with
        | .sized l short => .sized (l.map unread) short
        | x => x
      let c := b.collector.getD (collectorOf (pickNum b.ta b.rcl) s1)
      let late := b.drained || partsOpen b
      setBuild e.1 { b with drained := late, collector := some c, parts := b.parts.map (fun p => (p.1, end_ p.2)) } s1
    | none => s1) s

/-- A build reads, or may yet read, HBM history (R58). [DEDUCED, log 60] -/
def drainPending (s : State) : Bool := s.evt.builds.any (fun e => ! e.2.drained && partsOpen e.2)

/-- A build loses a quadrant by L3 or Vigil (R339): a part not yet sized or laid out is out, one laid out and not yet written stays empty;
one that is done stands. `lost`: an EVB that had not begun its part counts as lost, too. [DEDUCED, log 57] -/
def loseQuad (q : Nat) (lost : Bool) (b : Build) : Build :=
  let p : Part := match mfind b.parts q, b.stage with
    | some (.done l short), _ => .done l short
    | some (.gone l), _ => .gone l
    | some (.out l), _ => .out l
    | some (.sized _ _), .sizing => .out true
    | some (.sized l _), _ => .gone l
    | some .waiting, _ => .out true
    | none, _ => .out lost
  { b with parts := mput b.parts q p }

/-- An L3 reset of a quadrant (R339): its part is left out; a build it collects is abandoned. -/
def resetBuilds (q : Nat) (s : State) : State :=
  s.evt.builds.foldl (fun s e =>
    if e.2.collector = some q then
      let others := (List.range 4).filter (fun k => decide (k ≠ q) && (mfind e.2.parts k).any (fun p => match p with
        | .out _ => false | _ => true))
      let s1 := others.foldl (fun s k => bump (evbCnt k 13) s) (delBuild e.1 (freeStaged e.2 s))
      match e.2.rcl with
      | some r => (match r.asker with
        | .host _ _ => finishRecall r .aborted false 0 0 s1
        | .device _ _ => s1)
      | none => s1
    else setBuild e.1 (loseQuad q true e.2) s) s

/-- The quadrants that Vigil gates contribute nothing to the builds in progress (R339). An EVB that collects a record goes on with it.
[DEDUCED, log 57] -/
def gateBuilds (s : State) : State :=
  s.evt.builds.foldl (fun s e =>
    setBuild e.1 ((List.range 4).foldl (fun b q => if evbUp q s then b else loseQuad q false b) e.2) s) s

end Sys2Proof.Machine
end

