-- ==== Sys2Proof/Machine/SysCmds.lean ====
section
/-! DEFINITION. The meanings of the events of the joined system: HELLOs, beacons, received coincidence messages (R283–R302). -/

namespace Sys2Proof.Machine

/-- A HELLO record from a port (R289). -/
def helloBytes (p : Nat) (s : State) : List Nat :=
  beBytes 4 (b1 (isArbiter s) <<< 31 ||| b1 (activeArbiter s) <<< 30) ++ beBytes 4 p ++ List.replicate 8 0

/-- A period in µs since something was last sent is over, or nothing was. -/
def periodOver (last : Option Nat) (us : Nat) (s : State) : Bool :=
  match last with | some k => passed k (usTicks us) s | none => true

/-- LINK_HELLO_TX (R283): every hello_us a link HELLO leaves a link port whose link is up; none while VCOREC has failed (R303). The spec gives its dst no value: it is free.
[DESIGN CHOICE, log 19] -/
def execLinkHelloTx (p : Fin 128) (s : State) : Host.Outcome State Fault Refusal :=
  if linkPort p s ∧ (port p s).linkUp ∧ centralUp s ∧ periodOver (link p s).sent (helloUs s) s then
    let f := takeFree s
    let r := gcmNew 5 1 1 false (f.1.toNat % 4096) (helloBytes p f.2) f.2
    .next (bump (sysCnt 1) (gcmPut r.1 (setLink p (fun l => { l with sent := some s.ticks }) r.2) p))
  else .next s

/-- BEACON_TX (R289, R297): every beacon_us an active arbiter floods its beacon along the tree. [DESIGN CHOICE, log 19] -/
def execBeaconTx (s : State) : Host.Outcome State Fault Refusal :=
  if activeArbiter s ∧ centralUp s ∧ periodOver s.sys.beaconSent (beaconUs s) s then
    let s0 := setSys (fun y => { y with beaconSent := some s.ticks }) s
    match treePorts s with
    | [] => .next s0
    | ps =>
      let r := gcmNew 5 1 (rfld 0x84014 3 0 s) true 0 [] s0
      .next (bump (sysCnt 1) (ps.foldl (fun s p =>
        gcmPut { r.1 with body := (helloBytes p s).map (BitVec.ofNat 8) } s p) r.2))
  else .next s

/-- LINK_HELLO_TIMEOUT (R284, R303): no link HELLO for 4 × hello_us. -/
def execLinkHelloTimeout (p : Fin 128) (s : State) : Host.Outcome State Fault Refusal :=
  .next (if (link p s).up ∧ passed (link p s).last (usTicks (4 * helloUs s)) s then linkLost p s else s)

/-- BEACON_TIMEOUT (R296, R297): no beacon for 4 × beacon_us; slots 0 to 3 are the arbiter slots, 4 the primary of a standby. -/
def execBeaconTimeout (i : Fin 5) (s : State) : Host.Outcome State Fault Refusal :=
  let old (k : Nat) : Bool := passed k (usTicks (4 * beaconUs s)) s
  if i = 4 then
    match s.sys.primary with
    | some k => .next (if old k then setSys (fun y => { y with primary := none }) s else s)
    | none => .next s
  else match mfind s.sys.beacons i with
    | some k => .next (if old k then setSys (fun y => { y with beacons := mdel y.beacons i }) s else s)
    | none => .next s

/-! ### TP and TA (R291, R295, R298) -/

/-- The remote group's mark, in pips modulo 2^48 (R255). [DEDUCED, log 50] -/
def remoteMark (s : State) : Nat := wrapN 48 ((tbPips 0 s : Int) - nsPips (ccuLag s))

/-- A remote input enters the reorder buffer (R295): behind the mark it is late, and a full buffer drops it. Inputs the mark has
passed have left the buffer. [DEDUCED, log 50] -/
def remoteTake (x : CcuInput) (s : State) : State :=
  let m := remoteMark s
  let held := s.sys.remote.filter (fun y => decide (0 < sdiffP (inAt y) m))
  if 0 < sdiffP m (inAt x) then bump (ccuCnt 1) s
  else if 4096 ≤ held.length then bump (sysCnt 13) s
  else ccuArrive x (setSys (fun y => { y with remote := held ++ [x] }) s)

/-- lock_req drops records of a sender that is not LOCKED (R295). -/
def unlocked (g : Gcm) (s : State) : Bool := bit (reg 0x84000 s) 28 && decide (g.tb0 ≠ 2)

/-- A TP record (R289, R291, R295). -/
def takeTpRecord (g : Gcm) (s : State) (i : Nat) : State :=
  let l := gcmRec g i
  let w : TpWord := BitVec.ofNat 128 (((List.range 4).map (fun k => beNat (sliceB l (4 * k) 4) * 2 ^ (32 * k))).sum)
  if tpTb w ≠ 0 then bump (sysCnt 3) s
  else if unlocked g s then bump (sysCnt 12) s
  else remoteTake (tpInput 2 0 w) s

/-- GCM_TP_RECEIVE (R295). -/
def execGcmTpReceive (p : Fin 128) (g : Gcm) (good : Bool) (s : State) : Host.Outcome State Fault Refusal :=
  .next (gcmReceive 1 p g good (fun s => (List.range g.count).foldl (takeTpRecord g) s) s)

/-- A system TA enters the TA queue for the EVBs (R298). -/
def importTa (t : Ta) (s : State) : State :=
  let mask := reg 0x84068 s ||| reg 0x8406C s <<< 32
  if t.system ∧ t.cond &&& mask ≠ 0 then
    if taFull s then bump (sysCnt 17) s else bump (sysCnt 16) (taHold t true s)
  else s

/-- A TA record (R291, R295, R298): an input of the RTA terms, and the EVBs'. [DEDUCED, log 50] -/
def takeTaRecord (g : Gcm) (s : State) (i : Nat) : State :=
  let t := taOf (gcmRec g i)
  if t.tb ≠ 0 then bump (sysCnt 3) s
  else if unlocked g s then bump (sysCnt 12) s
  else importTa t (remoteTake ⟨6, 0, 0, 0, 0, t.cond, 0, t.t % 2 ^ 32, t.pips, 0, 0⟩ s)

/-- GCM_TA_RECEIVE (R298). -/
def execGcmTaReceive (p : Fin 128) (g : Gcm) (good : Bool) (s : State) : Host.Outcome State Fault Refusal :=
  .next (gcmReceive 2 p g good (fun s => (List.range g.count).foldl (takeTaRecord g) s) s)

/-! ### RECALL between devices (R300–R302) -/

/-- A RECALL request in the fields of R300. -/
structure RecallReq where
  reqId : Nat
  reply : Bool
  self : Bool
  profile : Nat
  sel : Nat
  mask : Nat
  start : Nat
  stop : Nat
  trigValid : Bool
  trigDev : Nat
  trig : Nat
  rsv : Bool
  deriving DecidableEq, Repr

/-- Reads a request record (R300). -/
def recallOf (l : List Nat) : RecallReq :=
  let w (i : Nat) : Nat := beNat (sliceB l (4 * i) 4)
  { reqId := w 0, reply := bit (w 1) 31, self := bit (w 1) 30, profile := bits (w 1) 27 20, sel := bits (w 1) 19 0,
    mask := bits (w 2) 19 0, start := w 3 * 2 ^ 32 + w 4, stop := w 5 * 2 ^ 32 + w 6, trigValid := bit (w 7) 31,
    trigDev := bits (w 7) 27 16, trig := bits (w 7) 15 0 * 2 ^ 32 + w 8,
    rsv := decide (bits (w 1) 29 28 ≠ 0 ∨ bits (w 2) 31 20 ≠ 0 ∨ bits (w 7) 30 28 ≠ 0) || (l.drop 36).any (fun b => decide (b ≠ 0)) }

/-- Writes a request record (R300). -/
def recallBytes (r : RecallReq) : List Nat :=
  beBytes 4 r.reqId ++ beBytes 4 (b1 r.reply <<< 31 ||| b1 r.self <<< 30 ||| r.profile <<< 20 ||| r.sel) ++ beBytes 4 r.mask
    ++ beBytes 8 r.start ++ beBytes 8 r.stop
    ++ beBytes 4 (b1 r.trigValid <<< 31 ||| r.trigDev <<< 16 ||| r.trig / 2 ^ 32 % 2 ^ 16) ++ beBytes 4 (r.trig % 2 ^ 32)
    ++ List.replicate 28 0

/-- Requests that are pending, local and remote (R301, R338). -/
def recallsPending (s : State) : Nat := (s.evt.builds.filter (fun e => e.2.rcl.isSome)).length

/-- The oldest instant of the SRAM rings on a time base, in ns. [DEDUCED, log 59] -/
def ringOldest (b : Nat) (s : State) : Option Nat :=
  let l := ((List.range 4).map (fun q => ((hist q s).ring.filter (fun x => decide (x.tb = b))).map (fun x => x.first / 65536))).flatten
  l.foldl (fun a x => some (match a with | some y => min x y | none => x)) none

/-- History that HBM keeps on a time base reaches past a time, in ns (R56). -/
def hbmPast (b start : Nat) (s : State) : Bool :=
  (List.range 4).any (fun q => (hist q s).blocks.any (fun k => k.bats.any (fun x =>
    decide (x.tb = b ∧ start * 65536 < x.first + x.n * x.period))))

/-- A window reaches into HBM time where HBM is not read (R53, R58, R338): it starts before the oldest instant of the SRAM ring, or, while
the ring is empty, before the end of what HBM keeps; while a transition leaves HBM history, before the present. In Safe nothing is
read (R327). [DEDUCED, log 59] -/
def recallMode (b start : Nat) (s : State) : Bool :=
  match s.mode.current with
  | .retain | .calibrate => (match s.mode.transit with
    | some t => decide (t.target ≠ .retain ∧ t.target ≠ .calibrate) && decide (start < tbNs b s)
    | none => false)
  | .acquire | .vigil => (match ringOldest b s with
    | some t => decide (start < t)
    | none => hbmPast b start s)
  | _ => true

/-- The window checks of R301. [DEDUCED, log 59] -/
def recallWindow (b start stop : Nat) (s : State) : Status :=
  let now := tbNs b s
  if ! (tb b s).valid then .fault
  else if stop ≤ start then .range
  else if start + 30000000000 < now then .range
  else if now + 1000000000 < stop then .range
  else .ok

/-- A request's checks in the order of R301, with the mode's (R327, R338) and the profile's. [DEDUCED, log 59] -/
def recallCheck (b : Nat) (r : RecallReq) (s : State) : Status :=
  if ! (tb b s).valid then .fault
  else if r.rsv then .rsvdField
  else match recallWindow b r.start r.stop s with
    | .ok =>
      if recallMode b r.start s then .mode
      else if ! (profileOf r.profile s).en then .range
      else if 64 ≤ recallsPending s then .noResource
      else .ok
    | st => st

/-- Any stream of the device matches. -/
def anyMatch (sel mask : Nat) (s : State) : Bool := (List.range 4).any (fun q => ! (matching q sel mask s).isEmpty)

/-- A refused request counts in SAFE_SKIP when Safe refused it (R327). -/
def skipCount (reqId : Nat) (st : Status) (s : State) : State :=
  if st = .mode ∧ s.mode.current = .safe then bump (evbCnt (reqId % 4) 17) s else s

/-- Holds an accepted request as a build; one that matches nothing completes at once (R301). [DEDUCED, log 60] -/
def recallStart (b : Nat) (r : RecallReq) (asker : Asker) (requester : Nat) (s : State) : State :=
  let rc : Recall := ⟨asker, r.reqId, r.trigValid⟩
  let ta : Ta :=
    { trig := if r.trigValid then r.trig else 0, tb := b, system := false, device := if r.trigValid then r.trigDev else requester,
      t := r.start, cond := 0, primary := 0, profile := r.profile, hits := 0, pips := 0 }
  let pr := { profileOf r.profile s with sel := r.sel, mask := r.mask }
  if anyMatch r.sel r.mask s then
    addBuild { ta := ta, rcl := some rc, prof := pr, start := r.start, stop := r.stop, collector := none,
               parts := newParts ((List.range 4).filter (fun q => evbUp q s)) } s
  else finishRecall rc .ok false 0 0 s

/-- The answerer remembers the last 64 pairs (R301). -/
def askedPut (src reqId : Nat) (s : State) : State :=
  setEvt (fun e => { e with asked := (⟨src, reqId, none⟩ :: e.asked).take 64 }) s

/-- A remembered pair (R301). -/
def askedOf (src reqId : Nat) (s : State) : Option Asked :=
  s.evt.asked.find? (fun a => decide (a.device = src ∧ a.reqId = reqId))

/-- The answerer's handling of a request that is not a repeat (R301). [DEDUCED, log 60] -/
def recallAnswer (src : Nat) (r : RecallReq) (s : State) : State :=
  match recallCheck 0 r s with
  | .ok => recallStart 0 r (.device src r.reply) src (askedPut src r.reqId s)
  | st => sendReply src r.reqId r.reply ⟨statusCode st, false, 0, 0, tbNs 0 s % 2 ^ 32⟩ (skipCount r.reqId st s)

/-- GCM_RECALL_RECEIVE (R301): a repeated pair builds nothing; a completed one is answered again. -/
def execGcmRecallReceive (p : Fin 128) (g : Gcm) (good : Bool) (s : State) : Host.Outcome State Fault Refusal :=
  let deliver (s : State) : State :=
    let r := recallOf (gcmRec g 0)
    let s0 := bump (sysCnt 18) s
    match askedOf g.src r.reqId s0 with
    | some a =>
      let s1 := bump (sysCnt 20) s0
      match a.reply with
      | some x => if r.reply then (gcmSend 4 1 (some g.src) (replyBytes r.reqId x) s1).1 else s1
      | none => s1
    | none => recallAnswer g.src r s0
  .next (gcmReceive 3 p g good deliver s)

/-- The status of a code (R397). -/
def statusOf (c : Nat) : Option Status :=
  [Status.ok, .rsvdField, .badOpcode, .range, .notOwner, .stale, .quota, .busy, .tooFar, .late, .aborted, .mode, .noResource,
   .jumpRefused, .link, .fault][c]?

/-- GCM_REPLY_RECEIVE (R302): reported to the function that issued the RECALL as a REPLY entry (R399). -/
def execGcmReplyReceive (p : Fin 128) (g : Gcm) (good : Bool) (s : State) : Host.Outcome State Fault Refusal :=
  let deliver (s : State) : State :=
    let l := gcmRec g 0
    let w (i : Nat) : Nat := beNat (sliceB l (4 * i) 4)
    match s.evt.issued.find? (fun x => decide (x.1 = w 0)), statusOf (bits (w 1) 31 24) with
    | some x, some st => replyEntry x.2 st (bit (w 1) 23) (recallResult g.src (bits (w 1) 15 0) (w 2)) s
    | _, _ => s
  .next (gcmReceive 4 p g good deliver s)

/-- A beacon tells that an arbiter slot, or a standby's primary, is alive (R296, R297). -/
def takeBeacon (src : Nat) (s : State) : State :=
  let s1 := (List.range 4).foldl (fun s i =>
    if arbSlot i s = some src then setSys (fun y => { y with beacons := mput y.beacons i s.ticks }) s else s) s
  if bit (reg 0x84008 s) 31 ∧ rfld 0x84008 11 0 s = src then setSys (fun y => { y with primary := some s.ticks }) s1 else s1

/-- GCM_HELLO_RECEIVE (R284, R296): a link HELLO updates the link, a beacon the arbiters' liveness. -/
def execGcmHelloReceive (p : Fin 128) (g : Gcm) (good : Bool) (s : State) : Host.Outcome State Fault Refusal :=
  .next (gcmReceive 5 p g good (fun s => takeBeacon g.src s) s)

/-- GCM_PACK_TIMEOUT (R296): once the egress is free the message leaves, pack_ns after its first TP, or at once if one joined while the
egress was busy. [DEDUCED, log 150] -/
def execGcmPackTimeout (i : Fin 4) (s : State) : Host.Outcome State Fault Refusal :=
  match mfind s.sys.pack i with
  | some p =>
    let busy : Bool := match arbSlot i s with | some d => egressBusy d s | none => false
    .next (if (p.busy ∨ rfld 0x84000 23 16 s ≤ nsSince p.since s) ∧ ! busy ∧ centralUp s then packSend i s else s)
  | none => .next s

end Sys2Proof.Machine
end

