-- ==== Sys2Proof/Machine/EvtCmds.lean ====
section
/-! DEFINITION. The meanings of the history and event commands and events (10_history_events.md, R338, R389, R392). -/

namespace Sys2Proof.Machine

/-! ### Shedding and refresh -/

/-- SHED_LEVEL_UP (R313): more than 1.5 MiB in the write buffer, at most once per µs. -/
def execShedLevelUp (q : Fin 4) (s : State) : Host.Outcome State Fault Refusal :=
  let h := hist q s
  let spaced : Bool := match h.upTick with | some k => passed k (usTicks 1) s | none => true
  .next (if 1572864 < h.wb ∧ h.shed < 8 ∧ spaced then
    setHist q (fun x => { x with shed := x.shed + 1, upTick := some s.ticks }) s else s)

/-- SHED_LEVEL_DOWN (R313): less than 0.5 MiB for 100 µs without a break. -/
def execShedLevelDown (q : Fin 4) (s : State) : Host.Outcome State Fault Refusal :=
  let h := hist q s
  let low : Bool := match h.lowSince with | some k => passed k (usTicks 100) s | none => false
  .next (if low ∧ 0 < h.shed then setHist q (fun x => { x with shed := x.shed - 1, lowSince := some s.ticks }) s else s)

/-- HBM_REFRESH (R415): a refresh blocks its pseudo-channel, one of the 30, for at most 410 ns; while the write buffer holds more than
1.5 MiB it is postponed, as far as HBM3E allows. Writes stay in the buffer meanwhile; one that comes before what the last kept back has
drained blocks a pseudo-channel that no write waits for (R312). [DESIGN CHOICE, log 19] -/
def execHbmRefresh (q : Fin 4) (ns : Fin 411) (allowed : Bool) (s : State) : Host.Outcome State Fault Refusal :=
  if histMode q s = .hbm then
    if 1572864 < (hist q s).wb ∧ allowed then .next (setHist q (fun x => { x with postponed := x.postponed + 1 }) s)
    else if s.ticks < (hist q s).refreshUntil ∨ 0 < (hist q s).owed then .next (setHist q (fun x => { x with postponed := x.postponed - 1 }) s)
    else .next (setHist q (fun x => { x with refreshUntil := s.ticks + nsTicks ns, postponed := x.postponed - 1 }) s)
  else .next s

/-! ### STREAM_QUOTA, BUF_RELEASE, QUOTA_SET -/

/-- STREAM_QUOTA's own checks (R314, R394). -/
def ownStreamQuota (d : Desc) (s : State) : Status :=
  let id := bf d 16 19 0; let v := bf d 24 63 0; let blocks := v / 65536
  match streamAny id s with
  | none => .range
  | some k =>
    let q := k / 16384
    if v % 65536 ≠ 0 ∨ blocks = 1 ∨ stackBlocks < blocks then .range
    else if quotaOf id s < blocks ∧ stackBlocks < reservedBlocks q s - quotaOf id s + blocks then .quota
    else .ok

/-- STREAM_QUOTA (R314, R316): excess blocks are released, oldest first. -/
def execStreamQuota (d : Desc) (s : State) : Host.Outcome State Fault Refusal :=
  let id := bf d 16 19 0; let blocks := bf d 24 63 0 / 65536
  .next (serve { op := 0x12, group := some 0, objs := [⟨2, id⟩], fields := [(16, 19, 0), (24, 63, 0)] } d (ownStreamQuota d)
    (fun src s =>
      let s1 := setEvt (fun e => { e with quota := stPut 0 e.quota id blocks }) s
      let s2 := match streamAny id s1 with
        | some k => if blocks = 0 then s1 else releaseBlocks (k / 16384) id blocks s1
        | none => s1
      complete src .ok 0 s2) s)

/-- A release takes effect at the owner's books (R323, R396): a DELIVERED handle no longer counts. -/
def releaseBy (f key : Nat) (s : State) : State :=
  bump (fnCnt f 6) (setEvt (fun e => { e with delivered := e.delivered.filter (fun x => decide (x.handle ≠ key)) }) (freeBuf key s))

/-- BUF_RELEASE (R320, R321): decided against the buffer's owner and generation. [DEDUCED, log 129] -/
def execBufRelease (d : Desc) (s : State) : Host.Outcome State Fault Refusal :=
  let key := bf d 16 23 0; let gen := bf d 20 11 0; let f := d.func.val
  .next (serve { op := 0x06, fields := [(16, 23, 0), (20, 11, 0)] } d (fun s => releaseVerdict key gen (ownHost f) s)
    (fun src s => complete src .ok 0 (releaseBy f key s)) s
    (fun st s => if st = .rsvdField then s else bump (fnCnt f 7) (refuseRelease st key gen (ownHost f) s)))

/-- QUOTA_SET's own checks (R323, R349, R394). -/
def ownQuotaSet (d : Desc) (s : State) : Status :=
  let t := bf d 16 11 8; let i := bf d 16 7 0; let v := bf d 24 63 0; let vf := decide (d.func.val ≠ 0)
  let other : Bool := (List.range 16).any (fun j => match ownerOf ⟨4, 16 * i + j⟩ s with
    | some f => decide (f ≠ d.func.val)
    | none => false)
  if vf && (decide (t ≠ 0) || other) then .notOwner
  else match t with
    | 0 => if 192 ≤ i ∨ v % 64 ≠ 0 ∨ 32 * 2 ^ 20 < v then .range else .ok
    | 1 => if 8 ≤ i ∨ v % 4096 ≠ 0 ∨ 2 ^ 40 < v then .range else .ok
    | 2 => if 8 ≤ i ∨ 1048576 < v then .range else .ok
    | _ => .range

/-- QUOTA_SET (R323): revokes nothing. -/
def execQuotaSet (d : Desc) (s : State) : Host.Outcome State Fault Refusal :=
  let i := bf d 16 7 0; let v := bf d 24 63 0
  .next (serve { op := 0x52, group := some 4, objs := [⟨9, bf d 16 11 0⟩], fields := [(16, 11, 0), (24, 63, 0)] } d (ownQuotaSet d)
    (fun src s =>
      let upd (e : EvtSt) : EvtSt := match bf d 16 11 8 with
        | 0 => { e with engQuota := mput e.engQuota i v }
        | 1 => { e with byteQuota := mput e.byteQuota i v }
        | _ => { e with cntQuota := mput e.cntQuota i v }
      complete src .ok 0 (setEvt upd s)) s)

/-! ### EVT_ROUTE (R325, R388, R392) -/

def routePbFields : List (Nat × Nat × Nat) :=
  [(0, 31, 17), (4, 14, 0), (8, 63, 0), (16, 29, 0), (20, 19, 0), (24, 19, 0), (28, 7, 7), (28, 4, 0), (29, 7, 7), (29, 4, 0),
   (30, 7, 7), (30, 4, 0), (31, 7, 7), (31, 4, 0), (32, 127, 0), (48, 47, 0), (56, 31, 0), (60, 23, 0)]

/-- The value of n bytes of a parameter block in network byte order. -/
def pbNet (pb : BitVec 512) (byte n : Nat) : Nat := leNat (beBytes n (pbf pb byte (8 * n - 1) 0))

/-- The profile of a parameter block (R392). -/
def profileFrom (pb : BitVec 512) : Profile :=
  let f := pbf pb
  let v6 := decide (f 0 25 25 = 1)
  { en := decide (f 0 31 31 = 1), pre := f 8 63 0, post := f 16 29 0, sel := f 20 19 0, mask := f 24 19 0,
    attach := decide (f 0 30 30 = 1), maxUnits := f 4 14 0, dest := f 0 29 28, func := f 0 24 22, ring := f 0 21 17,
    ports := (List.range 4).map (fun q => if f (28 + q) 7 7 = 1 then none else some (f (28 + q) 4 0)),
    v6 := v6, ip := pbNet pb 32 (if v6 then 16 else 4), mac := pbNet pb 48 6, dport := f 56 31 16, sport := f 56 15 0,
    policy := f 0 27 26, hold := f 60 23 0 }

/-- R325's ranges. -/
def profileOk (p : Profile) : Bool :=
  decide (p.pre ≤ 30000000000 ∧ p.post ≤ 1000000000 ∧ 0 < p.pre + p.post ∧ 1 ≤ p.maxUnits ∧ p.maxUnits ≤ 16384
    ∧ 1 ≤ p.hold ∧ p.hold ≤ 10000000) && (decide (p.dest = 0) || p.ports.all Option.isSome)

/-- EVT_ROUTE's generic checks: dest 3 and policy 3 are reserved, an IPv4 address leaves 12 bytes 0, a release holds en 0. -/
def specEvtRoute (d : Desc) (pb : Option (BitVec 512)) : CmdSpec :=
  { op := 0x51, relOk := true, group := some 4, objs := [⟨8, bf d 16 7 0⟩], config := true,
    fields := [(16, 7, 0), (24, 63, 0), (32, 31, 0)],
    badEnc := match pb with
      | some b => pbBad b routePbFields || decide (pbf b 0 29 28 = 3 ∨ pbf b 0 27 26 = 3)
          || (decide (pbf b 0 25 25 = 0) && decide (pbf b 36 95 0 ≠ 0)) || (dRelease d && decide (pbf b 0 31 31 = 1))
      | none => false,
    pb := pb.map (fun b => leBytes 64 b.toNat) }

def ownEvtRoute (d : Desc) (pb : BitVec 512) (_s : State) : Status :=
  if bf d 32 31 0 ≠ 64 ∨ bf d 24 5 0 ≠ 0 then .range
  else if dRelease d ∨ profileOk (profileFrom pb) then .ok else .range

/-- The window of a TA under a profile (R328). -/
def taWindow (t : Ta) (p : Profile) : Nat × Nat := (t.t - p.pre, t.t + p.post)

/-- A part that a new profile still reaches: it is not sized (R394). [DEDUCED, log 58] -/
def unsized (b : Build) : Bool := b.parts.all (fun p => match p.2 with | .waiting | .out _ => true | _ => false)

/-- Sets a profile in all EVBs; a build that no EVB has sized takes an enabled one over (R394). -/
def profileSet (n : Nat) (p : Profile) (s : State) : State :=
  let upd (b : Build) : Build :=
    if b.ta.profile = n ∧ unsized b ∧ p.en then
      match b.rcl with
      | some _ => { b with prof := { p with sel := b.prof.sel, mask := b.prof.mask } }
      | none => { b with prof := p, start := (taWindow b.ta p).1, stop := (taWindow b.ta p).2 }
    else b
  setEvt (fun e => { e with profiles := mput e.profiles n p, builds := e.builds.map (fun x => (x.1, upd x.2)) }) s

/-- EVT_ROUTE (R325). -/
def execEvtRoute (d : Desc) (pb : Option (BitVec 512)) (s : State) : Host.Outcome State Fault Refusal :=
  if dRelease d then .next s
  else .next (serve (specEvtRoute d pb) d (ownEvtRoute d (pb.getD 0))
    (fun src s => complete src .ok 0 (profileSet (bf d 16 7 0) (profileFrom (pb.getD 0)) s)) s)

/-- PROFILE_RELEASE (R388): the profile is disabled and its ownership ends. -/
def execProfileRelease (d : Desc) (pb : Option (BitVec 512)) (s : State) : Host.Outcome State Fault Refusal :=
  if dRelease d then
    .next (serve (specEvtRoute d pb) d (ownEvtRoute d (pb.getD 0))
      (fun src s => complete src .ok 0 (disown ⟨8, bf d 16 7 0⟩
        (profileSet (bf d 16 7 0) { profileFrom (pb.getD 0) with en := false } s))) s)
  else .next s

/-! ### Event building (R326–R337)

Sizes, completions and host traffic cross the central block, which stands still when VCOREC has failed: no event is delivered then
(R20, R326). -/

/-- Removes an EVB from a TA's list, which has begun; a TA that every EVB up has taken leaves the queue (R258, R326). -/
def taTaken (q : Nat) (t : TaQ) (s : State) : State :=
  let upd (x : TaQ) : TaQ :=
    if x.ta = t.ta ∧ x.imported = t.imported then { x with left := x.left.filter (fun k => decide (k ≠ q)), begun := true } else x
  setTrig (fun y => { y with taQueue := (y.taQueue.map upd).filter (fun x => x.left.any (fun k => evbUp k s)) }) s

/-- The first of the EVBs takes a TA: the record and its collector are fixed (R325–R327). [DEDUCED, log 56] -/
def buildFor (t : TaQ) (s : State) : State :=
  let p := profileOf t.ta.profile s
  if s.mode.current = .safe then bump (evbCnt (t.ta.trig % 4) 17) s
  else if p.en then
    addBuild { ta := t.ta, rcl := none, prof := p, start := (taWindow t.ta p).1, stop := (taWindow t.ta p).2,
               collector := some (collectorOf t.ta.trig s), parts := newParts (t.left.filter (fun q => evbUp q s)) } s
  else s

/-- The build of a TA that is still being sized. -/
def buildOfTa (t : Ta) (s : State) : Option (Nat × Build) :=
  s.evt.builds.find? (fun e => e.2.rcl.isNone && decide (e.2.ta = t) && (match e.2.stage with | .sizing => true | _ => false))

/-- EVB_TA_TAKE (R326): an EVB takes the oldest TA it has not taken. [DEDUCED, log 56] -/
def execEvbTaTake (q : Fin 4) (s : State) : Host.Outcome State Fault Refusal :=
  match s.trig.taQueue.find? (fun t => t.left.contains q.val) with
  | none => .next s
  | some t =>
    if ! evbUp q s ∨ ! centralUp s ∨ 64 ≤ buildsIn q s then .next s
    else
      let s1 := bump (evbCnt q 0) (if t.begun then s else buildFor t s)
      let s2 := match buildOfTa t.ta s1 with
        | some (n, b) => if (mfind b.parts q).isSome then s1 else setBuild n { b with parts := mput b.parts q .waiting } s1
        | none => if (profileOf t.ta.profile s1).en then s1 else bump (evbCnt q 10) s1
      .next (taTaken q t s2)

/-- The part of an EVB that is to be sized: taken, or of a RECALL. [DEDUCED, log 57] -/
def partReady (q : Nat) (b : Build) (s : State) : Bool :=
  evbUp q s && decide (s.mode.current ≠ .safe) && (match mfind b.parts q with
    | some .waiting => true
    | none => b.rcl.isSome && decide (buildsIn q s < 64)
    | _ => false)

/-- EVENT_BUILD_START (R328): the window's end has passed by 10 µs and every matching stream is covered. [DEDUCED, log 57] -/
def execEventBuildStart (q : Fin 4) (n : Nat) (s : State) : Host.Outcome State Fault Refusal :=
  match buildOf n s with
  | some b => .next (if partReady q b s ∧ settled b 0 s ∧ covered q b s then sizePart q n s else s)
  | none => .next s

/-- BUILD_WAIT_TIMEOUT (R328): some stream has none of what is waited for after wait_ms. [DEDUCED, log 57] -/
def execBuildWaitTimeout (q : Fin 4) (n : Nat) (s : State) : Host.Outcome State Fault Refusal :=
  match buildOf n s with
  | some b => .next (if partReady q b s ∧ settled b (rfld (evbBase q) 15 0 s * 1000000) s then sizePart q n s else s)
  | none => .next s

/-- SIZES_COMPLETE (R326, R361): the record is laid out and its posts are reserved, `posts` being what the device reads of those it
has not used; a record that waits is tried again. [DEDUCED, log 58] -/
def execSizesComplete (n : Nat) (posts : List Post) (s : State) : Host.Outcome State Fault Refusal :=
  match buildOf n s with
  | some b => (match b.stage with
    | .sizing => .next (if sizesIn b ∧ b.collector.isSome ∧ centralUp s then let b := layOut b; route_ n b posts (setBuild n b s) else s)
    | .held _ => .next (if centralUp s then placeHost n b posts s else s)
    | .moving _ => .next s)
  | none => .next s

/-- EVB_REGION_DONE (R326, R429): an EVB has written or sent its fragments. [DEDUCED, log 155] -/
def execEvbRegionDone (q : Fin 4) (e : RegionDone) (s : State) : Host.Outcome State Fault Refusal :=
  match buildOf e.n s with
  | some b => (match b.stage with
    | .moving _ => .next (if centralUp s then (regionDone q e.n (readErrs q (if histMode q s = .hbm then e.errs else []) b) s).getD s else s)
    | _ => .next s)
  | none => .next s

/-- RECORD_DELIVERY (R326, R337): header and directory come last. -/
def execRecordDelivery (n : Nat) (s : State) : Host.Outcome State Fault Refusal :=
  match buildOf n s with
  | some b => (match b.stage with
    | .moving _ => .next (if regionsDone b ∧ centralUp s then (deliverRecord n b s).getD s else s)
    | _ => .next s)
  | none => .next s

/-- RECORD_HOLD_TIMEOUT (R324): the hold is over, except for a sleeping function whose quotas are not full (R48). -/
def execRecordHoldTimeout (n : Nat) (s : State) : Host.Outcome State Fault Refusal :=
  match buildOf n s with
  | some b => (match b.stage with
    | .held k =>
      let asleep : Bool := ! fnAwake b.prof.func s && quotaRoom b.prof.func (recordLen (allFrags b)) s
      .next (if passed k (usTicks b.prof.hold) s ∧ ! asleep ∧ centralUp s then applyPolicy n b s else s)
    | _ => .next s)
  | none => .next s

/-- ATTACH_HOLD_EXPIRE (R331): an EVB releases its attachments held for EVB_ATTACH_HOLD. [DEDUCED, log 66] -/
def execAttachHoldExpire (q : Fin 4) (s : State) : Host.Outcome State Fault Refusal :=
  let l := mget [] s.evt.attach q
  let isOver (a : Attach) : Bool := passed a.since (usTicks (reg (evbBase q + 8) s)) s
  .next ((l.filter isOver).foldl (fun s a => freeBuf a.buf s)
    (setEvt (fun e => { e with attach := mput e.attach q (l.filter (fun a => ! isOver a)) }) s))

/-! ### RECALL (R300, R338, R389) -/

def specRecall (d : Desc) : CmdSpec :=
  { op := 0x50, group := some 4,
    fields := [(16, 31, 16), (16, 11, 0), (20, 31, 0), (24, 19, 0), (28, 19, 0), (32, 63, 0), (40, 63, 0), (48, 31, 0), (52, 31, 31),
      (52, 27, 0)], badEnc := decide (bf d 16 31 30 = 3) }

/-- The request of a RECALL descriptor, its times as given. -/
def recallReq (d : Desc) : RecallReq :=
  { reqId := bf d 20 31 0, reply := decide (bf d 16 28 28 = 1), self := decide (bf d 16 27 27 = 1), profile := bf d 16 23 16,
    sel := bf d 24 19 0, mask := bf d 28 19 0, start := bf d 32 63 0, stop := bf d 40 63 0, trigValid := decide (bf d 52 31 31 = 1),
    trigDev := bf d 52 27 16, trig := bf d 52 15 0 * 2 ^ 32 + bf d 48 31 0, rsv := false }

/-- The request with short times placed against its time base (R116, R117). -/
def recallPlaced (d : Desc) (s : State) : RecallReq :=
  let r := recallReq d; let now := tbNs (bf d 16 26 24) s
  if bf d 16 29 29 = 1 then { r with start := extendNs (r.start % 2 ^ 32) now, stop := extendNs (r.stop % 2 ^ 32) now } else r

/-- A short window start after the present, or more than 2,000,000,000 ns before it (R116). -/
def shortBad (d : Desc) (s : State) : Bool :=
  let a := sdiff (bf d 32 31 0) (tbNs (bf d 16 26 24) s % 2 ^ 32)
  decide (bf d 16 29 29 = 1) && decide (0 < a ∨ a < -2000000000)

/-- RECALL LOCAL's own checks (R338, R394). [DEDUCED, log 59] -/
def ownRecallLocal (d : Desc) (s : State) : Status :=
  let b := bf d 16 26 24
  if bf d 16 28 28 = 1 ∨ bf d 16 27 27 = 1 ∨ bf d 16 11 0 ≠ 0 then .range
  else if ! (tb b s).valid then .fault
  else if shortBad d s then .range
  else recallCheck b (recallPlaced d s) s

/-- A RECALL LOCAL needs the quadrants that build records: those that Vigil does not gate (R338, R472). [DEDUCED, log 154] -/
def recallNeeds (s : State) : List ObjId := ((List.range 4).filter (fun q => ! quadGated q s)).map (fun q => ⟨1, 32 * q⟩)

/-- RECALL_LOCAL (R338); its row also takes the reserved scope 3, which is refused (R389). [DESIGN CHOICE, log 27] -/
def execRecallLocal (d : Desc) (s : State) : Host.Outcome State Fault Refusal :=
  if bf d 16 31 30 = 0 ∨ bf d 16 31 30 = 3 then
    .next (serve { specRecall d with needs := recallNeeds s } d (ownRecallLocal d)
      (fun src s => recallStart (bf d 16 26 24) (recallPlaced d s) (.host src false) (deviceNum s) s) s
      (fun st s => skipCount (bf d 20 31 0) st s))
  else .next s

/-- RECALL DEVICE's and ALL's own checks: the first five of R301, and what R394 adds. -/
def ownRecallOut (d : Desc) (s : State) : Status :=
  if bf d 16 26 24 ≠ 0 ∨ bf d 16 29 29 = 1 ∨ (bf d 16 31 30 = 1 ∧ bf d 16 11 0 = deviceNum s) then .range
  else recallWindow 0 (bf d 32 63 0) (bf d 40 63 0) s

/-- Sends the request, remembers who issued it, and runs it here as well when self is set (R300, R302, R399). -/
def recallOut (d : Desc) (dst : Option Nat) (src : Src) (s : State) : State :=
  let r := recallReq d
  let sent := gcmSend 3 1 dst (recallBytes r) s
  let keep (e : EvtSt) : EvtSt := { e with issued := (r.reqId, src) :: e.issued.filter (fun x => decide (x.1 ≠ r.reqId)) }
  let s1 := complete src (if sent.2 then .ok else .link) 0 (setEvt keep sent.1)
  if r.self then
    let me := deviceNum s1
    match askedOf me r.reqId s1 with
    | some a =>
      let s2 := bump (sysCnt 20) s1
      match a.reply.bind (fun x => (statusOf x.status).map (fun st => (x, st))) with
      | some (x, st) => replyEntry src st x.part (recallResult me x.frags x.length) s2
      | none => s2
    | none => match recallCheck 0 r s1 with
      | .ok => recallStart 0 r (.host src true) me (askedPut me r.reqId s1)
      | st => replyEntry src st false (recallResult me 0 0) (bump (sysCnt 19) (skipCount r.reqId st s1))
  else s1

/-- RECALL_DEVICE (R300). -/
def execRecallDevice (d : Desc) (s : State) : Host.Outcome State Fault Refusal :=
  if bf d 16 31 30 = 1 then
    .next (serve (specRecall d) d (ownRecallOut d) (fun src s => recallOut d (some (bf d 16 11 0)) src s) s)
  else .next s

/-- RECALL_ALL (R300). -/
def execRecallAll (d : Desc) (s : State) : Host.Outcome State Fault Refusal :=
  if bf d 16 31 30 = 2 then
    .next (serve (specRecall d) d (ownRecallOut d) (fun src s => recallOut d none src s) s)
  else .next s

end Sys2Proof.Machine
end

