-- ==== Sys2Proof/Machine/ModeOps.lean ====
section
/-! DEFINITION. Transitions between operating modes: what refuses a request, what a transition does as it begins and at its last step,
and the automatic entry to Safe (02_operating_modes.md). -/

namespace Sys2Proof.Machine

/-- Set bits of a value below 2^n. -/
def popCount (n v : Nat) : Nat := ((List.range n).filter (fun i => bit v i)).length

/-! ### Requests (R46, R52, R57) -/

/-- MODE_VIGIL's engines, local logical engine numbers (R46). -/
def vigilEngs (s : State) : Nat := reg 0x2010 s + rfld 0x2014 15 0 s * 2 ^ 32

/-- One of the conditions of R46 is not true. [DEDUCED, log 66] -/
def vigilBad (s : State) : Bool :=
  let q := rfld 0x2008 9 8 s
  let ps := reg 0x200C s
  decide (popCount 32 ps = 0 ∨ 8 < popCount 32 ps)
    || (List.range 32).any (fun l => bit ps l && decide (100 < portGbps (rfld (portBase (32 * q + l)) 27 24 s)))
    || decide (12 < popCount 48 (vigilEngs s))
    || (List.range 8).any (fun k => bit (reg (fastBase k) s) 31 &&
        decide (fastReq k s / 256 % 16 ≠ 0 ∨ fastVeto k s / 256 % 16 ≠ 0))

/-- An automatic cause of Safe is still recorded (R52). -/
def safeHeld (s : State) : Bool := s.mode.cause.therm || s.mode.cause.supply

/-- The answer to a request for a target (R46, R52, R54, R57); BRINGUP counts as a transition in progress. -/
def modeCheck (target : Nat) (s : State) : Status :=
  if target = 0 then .mode
  else if s.mode.transit.isSome ∨ s.mode.current = .bringup then .busy
  else if target = modeCode s.mode.current then .ok
  else if s.mode.current = .safe ∧ safeHeld s then .mode
  else if target = 1 ∧ vigilBad s then .mode
  else .ok

/-- The MODE_SET commands that wait for the transition end with a status. -/
def answerMode (st : Status) (s : State) : State :=
  s.jrnl.inflight.foldl (fun s p => if p.wait = .modeSet then complete p.src st 0 s else s) s

/-- HBM history is in use in a mode. -/
def hbmOf (m : Mode) : Bool := decide (m = .retain ∨ m = .calibrate)

/-- The Vigil set as a request for a target reads it (R46, R62). -/
def vigilSet (target : Mode) (s : State) : Nat × Nat × Nat :=
  if target = .vigil then (rfld 0x2008 9 8 s, reg 0x200C s, vigilEngs s) else (0, 0, 0)

/-- A transition begins: the Vigil set is read, a drain begins where R58 asks for one, and entry to Safe ends the reads of
every build at once (R58, R327). [DEDUCED, log 89] -/
def modeBegin (target : Mode) (auto : Bool) (s : State) : State :=
  let from_ := s.mode.current
  let drain : Option Nat := if hbmOf from_ ∧ ! hbmOf target ∧ target ≠ .safe then some s.ticks else none
  let s1 := setMode (fun m => { m with transit := some ⟨target, drain, auto, vigilSet target s⟩ }) s
  let s2 := if target = .safe then drainBuilds s1 else s1
  setFld 0x2000 2 0 (modeCode target) s2

/-- An accepted request from a command or a register write (R54): the current mode completes at once. [DEDUCED, log 89] -/
def modeRequest (target : Nat) (src : Src) (s : State) : State :=
  if target = modeCode s.mode.current then complete src .ok 0 (setFld 0x2000 2 0 target s)
  else match modeOf target with
    | some m => modeBegin m false s
    | none => s

/-- A port that is on in a mode: `only` in Vigil, and in Safe entered from it, when `vq` and `vp` are the set (R54). -/
def portOn (m : Mode) (only : Bool) (vq vp p : Nat) : Bool :=
  decide (m ≠ .bringup) && (! only || (decide (vq = p / 32) && bit vp (p % 32)))

/-! ### Ports (R50, R55, R99) -/

/-- Aborts the launch entries of a port (R394). [DEDUCED, log 92] -/
def launchAbort (p : Nat) (s : State) : State :=
  (port p s).launchQ.foldl (fun s l => complete l.src .aborted 0 s) (setPort p (fun x => { x with launchQ := [] }) s)

/-- A port goes off: its streams open gaps with a cause, its link goes down, no speed is in force, its event frames and stamp queue are
emptied and its launch entries end (R99, R104, R322, R394, R537). [DEDUCED, log 92] -/
def portOff (p cause : Nat) (s : State) : State :=
  let s1 := dropEvents p (linkDown p cause (portGaps p cause s))
  launchAbort p (setPtp p (fun x => { x with stamps := [] })
    (setPort p (fun x => { x with training := false, linkUp := false, speed := 0 }) s1))

/-- A port that the configuration has on starts to train. [DEDUCED, log 92] -/
def portTrain (p : Nat) (s : State) : State :=
  if rfld (portBase p) 27 24 s = 0 then s else startTraining p s

/-- A port's link retrains (R50, R104): it goes down and trains again. [DEDUCED, log 92] -/
def portRetrain (p cause : Nat) (s : State) : State := portTrain p (linkDown p cause (portGaps p cause s))

/-- Keeps the engine's V.SORT restart mark where the new mode stops an engine that ran (R240), and ends waiting cancels where it lets
one run again (R59). -/
def engTurn (was : State) (s : State) (e : Nat × EngSt) : State :=
  if engStopped e.1 s ∧ ! engStopped e.1 was then markBack e.1 s
  else if ! engStopped e.1 s ∧ engStopped e.1 was then stopWaitingCancels e.1 s
  else s

/-! ### History (R56, R306–R308) -/

/-- The stores of one quadrant at a transition's last step: ring, write buffer, and time away from HBM. -/
def histTurn (old new : Mode) (vq : Nat) (s : State) (q : Nat) : State :=
  setHist q (fun h =>
    let ring := match new with
      | .acquire => if old = .vigil then h.ring else []
      | .vigil => if old = .acquire then (if q = vq then ringTrim 512 h.ring else h.ring) else []
      | _ => []
    let h := { h with ring := ring }
    if hbmOf old ∧ ! hbmOf new then
      { h with wb := 0, lowSince := some s.ticks, away := (h.blocks.map (·.id)).foldl (fun l i => if l.contains i then l else i :: l) h.away }
    else h) s

/-! ### Castlings (R60, R436, R442) -/

/-- What a new mode does to a castling: an engine's before its freeze step is abandoned by Safe or by a Vigil freeze of the engine, with
its command answered only by Safe; an evacuation is suspended outside HBM history and goes on within it. [DEDUCED, log 91] -/
def castleTurn (s : State) (c : Castle) : State :=
  if c.kind = 0 ∧ c.step < 3 then
    if s.mode.current = .safe then answerCastle c.src .aborted (abandonCastle c (some none) s)
    else if engFrozen (ekey c.quadrant c.old) s then abandonCastle c (some c.src) s
    else s
  else if c.kind = 3 ∧ c.suspended ≠ ! hbmMode s then
    putCastle { c with suspended := ! hbmMode s, since := s.ticks } s
  else s

/-- A castling that a transition waits for at its first step (R436, R60): between its freeze and its resume. [DEDUCED, log 91] -/
def castleBlocks (s : State) : Bool := s.repair.castles.any (fun c => decide (c.kind ≤ 1 ∧ 3 ≤ c.step ∧ c.step ≤ 6))

/-! ### The last step (R42, R54) -/

/-- A quadrant gated by Vigil takes no TA that waits, and contributes nothing to the builds in progress (R326, R339). -/
def gateTas (s : State) : State :=
  gateBuilds { s with trig := { s.trig with
    taQueue := (s.trig.taQueue.map (fun t => { t with left := t.left.filter (fun q => evbUp q s) })).filter (fun t => ! t.left.isEmpty) } }

/-- What becomes of a port at the last step: turned off, turned on, out of the calibration set, or held; `wasOnly` and `only` tell
whether the old and the new mode power the Vigil set alone. [DEDUCED, log 92] -/
def portTurn (old new : Mode) (wasOnly only : Bool) (vq vp : Nat) (oldSet newSet : BitVec 128) (s : State) (p : Nat) : State :=
  let was := portOn old wasOnly s.mode.vigilQ s.mode.vigilPorts p; let is := portOn new only vq vp p
  let inSet := decide (old = .calibrate) && oldSet.getLsbD p
  let s1 := if inSet then setPort p (fun x => { x with loopback := false }) s else s
  if was ∧ ! is then portOff p 9 s1
  else if is ∧ ! was then portTrain p s1
  else if is ∧ inSet then portRetrain p 9 s1
  else if is ∧ old = .safe then portGaps p 9 s1 true
  else if is ∧ new = .calibrate ∧ newSet.getLsbD p then portGaps p 9 s1
  else s1

/-- The last step of a transition: the mode changes, and everything that depends on it follows (R42, R47–R56, R58–R60). [DEDUCED, log 89] -/
def modeEnd (t : Transit) (s : State) : State :=
  let old := s.mode.current; let new := t.target
  let calNew : BitVec 128 := BitVec.ofNat 128
    (reg 0x2020 s + reg 0x2024 s * 2 ^ 32 + reg 0x2028 s * 2 ^ 64 + reg 0x202C s * 2 ^ 96)
  let held := decide (new = .safe ∧ old = .vigil)
  let set_ := if new = .vigil then t.vigil else (s.mode.vigilQ, s.mode.vigilPorts, s.mode.vigilEngines)
  -- ports act while history still goes where the old mode puts it
  let s1 := (List.range 128).foldl
    (portTurn old new (vigilOnly s) (decide (new = .vigil) || held) set_.1 set_.2.1 s.mode.calSet calNew) s
  let s2 := setMode (fun m => { m with
    current := new, transit := none, calSet := if new = .calibrate then calNew else m.calSet, vigilSafe := held
    vigilQ := set_.1, vigilPorts := set_.2.1, vigilEngines := set_.2.2
    cause := if new = .safe ∧ ! t.auto then { m.cause with cmd := true } else m.cause }) s1
  let s3 := (List.range 4).foldl (histTurn old new s2.mode.vigilQ) s2
  let s4 := s3.engines.foldl (engTurn s1) s3
  let s5 := s4.repair.castles.foldl castleTurn (gateTas s4)
  let s6 := tmrSleepUpdate (paceMode s5)
  let s7 := setFlash (fun f => { f with dirty := some s.ticks }) (if new = .safe then attnRaise 0 s6 else s6)
  issueReady (answerMode .ok s7)

/-! ### Automatic entry to Safe (R51, R57) -/

/-- An automatic cause: recorded, and unless the device is in Safe or on its way there, a transition to Safe begins or overtakes the one
in progress, whose command ends with ABORTED (R51, R57, R394). [DEDUCED, log 90] -/
def safeEnter (s : State) : State :=
  match s.mode.transit with
  | some t => if t.target = .safe then s else modeBegin .safe true (answerMode .aborted s)
  | none => if s.mode.current = .safe ∨ s.mode.current = .bringup then s else modeBegin .safe true s

/-- A recorded cause's condition still holds (R52). [DEDUCED, log 90] -/
def thermHolds (s : State) : Bool := decide (((rfld 0x2030 7 0 s : Nat) : Int) < s.mode.hottest)
/-- [DEDUCED, log 90] -/
def supplyHolds (s : State) : Bool := s.mode.railSince.isSome

/-- What a write of one to safe cause bits clears (R52): a bit whose condition does not hold. [DEDUCED, log 90; DEDUCED, log 115] -/
def safeClear (mask : Nat) (s : State) : State :=
  setMode (fun m => { m with cause :=
    { therm := m.cause.therm && ! (bit mask 0 && ! thermHolds s)
      supply := m.cause.supply && ! (bit mask 1 && ! supplyHolds s)
      cmd := m.cause.cmd && ! bit mask 2 } }) s

end Sys2Proof.Machine
end

