-- ==== Sys2Proof/Machine/RepairCmds.lean ====
section
/-! DEFINITION. The meanings of the wear monitors, the castling commands and events, the map's commits and the power-loss warning
(14_spares_repair.md). -/

namespace Sys2Proof.Machine

/-! ### Wear (R427, R428) -/

/-- A unit's warning (R428): REPAIR_STATUS.warn and the attention cause go with it. [DEDUCED, log 87] -/
def repairWarn (s : State) : State := attnRaise 3 (setFld 0x60004 28 28 1 s)

/-- Takes a reading into a wear register: its value in [hi:0], and warn and sched at the bits above where it passes a level. [DESIGN CHOICE, log 88] -/
def wearTake (a hi value wBit sBit : Nat) (warn sched : Bool) (s : State) : State :=
  let s1 := setFld a hi 0 value s
  let s2 := if warn then repairWarn (setFld a wBit wBit 1 s1) else s1
  if sched then setFld a sBit sBit 1 s2 else s2

/-- A monitor in a gated quadrant, or of HBM in self-refresh, does not measure (R429). -/
def slotMeasures (i : Nat) (s : State) : Bool := decide (208 ≤ i) || ! quadGated (i / 52) s

/-- One reading compared with its thresholds (R428). [DESIGN CHOICE, log 88] -/
def wearRead (s : State) (r : WearRead) : State :=
  match r with
  | .slot i v =>
    if i < 210 ∧ slotMeasures i s then
      wearTake (engWear i) 15 v 31 30 (decide (rfld 0x60010 31 16 s < v)) (decide (rfld 0x60010 15 0 s < v)) s
    else s
  | .store i n rep =>
    if i < 208 ∧ slotMeasures i s ∧ (500 < n ∨ rep) then setFld (engWear i) 30 30 1 s else s
  | .pch i n u =>
    if i < 128 ∧ hbmMode s then
      let s1 := setFld (pchFlags i) 31 16 u (setReg (pchCorr i) n s)
      let s2 := if rfld 0x60018 31 16 s < n then repairWarn (setFld (pchFlags i) 2 2 1 s1) else s1
      if rfld 0x60018 15 0 s < n ∨ 2 ≤ u then setFld (pchFlags i) 1 1 1 s2 else s2
    else s
  | .bank i n rep =>
    if i < 306 ∧ (272 ≤ i ∨ ! quadGated (i / 68) s) then
      wearTake (bankWear i) 15 (min 65535 n) 31 30 (decide (rfld 0x6001C 31 16 s < n))
        (decide (rfld 0x6001C 15 0 s < n) || rep) s
    else s
  | .wire n => if 80 < n then repairWarn s else s

/-- WEAR_AVERAGE (R427, R428): the readings of a second, each averaged by its monitor. -/
def execWearAverage (readings : List WearRead) (s : State) : Host.Outcome State Fault Refusal :=
  if centralUp s then .next (readings.foldl wearRead s) else .next s

/-- LANE_EYE_MEASURE (R428): the eye margin of slice i of R453, in % of the one recorded at first training. [DESIGN CHOICE, log 88] -/
def execLaneEyeMeasure (i : Fin 544) (margin : Nat) (s : State) : Host.Outcome State Fault Refusal :=
  if centralUp s ∧ ! quadGated (i.val / 136) s then
    .next (wearTake (laneWear i) 7 margin 31 30 (decide (margin < rfld 0x60014 31 16 s))
      (decide (margin < rfld 0x60014 15 0 s)) s)
  else .next s

/-! ### Starting castlings -/

/-- Starts a slice castling (R440): the shifted ports stop with cause LINK, the mux moves, and they retrain; with none of them
configured on, it commits at once. -/
def startSlice (q g pos unit : Nat) (src : Option Src) (s : State) : State :=
  let c : Castle := { kind := 2, quadrant := q, unit := unit, old := pos, spare := g, orig := pos, step := 3, since := s.ticks, src := src }
  sliceCommit c ((shiftedPorts q g pos).foldl (fun s p => portRetrain p 2 s) (putCastle c s))

/-- Starts an evacuation (R441); outside HBM history it is suspended (R442). -/
def startPch (st c n : Nat) (src : Option Src) (s : State) : State :=
  putCastle { kind := 3, quadrant := st, unit := st * 64 + c, old := c, spare := n, orig := c, step := 2, since := s.ticks, src := src,
              suspended := ! hbmMode s } s

/-- Starts a bank castling (R443). -/
def startBank (q unit : Nat) (s : State) : State :=
  putCastle { kind := 4, quadrant := q, unit := unit, old := unit, spare := 0, orig := unit, step := 1, since := s.ticks, src := none } s

/-- Every port a slice castling shifts is in the calibration set in Calibrate (R430, R440). -/
def sliceCalm (q g pos : Nat) (s : State) : Bool :=
  decide (s.mode.current = .calibrate) && (shiftedPorts q g pos).all (fun p => s.mode.calSet.getLsbD p)

/-- The group's spare slice serves already (R439). -/
def sliceUsed (q g : Nat) (s : State) : Bool := bit (reg (sliceReg q g) s) 31

/-- Removes a unit from those for which NO_SPARE has been counted. -/
def fed (kind q unit : Nat) (s : State) : State := setRepair (fun r => { r with starved := r.starved.filter (· ≠ (kind, q, unit)) }) s

/-- No spare is left: NO_SPARE counts once for each unit (R430). -/
def noSpare (kind q unit : Nat) (s : State) : State :=
  if s.repair.starved.contains (kind, q, unit) then s
  else bump (repairCnt 7) (setRepair (fun r => { r with starved := (kind, q, unit) :: r.starved }) s)

/-- The engine runs, so its castling may start: not in a reset, not frozen. [DEDUCED, log 85] -/
def castleRuns (q slot : Nat) (s : State) : Bool := quadUp q s && ! engFrozen (ekey q slot) s

/-- Starts a unit's castling if its kind and quadrant are free and a spare is; `auto` journals it (R430–R432). -/
def autoStart (a : CastleAsk) (s : State) : Option State :=
  if (castleOf a.kind a.quadrant s).isSome then none
  else
    let go (f : State → State) : Option State := some (f (fed a.kind a.quadrant a.unit (castleJournal a.kind a.unit s)))
    let none_ : Option State := some (noSpare a.kind a.quadrant a.unit s)
    match a.kind with
    | 0 =>
      let k := engOf a.unit s % 64
      if ! castleRuns a.quadrant k s then none
      else match freeSpares a.quadrant s with
        | n :: _ => go (startEngine a.unit k n k a.src)
        | [] => none_
    | 1 => if stewardFree s then go (startSteward 1 a.src) else none_
    | 2 =>
      let g := bits a.unit 8 2 % 32 / 4; let pos := bits a.unit 3 0
      if sliceUsed a.quadrant g s then none_
      else if sliceCalm a.quadrant g pos s ∨ a.src.isSome then go (startSlice a.quadrant g pos a.unit a.src) else none
    | 3 =>
      if ! hbmMode s then none
      else match freePchs a.quadrant s with
        | n :: _ => go (startPch a.quadrant (bits a.unit 4 0) n a.src)
        | [] => none_
    | _ => if bankFree a.quadrant a.unit s then go (startBank a.quadrant a.unit) else none_

/-- What a wear index names, with its sched flag (R453). -/
def wearUnit (kind i : Nat) (s : State) : Option CastleAsk :=
  match kind with
  | 0 =>
    if i < 208 ∧ bit (reg (engWear i) s) 30 ∧ ! bit (reg (engWear i) s) 29 then
      (eng (ekey (i / 52) (i % 52)) s).logical.map (fun l => ⟨0, i / 52, l, none⟩)
    else none
  | 1 => if i = 208 + rfld 0x60400 31 31 s ∧ bit (reg (engWear i) s) 30 then some ⟨1, 0, 0, none⟩ else none
  | 2 =>
    let q := i / 136; let k := i % 136
    if i < 544 ∧ k < 128 ∧ bit (reg (laneWear i) s) 30 then some ⟨2, q, (32 * q + k / 4) * 4 + k % 4, none⟩ else none
  | 3 =>
    if i < 128 ∧ bit (reg (pchFlags i) s) 1 ∧ ! bit (reg (pchFlags i) s) 0 then some ⟨3, i / 32, i / 32 * 64 + i % 32, none⟩ else none
  | _ =>
    let q := if i < 272 then i / 68 else 0
    let unit := if i < 272 then i % 68 else 128 + (i - 272)
    if i < 306 ∧ bit (reg (bankWear i) s) 30 ∧ ! bit (reg (bankWear i) s) 29 then some ⟨4, q, unit, none⟩ else none

/-- CASTLE_AUTO_START (R430, R449): with `again`, the i-th castling that was abandoned and is to be started again; else the unit of wear
index i, whose sched flag and auto bit are set. None starts in BRINGUP or Safe. -/
def execCastleAutoStart (again : Bool) (kind : Fin 5) (i : Nat) (s : State) : Host.Outcome State Fault Refusal :=
  if s.mode.current = .bringup ∨ s.mode.current = .safe ∨ ! centralUp s then .next s
  else if again then
    match s.repair.again[i]? with
    | some a => match autoStart a s with
      | some s1 =>
        if (castleOf a.kind a.quadrant s1).isSome then .next (setRepair (fun r => { r with again := r.again.eraseIdx i }) s1) else .next s1
      | none => .next s
    | none => .next s
  else if ! bit (reg 0x60000 s) (31 - kind.val) then .next s
  else match wearUnit kind i s with
    | some a => .next ((autoStart a s).getD s)
    | none => .next s

/-! ### CASTLE (R394, R426, R432) -/

def castleKind (d : Desc) : Nat := bf d 16 31 28
/-- [DEDUCED, log 85] -/
def castleNow (d : Desc) : Bool := bit (bf d 16 27 27) 0
def castleSpare (d : Desc) : Nat := bf d 16 23 16
/-- [DEDUCED, log 84] -/
def castleUnit (d : Desc) : Nat := bf d 16 15 0

/-- What a castling needs out of reset (R472): its engine, its ports' quadrant, or its stack's. [DEDUCED, log 154] -/
def castleNeeds (d : Desc) : List ObjId :=
  match castleKind d with
  | 0 => [⟨3, castleUnit d⟩]
  | 2 => [⟨1, bits (castleUnit d) 8 2⟩]
  | 3 => [⟨1, 32 * bits (castleUnit d) 7 6⟩]
  | _ => []

/-- CASTLE's generic checks (R384, R389): each kind's unit has its own fields; kinds from 4 are reserved. -/
def specCastle (q : Nat) (d : Desc) : CmdSpec :=
  let unit := match castleKind d with
    | 0 => [(16, 7, 0)] | 1 => [] | 2 => [(16, 8, 0)] | _ => [(16, 7, 6), (16, 4, 0)]
  { op := 0x61, group := some 5, objs := [repairObj], needs := castleNeeds d, fields := [(16, 31, 27), (16, 23, 16)] ++ unit, badEnc := decide (4 ≤ castleKind d),
    wait := .castle (castleKind d) q }

/-- Serves a CASTLE of a kind: with its quadrant, RANGE, MODE and spare checks, then BUSY (R394, R431). -/
def serveCastle (d : Desc) (q : Nat) (range mode noRes : State → Bool) (run : Src → State → State) (s : State) : State :=
  serve (specCastle q d) d (fun s =>
    if range s then .range
    else if s.mode.current = .safe ∨ mode s then .mode
    else if noRes s then .noResource
    else if (castleOf (castleKind d) q s).isSome then .busy
    else .ok) run s

/-- CASTLE_ENGINE (R432, R433): the slot that serves the logical engine moves onto a spare slot, S0 to S15 by number. A CASTLE of a reserved
kind is refused here (R383). -/
def execCastleEngine (d : Desc) (s : State) : Host.Outcome State Fault Refusal :=
  let e := castleUnit d; let q := e / 48; let sp := castleSpare d; let named := 48 + sp % 4
  let k (s : State) : Nat := engOf e s % 64
  if castleKind d = 0 ∨ 4 ≤ castleKind d then
    .next (serveCastle d q
      (fun s => decide (192 ≤ e) || (decide (sp ≠ 255) && (decide (sp / 4 ≠ q) || ! (freeSpares q s).contains named)))
      (fun s => engFrozen (ekey q (k s)) s)
      (fun s => (freeSpares q s).isEmpty)
      (fun src s =>
        let n := if sp = 255 then (freeSpares q s).headD 48 else named
        startEngine e (k s) n (k s) (some src) s) s)
  else .next s

/-- CASTLE_STEWARD (R438). -/
def execCastleSteward (d : Desc) (s : State) : Host.Outcome State Fault Refusal :=
  if castleKind d = 1 then
    .next (serveCastle d 0 (fun _ => decide (castleSpare d ≠ 255)) (fun _ => false) (fun s => ! stewardFree s)
      (fun src s => startSteward 1 (some src) s) s)
  else .next s

/-- CASTLE_SLICE (R439, R440): the position of a port's lane in its group of four ports. -/
def execCastleSlice (d : Desc) (s : State) : Host.Outcome State Fault Refusal :=
  let p := bits (castleUnit d) 8 2; let q := p / 32; let g := p % 32 / 4; let pos := bits (castleUnit d) 3 0
  if castleKind d = 2 then
    .next (serveCastle d q (fun _ => decide (castleSpare d ≠ 255)) (fun s => ! castleNow d && ! sliceCalm q g pos s)
      (fun s => sliceUsed q g s)
      (fun src s => startSlice q g pos (castleUnit d) (some src) s) s)
  else .next s

/-- CASTLE_PCH (R441, R442): spare n of a stack by the number 2 × stack + n. -/
def execCastlePch (d : Desc) (s : State) : Host.Outcome State Fault Refusal :=
  let st := bits (castleUnit d) 7 6; let c := bits (castleUnit d) 4 0; let sp := castleSpare d
  if castleKind d = 3 then
    .next (serveCastle d st
      (fun s => decide (sp ≠ 255) && (decide (sp / 2 ≠ st) || ! (freePchs st s).contains (sp % 2)))
      (fun _ => false) (fun s => (freePchs st s).isEmpty)
      (fun src s => startPch st c (if sp = 255 then (freePchs st s).headD 0 else sp % 2) (some src) s) s)
  else .next s

/-! ### The steps of a castling -/

/-- The castling an event is about: quadrants 0 to 3 name the engine castling there, 4 the steward's. -/
def castleAt (unit : Fin 5) (s : State) : Option Castle :=
  if unit.val = 4 then castleOf 1 0 s else castleOf 0 unit s

/-- ENGINE_CASTLE_FREEZE (R433, R436, R438): after copy passes, with so many KiB still dirty, the engine stops at its next boundary; a debug
halt delays it. The steward accepts nothing from here to its resume. -/
def execEngineCastleFreeze (unit : Fin 5) (passes dirty : Nat) (s : State) : Host.Outcome State Fault Refusal :=
  match castleAt unit s with
  | some c =>
    if 3 ≤ c.step then .next s
    else if c.kind = 1 then
      let c1 := { c with step := 3, since := s.ticks }
      .next (showAct c1 passes dirty (putCastle c1 (setRepair (fun r => { r with paused := true }) s)))
    else if (eng (ekey c.quadrant c.old) s).halted ∨ ! castleRuns c.quadrant c.old s then .next s
    else .next (freezeEngine c passes dirty s)
  | none => .next s

/-- ENGINE_CASTLE_RESUME (R433–R436, R438): copied and redirected, the logical engine runs on the spare, or the spare steward serves. -/
def execEngineCastleResume (unit : Fin 5) (s : State) : Host.Outcome State Fault Refusal :=
  match castleAt unit s with
  | some c =>
    if c.step < 3 ∨ 7 ≤ c.step then .next s
    else if c.kind = 1 then .next (resumeSteward c s)
    else .next (resumeEngine c s)
  | none => .next s

/-- CASTLE_VERIFY_DONE (R433, R437): the scrub pass and the delay monitor have judged the spare, after 10 ms at the least; an engine castled
back to the slot it came from commits nothing. -/
def execCastleVerifyDone (unit : Fin 5) (good : Bool) (s : State) : Host.Outcome State Fault Refusal :=
  match castleAt unit s with
  | some c =>
    if c.step ≠ 7 ∨ ! passed c.since (msTicks 10) s then .next s
    else if ! good then .next (verifyFailed c s)
    else if c.spare = c.orig then .next (answerCastle c.src .ok (dropCastle c s))
    else .next (putCastle { c with step := 8, since := s.ticks } s)
  | none => .next s

/-- A castling whose next step is its commit (R440, R441, R448). -/
def commitReady (c : Castle) (s : State) : Bool :=
  match c.kind with
  | 2 => sliceUp c s
  | 3 => decide (c.step = 3)
  | _ => decide (c.step = 8)

/-- REPAIR_MAP_COMMIT (R448): the copy not in force is written and read back, well or badly; the power-loss warning holds it (R450). -/
def execRepairMapCommit (kind : Fin 6) (q : Fin 4) (good : Bool) (s : State) : Host.Outcome State Fault Refusal :=
  match castleOf kind q s with
  | some c =>
    if commitReady c s ∧ s.repair.warned.isNone ∧ centralUp s then
      .next (commitMap c good s)
    else .next s
  | none => .next s

/-- PCH_EVAC_DONE (R441): the copy completes and reads move to the spare. -/
def execPchEvacDone (st : Fin 4) (s : State) : Host.Outcome State Fault Refusal :=
  match castleOf 3 st s with
  | some c =>
    if c.step = 2 ∧ ! c.suspended then .next (bump (repairCnt 2) (putCastle { c with step := 3, since := s.ticks } s)) else .next s
  | none => .next s

/-- BANK_CASTLE_DONE (R443): the copy completes and reads move to the spare bank. [DEDUCED, log 86] -/
def execBankCastleDone (q : Fin 4) (s : State) : Host.Outcome State Fault Refusal :=
  match castleOf 4 q s with
  | some c => if c.step = 1 then .next (bump (repairCnt 3) (putCastle { c with step := 8, since := s.ticks } s)) else .next s
  | none => .next s

/-- WIRE_CASTLE (R430, R444): a wire of a set of a link fails its monitor; the link switches to the set's spare wire. A second wire of a set
whose spare serves stops the link. [DEDUCED, log 84] -/
def execWireCastle (q : Fin 4) (link : BitVec 20) (set_ : Fin 32) (s : State) : Host.Outcome State Fault Refusal :=
  let unit := link.toNat * 2 ^ 8 + set_.val
  let used : Bool := (entriesLive s).any (fun e => decide (bits e.toNat 31 28 = 6 ∧ bits e.toNat 27 8 = link.toNat ∧ bits e.toNat 4 0 = set_.val))
    || s.repair.castles.any (fun c => decide (c.kind = 5 ∧ c.unit = unit))
  if s.mode.current = .bringup ∨ s.mode.current = .safe then .next s
  else if used then .next (setRepair (fun r => { r with stopped := (q.val, link.toNat) :: r.stopped.filter (· ≠ (q.val, link.toNat)) }) s)
  else if (castleOf 5 q s).isSome then .next s
  else
    let c : Castle := ⟨5, q, unit, set_, 0, set_, 8, s.ticks, none, false, false⟩
    .next (bump (repairCnt 4) (setReg 0x60600 unit (putCastle c (castleJournal 5 unit s))))

/-! ### REPAIR_COMMIT (R448) -/

/-- REPAIR_COMMIT: a committed flash entry is burnt into the next empty eFuse entry. [DEDUCED, log 84] -/
def execRepairCommit (d : Desc) (s : State) : Host.Outcome State Fault Refusal :=
  let n := bf d 16 8 0
  let spec : CmdSpec := { op := 0x62, group := some 5, objs := [repairObj], fields := [(16, 8, 0)] }
  .next (serve spec d (fun s =>
      if s.repair.entries.length ≤ n then .range
      else if 64 ≤ s.fuses.repair.length then .noResource
      else .ok)
    (fun src s =>
      let s1 := { s with fuses := { s.fuses with repair := s.fuses.repair ++ [s.repair.entries.getD n 0] } }
      complete src .ok 0 (setFld 0x60004 26 20 s1.fuses.repair.length s1)) s)

/-! ### Power-loss warning (R450) -/

/-- POWER_WARNING: no flash operation starts and no descriptor is read until it clears; the journal entries not yet written wait only for
ring entries of their own. -/
def execPowerWarning (s : State) : Host.Outcome State Fault Refusal :=
  if s.repair.warned.isSome ∨ ! centralUp s then .next s
  else .next (attnRaise 4 (setFld 0x60004 27 27 1 (setRepair (fun r => { r with warned := some s.ticks }) s)))

/-- POWER_WARNING_CLEAR: within 10 ms, acceptance and flash operations resume. [DEDUCED, log 87] -/
def execPowerWarningClear (s : State) : Host.Outcome State Fault Refusal :=
  match s.repair.warned with
  | some k => if s.ticks ≤ k + msTicks 10 then .next (flashBegin (setRepair (fun r => { r with warned := none }) s)) else .next s
  | none => .next s

end Sys2Proof.Machine
end

