-- ==== Sys2Proof/Machine/FlashCmds.lean ====
section
/-! DEFINITION. The meanings of the flash commands and of the flash controller's events (16_serial_port.md, R394, R478). -/

namespace Sys2Proof.Machine

/-! ### The configuration record (R496–R498) -/

/-- Writes the record copy not in force with an epoch and a preferred slot, well or badly: a copy that fails its check leaves the copy in
force as it is (R498). [DEDUCED, log 73] -/
def recordWrite (epoch pref : Nat) (good : Bool) (s : State) : State :=
  let dst := match s.flash.copy with | some 0 => 1 | _ => 0
  let seq := (s.flash.seq + 1) % 2 ^ 32
  if ! stewardArea s then s
  else if good then
    setFlash (fun f => { f with copy := some dst, seq := seq, epoch := epoch, pref := pref, dirty := none })
      (writeRecord (configAt dst) (configBytes seq epoch pref s) s)
  else flErase 0 (configAt dst) 4096 (writeRecord (configAt dst) (configBytes seq epoch pref s) s)

/-- CONFIG_RECORD_REWRITE (R496, R497): 10 s after the last saved change, or the new epoch's record after a bring-up; a commit that fails
there lets descriptors in with epoch_unsafe set. -/
def execConfigRecordRewrite (good : Bool) (s : State) : Host.Outcome State Fault Refusal :=
  if flashHeld s ∨ ! centralUp s then .next s
  else if s.flash.epochWait then
    let s1 := setFlash (fun f => { f with epochWait := false }) (recordWrite s.jrnl.epoch s.flash.pref good s)
    .next (if good && stewardArea s then s1 else setFld 0x40114 27 27 1 s1)
  else match s.flash.dirty with
    | some k => if passed k (msTicks 10000) s then .next (recordWrite s.flash.epoch s.flash.pref good s) else .next s
    | none => .next s

/-! ### Jobs (R492, R493) -/

/-- The bytes a step works on. -/
def stepBytes : FlashStep → Nat × Nat × Nat
  | .erase cs off n => (cs, off, n)
  | .program cs off l => (cs, off, l.length)

/-- The last step of a job is done: its command completes; a staged image is verified first (R394, R478). -/
def jobEnd (j : FlashJob) (s : State) : State :=
  let ok := match j.work with | .stage slot _ => imageVerify slot s | _ => true
  let s1 := match j.work with
    | .stage slot _ => setFlash (fun f => { f with staged := if ok then some slot else none }) s
    | _ => s
  match j.src with
  | some src => complete src (if ok then .ok else .fault) 0 s1
  | none => s1

/-- The step in progress is done; the job goes on or ends, and the next begins. [DEDUCED, log 73] -/
def stepDone (s : State) : State :=
  match s.flash.jobs with
  | [] => s
  | j :: rest =>
    match j.steps with
    | [] => s
    | st :: more =>
      let s1 := match st with
        | .erase cs off n => flErase cs off n s
        | .program cs off l => flProgram cs off l s
      let s2 := setFlash (fun f => { f with wip := none, jobs := if more.isEmpty then rest else { j with steps := more } :: rest }) s1
      flashFree (if more.isEmpty then jobEnd j s2 else s2)

/-- The step in progress fails: its bytes are left open, the command completes with FAULT (R493, R499). [DEDUCED, log 73] -/
def stepFail (s : State) : State :=
  match s.flash.jobs with
  | [] => s
  | j :: rest =>
    match j.steps with
    | [] => s
    | st :: _ =>
      let (cs, off, n) := stepBytes st
      let s1 := setFlash (fun f => { f with wip := none, jobs := rest }) (flScramble cs off n s)
      let s2 := match j.src with | some src => complete src .fault 0 s1 | none => s1
      flashFree (setFld 0x40114 29 29 1 s2)

/-- FLASH_PAGE_FLUSH (R492): the page buffer is issued as a page program. -/
def execFlashPageFlush (s : State) : Host.Outcome State Fault Refusal :=
  match flashNext s with
  | some (.program cs off l) =>
    if flashHeld s ∨ ! centralUp s then .next s else .next (flashIssue cs (rfld 0x40100 7 0 s) off l s)
  | _ => .next s

/-- The chip select of the step in progress. -/
def flashCs (s : State) : Nat :=
  match s.flash.jobs with
  | j :: _ => (match j.steps with | st :: _ => (stepBytes st).1 | [] => 0)
  | [] => 0

/-- FLASH_STATUS_POLL (R492): every poll_us the controller reads write-in-progress, which is still 1, or 0 when the flash is done. -/
def execFlashStatusPoll (busy : Bool) (s : State) : Host.Outcome State Fault Refusal :=
  if s.flash.wip.isSome ∧ passed s.flash.polled (usTicks (rfld 0x40110 9 0 s)) s ∧ centralUp s then
    let s1 := emit (.flash (flashCs s) 0x05 none []) (setFlash (fun f => { f with polled := s.ticks }) s)
    .next (if busy then s1 else stepDone s1)
  else .next s

/-- FLASH_OP_TIMEOUT (R493): write-in-progress is still 1 after prog_ms or erase_ms. -/
def execFlashOpTimeout (s : State) : Host.Outcome State Fault Refusal :=
  match s.flash.wip, s.flash.jobs with
  | some k, j :: _ =>
    let ms := match j.steps with
      | .program _ _ _ :: _ => rfld 0x4010C 31 20 s
      | _ => rfld 0x4010C 19 4 s
    if passed k (msTicks ms) s then .next (stepFail s) else .next s
  | _, _ => .next s

/-! ### Commands (R389, R394) -/

/-- The window's density in bytes (R492, R504). -/
def flashSize (s : State) : Nat := 2 ^ rfld 0x40104 31 24 s

/-- A range of a chip select that a user command may touch (R394, R494). [DEDUCED, log 76] -/
def userRange (cs off n : Nat) (s : State) : Bool :=
  decide (off + n ≤ flashSize s) && (decide (cs ≠ 0) || decide (0x01100000 ≤ off))

/-- Bytes of bulk data and their checksum (R382, R401). -/
def bulkCrc (data : Option (List Byte)) : Nat := match data with | some l => crc32c (l.map (·.toNat)) | none => 0

/-- FLASH_WRITE: programs bytes into a user region. [DEDUCED, log 76] -/
def execFlashWrite (d : Desc) (data : Option (List Byte)) (s : State) : Host.Outcome State Fault Refusal :=
  let cs := bf d 16 1 0; let off := bf d 20 31 0; let n := bf d 24 31 0
  let spec : CmdSpec := { op := 0x63, group := some 5, objs := [⟨13, cs⟩], dataCrc := bulkCrc data, wait := .flash,
                          fields := [(16, 1, 0), (20, 31, 0), (24, 31, 0), (32, 63, 0)] }
  .next (serve spec d (fun s =>
      if n = 0 ∨ 2 ^ 24 < n ∨ ! userRange cs off n s then .range
      else if flashHeld s ∨ ! s.flash.jobs.isEmpty then .busy
      else .ok)
    (fun src s => match data with
      | none => complete src .fault 0 s
      | some l => flashAdd ⟨.write, pageSteps cs (2 ^ rfld 0x40104 23 16 s) n off ((l.map (·.toNat)).take n), some src⟩ s) s)

/-- The erase size of a size code (R389). [DEDUCED, log 76] -/
def eraseSize : Nat → Nat
  | 0 => 4096 | 1 => 32768 | _ => 65536

/-- FLASH_ERASE: erases a user region of a size; a size the part does not support ends with FAULT. [DEDUCED, log 76] -/
def execFlashErase (d : Desc) (s : State) : Host.Outcome State Fault Refusal :=
  let cs := bf d 16 1 0; let off := bf d 20 31 0; let size := bf d 16 9 8; let n := eraseSize size
  let spec : CmdSpec := { op := 0x64, group := some 5, objs := [⟨13, cs⟩], badEnc := decide (size = 3), wait := .flash,
                          fields := [(16, 9, 8), (16, 1, 0), (20, 31, 0)] }
  .next (serve spec d (fun s =>
      if off % n ≠ 0 ∨ ! userRange cs off n s then .range
      else if flashHeld s ∨ ! s.flash.jobs.isEmpty then .busy
      else .ok)
    (fun src s =>
      if eraseCode n s = 0 then complete src .fault 0 s else flashAdd ⟨.erase, [.erase cs off n], some src⟩ s) s)

def firmwareObj : ObjId := ⟨14, 0⟩

/-- FW_STAGE (R478): an image goes into the slot that did not boot and is verified. [DEDUCED, log 75] -/
def execFwStage (d : Desc) (data : Option (List Byte)) (s : State) : Host.Outcome State Fault Refusal :=
  let n := bf d 24 31 0
  let spec : CmdSpec := { op := 0x65, group := some 5, objs := [firmwareObj], dataCrc := bulkCrc data, wait := .flash,
                          fields := [(24, 31, 0), (32, 63, 0)] }
  let staging (s : State) : Bool := s.flash.jobs.any (fun j => match j.work with | .stage _ _ => true | _ => false)
  .next (serve spec d (fun s =>
      if n < 576 ∨ 6 * 2 ^ 20 + 512 < n then .range else if staging s then .busy else .ok)
    (fun src s => match data with
      | none => complete src .fault 0 s
      | some l =>
        let slot := 1 - s.rst.bootSlot
        let at_ := slotAt slot
        let steps := eraseSteps 0 at_ n ++ pageSteps 0 (2 ^ rfld 0x40104 23 16 s) n at_ ((l.map (·.toNat)).take n)
        flashAdd ⟨.stage slot n, steps, some src⟩ (setFlash (fun f => { f with staged := none }) s)) s)

/-- FW_SWITCH's checks: a verified staged image (R394). -/
def specFwSwitch : CmdSpec := { op := 0x66, group := some 5, objs := [firmwareObj], fields := [(16, 0, 0)], wait := .flash }
def ownFwSwitch (s : State) : Status := if s.flash.staged.isSome then .ok else .range

/-- The staged slot becomes the preferred one and the record is rewritten, well or badly (R478, R496, R498). [DEDUCED, log 75; DEDUCED, log 104] -/
def switchTo_ (good : Bool) (s : State) : State := recordWrite s.flash.epoch (s.flash.staged.getD s.flash.pref) good s

/-- How FW_SWITCH ends: with FAULT when the record's check fails or its place is beyond the flash (R498). [DEDUCED, log 75] -/
def switchStatus (good : Bool) (s : State) : Status := if good && stewardArea s then .ok else .fault

/-- FW_SWITCH_NEXT_BOOT (R478). -/
def execFwSwitchNextBoot (x : FwSwitch) (s : State) : Host.Outcome State Fault Refusal :=
  if bf x.d 16 0 0 = 0 then
    .next (serve specFwSwitch x.d ownFwSwitch (fun src s => complete src (switchStatus x.good s) 0 (switchTo_ x.good s)) s)
  else .next s

/-- FW_SWITCH_LIVE (R478): the staged image serves now, on the spare steward or reloaded in place; the new firmware writes the completion,
reports its own fw_version (R474) and restarts the watchdog. [DEDUCED, log 104] -/
def execFwSwitchLive (x : FwSwitch) (s : State) : Host.Outcome State Fault Refusal :=
  if bf x.d 16 0 0 = 1 then
    .next (serve specFwSwitch x.d ownFwSwitch (fun src s =>
      let v := leNat (flRead 0 (slotAt (s.flash.staged.getD s.rst.bootSlot) + 8) 4 s)
      complete src (switchStatus x.good s) 0 (setReg 0x4 v (setRst (fun r => { r with wdogFrom := s.ticks }) (switchTo_ x.good s)))) s)
  else .next s

end Sys2Proof.Machine
end

