-- ==== Sys2Proof/Machine/ResetOps.lean ====
section
/-! DEFINITION. What a reset of each level clears and keeps, how requests are ordered, and the release of the domains
(15_reset_bringup.md). -/

namespace Sys2Proof.Machine

/-! ### Parts of the register map -/

/-- Keeps the registers and counters whose offset satisfies a test. [DEDUCED, log 100] -/
def keepRegs (p : Nat → Bool) (s : State) : State :=
  { s with regs := mfilter p s.regs, cnts := mfilter p s.cnts }

/-- Offsets of the host block: the HOST registers, the virtual functions' MSI-X tables and the function counters (R379, R396). -/
def hostOfs (a : Nat) : Bool := decide (0x20000 ≤ a ∧ a < 0x30000) || decide (0x1000000 ≤ a)

/-- Offsets that an L1 reset keeps (R62, R456, R452, R481, R483, R548): the identity, RST, MODE, FUSE, the time unit, and the view of the
repair map. [DEDUCED, log 100] -/
def l1Keeps (a : Nat) : Bool :=
  decide (a < 0x18) || decide (0x1000 ≤ a ∧ a < 0x4000) || decide (0x10000 ≤ a ∧ a < 0x18000) || decide (0x60100 ≤ a ∧ a < 0x60600)

/-! ### Host functions (R351, R379) -/

/-- Records on their way to a function's event rings wait again, or meet their policy (R324, R339): those of one ring, or of all. [DEDUCED, log 101] -/
def rewaitBuilds (f : Nat) (rg : Option Nat) (s : State) : State :=
  s.evt.builds.foldl (fun s e =>
    if e.2.prof.func = f ∧ ! e.2.posts.isEmpty ∧ (rg = none ∨ rg = some e.2.prof.ring) then
      let back (p : Part) : Part := match p with
        | .done l short => .sized l short
        | x => x
      let b := { e.2 with parts := e.2.parts.map (fun p => (p.1, back p.2)), posts := [], first := 0 }
      holdRecord e.1 b (setBuild e.1 b s)
    else s) s

/-- A function's DELIVERED handles are released (R322). [DEDUCED, log 101] -/
def releaseDelivered (p : Delivered → Bool) (s : State) : State :=
  (s.evt.delivered.filter p).foldl (fun s d => freeBuf d.handle s)
    (setEvt (fun e => { e with delivered := e.delivered.filter (fun d => ! p d) }) s)

/-- A function's fences wait for no descriptor of a ring that is gone (R351, R376). [DEDUCED, log 137] -/
def fencesForget (f : Nat) (s : State) : State :=
  fences (setJrnl (fun j => { j with inflight := j.inflight.map (fun p =>
    if p.src.func = f then
      match p.wait with
      | .fence m _ b t => { p with wait := .fence m [] b t }
      | _ => p
    else p) }) s)

/-- A function's ring state is reset: rings disabled, its ring table, MSI-X table and registers but ALLOC and PERM at reset, its handles
released (R351, R379). Commands in flight run on without completions. [DEDUCED, log 100] -/
def fnReset (f : Nat) (s : State) : State :=
  let ofs (a : Nat) : Bool :=
    decide (0x28000 + f * 0x1000 ≤ a ∧ a < 0x29000 + f * 0x1000)
      || (decide (fnBase f ≤ a ∧ a < fnBase f + 0x40) && decide (a ≠ fnBase f + 0x18 ∧ a ≠ fnBase f + 0x1C))
      || decide (msixBase f ≤ a ∧ a < msixBase f + 0x1000) || decide (pbaBase f ≤ a ∧ a < pbaBase f + 0x40)
  let s1 := setFn f (fun x => { epoch := x.epoch + 1 }) (keepRegs (fun a => ! ofs a) s)
  fencesForget f (rewaitBuilds f none (releaseDelivered (fun d => decide (d.func = f)) s1))

/-- A function-level reset, which for the physical function reaches all eight (R351). [DEDUCED, log 100] -/
def flrReset (f : Nat) (s : State) : State :=
  if f = 0 then (List.range 8).foldl (fun s g => fnReset g s) s else fnReset f s

/-- The host interface is reset as a whole (R351, R379, R456): the link goes down with it (R518). [DEDUCED, log 100; DEDUCED, log 101; DEDUCED, log 114] -/
def hostReset (s : State) : State :=
  let s1 := (List.range 8).foldl (fun s g => fnReset g s) s
  let s2 := keepRegs (fun a => ! hostOfs a) s1
  let s3 := { s2 with host := { fns := s2.host.fns } }
  if s.host.linkUp ∧ centralUp s then attnRaise 7 s3 else s3

/-! ### A quadrant (R263, R303, R322, R339, R449, R456) -/

/-- The object lies in a quadrant (R385, R456). [DEDUCED, log 86] -/
def objOfQuad (q : Nat) (streams : List Nat) (k : Nat) : Bool :=
  let t := k / 2 ^ 24; let id := k % 2 ^ 24
  decide (t = 1 ∧ id / 32 = q) || decide (t = 2 ∧ streams.contains id = true) || decide (t = 3 ∧ id / 48 = q)
    || decide (t = 4 ∧ id / 16 / 48 = q) || decide (t = 9 ∧ id / 256 = 0 ∧ id / 48 = q)
    || decide (t = 11 ∧ id < 128 ∧ id / 32 = q)

/-- Castlings of a quadrant's units are abandoned and will be started again (R449); a central bank's is not the quadrant's. -/
def quadCastles (q : Nat) (s : State) : State :=
  s.repair.castles.foldl (fun s c =>
    if c.quadrant = q ∧ (c.kind = 0 ∨ c.kind = 2 ∨ c.kind = 3 ∨ (c.kind = 4 ∧ c.unit < 128)) then abandonCastle c (some c.src) s
    else s) s

/-- Requests of other devices are discarded with the history they read: no REPLY is sent (R303). [DEDUCED, log 101] -/
def dropAsked (s : State) : State :=
  let s1 := s.evt.builds.foldl (fun s e => match e.2.rcl with
    | some r => (match r.asker with
      | .device _ _ => delBuild e.1 (freeStaged e.2 s)
      | .host _ _ => s)
    | none => s) s
  setEvt (fun e => { e with asked := [] }) s1

/-- What an L3 reset of a quadrant clears. [DEDUCED, log 45] -/
def quadReset (q : Nat) (s : State) : State :=
  let ids := quadStreams q s
  let s1 := quadCastles q s
  let s2 := (s1.engines.filter (fun e => decide (e.1 / 64 = q))).foldl (fun s e => clearSlots e.1 s) s1
  let s3 := { s2 with streams := mfilter (fun k => decide (k / 16384 ≠ q)) s2.streams }
  let s4 := (List.range 32).foldl (fun s l =>
    setPtp (32 * q + l) (fun x => { x with state := .initializing }) (portOff (32 * q + l) 2 s)) s3
  let s5 := releaseDelivered (fun d => decide (hQuad d.handle = q)) (resetBuilds q (dropAsked s4))
  let s6 := keepRegs (fun a => ! decide (quadBase q ≤ a ∧ a < quadBase q + 0x100000)) s5
  { s6 with
    ports := mfilter (fun p => decide (p / 32 ≠ q)) s6.ports
    gapLog := mfilter (fun k => decide (k / 512 ≠ q)) s6.gapLog
    gapHead := mdel s6.gapHead q
    engines := mfilter (fun k => decide (k / 64 ≠ q)) s6.engines
    engMap := mfilter (fun e => decide (e / 48 ≠ q)) s6.engMap
    bufs := mfilter (fun k => decide (hQuad k ≠ q)) s6.bufs
    msgs := s6.msgs.filter (fun m => decide (m.1 / 48 ≠ q))
    jrnl := { s6.jrnl with vers := mfilter (fun k => ! objOfQuad q ids k) s6.jrnl.vers
                           owners := mfilter (fun k => ! objOfQuad q ids k) s6.jrnl.owners }
    evt := { s6.evt with hist := mdel s6.evt.hist q
                         quota := mfilter (fun i => ! ids.contains i) s6.evt.quota
                         engQuota := mfilter (fun e => decide (e / 48 ≠ q)) s6.evt.engQuota
                         attach := mdel s6.evt.attach q }
    trig := { s6.trig with qcus := mput s6.trig.qcus q { out := true }
                           taQueue := (s6.trig.taQueue.map (fun t => { t with left := t.left.filter (fun k => decide (k ≠ q)) })).filter
                             (fun t => ! t.left.isEmpty) }
    repair := { s6.repair with overLoans := s6.repair.overLoans.filter (fun k => decide (k / 64 ≠ q))
                               stopped := s6.repair.stopped.filter (fun l => decide (l.1 ≠ q)) } }

/-! ### One engine (R188, R436, R457) -/

/-- An L4 reset: every slot is cleaned; one that comes while a castling holds the engine takes effect at resume, on the spare; before the
freeze it abandons the castling. -/
def engReset (e : Nat) (s : State) : State :=
  match castleOf 0 (e / 48) s with
  | some c =>
    if c.unit = e ∧ 3 ≤ c.step ∧ c.step ≤ 6 then putCastle { c with l4 := true } s
    else if c.unit = e ∧ c.step < 3 then engWipe e (engOf e s) (abandonCastle c (some c.src) s)
    else engWipe e (engOf e s) s
  | none => engWipe e (engOf e s) s

/-! ### L0 and L1 (R405, R449, R451, R456, R468) -/

/-- A flash step in progress at a reset is finished by the flash on its own (R468); a supply collapse leaves its bytes open (R499). [DEDUCED, log 98] -/
def flashCut (collapse : Bool) (s : State) : State :=
  match s.flash.wip, s.flash.jobs with
  | some _, j :: _ => (match j.steps with
    | st :: _ =>
      let (cs, off, n) := stepBytes st
      if collapse then flScramble cs off n s
      else (match st with
        | .erase _ _ _ => flErase cs off n s
        | .program _ _ l => flProgram cs off l s)
    | [] => s)
  | _, _ => s

/-- Castlings that an L1 reset abandons and restarts after bring-up (R449): commands are gone with the journal. -/
def castlesAgain (s : State) : List CastleAsk :=
  (s.repair.castles.filter (fun c => decide (c.kind ≠ 5))).map (fun c => ⟨c.kind, c.quadrant, c.unit, none⟩)
    ++ s.repair.again.map (fun a => { a with src := none })

/-- PTP instances return to INITIALIZING through an L1 (R44, R456); the count of unsupported messages and the filtered delay survive
(R155). -/
def ptpAgain (t : TimeSt) : TimeSt :=
  { t with ptps := t.ptps.map (fun p => (p.1, { unsupported := p.2.unsupported, mpd := p.2.mpd })) }

/-- The mode state in BRINGUP, keeping what a reset of the level keeps (R62, R456); the sensors and rails are outside. -/
def modeReset (cold : Bool) (m : ModeSt) : ModeSt :=
  let w : ModeSt := { hottest := m.hottest, sensors := m.sensors, hotSince := m.hotSince, railSince := m.railSince, coreFail := m.coreFail }
  if cold then w else { w with cause := m.cause, calSet := m.calSet, vigilQ := m.vigilQ, vigilPorts := m.vigilPorts, vigilEngines := m.vigilEngines }

/-- What an L0 (`cold`) or L1 reset clears: all but what R456 keeps, and what lies outside the block: pins, fuses, flash, sensors, time
passed, and the waiting commands. -/
def deviceReset (cold : Bool) (s : State) : State :=
  let lines := s.trig.ins.filterMap (fun l => if l.2.pin then some (l.1, ({ pin := true } : TrigIn)) else none)
  let base : State := { pending := s.pending, freeIdx := s.freeIdx, ticks := s.ticks, out := s.out, fuses := s.fuses,
                        rst := s.rst, mode := modeReset cold s.mode }
  let flash : FlashSt := { bytes := s.flash.bytes }
  let fns := (List.range 8).map (fun f => (f, ({ epoch := (fn f s).epoch + 1 } : FnSt)))
  let s1 := { base with
    flash := flash, host := { fns := fns }, trig := { ins := lines }
    tmr := { refPhase := s.tmr.refPhase }
    regs := if cold then [] else mfilter l1Keeps s.regs
    cnts := if cold then [] else mfilter l1Keeps s.cnts
    time := if cold then { refinPresent := s.time.refinPresent } else ptpAgain s.time }
  let kept : RepairSt := { map := s.repair.map, copy := s.repair.copy, seq := s.repair.seq, entries := s.repair.entries,
                           again := castlesAgain s }
  let s2 := { s1 with repair := kept }
  if cold then s1 else (List.range 8).foldl (fun s n => l1Update n s) s2

/-- The reset controller at an L0 (R456, R481, R482): cleared, but for the pins, the supplies and, unless power was lost, the count of L0. -/
def rstReset (cause : Nat) (l0 : Nat) (s : State) : State :=
  let r : RstSt := { sysrstLow := s.rst.sysrstLow, perstLow := s.rst.perstLow, powered := s.rst.powered }
  { s with rst := r, cnts := if cause = 0 ∨ l0 = 0 then s.cnts else mput s.cnts (rstCnt 0) l0 }

/-! ### Requests (R459, R460, R465–R467) -/

/-- The level of a source: its default, changed by its field of FUSE_RST_MAP (R460). -/
def mapLevel (default_ field : Nat) (noL2 : Bool) (s : State) : Nat :=
  match rfld 0x3040 (2 * field + 1) (2 * field) s with
  | 1 => 0
  | 2 => 1
  | 3 => if noL2 then default_ else 2
  | _ => default_

def sysrstLevel (s : State) : Nat := mapLevel 1 5 false s
def perstLevel (s : State) : Nat := mapLevel 2 4 false s

/-- The domains a level clears, in the order of R469. [DESIGN CHOICE, log 28] -/
def domains (level target : Nat) : List Nat :=
  match level with
  | 0 => [1, 2, 3, 4, 5, 6, 7, 8, 9, 10, 11]
  | 1 => [2, 3, 5, 6, 7, 8, 9, 10, 11]
  | 2 => [11]
  | 3 => [5, 6 + (target - 1), 10]
  | _ => []

/-- What a reset clears at its assertion (R456). -/
def rstClear (level target cause : Nat) (s : State) : State :=
  match level with
  | 0 => rstReset cause (cnt (rstCnt 0) s) (deviceReset true (flashCut (decide (cause = 0)) s))
  | 1 => deviceReset false (flashCut false s)
  | 2 => if target = 0 then hostReset s else flrReset (target - 1) s
  | 3 => quadReset (target - 1) s
  | _ => engReset (target - 1) s

/-- Everything the request would clear is cleared by the reset (R467). [DEDUCED, log 94] -/
def contained (level target curLevel curTarget : Nat) : Bool :=
  match curLevel with
  | 0 => true
  | 1 => decide (1 ≤ level)
  | 2 => decide (level = 2) && (decide (curTarget = 0 ∨ curTarget = target) || (decide (curTarget = 1) && decide (target ≠ 0)))
  | 3 => (decide (level = 3 ∧ target = curTarget)) || (decide (level = 4) && decide ((target - 1) / 48 + 1 = curTarget))
  | _ => decide (level = 4 ∧ target = curTarget)

/-- Sets RST_CAUSE, RST_FLR and RST_L3 for a request that is taken (R466). [DEDUCED, log 94] -/
def markCause (r : ResetReq) (s : State) : State :=
  setRst (fun x => { x with
    cause := x.cause ||| 2 ^ r.cause
    flr := if r.cause = 5 then x.flr ||| 2 ^ (r.target - 1) else x.flr
    l3 := if r.level = 3 then x.l3 ||| 2 ^ (r.target - 1) else x.l3 }) s

def holdRank : HoldBy → Nat
  | .power => 4 | .thermal => 3 | .sysrst => 2 | .perst => 1 | .minimum => 0

/-- A reset that restarts under another's still-lasting condition keeps the stronger of the two. [DEDUCED, log 94] -/
def joinHold (r : HoldBy) (old : Option HoldBy) : HoldBy :=
  match old with
  | some h => if holdRank r < holdRank h then h else r
  | none => r

/-- Asserts a reset: its scope is cleared and its domains are held (R455, R456). [DEDUCED, log 94] -/
def assertReset (r : ResetReq) (hold : HoldBy) (s : State) : State :=
  let s1 := rstClear r.level r.target r.cause s
  let s2 := if r.level = 0 then setRst (fun x => { x with cause := 2 ^ r.cause }) s1 else s1
  let c : Reset := ⟨r.level, r.target, r.cause, some hold, domains r.level r.target, s.ticks, s.ticks⟩
  setRst (fun x => { x with cur := some c, level := r.level, wdogOn := x.wdogOn && decide (2 ≤ r.level) }) s2

/-- A request under the rule of R467, without marking it again. [DEDUCED, log 94] -/
def runRequest (r : ResetReq) (s : State) : State :=
  match s.rst.cur with
  | none => assertReset r r.hold s
  | some c =>
    if r.level < c.level ∨ (r.level = c.level ∧ r.target = c.target) then
      let again : List ResetReq :=
        if r.level < c.level ∧ ! contained c.level c.target r.level r.target then [⟨c.level, c.target, c.cause, .minimum⟩] else []
      bump (rstCnt 6) (assertReset r (joinHold r.hold c.hold) (setRst (fun x => { x with held := again ++ x.held }) s))
    else setRst (fun x => { x with held := x.held ++ [r] }) s

/-- A request is taken (R466, R467). -/
def resetRequest (r : ResetReq) (s : State) : State := runRequest r (markCause r s)

/-- The condition of a hold ends: the release begins, unless a low pin that the reset covers still holds it (R465). [DEDUCED, log 95] -/
def endHold (s : State) : State :=
  match s.rst.cur with
  | none => s
  | some c =>
    let next : Option HoldBy :=
      if s.rst.sysrstLow ∧ c.level ≤ sysrstLevel s then some .sysrst
      else if s.rst.perstLow ∧ c.level ≤ perstLevel s then some .perst
      else none
    setRst (fun x => { x with cur := some { c with hold := next, since := s.ticks, began := s.ticks } }) s

/-! ### Bring-up (R469–R478) -/

def gapTicks (s : State) : Nat := let g := s.fuses.rstTiming / 256 % 4096; usTicks (if g = 0 then 100 else g)
/-- [DESIGN CHOICE, log 96] -/
def filterUs (s : State) : Nat := let g := s.fuses.rstTiming % 128; if g = 0 then 10 else g

/-- L0.1: the fuses are sensed into the shadow (R483, R525, R548). [DEDUCED, log 77; DEDUCED, log 95] -/
def senseFuses (s : State) : State :=
  let f := s.fuses
  let s1 := setReg 0x3040 f.rstMap (setReg 0x3044 f.rstTiming (setReg 0x3048 (f.revoked % 4 * 4 + f.prog % 4)
    (setReg 0x304C Config.tripTemp (setReg 0x3050 f.tw0 s))))
  let s2 := [0, 1].foldl (fun s k => match mfind f.keyHash k with
    | some h => (List.range 12).foldl (fun s j => setReg (0x3080 + 48 * k + 4 * j)
        (leNat ((List.range 4).map (fun b => bits h.toNat (383 - 8 * (4 * j + b)) (376 - 8 * (4 * j + b))))) s) s
    | none => s) s1
  setReg 0x14 (bits Config.dieId.toNat 63 32) (setReg 0x10 (bits Config.dieId.toNat 31 0) s2)

/-- The window registers as the boot ROM fills them from the flash's SFDP, or its fallback (R491, R504). -/
def fillWindow (sfdp : Option Sfdp) (s : State) : State :=
  match sfdp with
  | some x =>
    let size := if 24 < x.log2Size.val ∧ ! x.addr4 then 24 else max 20 (min 28 x.log2Size.val)
    let a4 := x.addr4 && decide (24 < size)
    let page := max 6 (min 10 x.log2Page.val)
    let ctl := 2 ^ 31 + b1 a4 * 2 ^ 30 + x.readMode.val * 2 ^ 27 + x.dummy.val * 2 ^ 22 + x.modeClk.val * 2 ^ 19
      + x.readOp.toNat * 2 ^ 8 + (if a4 then 0x12 else 0x02)
    setFld 0x40114 28 28 1 (setReg 0x40108 (x.op4k.toNat * 2 ^ 24 + x.op32k.toNat * 2 ^ 16 + x.op64k.toNat * 2 ^ 8)
      (setReg 0x40104 (size * 2 ^ 24 + page * 2 ^ 16) (setReg 0x40100 ctl s)))
  | none =>
    setFld 0x40114 28 28 0 (setReg 0x40108 (0x20 * 2 ^ 24) (setReg 0x40104 (24 * 2 ^ 24 + 8 * 2 ^ 16) (setReg 0x40100 (2 ^ 31 + 0x302) s)))

/-- Starts an image: the other key slot is revoked where the image says so, its version shows, and the watchdog runs (R462, R477). -/
def startImage (slot : Nat) (fallback : Bool) (s : State) : State :=
  let w := leNat (flRead 0 (slotAt slot + 4) 4 s)
  let other := 1 - bits w 16 16
  let s1 := if bit w 23 ∧ bit s.fuses.prog other then
      let f := { s.fuses with revoked := s.fuses.revoked ||| 2 ^ other }
      setReg 0x3048 (f.revoked % 4 * 4 + f.prog % 4) { s with fuses := f }
    else s
  setReg 0x4 (leNat (flRead 0 (slotAt slot + 8) 4 s))
    (setRst (fun r => { r with bootSlot := slot, fallback := fallback, bootFail := false, wdogOn := true, wdogFrom := s.ticks }) s1)

/-- L0.2: the boot ROM reads and verifies the preferred image, or the other, or stops (R476). [DESIGN CHOICE, log 99] -/
def bootRom (sfdp : Option Sfdp) (s : State) : State :=
  let s1 := fillWindow sfdp (emit (.flash 0 0x5A (some 0) []) (emit (.flash 0 0x05 none []) s))
  let pref := match configRecord s1 with
    | some (_, l) => bits (leNat (sliceB l 20 4)) 3 3
    | none => 0
  let s2 := setFlash (fun f => { f with pref := pref }) s1
  if imageVerify pref s2 then startImage pref false s2
  else if imageVerify (1 - pref) s2 then startImage (1 - pref) true s2
  else setRst (fun r => { r with bootFail := true }) s2

/-- L0.3: the configuration record and the repair map are read; at L0 the map is built (R446, R447, R456). [DESIGN CHOICE, log 99] -/
def readRecords (cold : Bool) (s : State) : State :=
  let s1 := match configRecord s with
    | some (c, l) => setFlash (fun f => { f with copy := some c, seq := recSeq l, epoch := leNat (sliceB l 16 4) }) s
    | none => s
  let s2 := if cold then
      let (copy, seq, ents) := match mapRecord s1 with
        | some (c, l) => (some c, recSeq l, (List.range (min 512 (leNat (sliceB l 8 4)))).map
            (fun i => BitVec.ofNat 32 (leNat (sliceB l (64 + 4 * i) 4))))
        | none => (none, 0, [])
      let (map, conflicts) := buildMap s1.fuses.repair ents
      let t := setRepair (fun r => { r with map := map, copy := copy, seq := seq, entries := ents }) s1
      if conflicts = 0 then t else bumpN (repairCnt 8) conflicts (setFld 0x60004 29 29 1 t)
    else s1
  let st := 2 ^ 31 + b1 s2.repair.copy.isSome * 2 ^ 30 + s2.fuses.repair.length * 2 ^ 20 + s2.repair.entries.length * 2 ^ 10
  let s3 := (List.range 4).foldl (fun s q => (List.range 8).foldl (fun s g => setReg (sliceReg q g) 0 s) (setReg (pchReg q) 0 s)) (setReg 0x60400 0 s2)
  showMap (setReg 0x60008 s2.repair.seq (setReg 0x60004 (st + rfld 0x60004 29 29 s2 * 2 ^ 29) s3))

/-- Restores the RW fields of the registers of a section of the record (R458, R495). -/
def restoreRegs (type lo hi : Nat) (s : State) : State :=
  match configRecord s with
  | none => s
  | some (_, l) =>
    (sectionPairs type 1024 (l.drop 64)).foldl (fun s p =>
      match regAt p.1 with
      | some (r, _) =>
        if lo ≤ p.1 ∧ p.1 < hi then
          setReg p.1 ((r.fields.filter (fun f => decide (f.acc = .rw))).foldl (fun v f => putBits v f.hi f.lo (bits p.2 f.hi f.lo)) (reg p.1 s)) s
        else s
      | none => s) s

/-- What the release of a domain does (R469, R470); the steward, released with the central block, restores the registers of the
configuration record before ports and quadrants are released (R304, R424, R458). [DEDUCED, log 77; DESIGN CHOICE, log 99] -/
def release (r : Reset) (d : Nat) (sfdp : Option Sfdp) (s : State) : State :=
  match d with
  | 1 => senseFuses s
  | 2 => bootRom sfdp s
  | 3 => restoreRegs 2 0x50000 0x51000 (restoreRegs 1 0x84000 0x8C000 (readRecords (decide (r.level = 0)) s))
  | 4 => setTime (fun t => { t with running := true, pllLock := t.refinPresent }) s
  | 6 => mapEngines 0 s
  | 7 => mapEngines 1 s
  | 8 => mapEngines 2 s
  | 9 => mapEngines 3 s
  | _ => s

/-- The end of an L0 or L1 bring-up: epoch, the pace loop, TW0 and the boot mode (R61, R405, R424, R496, R497, R508). -/
def bootEnd (bus : List TwTry) (s : State) : State :=
  let boot := match configRecord s with
    | some (_, l) => if bits (leNat (sliceB l 20 4)) 2 0 = 3 then Mode.retain else Mode.acquire
    | none => Mode.acquire
  let s1 := setFlash (fun f => { f with epochWait := true }) (setJrnl (fun j => { j with epoch := s.flash.epoch + 1 }) s)
  let s3 := if paceEn s1 then paceStart bus s1 else s1
  let addr := rfld 0x3050 6 0 s
  let s4 := setFld 0x42004 6 0 (if addr < 8 ∨ 0x78 ≤ addr then 0x4C else addr) (setFld 0x42004 7 7 1 s3)
  let pec := rfld 0x3050 9 8 s
  let s5 := setFld 0x42000 29 28 (if pec = 3 then 0 else pec) s4
  let s6 := modeEnd ⟨boot, none, false, (0, 0, 0)⟩ s5
  let s7 := if s.tw.stretch.isSome then emit .tw0Nack s6 else s6
  setTw (fun t => { t with awake := true, stretch := none, active := false, idle := s.ticks }) (setFld 0x2000 2 0 (modeCode boot) s7)

/-- The end of a bring-up (R471, R481, R518). [DEDUCED, log 82] -/
def bringupEnd (r : Reset) (bus : List TwTry) (s : State) : State :=
  let s1 := setRst (fun x => { x with
    cur := none, level := r.level, lastUs := (s.ticks - r.began) / 625 % 2 ^ 32
    l3 := if r.level = 3 then x.l3 ||| 2 ^ (r.target - 1) else x.l3
    l4Seen := x.l4Seen || decide (r.level = 4), l4Engine := if r.level = 4 then r.target - 1 else x.l4Engine }) s
  let s2 := bump (rstCnt r.level) (if r.cause = 5 then bump (rstCnt 8) s1 else s1)
  let s3 := if r.level ≤ 1 then bootEnd bus s2 else s2
  let s4 := if r.level ≤ 3 then attnRaise 2 s3 else s3
  let s5 := if r.level ≤ 1 ∧ s4.rst.fallback then attnRaise 5 s4 else s4
  if r.level = 3 ∨ r.level = 4 then errVec 0 s5 else s5

/-- The requests held during a bring-up: done by it, or served in turn (R467). [DEDUCED, log 102] -/
def serveHeld (r : Reset) (s : State) : State :=
  let l := s.rst.held
  l.foldl (fun s h => if contained h.level h.target r.level r.target then bump (rstCnt 5) s else runRequest h s)
    (setRst (fun x => { x with held := [] }) s)

/-- BRINGUP_RELEASE_STEP (R469): after the gap, or as the reset ends its 10 µs, the next domain is released; with the last one the bring-up
ends. `sfdp` is what the flash answers the boot ROM, `bus` what TW1 meets when a restored PACE starts. -/
def releaseStep (sfdp : Option Sfdp) (bus : List TwTry) (s : State) : State :=
  match s.rst.cur with
  | none => s
  | some c =>
    match c.hold with
    | some .minimum => if passed c.since (usTicks 10) s then endHold s else s
    | some _ => s
    | none =>
      if s.rst.bootFail ∧ c.level ≤ 1 ∧ ! c.todo.contains 2 then s
      else match c.todo with
        | [] => serveHeld c (bringupEnd c bus s)
        | d :: rest =>
          let first : Bool := decide (c.todo.length = (domains c.level c.target).length)
          if first ∨ passed c.since (gapTicks s) s then
            let s1 := release c d sfdp (setRst (fun x => { x with cur := some { c with todo := rest, since := s.ticks } }) s)
            if rest.isEmpty then serveHeld c (bringupEnd c bus s1) else s1
          else s

end Sys2Proof.Machine
end

