-- ==== Sys2Proof/Machine/HostOps.lean ====
section
/-! DEFINITION. Rings and doorbells: enabling, stopping and resuming, host indices, entries that wait, and interrupts (R352–R371). -/

namespace Sys2Proof.Machine

/-! ### Entries that wait (R358, R402) -/

/-- Journal entries that wait go to the journal ring as far as it has room. -/
def flushJrnl (f : Nat) (s : State) : State :=
  (fn f s).jrnlWait.foldl (fun s e => jrnlRingPut f e s) (setFn f (fun x => { x with jrnlWait := [] }) s)

/-- Completions that wait are written as far as their rings have room and their journal entries are written. -/
def flushCq (f : Nat) (s : State) : State :=
  (fn f s).cqWait.foldl (fun s e => writeCompl f e.1 e.2 s) (setFn f (fun x => { x with cqWait := [] }) s)

/-- Everything of a function that waits for a ring. -/
def flushFn (f : Nat) (s : State) : State := flushCq f (flushJrnl f s)

/-! ### Enabling, disabling, resuming (R354, R355) -/

/-- RING_CTL.en from 0 to 1: the ring runs with both indices 0; the status word keeps the code of the last stop (R355). -/
def ringEnable (f slot : Nat) (s : State) : State :=
  flushFn f (showRing f slot 1 (writeShadow f slot 0 (setRing f slot (fun r => { en := true, code := r.code }) s)))

/-- The fences of a function wait for no descriptor of a disabled ring (R376). [DEDUCED, log 137] -/
def fencesDrop (f slot : Nat) (s : State) : State :=
  fences (setJrnl (fun j => { j with inflight := j.inflight.map (fun p =>
    if p.src.func = f then
      match p.wait with
      | .fence m up b t => { p with wait := .fence m (mdel up slot) b t }
      | _ => p
    else p) }) s)

/-- Clearing RING_CTL.en: the ring is disabled at once. Entries that waited for it are not written; records on their way to an event ring
wait again (R354). -/
def ringDisable (f slot : Nat) (s : State) : State :=
  let s1 := showRing f slot 0 (setRing f slot (fun r => { shown := r.shown, code := r.code }) s)
  if slot < 64 then fencesDrop f slot s1
  else if slot < 128 then flushFn f (setFn f (fun x => { x with cqWait := x.cqWait.filter (fun e => e.1 != slot - 64) }) s1)
  else if slot < 160 then rewaitBuilds f (some (slot - 128)) s1
  else if slot = 192 then flushFn f s1
  else s1

/-! ### Host indices (R356, R357) -/

/-- Rings that the host fills. -/
def hostFilled (slot : Nat) : Bool := decide (slot < 64 ∨ (128 ≤ slot ∧ slot < 192))

/-- An index keeps R357. [DEDUCED, log 110] -/
def indexOk (f slot h : Nat) (s : State) : Bool :=
  let d := (ring f slot s).dev
  decide ((if hostFilled slot then wrapN 64 ((h : Int) - d) else wrapN 64 ((d : Int) - h)) ≤ ringSize f slot s)

/-- The device has read a host index: one that breaks R357 stops the ring with RANGE, and is not used. A stopped ring keeps it to be judged
at resume; a disabled one reads none. [DEDUCED, log 110] -/
def takeIndex (f : Nat) (s : State) (x : Nat × Nat) : State :=
  let keep (s : State) : State := setRing f x.1 (fun r => { r with seen := some x.2 }) s
  if ringRuns f x.1 s then
    if indexOk f x.1 x.2 s then setRing f x.1 (fun r => { r with host := x.2 }) s
    else stopRing f x.1 .range (keep s)
  else if (ring f x.1 s).en then keep s
  else s

/-- RING_CTL.resume: a STOPPED ring continues from its device index; the host index read last is judged again, and one that breaks R357
stops the ring again (R354, R357). [DEDUCED, log 110] -/
def ringResume (f slot : Nat) (s : State) : State :=
  let r := ring f slot s
  if r.stopped.isSome then
    let s1 := setRing f slot (fun x => { x with stopped := none, seen := none }) s
    flushFn f (match r.seen with
      | none => showRing f slot 1 s1
      | some h => if indexOk f slot h s then showRing f slot 1 (setRing f slot (fun x => { x with host := h }) s1)
        else takeIndex f s1 (slot, h))
  else s

/-- What a write of RING_CTL does besides storing it (R354). [DEDUCED, log 113] -/
def ringCtlEffect (f slot old new : Nat) (s : State) : State :=
  if bit new 31 ∧ ! bit old 31 then ringEnable f slot s
  else if ! bit new 31 then (if bit old 31 then ringDisable f slot s else s)
  else if bit new 30 then ringResume f slot s
  else s

/-- The device reads doorbell words: for each slot, the index it finds there. [DEDUCED, log 128] -/
def takeWords (f : Nat) (words : List (Fin 193 × BitVec 64)) (s : State) : State :=
  flushFn f (words.foldl (fun s w => takeIndex f s (w.1.val, w.2.toNat)) s)

/-- Doorbell lines of a function that cover an enabled ring (R365, R366). -/
def dbLines (f : Nat) (s : State) : Nat :=
  ((List.range 25).filter (fun l => (List.range 8).any (fun i => (ring f (8 * l + i) s).en))).length

/-- poll_ns of a function. -/
def pollNs (f : Nat) (s : State) : Nat := rfld (fnBase f + 4) 26 0 s

/-- Doorbell line reads per second that the programmed intervals ask for; a function in D3hot is not polled (R366). [DEDUCED, log 110] -/
def pollDemand (s : State) : Nat :=
  ((List.range 8).map (fun f => if (fn f s).d3hot then 0 else dbLines f s * 1000000000 / pollNs f s)).sum

/-- The interval between two polls of a function, ns: stretched in proportion above 100 million lines per second (R366). [DEDUCED, log 122] -/
def pollEvery (f : Nat) (s : State) : Nat := pollNs f s * max 100000000 (pollDemand s) / 100000000

/-- The function's doorbells can be read at all. [DEDUCED, log 122] -/
def canPoll (f : Nat) (s : State) : Bool := hostUp f s && s.host.linkUp && ! (fn f s).d3hot

/-- A poll of a function's doorbell lines (R365–R367). [DEDUCED, log 119; DEDUCED, log 122] -/
def poll (f : Nat) (words : List (Fin 193 × BitVec 64)) (s : State) : State :=
  let s1 := if 100000000 < pollDemand s then setFld 0x20008 31 31 1 s else s
  takeWords f words (setFn f (fun x => { x with polled := some s.ticks }) s1)

/-! ### Interrupts (R371) -/

/-- Sends a vector whose pending bit is set, if nothing keeps it back. -/
def sendPending (f : Nat) (s : State) (v : Nat) : State :=
  if bit (reg (pbaBase f + 4 * (v / 32)) s) (v % 32) ∧ vecUsable f v s ∧ fnAwake f s ∧ ! bit (reg (msixBase f + 16 * v + 12) s) 0 then
    emit (.msix f v) (setPba f v false s)
  else s

end Sys2Proof.Machine
end

