-- ==== Sys2Proof/Machine/RegView.lean ====
section
/-! DEFINITION. What a read of a setup register shows (19_register_map.md): stored fields, the fields that show the machine, the gap log
and journal windows, and the engine debug window. -/

namespace Sys2Proof.Machine

/-! ### The engine debug window (R186, R191) -/

/-- The location ENG_DBG_ADDR names: space, slot, index. -/
def dbgAddr (key : Nat) (s : State) : Nat × Nat × Nat :=
  let a := reg (dbgCtl key + 0x14) s
  (bits a 31 28, bits a 27 24, bits a 23 0)

/-- An entry of a stack held top first, counted from the bottom (R186). -/
def fromBottom {α : Type} (l : List α) (i : Nat) : Option α := l.reverse[i]?

/-- The vector of ENG_DBG_ADDR: a vector-store location, where 0x80 and up hold the V stacks of the slots that do not run (R166), or an
entry of a slot's V stack; none above its depth. [DEDUCED, log 105] -/
def dbgVec (key space slot v : Nat) (s : State) : Option Vec :=
  if space = 5 then (if v < 8 then fromBottom (task key slot s).vStk v else none)
  else if 256 ≤ v then none
  else if 128 ≤ v ∧ (eng key s).running ≠ some ((v - 128) / 8) then
    match fromBottom (task key ((v - 128) / 8) s).vStk (v % 8) with
    | some x => some x
    | none => some (mget {} (eng key s).vec v)
  else some (mget {} (eng key s).vec v)

/-- A chunk of a vector (R186). -/
def vecChunk (v : Vec) (c : Nat) : Nat :=
  if c < 64 then bits v.data.toNat (32 * c + 31) (32 * c)
  else if c < 80 then bits (shownFlags v).toNat (32 * (c - 64) + 31) (32 * (c - 64))
  else if c = 80 then v.tag % 16
  else 0

/-- A vector with a chunk replaced. -/
def setChunk (v : Vec) (c x : Nat) : Vec :=
  if c < 64 then { v with data := BitVec.ofNat 2048 (putBits v.data.toNat (32 * c + 31) (32 * c) x) }
  else if c < 80 then { v with flags := BitVec.ofNat 512 (putBits v.flags.toNat (32 * (c - 64) + 31) (32 * (c - 64)) x) }
  else { v with tag := x % 16 }

/-- What ENG_DBG_DATA reads, 40 bits (R186): 0 while the engine runs, beyond a store and above a stack's depth. [DEDUCED, log 105] -/
def dbgRead (key : Nat) (s : State) : Nat :=
  if ! (eng key s).halted then 0
  else
    let (space, slot, i) := dbgAddr key s
    let e := eng key s
    let word (w : Option EWord) : Nat := match w with | some w => w.toNat | none => 0
    match space with
    | 0 => if i < 65536 then (mget emptyWord e.data i).toNat else 0
    | 2 => if i < 65536 then mget 0 e.prog i else 0
    | 3 => word (fromBottom (task key slot s).sStk i)
    | 4 => word (fromBottom (task key slot s).mStk i)
    | _ => match dbgVec key space slot (i / 128) s with
      | some v => vecChunk v (i % 128)
      | none => 0

/-- Replaces an entry of a stack held top first, counted from the bottom. -/
def putBottom {α : Type} (l : List α) (i : Nat) (x : α) : List α := (l.reverse.set i x).reverse

/-- The location takes a debug write of a 40-bit word or a chunk (R186): a reserved tag, a chunk above 80, an entry above a stack's depth and
a place beyond a store are refused. Bits that a location does not have are not stored. [DEDUCED, log 105] -/
def dbgTakes (key v : Nat) (s : State) : Bool :=
  let (space, slot, i) := dbgAddr key s
  let tagOk : Bool := decide (tagOf (BitVec.ofNat 40 v) ≠ .reserved)
  match space with
  | 0 => decide (i < 65536) && tagOk
  | 2 => decide (i < 65536)
  | 3 => (fromBottom (task key slot s).sStk i).isSome && tagOk
  | 4 => (fromBottom (task key slot s).mStk i).isSome && tagOk
  | _ => (dbgVec key space slot (i / 128) s).isSome && decide (i % 128 ≤ 80) && (decide (i % 128 ≠ 80) || decide (v % 16 < 5))

/-- A debug read of a store location corrects its single-bit error (R167, R186). -/
def dbgFix (key : Nat) (s : State) : State :=
  let (space, _, i) := dbgAddr key s
  let k := badKey space (if space = 1 then i / 128 else i)
  if (eng key s).halted ∧ space < 3 ∧ (eng key s).soft.contains k then fixLoc key k s else s

/-- A debug write (R186). [DEDUCED, log 105] -/
def dbgWrite (key v : Nat) (s : State) : State :=
  let (space, slot, i) := dbgAddr key s
  let w : EWord := BitVec.ofNat 40 v
  let good (k : Nat) (s : State) : State := setEng key (goodLoc k) s
  let n := i / 128; let c := i % 128
  match space with
  | 0 => dataWr key i w s
  | 2 => progWr key i v s
  | 3 => good (latchKey 3 slot i) (setTask key slot (fun t => { t with sStk := putBottom t.sStk i w }) s)
  | 4 => good (latchKey 4 slot i) (setTask key slot (fun t => { t with mStk := putBottom t.mStk i w }) s)
  | 5 => good (latchKey 6 slot n) (setTask key slot (fun t => { t with vStk := match fromBottom t.vStk n with
      | some x => putBottom t.vStk n (setChunk x c v) | none => t.vStk }) s)
  | _ =>
    let t := (n - 128) / 8
    if 128 ≤ n ∧ (eng key s).running ≠ some t ∧ (fromBottom (task key t s).vStk (n % 8)).isSome then
      good (badKey 1 n) (setTask key t (fun x => { x with vStk := match fromBottom x.vStk (n % 8) with
        | some y => putBottom x.vStk (n % 8) (setChunk y c v) | none => x.vStk }) s)
    else vecWr key n (setChunk (mget {} (eng key s).vec n) c v) s

/-! ### Fields that show the machine -/

/-- A stored field as it reads: WO, W1S and reserved fields read 0 (R13). -/
def fieldView (v : Nat) (f : RegField) : Nat :=
  match f.acc with
  | .rw | .ro | .w1c => bits v f.hi f.lo <<< f.lo
  | _ => 0

/-- What storing a written value leaves in a register (R13): RW fields as written, W1C fields cleared by ones, the rest kept. -/
def storedField (v : Nat) (old : Nat) (f : RegField) : Nat :=
  match f.acc with
  | .rw => putBits old f.hi f.lo (bits v f.hi f.lo)
  | .w1c => putBits old f.hi f.lo (bits old f.hi f.lo - (bits old f.hi f.lo &&& bits v f.hi f.lo))
  | _ => old
def stored (r : RegRow) (old v : Nat) : Nat := r.fields.foldl (storedField v) old

/-- The register's value as last accepted: writes to the fast path that still wait are in it (R13, R274). [DEDUCED, log 124] -/
def accReg (r : RegRow) (a : Nat) (s : State) : Nat :=
  s.trig.changes.foldl (fun v c => c.writes.foldl (fun v w => if w.1 = a then stored r v w.2 else v) v) (reg a s)

/-- A register's stored fields as they read. -/
def regPlain (r : RegRow) (a : Nat) (s : State) : Nat := (r.fields.map (fieldView (accReg r a s))).sum

/-- MODE_STATUS (R62): BRINGUP counts as a transition in progress. [DEDUCED, log 106] -/
def modeStatusView (s : State) : Nat :=
  let m := s.mode
  b1 (m.transit.isSome || decide (m.current = .bringup)) <<< 31 ||| modeCode m.current <<< 28
    ||| (match m.transit with | some t => modeCode t.target | none => 0) <<< 25
    ||| b1 m.cause.cmd <<< 2 ||| b1 m.cause.supply <<< 1 ||| b1 m.cause.therm

/-- PORT_STATUS (R104). -/
def portStatusView (p : Nat) (s : State) : Nat :=
  let x := port p s
  b1 x.linkUp <<< 31 ||| b1 x.txSettle <<< 30 ||| b1 x.training <<< 29 ||| (x.speed % 16) <<< 24 ||| (x.laneLock % 16) <<< 20

/-- Word i of a stream table entry (R106). -/
def streamEntView (q n i : Nat) (s : State) : Nat :=
  match mfind s.streams (q * 16384 + n) with
  | none => 0
  | some x =>
    match i with
    | 0 =>
      let quiet : Bool := match x.gap with | some g => [1, 2, 6, 9].contains g.cause | none => x.silent
      2 ^ 31 ||| b1 x.cfg.en <<< 30 ||| b1 x.cfg.resync <<< 29 ||| b1 quiet <<< 28 ||| (x.cfg.port % 32) <<< 20 ||| x.id
    | 1 => x.exp % 2 ^ 32
    | 2 => x.lastArr / 65536 % 2 ^ 32
    | _ => (x.gaps % 65536) <<< 16 ||| objVer ⟨2, x.id⟩ s % 65536

/-- The bytes of a gap log entry as a number (R100). -/
def gapEntryView (g : GapEntry) : Nat :=
  (g.cause <<< 28 ||| b1 g.rebased <<< 27 ||| b1 g.resynced <<< 26 ||| b1 g.open_ <<< 25 ||| g.stream)
    ||| (g.exp % 2 ^ 32) <<< 32 ||| (g.rcv % 2 ^ 32) <<< 64 ||| (g.marker % 2 ^ 32) <<< 96 ||| (g.start % 2 ^ 64) <<< 128
    ||| (g.resume % 2 ^ 64) <<< 192 ||| (g.lastArr % 2 ^ 64) <<< 256 ||| (g.resumeArr % 2 ^ 64) <<< 320

/-- The gap log window and QCTL_GAPLOG_HEAD of the quadrants (R100, R107), read-only. -/
def gapLogAt (a : Nat) : Bool :=
  decide (0x100000 ≤ a ∧ a < 0x500000 ∧ (a % 0x100000 = 0x10 ∨ (0x8000 ≤ a % 0x100000 ∧ a % 0x100000 < 0x10000)))

/-- [DEDUCED, log 118] -/
def gapLogView (a : Nat) (s : State) : Nat :=
  let q := a / 0x100000 - 1; let o := a % 0x100000
  if o = 0x10 then gapNext q s
  else match mfind s.gapLog (q * 512 + (o - 0x8000) / 64) with
    | some g => (gapEntryView g >>> (8 * (o % 64))) % 2 ^ 32
    | none => 0

/-- Words of a time base (R153). -/
def tbView (r : Reg) (n p : Nat) (s : State) : Nat :=
  let t := tb n s
  match r with
  | .tbStatus =>
    (match t.servo with | .free => 0 | .acquiring => 1 | .locked => 2 | .holdover => 3) <<< 30 ||| b1 t.valid <<< 29
      ||| b1 t.jumpSeen <<< 28 ||| b1 t.holdSeen <<< 27 ||| b1 t.l1Lost <<< 26
  | .tbNowLo => t.ns % 2 ^ 32
  | .tbNowHi => t.ns / 2 ^ 32 % 2 ^ 32
  | .tbNowFrac => (t.frac / 65536 % 65536) <<< 16
  | .tbFreq => wrapN 32 t.freq
  | .tbOfsLo => wrapN 64 (t.ofs / 65536) % 2 ^ 32
  | .tbOfsHi => wrapN 64 (t.ofs / 65536) / 2 ^ 32
  | .tbOfsFrac => (t.ofs % 65536).toNat <<< 16 ||| b1 t.refused <<< 15 ||| b1 t.held <<< 14
  | .tbOfsTimeLo => t.ofsTime % 2 ^ 32
  | .tbOfsTimeHi => t.ofsTime / 2 ^ 32 % 2 ^ 32
  | .tbRefusedLo => cnt (tbBase n + 0x48) s % 2 ^ 32
  | .tbRefusedHi => cnt (tbBase n + 0x48) s / 2 ^ 32
  | .tbSteps => t.steps % 2 ^ 32
  | .tbUtc => b1 t.leap61 <<< 17 ||| b1 t.leap59 <<< 16 ||| t.utc % 65536
  | _ => p

/-- PTP port states, as codes (R137). -/
def ptpCode : PtpState → Nat
  | .initializing => 1 | .faulty => 2 | .disabled => 3 | .listening => 4 | .preTransmitter => 5 | .transmitter => 6
  | .passive => 7 | .uncalibrated => 8 | .receiver => 9

/-- The rest of the TIME block (R154, R155). -/
def timeView (r : Reg) (n p : Nat) (s : State) : Nat :=
  let t := s.time
  match r with
  | .timeRefStatus => b1 t.pllLock <<< 31 ||| b1 t.refinPresent <<< 30 ||| b1 t.refinLost <<< 29
  | .timePpsStatus => min 65535 t.ppsIgnored <<< 16 ||| t.ppsEdges % 65536
  | .synStatus =>
    let y := mget {} t.syns n
    b1 y.locked <<< 31 ||| b1 y.gated <<< 30 ||| y.relocks % 65536
  | .ptpStatus => ptpCode (ptp n s).state <<< 28 ||| min 65535 (ptp n s).unsupported
  | .ptpMpdLo => wrapN 64 (ptp n s).mpd % 2 ^ 32
  | .ptpMpdHi => wrapN 64 (ptp n s).mpd / 2 ^ 32
  | _ => p

/-- Task states, as codes (R169). -/
def taskCode : TaskState → Nat
  | .free => 0 | .waiting => 1 | .ready => 2 | .running => 3 | .trapped => 4 | .cancelling => 5

/-- An engine setup window (R191): physical slot k of quadrant q, task slot j. -/
def engView (r : Reg) (q k j p : Nat) (s : State) : Nat :=
  let key := ekey q k
  let e := eng key s; let t := task key j s
  match r with
  | .engId => b1 e.logical.isSome <<< 15 ||| b1 (decide (48 ≤ k)) <<< 14 ||| e.logical.getD 0xFF
  | .engStatus =>
    b1 e.halted <<< 31 ||| b1 (e.powered && engFrozen key s) <<< 30 ||| b1 (e.powered && engPaused key s) <<< 29
      ||| b1 e.castleFreeze <<< 28 ||| b1 e.powered <<< 27 ||| b1 e.running.isSome <<< 20 ||| e.running.getD 0 <<< 16
  | .engDbgDataLo => dbgRead key s % 2 ^ 32
  | .engDbgDataHi => dbgRead key s / 2 ^ 32
  | .engTaskStatus =>
    taskCode t.state <<< 29 ||| (t.prio % 8) <<< 26 ||| (t.waitMask % 16) <<< 22 ||| (pendingBits t % 16) <<< 18
      ||| min 64 t.loans.length <<< 11 ||| min 8 t.inbox.length <<< 7 ||| b1 t.handlerOn <<< 6
  | .engTaskPc => b1 t.mrActive <<< 31 ||| (t.mrp % 2 ^ 15) <<< 16 ||| t.pc % 65536
  | .engTaskTrap => (t.trapCode % 16) <<< 28 ||| (t.trapStr % 4) <<< 26 ||| b1 t.trapNested <<< 25 ||| t.trapAddr % 65536
  | .engTaskDetail => t.trapDetail % 2 ^ 32
  | _ => p

/-- QCU, CCU and TRIGIO (R275, R277, R279). -/
def trigView (r : Reg) (n p : Nat) (s : State) : Nat :=
  match r with
  | .qcuStatus =>
    let x : QcuSt := mget {} s.trig.qcus n
    bits p 31 31 <<< 31 ||| b1 x.hold <<< 30 ||| min 1024 x.buffer.length
  | .ccuStatus => b1 (taFull s) <<< 31 ||| min 256 (taHeld none s)
  | .condStatus =>
    let c : Cond := mget {} s.trig.conds n
    let live := c.defs.find? (fun d => d.live)
    b1 c.cfg.en <<< 31 ||| c.cfg.tb <<< 28 ||| b1 ((live.map (·.sat)).getD false) <<< 27
      ||| min 16 ((c.defs.map (fun d => d.pending.length)).sum) <<< 22 ||| objVer ⟨5, n⟩ s % 65536
  | .trigInStatus =>
    let x := trigIn n s
    b1 x.level <<< 31 ||| b1 x.stuck <<< 30 ||| bits p 29 28 <<< 28 ||| min 64 x.fifo.length <<< 21
  | .trigInFifoLo => (trigIn n s).fifo.headD 0 / 65536 % 2 ^ 32
  | .trigInFifoHi => (trigIn n s).fifo.headD 0 / 2 ^ 48 % 2 ^ 32
  | .trigInFifoFrac =>
    let x := trigIn n s
    (x.fifo.headD 0 % 65536) <<< 16 ||| b1 (! x.fifo.isEmpty && ! x.flushed) <<< 15 ||| b1 x.flushed <<< 14
  | .trigOutSkip => bits p 31 5 <<< 5 ||| min 16 (trigOut n s).queue.length
  | _ => p

/-- The joined system (R304). -/
def sysView (r : Reg) (n p : Nat) (s : State) : Nat :=
  match r with
  | .ccuSysPrimary => bits p 31 31 <<< 31 ||| b1 s.sys.primary.isSome <<< 30 ||| b1 (activeArbiter s) <<< 29 ||| bits p 11 0
  | .ccuSysArb => bits p 31 31 <<< 31 ||| b1 (arbAlive n s) <<< 30 ||| bits p 11 0
  | .ccuSysLink => b1 (sysUp n s) <<< 31 ||| bits p 30 0
  | _ => p

/-- Oldest first instant held in a quadrant's stack or ring, ns (R341). -/
def histOldest (q : Nat) (s : State) : Nat :=
  let h := hist q s
  let l := h.ring.map (·.first) ++ (h.blocks.filter (fun b => ! b.bats.isEmpty)).map blockFirst
  (match l with | [] => 0 | x :: m => m.foldl min x) / 65536 % 2 ^ 64

/-- HIST and EVB (R341, R342). HIST_FREE.blocks reads 368,640 while no block is in use, also after reset. [DESIGN CHOICE, log 152] -/
def histView (r : Reg) (q p : Nat) (s : State) : Nat :=
  let h := hist q s
  match r with
  | .histStatus =>
    let drain : Bool := match s.mode.transit with | some t => t.drain.isSome | none => false
    (match histMode q s with | .none => 0 | .ring _ => 1 | .hbm => if drain then 3 else 2) <<< 30 ||| (h.shed % 16) <<< 26
      ||| bits p 25 25 <<< 25 ||| min 4095 (h.wb / 1024)
  | .histFree => stackBlocks - h.blocks.length
  | .histReserved => reservedBlocks q s
  | .histOldestLo => histOldest q s % 2 ^ 32
  | .histOldestHi => histOldest q s / 2 ^ 32
  | .evbStatus => min 64 (buildsIn q s) <<< 25 ||| ((liveBufs q 3 s).map (fun e => granules e.2.size)).sum / 1024 % 2 ^ 21
  | _ => p

/-- A function uses CXL.cache for its doorbells (R346, R365). -/
def usesCxl (f : Nat) (s : State) : Bool :=
  s.host.cxl && s.host.cxlCache && (fn f s).ats && ! bit (reg (fnBase f) s) 23

/-- HOST and JRNL (R379, R406). -/
def hostView (r : Reg) (f p : Nat) (s : State) : Nat :=
  match r with
  | .hostLink =>
    b1 s.host.linkUp <<< 31 ||| b1 s.host.flit <<< 30 ||| b1 s.host.cxl <<< 29 ||| b1 s.host.cxlCache <<< 28
      ||| (s.host.gen % 16) <<< 24 ||| (s.host.width % 32) <<< 19
  | .fnStatus =>
    b1 (usesCxl f s) <<< 31 ||| b1 (fn f s).d3hot <<< 30 ||| min 256 (inflightOf f s) <<< 8
      ||| min 255 ((fn f s).rings.filter (fun x => x.2.en && x.2.stopped.isSome)).length
  | .jrnlHeadLo => s.jrnl.head % 2 ^ 32
  | .jrnlHeadHi => s.jrnl.head / 2 ^ 32 % 2 ^ 32
  | .jrnlEpoch => s.jrnl.epoch % 2 ^ 32
  | .jrnlStatus => min 4096 ((s.host.fns.map (fun x => x.2.jrnlWait.length)).sum)
  | _ => p

/-- The admission limits were raised above their reset values (R411). -/
def boundsVoid (s : State) : Bool :=
  [0x50400, 0x50404, 0x50408, 0x5040C].any (fun a =>
    decide (bits (resetOf a) 31 16 < rfld a 31 16 s) || decide (bits (resetOf a) 7 0 < rfld a 7 0 s))

/-- RST (R481): while a reset is carried out, its level and the domain it releases next, in the order of R469. [DEDUCED, log 136] -/
def rstView (r : Reg) (p : Nat) (s : State) : Nat :=
  let x := s.rst
  match r with
  | .rstCause => x.cause
  | .rstStatus =>
    (match x.cur with
      | some c => 2 ^ 31 ||| c.level <<< 28 ||| c.todo.headD 11 <<< 24
      | none => x.level <<< 28)
      ||| x.bootSlot <<< 23 ||| b1 x.fallback <<< 22 ||| b1 x.bootFail <<< 21
  | .rstFlr => x.flr
  | .rstL3 => x.l3
  | .rstL4 => b1 x.l4Seen <<< 31 ||| x.l4Engine
  | .rstLastUs => x.lastUs
  | _ => p

/-- Serial ports, TW0 and timers (R503, R523, R539). [DEDUCED, log 140] -/
def unitView (r : Reg) (n p : Nat) (s : State) : Nat :=
  match r with
  | .spiStatus =>
    let x := spi n s
    b1 (spiBusy n s) <<< 31 ||| b1 (x.sel.isSome || x.selected) <<< 30 ||| bits p 29 27 <<< 27 ||| min 64 x.tx.length <<< 20 ||| min 64 x.rx.length <<< 13
  | .tw0Status => b1 s.tw.awake <<< 31 ||| bits p 30 0
  | .tmrStatusAll =>
    ((List.range 16).map (fun k => if rfld (tmrBase k + 0x28) 30 23 s ≠ 0 then 2 ^ k else 0)).sum
  | .tmrCountLo => (tmr n s).count % 2 ^ 32
  | .tmrCountHi => (tmr n s).count / 2 ^ 32 % 65536
  | .tmrStatus => b1 (tmrEn n s) <<< 31 ||| bits p 30 0
  | _ => p

/-- The value a read of a register shows now, without latches or popping. [PRESUMED, log 24] -/
def view (r : RegRow) (ix : List Nat) (a : Nat) (s : State) : Nat :=
  let p := regPlain r a s
  let i := ix.getD 0 0; let j := ix.getD 1 0; let k := ix.getD 2 0
  match r.reg with
  | .modeStatus => modeStatusView s
  | .portStatus => portStatusView (32 * i + j) s
  | .portLaunch => min 64 (port (32 * i + j) s).launchQ.length
  | .streamEnt0 => streamEntView i j 0 s
  | .streamEnt1 => streamEntView i j 1 s
  | .streamEnt2 => streamEntView i j 2 s
  | .streamEnt3 => streamEntView i j 3 s
  | .tbStatus | .tbNowLo | .tbNowHi | .tbNowFrac | .tbFreq | .tbOfsLo | .tbOfsHi | .tbOfsFrac | .tbOfsTimeLo | .tbOfsTimeHi
  | .tbRefusedLo | .tbRefusedHi | .tbSteps | .tbUtc => tbView r.reg i p s
  | .timeRefStatus | .timePpsStatus | .synStatus | .ptpStatus | .ptpMpdLo | .ptpMpdHi => timeView r.reg i p s
  | .engId | .engStatus | .engDbgDataLo | .engDbgDataHi | .engTaskStatus | .engTaskPc | .engTaskTrap | .engTaskDetail =>
    engView r.reg i j k p s
  | .qcuStatus | .ccuStatus | .condStatus | .trigInStatus | .trigInFifoLo | .trigInFifoHi | .trigInFifoFrac | .trigOutSkip =>
    trigView r.reg i p s
  | .ccuSysPrimary | .ccuSysArb | .ccuSysLink => sysView r.reg i p s
  | .histStatus | .histFree | .histReserved | .histOldestLo | .histOldestHi | .evbStatus => histView r.reg i p s
  | .hostLink | .fnStatus | .jrnlHeadLo | .jrnlHeadHi | .jrnlEpoch | .jrnlStatus => hostView r.reg i p s
  | .fabStatus => b1 (boundsVoid s) <<< 31
  | .paceStatus => p ||| holdingRails s
  | .rstCause | .rstStatus | .rstFlr | .rstL3 | .rstL4 | .rstLastUs => rstView r.reg p s
  | .spiStatus | .tw0Status | .tmrStatusAll | .tmrCountLo | .tmrCountHi | .tmrStatus => unitView r.reg i p s
  | .glbId => p / 4 * 4 + b1 Config.gradeE
  | .portCntLo | .portChkLo | .engCntLo | .qcuCntLo | .ccuCntLo | .condCntLo | .trigInEdgesLo | .trigInIgnoredLo | .trigInStucksLo
  | .trigFastFiresLo | .trigFastBlockedLo | .ccuSysCntLo | .histCntLo | .evbCntLo | .paceRailEnergyLo | .paceMonEnergyLo
  | .paceCntLo | .repairCntLo | .rstCntLo | .tw0CntLo | .tw1CntLo | .glbSetupFaultCntLo => cnt a s % 2 ^ 32
  | .portCntHi | .portChkHi | .engCntHi | .qcuCntHi | .ccuCntHi | .condCntHi | .trigInEdgesHi | .trigInIgnoredHi | .trigInStucksHi
  | .trigFastFiresHi | .trigFastBlockedHi | .ccuSysCntHi | .histCntHi | .evbCntHi | .paceRailEnergyHi | .paceMonEnergyHi
  | .paceCntHi | .repairCntHi | .rstCntHi | .tw0CntHi | .tw1CntHi | .glbSetupFaultCntHi => cnt (a - 4) s / 2 ^ 32
  | _ => p

/-- What offset a of BAR0 shows now; an undecoded one reads 0 (R542). -/
def peek (a : Nat) (s : State) : Nat :=
  if gapLogAt a then gapLogView a s
  else match regAt a with
    | some (r, ix) => view r ix a s
    | none => 0

/-- Bytes 0 to 63 of a journal entry (R401). -/
def jentryWord (e : JEntry) (o : Nat) : Nat := leNat (sliceB (jentryBytes e ++ leBytes 4 e.entryCrc.toNat) o 4)

/-- What offset a of BAR2 shows (R543): NUDGE and the undecoded range read 0; the journal window shows the latest 960 entries (R403). -/
def peek2 (a : Nat) (s : State) : Nat :=
  if a < 0x1000 ∨ 0x10000 ≤ a then 0
  else
    let i := (a - 0x1000) / 64
    match (s.jrnl.entries.take 960).find? (fun e => decide (e.seq % 960 = i)) with
    | some e => jentryWord e (a % 64)
    | none => 0

end Sys2Proof.Machine
end

