-- ==== Sys2Proof/Machine/RegRead.lean ====
section
/-! DEFINITION. Reads of registers and windows: requesters, latches, popping reads, and what each requester reaches (R540–R545). -/

namespace Sys2Proof.Machine

/-! ### Requesters and what they reach -/

/-- A requester's number in the latches' keys (R545). -/
def whoCode : Requester → Nat
  | .fn f => f
  | .regacc => 8
  | .tw0 => 9
  | .steward => 10

/-- The key of a requester's latch at an offset. -/
def latchAt (who : Requester) (a : Nat) : Nat := whoCode who * 2 ^ 32 + a

/-- A virtual function's own registers, ring table, MSI-X table and PBA by the offset in its BAR0 (R348). -/
def vfOfs (f o : Nat) : Option Nat :=
  if o < 0x40 then some (fnBase f + o)
  else if 0x1000 ≤ o ∧ o < 0x2000 then some (0x28000 + f * 0x1000 + (o - 0x1000))
  else if 0x2000 ≤ o ∧ o < 0x3000 then some (msixBase f + (o - 0x2000))
  else if 0x3000 ≤ o ∧ o < 0x4000 then some (pbaBase f + (o - 0x3000))
  else none

/-- The place in the model's register map of an offset that a requester names (R348, R540). -/
def placeOf (who : Requester) (o : Nat) : Option Nat :=
  match who with
  | .fn f => if f.val = 0 then some o else vfOfs f o
  | _ => some o

/-- The block of an offset is held in reset (R540): the global blocks with the central or time domain, the quadrants and their ports. [DEDUCED, log 140] -/
def blockHeld (a : Nat) (s : State) : Bool :=
  if a < 0x4000 then domHeld 1 s
  else if 0x10000 ≤ a ∧ a < 0x16000 then domHeld 4 s
  else if 0x20000 ≤ a ∧ a < 0x30000 then domHeld 11 s
  else if 0x30000 ≤ a ∧ a < 0x90000 then domHeld 3 s
  else if 0x100000 ≤ a ∧ a < 0x500000 then
    let q := a / 0x100000 - 1
    if 0x10000 ≤ a % 0x100000 ∧ a % 0x100000 < 0x20000 then ! portsUp q s else ! quadUp q s
  else false

/-! ### Latching and popping reads (R545) -/

/-- The halves and companions that a read of a _LO register latches, as distances from it (R545, R153, R279). [DEDUCED, log 114] -/
def latchesOf : Reg → List Nat
  | .tbNowLo | .trigInFifoLo => [4, 8]
  | .portMacLo | .portCntLo | .portChkLo | .tbOfsLo | .tbOfsTimeLo | .tbRefusedLo | .tbTrigPeriodLo | .tbTrigAnchorLo | .synPeriodLo
  | .synPhaseLo | .ptpMpdLo | .engDbgDataLo | .engCntLo | .qcuCntLo | .ccuTrignoLo | .ccuCntLo | .condCntLo | .trigInEdgesLo
  | .trigInIgnoredLo | .trigInStucksLo | .trigFastFiresLo | .trigFastBlockedLo | .trigOutTamaskLo | .ccuSysTaExportLo | .ccuSysTaEvbLo
  | .ccuSysCntLo | .ccuSysPeerLo | .histOldestLo | .histCntLo | .evbCntLo | .fnDbLo | .fnShadowLo | .ringBaseLo | .jrnlHeadLo
  | .paceRailEnergyLo | .paceMonEnergyLo | .paceCntLo | .repairCntLo | .rstCntLo | .tw0CntLo | .tw1CntLo | .tmrReloadLo | .tmrCmpLo
  | .tmrCountLo | .tmrCapLo | .glbDieIdLo | .glbSetupFaultCntLo => [4]
  | _ => []

/-- Stores a requester's read latch. [DEDUCED, log 114] -/
def setLatch (who : Requester) (a v : Nat) (s : State) : State :=
  { s with rdLatch := mput s.rdLatch (latchAt who a) (BitVec.ofNat 32 v) }

/-- A read of TRIG_IN_FIFOn_LO: pops the oldest stamp and latches its other parts (R265, R279). The first read after a flush returns no item
with flushed 1; an empty FIFO shows valid 0 (R538). The time then is not stated: free values. -/
def trigPop (who : Requester) (n a : Nat) (s : State) : Nat × State :=
  let latch (ns frac : Nat) (s : State) : Nat × State := (ns % 2 ^ 32, setLatch who (a + 8) frac (setLatch who (a + 4) (ns / 2 ^ 32) s))
  let none_ (flushed : Bool) : Nat × State :=
    let (w, s1) := takeFree s
    let (v, s2) := takeFree s1
    latch w.toNat ((v.toNat % 65536) <<< 16 ||| b1 flushed <<< 14) (setTrigIn n (fun x => { x with flushed := false }) s2)
  if (trigIn n s).flushed then none_ true
  else match (trigIn n s).fifo with
    | t :: r => latch (t / 65536) ((t % 65536) <<< 16 ||| 2 ^ 15) (setTrigIn n (fun x => { x with fifo := r }) s)
    | [] => none_ false

/-- A read of the register at an offset by a requester: the value, and what the read changes (R13, R515, R540, R545). -/
def readReg (who : Requester) (a : Nat) (s : State) : Nat × State :=
  if who = .regacc ∧ blockHeld a s then (0, s)
  else match regAt a with
    | none => (peek a s, s)
    | some (r, ix) =>
      match mfind s.rdLatch (latchAt who a) with
      | some w => (w.toNat, s)
      | none =>
        if gapLogAt a then (peek a s, s)
        else match r.reg with
          | .spiRx => if who = .tw0 then (0, s) else spiPop (ix.getD 0 0) s
          | .trigInFifoLo => if who = .tw0 then (0, s) else trigPop who (ix.getD 0 0) a s
          | .engDbgDataLo =>
            (peek a s, setLatch who (a + 4) (peek (a + 4) s) (dbgFix (ekey (ix.getD 0 0) (ix.getD 1 0)) s))
          | g => (peek a s, (latchesOf g).foldl (fun t o => setLatch who (a + o) (peek (a + o) s) t) s)

/-- One DW read of a BAR by a requester (R348, R540, R542, R543). -/
def readDw (who : Requester) (bar2 : Bool) (o : Nat) (s : State) : Nat × State :=
  if bar2 then (if who = .fn 0 then peek2 o s else 0, s)
  else match placeOf who o with
    | some a => readReg who a s
    | none => (0, s)

/-- n one-DW reads in ascending order, each answered (R544). -/
def readRun (who : Requester) (bar2 : Bool) : Nat → Nat → State → State
  | 0, _, s => s
  | n + 1, o, s =>
    let (v, s1) := readDw who bar2 o s
    readRun who bar2 n (o + 4) (emit (.readData who o (BitVec.ofNat 32 v)) s1)

/-- A host function reaches the device's BARs; any other requester always does (R45, R472, R540). -/
def reaches (who : Requester) (s : State) : Bool :=
  match who with
  | .fn f => hostUp f s
  | _ => true

end Sys2Proof.Machine
end

