-- ==== Sys2Proof/Machine/RegWrite.lean ====
section
/-! DEFINITION. Which register writes are refused, and with which reason (R14, R544–R547 and the rules of the registers). -/

namespace Sys2Proof.Machine

/-! ### Pairs (R545) -/

/-- The _LO registers of the pairs that writes commit together. -/
def pairLo : Reg → Bool
  | .portMacLo | .tbTrigPeriodLo | .tbTrigAnchorLo | .synPeriodLo | .synPhaseLo | .engDbgDataLo | .ccuTrignoLo | .trigOutTamaskLo
  | .ccuSysTaExportLo | .ccuSysTaEvbLo | .ccuSysPeerLo | .fnDbLo | .fnShadowLo | .ringBaseLo | .tmrReloadLo | .tmrCmpLo
  | .tmrCountLo => true
  | _ => false

/-- Their _HI registers. -/
def pairHi : Reg → Bool
  | .portMacHi | .tbTrigPeriodHi | .tbTrigAnchorHi | .synPeriodHi | .synPhaseHi | .engDbgDataHi | .ccuTrignoHi | .trigOutTamaskHi
  | .ccuSysTaExportHi | .ccuSysTaEvbHi | .ccuSysPeerHi | .fnDbHi | .fnShadowHi | .ringBaseHi | .tmrReloadHi | .tmrCmpHi
  | .tmrCountHi => true
  | _ => false

/-- A two-DW request at the register is one on a _LO and _HI pair (R544): the pairs above, read-only pairs, and an MSI-X address. -/
def pairAt (r : RegRow) : Bool := pairLo r.reg || (latchesOf r.reg == [4]) || decide (r.reg = .msixAddrLo)

/-! ### Fields (R14, R547) -/

/-- A value lies in one of the ranges. -/
def inAny (l : List (Nat × Nat)) (v : Nat) : Bool := l.any (fun x => decide (x.1 ≤ v ∧ v ≤ x.2))

/-- Reasons a field refuses a written value: a reserved bit, a reserved enumeration value, a value out of range. -/
def fieldReasons (v : Nat) (f : RegField) : List Nat :=
  let x := bits v f.hi f.lo
  match f.acc with
  | .rsv => if x = 0 then [] else [1]
  | .ro | .w1c => []
  | _ => match f.legal with
    | .any => []
    | .range l => if inAny l x then [] else [3]
    | .enum l => if inAny l x then [] else [2]

def rowReasons (r : RegRow) (v : Nat) : List Nat := (r.fields.map (fieldReasons v)).flatten

/-- A reason, where a condition holds. [DEDUCED, log 107] -/
def why (n : Nat) (c : Bool) : List Nat := if c then [n] else []

/-! ### Rules of single registers -/

/-- TBn_CTL (R118): src_sel names a TRIGIN line and is 0 for every other source. -/
def tbCtlReasons (v : Nat) : List Nat :=
  why 3 (if bits v 27 25 = 3 then decide (7 < bits v 23 17) else decide (bits v 23 17 ≠ 0))

/-- SYNm_CTL (R145, R146): a commit of a period or phase out of range. [DEDUCED, log 116] -/
def synReasons (m v : Nat) (s : State) : List Nat :=
  let p := reg (synBase m + 4) s + reg (synBase m + 8) s * 2 ^ 32
  let h := reg (synBase m + 12) s + reg (synBase m + 16) s * 2 ^ 32
  why 3 (bit v 31 && (decide (p < 163840) || decide (65536000000000 < p) || decide (p ≤ h)))

/-- PTP_Pp_CTL (R129): a second static receiver of a time base. -/
def ptpReasons (p v : Nat) (s : State) : List Nat :=
  why 4 (decide (bits v 31 30 = 2) && (List.range 128).any (fun k =>
    decide (k ≠ p) && decide (ptpRole k s = 2) && decide (ptpTb k s = bits v 29 27)))

/-- TRIG_FASTk_IN (R279): m not above the number of required inputs. [DEDUCED, log 121] -/
def fastInReasons (v : Nat) : List Nat :=
  why 3 (decide (popCount 8 (bits v 31 24) + popCount 4 (bits v 15 12) < bits v 3 0))

/-- A vector beyond the function's allocation (R369). -/
def vecBad (f v : Nat) (s : State) : Bool := decide (rfld (fnBase f + 0x1C) 12 4 s ≤ v)

/-- The ring slot lies within the function's allocation (R349). -/
def ringAllocated (f slot : Nat) (s : State) : Bool :=
  let a := reg (fnBase f + 0x1C) s
  if slot < 64 then decide (slot < bits a 31 25)
  else if slot < 128 then decide (slot - 64 < bits a 31 25)
  else if slot < 160 then decide (slot - 128 < bits a 24 19)
  else if slot < 192 then decide (slot - 160 < bits a 18 13)
  else decide (slot = 192)

/-- RING_CTL (R349, R354, R369, R380): fields that the kind of ring does not have are 0, a vector or ring beyond the allocation, and a
change of size, completion ring or vector while the ring is enabled. -/
def ringCtlReasons (f slot old v : Nat) (s : State) : List Nat :=
  let cqKind : Bool := decide (slot < 64 ∨ (160 ≤ slot ∧ slot < 192))
  let en := bit old 31
  why 3 ((! cqKind && decide (bits v 24 19 ≠ 0)) || (cqKind && decide (bits v 18 11 ≠ 0))
      || (! decide (160 ≤ slot ∧ slot < 192) && bit v 10))
    ++ why 3 ((decide (64 ≤ slot ∧ slot < 160) || decide (slot = 192)) && vecBad f (bits v 18 11) s)
    ++ why 3 (bit v 31 && ! en && ! ringAllocated f slot s)
    ++ why 4 (en && decide (bits v 29 11 ≠ bits old 29 11))

/-- PACE rails (R421, R424): vmax at least vmin, lo_us below hi_us, no SET under the loop. -/
def paceReasons (r : Reg) (n v : Nat) (s : State) : List Nat :=
  match r with
  | .paceRailCfg => why 3 (decide (bits v 25 16 < bits v 9 0))
  | .paceRailTarget => why 3 (decide (bits v 31 16 ≤ bits v 15 0))
  | .paceRailSet => why 4 (railAuto n s)
  | _ => []

/-- RST_SW (R481): the target that each level takes. -/
def rstSwReasons (v : Nat) : List Nat :=
  let t := bits v 7 0
  match bits v 30 28 with
  | 1 | 2 => why 3 (decide (t ≠ 0))
  | 3 => why 3 (decide (3 < t))
  | 4 => why 3 (decide (191 < t))
  | _ => [2]

/-- Bits of a transfer fit the width, and as target the word (R486, R503). [DEDUCED, log 117] -/
def spiLenBad (width len : Nat) (target : Bool) : Bool :=
  (decide (width = 1) && decide (len % 2 ≠ 0)) || (decide (width = 2) && decide (len % 4 ≠ 0))
    || (target && ! [8, 16, 32].contains len)

/-- SPIn_CLK (R488). [DEDUCED, log 117] -/
def spiClkBad (v : Nat) (s : State) : Bool :=
  let d := bits v 11 0
  if bit v 31 then decide (d = 0) || (decide (d ≠ 1) && decide (d % 2 ≠ 0)) || decide (100000000 * d < refHz s)
  else decide (d < 8) || decide (d % 2 ≠ 0)

/-- The serial ports (R486–R490, R503): SPI0 takes writes from the steward alone. [DEDUCED, log 117] -/
def spiReasons (who : Requester) (r : Reg) (n v : Nat) (s : State) : List Nat :=
  let own : List Nat := match r with
    | .spiCtl =>
      why 1 (decide (n = 0) && bit v 30)
        ++ why 3 (spiLenBad (bits v 28 27) (rfld (spiBase n + 8) 12 0 s) (decide (n = 1) && bit v 30))
    | .spiClk => why 3 (spiClkBad v s)
    | .spiLen => why 3 (spiLenBad (rfld (spiBase n) 28 27 s) (bits v 12 0) (spiTarget n s))
    | .spiCmd => why 3 (decide (n = 1 ∧ bits v 25 24 ≠ 0)) ++ why 4 (bit v 31 && spiBusy n s)
    | _ => []
  own ++ why 4 (decide (n = 0) && decide (who ≠ .steward))

/-- A 7-bit address that I²C reserves (R507). -/
def twReserved (a : Nat) : Bool := decide (a < 8 ∨ 0x78 ≤ a)

/-- TW0_ADDR and TW0_MASK (R507). -/
def twReasons (r : Reg) (v : Nat) (s : State) : List Nat :=
  match r with
  | .tw0Addr =>
    why 2 ((List.range 4).any (fun i => bit v (8 * i + 7) && twReserved (bits v (8 * i + 6) (8 * i))))
      ++ why 4 (bit (reg 0x42008 s) 31 && (bit v 15 || bit v 23 || bit v 31))
  | .tw0Mask =>
    let a := reg 0x42004 s
    why 4 (bit v 31 && (bit a 15 || bit a 23 || bit a 31))
  | _ => []

/-- A TIME timer is armed (R534). [DEDUCED, log 117] -/
def tmrArmed (n : Nat) (s : State) : Bool := tmrEn n s && decide (tmrMode n s = 2)

/-- Timers (R526, R534, R539): TIME takes no source, an armed timer takes only the end of its arming, a counting one no count, a vector
within the allocation. [DEDUCED, log 117] -/
def tmrReasons (r : Reg) (n v : Nat) (s : State) : List Nat :=
  match r with
  | .tmrGlb => why 3 (vecBad 0 (bits v 7 0) s)
  | .tmrCtl =>
    why 3 (decide (bits v 30 29 = 2 ∧ bits v 28 24 ≠ 0)) ++ why 4 (tmrArmed n s && bit v 31)
  | .tmrCmpLo => why 4 (tmrArmed n s)
  | .tmrCmpHi => why 4 (tmrArmed n s) ++ why 3 (decide (tmrMode n s = 2) && decide (bits v 15 0 ≠ 0))
  | .tmrCountLo | .tmrCountHi => why 4 (tmrEn n s)
  | _ => []

/-- MODE (R46, R50, R52, R57): what refuses a request for a mode, a change of the calibration set in Calibrate, and the clear of a Safe cause
that still holds. [DEDUCED, log 115] -/
def modeReasons (r : Reg) (v : Nat) (s : State) : List Nat :=
  match r with
  | .modeCtl => match modeCheck (bits v 2 0) s with
    | .ok => []
    | _ => [4]
  | .modeCalPorts => why 4 (decide (s.mode.current = .calibrate))
  | .modeStatus => why 4 ((bit v 0 && s.mode.cause.therm && thermHolds s) || (bit v 1 && s.mode.cause.supply && supplyHolds s))
  | _ => []

/-- Reasons of the register's own rules against a one-DW write of v. [DEDUCED, log 107] -/
def ownReasons (who : Requester) (r : RegRow) (ix : List Nat) (a v : Nat) (s : State) : List Nat :=
  let i := ix.getD 0 0; let j := ix.getD 1 0
  let vf : Bool := match who with | .fn f => decide (f.val ≠ 0) | _ => false
  match r.reg with
  | .modeCtl | .modeStatus | .modeCalPorts => modeReasons r.reg v s
  | .tbCtl => tbCtlReasons v
  | .synCtl => synReasons i v s
  | .ptpCtl => ptpReasons i v s
  | .engDbgDataLo | .engDbgDataHi => why 4 (! (eng (ekey i j) s).halted)
  | .ccuTrignoLo | .ccuTrignoHi => why 4 (ccuEn s)
  | .trigFastIn => fastInReasons v
  | .ccuSysId => why 4 (bit (reg 0x84000 s) 31)
  | .fnCtl => why 3 (vecBad i (bits v 31 24) s)
  | .fnPerm | .fnAlloc => why 4 vf
  | .ringCtl => ringCtlReasons i j (reg a s) v s
  | .paceRailCfg | .paceRailTarget | .paceRailSet => paceReasons r.reg i v s
  | .repairThreshEng => why 3 (decide (bits v 15 0 ≤ bits v 31 16))
  | .repairThreshLane => why 3 (decide (bits v 31 16 ≤ bits v 15 0))
  | .rstSw => rstSwReasons v
  | .spiCtl | .spiClk | .spiLen | .spiDly | .spiCmd | .spiStatus | .spiTx | .spiRx | .spiRxInfo | .spiBusyCnt =>
    spiReasons who r.reg i v s
  | .spi0WinCtl | .spi0WinGeom | .spi0WinEraseOps | .spi0WinTimeout | .spi0WinPoll | .spi0WinStatus => why 4 (decide (who ≠ .steward))
  | .spi0Erase => why 3 (decide (bits v 27 12 * 4096 % eraseSize (bits v 29 28) ≠ 0)) ++ why 4 (decide (who ≠ .steward))
  | .tw0Addr | .tw0Mask => twReasons r.reg v s
  | .tmrGlb | .tmrCtl | .tmrCmpLo | .tmrCmpHi | .tmrCountLo | .tmrCountHi => tmrReasons r.reg i v s
  | _ => []

/-- Reasons against committing a pair (R145, R186, R354). -/
def pairReasons (r : RegRow) (ix : List Nat) (a lo hi : Nat) (s : State) : List Nat :=
  let i := ix.getD 0 0; let j := ix.getD 1 0
  let v := lo + hi * 2 ^ 32
  match r.reg with
  | .synPeriodLo => why 3 (decide (v < 163840 ∨ 65536000000000 < v))
  | .synPhaseLo => why 3 (decide (reg (synBase i + 4) s + reg (synBase i + 8) s * 2 ^ 32 ≤ v) && decide (v ≠ 0))
  | .engDbgDataLo => why 3 ((eng (ekey i j) s).halted && ! dbgTakes (ekey i j) v s)
  | .ringBaseLo => why 4 (bit (reg (a + 8) s) 31 && (decide (lo ≠ reg a s) || decide (hi ≠ reg (a + 4) s)))
  | _ => []

/-- The physical function's PERM is read-only (R379). [DEDUCED, log 108] -/
def roReg (r : RegRow) (ix : List Nat) : Bool := decide (r.reg = .fnPerm) && decide (ix.getD 0 0 = 0)

/-- Reasons that the offset itself gives (R540, R542). [DEDUCED, log 118] -/
def placeReasons (who : Requester) (a : Nat) (s : State) : List Nat :=
  (match regAt a with
    | some _ => []
    | none => why 5 (! gapLogAt a))
  ++ why 4 (decide (who = .regacc) && blockHeld a s)

/-- The lowest reason (R547). [DEDUCED, log 107] -/
def lowest : List Nat → Option Nat
  | [] => none
  | x :: l => match lowest l with
    | some y => some (min x y)
    | none => some x

/-- Logs a refusal (R348, R547, R548): a virtual function's in its own registers, any other in GLB_SETUP_FAULT. -/
def logRefusal (who : Requester) (bar2 : Bool) (o v reason : Nat) (s : State) : State :=
  let glb (src : Nat) : State :=
    let r := reg 0x20 s
    let isOver := bit r 31 || bit r 30
    bump faultCnt (setReg 0x24 v (setReg 0x20 (2 ^ 31 + b1 isOver * 2 ^ 30 + b1 bar2 * 2 ^ 29 + src * 2 ^ 27 + reason * 2 ^ 24 + o % 2 ^ 24) s))
  match who with
  | .fn f => if f.val = 0 then glb 0 else setReg (fnBase f + 0x28) v (setReg (fnBase f + 0x24) o s)
  | .regacc => glb 1
  | .steward => glb 2
  | .tw0 => s

end Sys2Proof.Machine
end

