-- ==== Sys2Proof/Machine/TrigCmds.lean ====
section
/-! DEFINITION. The meanings of the trigger commands and events (08_trigger_decision.md). -/

namespace Sys2Proof.Machine

/-! ### QCU and CCU -/

/-- TP_ARRIVE_QCU (R243–R247): the head of an engine's TP queue reaches its QCU; a full buffer takes none, and in Safe no TP comes
(R263). [DESIGN CHOICE, log 42] -/
def execTpArriveQcu (q : Fin 4) (k : Fin 52) (s : State) : Host.Outcome State Fault Refusal :=
  let key := ekey q k
  if ! quadUp q s ∨ quadGated q s ∨ s.mode.current = .safe ∨ ! centralUp s then .next s
  else match (eng key s).tpq with
    | [] => .next s
    | t :: rest =>
      if 1024 ≤ (qcu q s).buffer.length then
        .next (if (qcu q s).stalled then s else bump (qcuCnt q 7) (setQcu q (fun x => { x with stalled := true }) s))
      else .next (qcuTake q t.tp (setEng key (fun e => { e with tpq := rest }) s))

/-- The TP of a time base that leaves next, when it is due (R245). -/
def releaseNext (q b : Nat) (s : State) : Option TpWord :=
  match nextTp (tbNs b s % 2 ^ 32) b (qcu q s).buffer with
  | some w => if tpDue q w s then some w else none
  | none => none

/-- QCU_RELEASE (R245): the earliest TP of a time base, once it is QCU_LAG old, goes to the CCU and to the arbiters. -/
def execQcuRelease (q : Fin 4) (b : Fin 8) (s : State) : Host.Outcome State Fault Refusal :=
  if ! quadUp q s ∨ quadGated q s ∨ ! centralUp s then .next s
  else match releaseNext q b s with
    | none => .next s
    | some w =>
      let s1 := setQcu q (fun x => { x with buffer := dropTp w x.buffer, stalled := false }) s
      .next (sendMarks q (exportTp w (ccuArrive (tpInput 1 q w) (bump (qcuCnt q 1) s1))))

/-- RELEASE_MARK (R245): the release marks reach the CCU, whose watermarks rise (R252, R255). -/
def execReleaseMark (q : Fin 4) (s : State) : Host.Outcome State Fault Refusal :=
  if qcuIn q s ∧ centralUp s then .next (issueReady (ccuRun (sendMarks q s))) else .next s

/-- CASTLE_HOLD_END (R248): 10 µs after the resume the marks advance again. -/
def execCastleHoldEnd (q : Fin 4) (s : State) : Host.Outcome State Fault Refusal :=
  match (qcu q s).holdEnd with
  | some k => .next (if k ≤ s.ticks then setQcu q (fun x => { x with hold := false, holdEnd := none, holdMarks := [] }) s else s)
  | none => .next s

/-- CCU_INPUT (R252): the oldest input on its way is taken. -/
def execCcuInput (s : State) : Host.Outcome State Fault Refusal :=
  match s.trig.arrivals with
  | [] => .next s
  | x :: r => if ! centralUp s then .next s else .next (ccuTake x (setTrig (fun t => { t with arrivals := r }) s))

/-- CCU_DECIDE (R254–R256): a condition's oldest due occurrence is decided, and the TAs it completes are issued. -/
def execCcuDecide (c : Fin 64) (s : State) : Host.Outcome State Fault Refusal :=
  if ! centralUp s then .next s
  else
    let s1 := condRun s c
    match dueDef c s1 with
    | some i => .next (issueReady (dropOld c (decideOcc c i s1)))
    | none => .next s1

/-- STEP_SHADOW_END (R262). -/
def execStepShadowEnd (b : Fin 8) (s : State) : Host.Outcome State Fault Refusal :=
  match mfind s.trig.shadow b with
  | some k => .next (if k ≤ s.ticks then setTrig (fun t => { t with shadow := mdel t.shadow b }) s else s)
  | none => .next s

/-! ### TRIGIO events -/

/-- TRIGIN_EDGE (R264, R265): the level at the balls changes, to stay so for a time; the receiver inverts it, and the filter takes
it or not. A rising edge of the active level is stamped with an error of at most what R139 allows. [DESIGN CHOICE, log 53] -/
def execTriginEdge (n : Fin 8) (err : Int) (level : PinLevel) (s : State) : Host.Outcome State Fault Refusal :=
  let c := reg (trigInBase n) s
  let s1 := setTrigIn n (fun x => { x with pin := level.high }) s
  if bit c 31 && decide (s.mode.current ≠ .bringup) && centralUp s then
    let t := pulseTaken n level.len s1
    let active := level.high != bit c 30
    .next (if t.1 && active != lineLast (trigIn n t.2) then lineIn n err active t.2 else t.2)
  else .next s1

/-- TRIGIN_STUCK (R266). [DEDUCED, log 48; DESIGN CHOICE, log 53] -/
def execTriginStuck (n : Fin 8) (s : State) : Host.Outcome State Fault Refusal := .next (lineStuck n s)

/-- TRIGIN_UNSTUCK (R266). -/
def execTriginUnstuck (n : Fin 8) (s : State) : Host.Outcome State Fault Refusal := .next (lineUnstuck n s)

/-- FAST_STRETCH_END (R267). -/
def execFastStretchEnd (k : Fin 8) (inp : Fin 12) (veto : Bool) (s : State) : Host.Outcome State Fault Refusal :=
  .next (stretchEnd k inp veto s)

/-- FAST_OUTPUT_END (R269). -/
def execFastOutputEnd (k : Fin 8) (s : State) : Host.Outcome State Fault Refusal := .next (outputEnd k s)

/-- DELAY_TRACK (R268): the loop moves its tap by at most one step, and only while nothing of the condition is active. [DESIGN CHOICE, log 53] -/
def execDelayTrack (k : Fin 8) (move : Fin 3) (s : State) : Host.Outcome State Fault Refusal :=
  .next (if fastIdle k s then setFast k (fun f => { f with tap := f.tap + (move.val : Int) - 1 }) s else s)

/-- TRIGOUT_PULSE_END (R273). -/
def execTrigoutPulseEnd (n : Fin 8) (s : State) : Host.Outcome State Fault Refusal := .next (pulseEnd n s)

/-- TRIGOUT_LAUNCH_DUE (R273): the rise lies within ±0.5 ns of the launch time, by `err` pips. [DEDUCED, log 55] -/
def execTrigoutLaunchDue (n : Fin 8) (err : Int) (s : State) : Host.Outcome State Fault Refusal := .next (outDue n err s)

/-! ### LAUNCH of a TRIGOUT pulse (R273) -/

/-- LAUNCH's own checks for a TRIGOUT pulse: TOO_FAR, NO_RESOURCE, then RANGE for a line that is not TIMED (R273, R394). -/
def ownLaunchPulse (d : Desc) (s : State) : Status :=
  let n := bf d 16 2 0
  if farNs * 65536 < ((bf d 24 63 0 * 65536 + bf d 20 31 16 : Nat) : Int) - tbPips (bf d 16 26 24) s then .tooFar
  else if 16 ≤ (trigOut n s).queue.length then .noResource
  else if rfld (trigOutBase n) 29 27 s ≠ 3 then .range
  else .ok

/-- LAUNCH of a TRIGOUT pulse (R273): queued like a frame; at or before the current time its late policy applies at once. -/
def execLaunchPulse (d : Desc) (s : State) : Host.Outcome State Fault Refusal :=
  let n := bf d 16 2 0
  if bf d 16 31 31 = 1 then
    .next (serve (specLaunch d (some [])) d (ownLaunchPulse d)
      (fun src s =>
        let e : Launch := { time := ⟨bf d 24 63 0, bf d 20 31 16⟩, tb := bf d 16 26 24,
                            sendLate := decide (bf d 16 29 28 = 1), late := false, frame := [], src := src }
        let s1 := setTrigOut n (fun o => { o with queue := launchInsert e s o.queue }) s
        if launchLeft e s ≤ 0 then outLate n e s1 else s1) s)
  else .next s

/-! ### TRIG_COND_SET (R249–R251, R261, R388, R391) -/

/-- The fields of the parameter block (R391). -/
def condPbFields : List (Nat × Nat × Nat) :=
  [(0, 31, 28), (0, 7, 0), (4, 29, 0), (8, 29, 0), (12, 29, 0), (16, 29, 0), (20, 31, 0)]
  ++ (List.range 8).map (fun j => (32 + 8 * j, 31, 23)) ++ (List.range 8).map (fun j => (32 + 8 * j, 15, 0))
  ++ (List.range 8).map (fun j => (36 + 8 * j, 15, 0))

/-- Term j of a parameter block. -/
def termOf (pb : BitVec 768) (j : Nat) : Term :=
  let f := pbf pb (32 + 8 * j)
  { src := f 31 29, sel := f 15 8, qmask := f 26 23, mult := f 7 0, minScore := pbf pb (36 + 8 * j) 15 0,
    distinct := decide (f 27 27 = 1), veto := decide (f 28 28 = 1) }

/-- The condition of a parameter block (R391). -/
def condCfgOf (pb : BitVec 768) : CondCfg :=
  { en := decide (pbf pb 0 31 31 = 1), tb := pbf pb 0 30 28, window := pbf pb 4 29 0, terms := (List.range 8).map (termOf pb),
    vetoPre := pbf pb 8 29 0, vetoPost := pbf pb 12 29 0, minGap := pbf pb 16 29 0, prescale := pbf pb 20 31 0,
    profile := pbf pb 0 7 0 }

/-- A term of a source in use lies in R249's ranges. -/
def termOk (tb : Nat) (t : Term) : Bool :=
  decide (t.src = 0) ||
    ((t.veto || decide (1 ≤ t.mult)) && ! (t.distinct && decide (16 < t.mult))
      && (decide (t.src ≠ 4 ∧ t.src ≠ 5) || decide (t.sel ≤ 7)) && (decide (t.src ≠ 6) || decide (t.sel ≤ 63))
      && ! (decide (t.src = 2 ∨ t.src = 3 ∨ t.src = 6) && decide (tb ≠ 0)))

/-- R251's checks of a condition. [DEDUCED, log 52] -/
def condOk (c : CondCfg) : Bool :=
  decide (1 ≤ c.window ∧ c.window ≤ 1000000000 ∧ c.vetoPre + c.vetoPost ≤ 1000000000 ∧ c.minGap ≤ 1000000000
    ∧ 0x10000 ≤ c.prescale)
    && c.terms.all (termOk c.tb) && c.terms.any (fun t => decide (t.src ≠ 0) && ! t.veto)

/-- TRIG_COND_SET's generic checks: a source of 7 is a reserved encoding (R250), and a release must hold en 0 (R388). [DEDUCED, log 52] -/
def specCondSet (d : Desc) (pb : Option (BitVec 768)) : CmdSpec :=
  { op := 0x30, relOk := true, group := some 2, objs := [⟨5, bf d 16 5 0⟩], config := true,
    fields := [(16, 5, 0), (24, 63, 0), (32, 31, 0)],
    badEnc := match pb with
      | some b => pbBad b condPbFields || (List.range 8).any (fun j => decide ((termOf b j).src = 7))
          || (dRelease d && (condCfgOf b).en)
      | none => false,
    pb := pb.map (fun b => leBytes 96 b.toNat) }

/-- TRIG_COND_SET's own checks (R251); a release names only the condition (R388). -/
def ownCondSet (d : Desc) (pb : BitVec 768) (_s : State) : Status :=
  if bf d 32 31 0 ≠ 96 ∨ bf d 24 5 0 ≠ 0 then .range
  else if dRelease d ∨ condOk (condCfgOf pb) then .ok
  else .range

/-- TRIG_COND_SET takes effect between two inputs: en 0 stops evaluation (R261). -/
def condSet (c : Nat) (cfg : CondCfg) (s : State) : State :=
  let on : Bool := cfg.en && ccuEn s
  condReplace c (if on then some cfg else none) (setCond c (fun x => { x with cfg := cfg }) s)

/-- TRIG_COND_SET (R249, R261). -/
def execTrigCondSet (d : Desc) (pb : Option (BitVec 768)) (s : State) : Host.Outcome State Fault Refusal :=
  if dRelease d then .next s
  else .next (serve (specCondSet d pb) d (ownCondSet d (pb.getD 0))
    (fun src s => complete src .ok 0 (condSet (bf d 16 5 0) (condCfgOf (pb.getD 0)) s)) s)

/-- COND_RELEASE (R388): the condition is set to en 0 and its ownership ends. -/
def execCondRelease (d : Desc) (pb : Option (BitVec 768)) (s : State) : Host.Outcome State Fault Refusal :=
  if dRelease d then
    .next (serve (specCondSet d pb) d (ownCondSet d (pb.getD 0))
      (fun src s => complete src .ok 0 (disown ⟨5, bf d 16 5 0⟩
        (condSet (bf d 16 5 0) { condCfgOf (pb.getD 0) with en := false } s))) s)
  else .next s

end Sys2Proof.Machine
end

