-- ==== Sys2Proof/Machine/RegCommit.lean ====
section
/-! DEFINITION. What an accepted register write does: the value stored, and the effects of the registers that start something. -/

namespace Sys2Proof.Machine

/-! ### Modes, ports and time -/

/-- PORT_CFG (R104): a change of speed or an_en retrains the port; speed 0 turns it off. [DEDUCED, log 123] -/
def portCfgEffect (p old new : Nat) (s : State) : State :=
  if bits old 27 24 = bits new 27 24 ∧ bit old 22 = bit new 22 then s
  else if ! portPowered p s then s
  else if bits new 27 24 = 0 then portOff p 2 s
  else portRetrain p 2 s

/-- TIME_PPS_CTL (R144): PPSOUT is driven low when it is turned on, and is pulled up when it is off. [DEDUCED, log 111] -/
def ppsCtlEffect (old new : Nat) (s : State) : State :=
  if bit new 31 = bit old 31 then s
  else if bit new 31 then emit (.pps false ((tbPips 0 s : Nat) : Int)) (setTime (fun t => { t with ppsOut := false }) s)
  else setTime (fun t => { t with ppsOut := true }) s

/-- TBn_STATUS: flags that a one clears (R153). -/
def tbStatusEffect (n new : Nat) (s : State) : State :=
  let j := ! bit new 28; let h := ! bit new 27; let l := ! bit new 26
  setTb n (fun t => { t with jumpSeen := t.jumpSeen && j, holdSeen := t.holdSeen && h, l1Lost := t.l1Lost && l }) s

/-- PTP_Pp_CTL (R129, R137, R138): a changed role or time base starts the port anew, and the ports of both time bases are decided again. -/
def ptpCtlEffect (p old new : Nat) (s : State) : State :=
  if bits old 31 27 = bits new 31 27 then s
  else
    let st : PtpState := if bits new 31 30 = 0 then .disabled else if (port p s).linkUp then .listening else .faulty
    let s1 := setPtp p (fun x => { x with
      state := st, foreign := [], parent := 0, preAt := s.ticks, sync := none, req := none, presp := none, fresh := true, stamps := [] }) s
    let s2 := ptpDecide (bits old 29 27) none s1
    if bits old 29 27 = bits new 29 27 then s2 else ptpDecide (bits new 29 27) none s2

/-! ### Engines (R185, R186) -/

/-- Debug halt and its end (R185). [DEDUCED, log 120] -/
def engHalt (key : Nat) (s : State) : State :=
  if (eng key s).halted then s else setEng key (fun e => { e with halted := true, haltAt := none }) (markBack key s)
/-- [DEDUCED, log 120] -/
def engRun (key : Nat) (s : State) : State :=
  if (eng key s).halted then stopWaitingCancels key (setEng key (fun e => { e with halted := false }) s) else s

/-- One chord or micro-routine step of the task the scheduler selects, then the halt again (R185). [DEDUCED, log 120] -/
def engStep (key : Nat) (s : State) : State :=
  let s1 := setEng key (fun e => { e with halted := false }) s
  match boundary key s1 with
  | none => s
  | some slot =>
    if engStopped key s1 ∨ ((task key slot s1).tpWait ∧ 32 ≤ (eng key s1).tpq.length) then s
    else
      let s2 := setTask key slot (fun t => { t with tpWait := false }) (switchTo key slot s1)
      setEng key (fun e => { e with halted := true }) (markBack key (issue key slot s2))

/-- ENG_DBG_CTL (R185). -/
def engDbgEffect (key new : Nat) (s : State) : State :=
  if bit new 31 then (if bit new 30 ∧ (eng key s).halted then engStep key s else engHalt key s) else engRun key s

/-! ### Triggering (R255, R263–R274, R277) -/

/-- CCU_CTL.en (R277): 0 stops every condition as en 0 does under R261. -/
def ccuCtlEffect (old new : Nat) (s : State) : State :=
  if bit old 31 = bit new 31 then s
  else s.trig.conds.foldl (fun s c => condSet c.1 c.2.cfg s) s

/-- TRIG_IN_CTLn (R264, R265, R538): flush empties the capture FIFO; a receiver that is off shows no level, and one that en or inv gives
another level passes it on, with a stamp whose error is free within R139's. [DEDUCED, log 121] -/
def trigInEffect (n new : Nat) (s : State) : State :=
  let s1 := if bit new 22 then setTrigIn n (fun x => { x with fifo := [], flushed := true }) s else s
  if ! bit new 31 then setTrigIn n (fun x => { x with level := false, filter := [] }) (stuckOff n s1)
  else
    let active := (trigIn n s1).pin != bit new 30
    if active = lineLast (trigIn n s1) then s1
    else
      let f := takeFree s1
      lineIn n ((f.1.toNat % 65537 : Nat) - 32768) active f.2

/-- TRIG_OUT_CTLn (R272, R274): a new source empties the TIMED queue; the line drives its level. -/
def trigOutEffect (n old new : Nat) (s : State) : State :=
  let s1 := if bits old 29 27 = bits new 29 27 then s else outAbort n s
  if old = new then s1 else driveOut n (decide (bits new 29 27 = 4) && bit new 23) s1

/-- TRIGIO registers. -/
def trigEffect (r : Reg) (n old new : Nat) (s : State) : State :=
  match r with
  | .trigInCtl => trigInEffect n new s
  | .trigFastCtl => if bit new 31 then s else setFast n (fun f => { f with req := [], veto := [], delayed := [] }) s
  | .trigOutCtl => trigOutEffect n old new s
  | _ => s

/-! ### The joined system (R296, R297) -/

/-- A slot that names another device has seen no beacon of it. [DEDUCED, log 112] -/
def arbEffect (i old new : Nat) (s : State) : State :=
  if bit old 31 = bit new 31 ∧ bits old 11 0 = bits new 11 0 then s
  else setSys (fun x => { x with beacons := mdel x.beacons i }) s
/-- [DEDUCED, log 112] -/
def primaryEffect (old new : Nat) (s : State) : State :=
  if bit old 31 = bit new 31 ∧ bits old 11 0 = bits new 11 0 then s else setSys (fun x => { x with primary := none }) s

/-! ### Units -/

/-- A rail set by hand, clamped (R421). -/
def railSet (r mv : Nat) (bus : List TwTry) (s : State) : State :=
  let lo := railFloor r (railVmin r s) s
  (railCommand r (max lo (min (railVmax r s) mv)) bus s).2

/-- Clearing tw1_fault gives the rails it held back to the loop, as the mode has them (R419, R420). -/
def railsBack (s : State) : State :=
  paceMode ((List.range 5).foldl (fun s r => setRail r (fun x => { x with lost := false }) s) s)

/-- PACE registers (R417–R421). -/
def paceEffect (r : Reg) (n old new : Nat) (bus : List TwTry) (s : State) : State :=
  match r with
  | .paceCtl => if bit new 31 ∧ ! bit old 31 then paceMode (paceStart bus s) else s
  | .paceRailCfg =>
    if bit new 31 ∧ ! bit old 31 then railMode (setRail n (fun x => { x with quiet := 0, skips := railSkips n s }) s) n else s
  | .paceRailSet => railSet n (bits new 9 0) bus s
  | .paceStatus => if bit new 31 ∧ bit old 31 then railsBack s else s
  | _ => s

/-- RST registers (R463, R481): the W1C flags, and a request. -/
def rstEffect (r : Reg) (new : Nat) (s : State) : State :=
  let clr (v m : Nat) : Nat := v - (v &&& m)
  match r with
  | .rstCause => setRst (fun x => { x with cause := clr x.cause (bits new 10 0) }) s
  | .rstFlr => setRst (fun x => { x with flr := clr x.flr (bits new 7 0) }) s
  | .rstL3 => setRst (fun x => { x with l3 := clr x.l3 (bits new 3 0) }) s
  | .rstL4 => setRst (fun x => { x with l4Seen := x.l4Seen && ! bit new 31 }) s
  | .rstSw =>
    let l := bits new 30 28
    let t := if l ≤ 2 then 0 else bits new 7 0 + 1
    resetRequest ⟨l, t, 10, .minimum⟩ s
  | _ => s

/-- SPI registers (R486, R487, R492, R538). -/
def spiEffect (r : Reg) (n old new : Nat) (s : State) : State :=
  match r with
  | .spiCtl =>
    let s1 := if bit old 31 ∧ ! bit new 31 then (if n = 0 then flashBegin (spiDisable n s) else spiDisable n s) else s
    let s2 := if bit new 26 then spiRxFlush n s1 else s1
    if bit new 25 then spiTxFlush n s2 else s2
  | .spiCmd => if bit new 31 then spiGo n new s else s
  | .spiTx => spiPush n new s
  | .spi0Erase =>
    let size := eraseSize (bits new 29 28)
    if bit new 31 ∧ eraseCode size s ≠ 0 then flashAdd ⟨.erase, [.erase 0 (bits new 27 12 * 4096) size], none⟩ s else s
  | _ => s

/-- TMR_PIN (R531): the level of every enabled pin is set at once, and a pin enabled now drives it. -/
def tmrPinEffect (old new : Nat) (s : State) : State :=
  (List.range 8).foldl (fun s p =>
    if bit new (8 + p) ∧ (! bit old (8 + p) ∨ bit old p ≠ bit new p) then emit (.tmrPin p (bit new p)) s else s) s

/-- Registers that the configuration record saves (R496): the system and PACE sections. [DEDUCED, log 74] -/
def savedReg (a : Nat) : Bool := decide ((0x84000 ≤ a ∧ a < 0x8C000) ∨ (0x50000 ≤ a ∧ a < 0x51000))

/-- What storing a register's new value starts. `new` is the value written. -/
def writeEffect (r : RegRow) (ix : List Nat) (old new : Nat) (bus : List TwTry) (s : State) : State :=
  let i := ix.getD 0 0; let j := ix.getD 1 0
  match r.reg with
  | .modeStatus => safeClear (bits new 2 0) s
  | .portCfg => portCfgEffect (32 * i + j) old new s
  | .tbCtl => l1Update i (tbCtlEffect i old new s)
  | .tbStatus => tbStatusEffect i new s
  | .timeRefStatus => setTime (fun t => { t with refinLost := t.refinLost && ! bit new 29 }) s
  | .timePpsCtl => ppsCtlEffect old new s
  | .synCtl => synCtlEffect i new s
  | .ptpCtl => ptpCtlEffect i old new s
  | .engDbgCtl => engDbgEffect (ekey i j) new s
  | .qcuCtl => if bit new 31 then setQcu i (fun x => { x with out := false }) s else s
  | .ccuCtl => ccuCtlEffect old new s
  | .trigInCtl | .trigFastCtl | .trigOutCtl => trigEffect r.reg i old new s
  | .ccuSysArb => arbEffect i old new s
  | .ccuSysPrimary => primaryEffect old new s
  | .ccuSysPeerHi => linkJudge i s
  | .ccuSysId => (List.range 128).foldl (fun s p => linkJudge p s) s
  | .ringCtl => ringCtlEffect i j old new s
  | .msixCtl => sendPending i s j
  | .paceCtl | .paceRailCfg | .paceRailSet | .paceStatus => paceEffect r.reg i old new bus s
  | .rstCause | .rstFlr | .rstL3 | .rstL4 | .rstSw => rstEffect r.reg new s
  | .spiCtl | .spiCmd | .spiTx | .spi0Erase => spiEffect r.reg i old new s
  | .tmrGlb => tmrSleepUpdate s
  | .tmrPin => tmrPinEffect old new s
  | .tmrCtl => tmrCtlEffect i old new s
  | _ => s

/-- The register has a field that a write can change (R393). -/
def writable (r : RegRow) : Bool := r.fields.any (fun f => match f.acc with | .rw | .w1c | .w1s => true | _ => false)

/-- Stores an accepted one-DW value and starts what it starts. TW0_ATTN_CAUSE clears by its own rule (R518). -/
def storeDw (r : RegRow) (ix : List Nat) (a v : Nat) (bus : List TwTry) (s : State) : State :=
  if r.reg = .tw0AttnCause then attnClear (bits v 15 0) s
  else
    let old := reg a s
    let s1 := if roReg r ix then s else setReg a (stored r old v) s
    let s2 := if savedReg a && writable r then setFlash (fun f => { f with dirty := some s.ticks }) s1 else s1
    writeEffect r ix old v bus s2

/-- Commits a pair (R545): both halves together. -/
def storePair (r : RegRow) (ix : List Nat) (a lo hi : Nat) (s : State) : State :=
  let i := ix.getD 0 0; let j := ix.getD 1 0
  match r.reg with
  | .engDbgDataLo => dbgWrite (ekey i j) (lo + hi * 2 ^ 32) s
  | .tmrCountLo => setTmr i (fun t => { t with count := lo + hi * 2 ^ 32 }) s
  | _ =>
    let s1 := setReg (a + 4) hi (setReg a lo s)
    if savedReg a then setFlash (fun f => { f with dirty := some s.ticks }) s1 else s1

/-! ### Changes of the fast path that wait (R274) -/

/-- Stores one write of a change. -/
def applyWrite (s : State) (w : Nat × Nat) : State :=
  match regAt w.1 with
  | some (r, ix) => storeDw r ix w.1 w.2 [] s
  | none => s

/-- The fast conditions affected are low and out of dead time, and the lines affected carry no pulse. [DEDUCED, log 124] -/
def changeReady (c : FastChange) (s : State) : Bool :=
  c.fasts.all (fun k => (fast k s).out.isNone && (fast k s).dead.isNone) && c.outs.all (fun n => ! outBusy n s)

/-- Two changes touch no common condition or line. -/
def changeApart (c d : FastChange) : Bool :=
  c.fasts.all (fun k => ! d.fasts.contains k) && c.outs.all (fun n => ! d.outs.contains n)

/-- A change takes effect whole, and its command completes; a release then ends the ownership (R274, R388, R394). -/
def applyChange (c : FastChange) (s : State) : State :=
  let s1 := c.writes.foldl applyWrite s
  let s2 := c.freed.foldl (fun s o => disown o s) s1
  match c.src with
  | some src => complete src .ok 0 s2
  | none => s2

/-- Applies the changes that are ready, oldest first; one that shares a condition or line with an earlier waiting one waits behind it. [DEDUCED, log 124] -/
def runChanges (s : State) : State :=
  s.trig.changes.foldl (fun s c =>
    if changeReady c s && s.trig.changes.all (fun d => changeApart c d) then applyChange c s
    else setTrig (fun t => { t with changes := t.changes ++ [c] }) s)
    (setTrig (fun t => { t with changes := [] }) s)

/-- The fast conditions and TRIGOUT lines that a list of TRIGIO writes affects: TRIG_FASTk registers and TRIG_OUT_CTLn (R274). -/
def fastsOf (writes : List (Nat × Nat)) : List Nat :=
  writes.filterMap (fun w => if trigBase + 0x400 ≤ w.1 ∧ w.1 < trigBase + 0x500 then some ((w.1 - trigBase - 0x400) / 0x20) else none)
def linesOf (writes : List (Nat × Nat)) : List Nat :=
  writes.filterMap (fun w => if trigBase + 0x800 ≤ w.1 ∧ w.1 < trigBase + 0x880 ∧ w.1 % 0x10 = 0 then some ((w.1 - trigBase - 0x800) / 0x10)
    else none)

/-- Offers a change of the TRIGIO block: in effect at once, or as soon as R274 allows. [DEDUCED, log 124] -/
def offerChange (writes : List (Nat × Nat)) (src : Option Src) (freed : List ObjId) (s : State) : State :=
  runChanges (setTrig (fun t => { t with changes := t.changes ++ [⟨writes, fastsOf writes, linesOf writes, src, freed⟩] }) s)

end Sys2Proof.Machine
end

