-- ==== Sys2Proof/Machine/RegReq.lean ====
section
/-! DEFINITION. A register write request from end to end: the halves of a pair, the verdict, the log, the journal and the commit (R393, R544–R548). -/

namespace Sys2Proof.Machine

/-! ### Journaled blocks (R62, R104, R153, R393) -/

/-- The object of an offset in the TRIGIO block (R385). -/
def trigObj (o : Nat) : ObjId :=
  if o < 0x200 then ⟨6, 8 + o / 0x40⟩
  else if o < 0x500 then ⟨6, (o - 0x400) / 0x20⟩
  else if o < 0x800 then ⟨6, 24 + (o - 0x600) / 4⟩
  else ⟨6, 16 + (o - 0x800) / 0x10⟩

/-- The command a write to an offset is journaled as: its opcode, object, block base and target (R393). [DEDUCED, log 17; DEDUCED, log 108] -/
def journalOf (a : Nat) : Option (Nat × ObjId × Nat × Nat) :=
  if a = 0x2000 then some (0x60, ⟨10, 0⟩, 0x2000, 0)
  else if 0x10000 ≤ a ∧ a < 0x12000 then
    let n := (a - 0x10000) / 0x400
    some (0x40, ⟨7, n⟩, tbBase n, n)
  else if trigBase ≤ a ∧ a < trigBase + 0x1000 then some (0x31, trigObj (a - trigBase), trigBase, 0)
  else if 0x100000 ≤ a ∧ a < 0x500000 ∧ 0x10000 ≤ a % 0x100000 ∧ a % 0x100000 < 0x20000 then
    let p := 32 * (a / 0x100000 - 1) + (a % 0x10000) / 0x800
    some (0x10, ⟨1, p⟩, portBase p, p)
  else none

/-- A write to the offset is journaled: any register of those blocks, one that ignores it too. [DEDUCED, log 108] -/
def journaled (a : Nat) : Option (Nat × ObjId × Nat × Nat) := if (regAt a).isSome then journalOf a else none

/-- Journals a register write as its command from function 0 with an outcome (R393, R546). -/
def journalWrite (st : Status) (writes : List (Nat × Nat)) (s : State) : State :=
  match writes with
  | [] => s
  | w :: _ => match journaled w.1 with
    | none => s
    | some (op, obj, base, target) =>
      let d : Desc := if op = 0x60 then { pairDesc 0 [] with body := BitVec.ofNat 384 (bits w.2 2 0) }
        else pairDesc target (writes.map (fun x => (x.1 - base, x.2)))
      journalReg op st d [obj] s

/-! ### Holding latches (R545) -/

/-- The _HI half a requester holds for the pair of a _LO offset. [DEDUCED, log 125] -/
def heldHi (who : Requester) (a : Nat) (s : State) : Option Nat := (mfind s.wrLatch (latchAt who (a + 4))).map (·.toNat)

/-- [DEDUCED, log 125] -/
def holdHi (who : Requester) (aHi v : Nat) (s : State) : State :=
  { s with wrLatch := mput s.wrLatch (latchAt who aHi) (BitVec.ofNat 32 v) }
/-- [DEDUCED, log 125] -/
def dropHi (who : Requester) (aHi : Nat) (s : State) : State := { s with wrLatch := mdel s.wrLatch (latchAt who aHi) }

/-- Empties the latch of the pair that an offset belongs to. [DEDUCED, log 125] -/
def dropLatch (who : Requester) (a : Nat) (s : State) : State :=
  match regAt a with
  | some (r, _) => if pairLo r.reg then dropHi who (a + 4) s else if pairHi r.reg then dropHi who a s else s
  | none => s

/-! ### Verdict, refusal, commit -/

/-- Reasons against a one-DW write (R547). A _LO half is judged with the _HI half it commits. [DEDUCED, log 107] -/
def reasonsDw (who : Requester) (a v : Nat) (s : State) : List Nat :=
  placeReasons who a s ++ (match regAt a with
    | none => []
    | some (r, ix) => rowReasons r v ++ ownReasons who r ix a v s
        ++ (if pairLo r.reg then pairReasons r ix a v ((heldHi who a s).getD (peek (a + 4) s)) s else []))

/-- A refused write (R14, R545–R547): logged at the offset and value of its half, journaled at its first DW, the latch emptied. -/
def refuseWrite (who : Requester) (o a v reason : Nat) (first : Nat × Nat) (s : State) : State :=
  dropLatch who a (journalWrite (if reason = 3 then .range else .rsvdField) [first] (logRefusal who false o v reason s))

/-- The writes that a one-DW write commits: a _LO half commits the held _HI half with it (R545). -/
def commitList (who : Requester) (r : RegRow) (a v : Nat) (s : State) : List (Nat × Nat) :=
  match pairLo r.reg, heldHi who a s with
  | true, some h => [(a + 4, h), (a, v)]
  | _, _ => [(a, v)]

/-- Stores an accepted write that is no _HI half, with the held or the current _HI half (R545). -/
def commitDw (who : Requester) (r : RegRow) (ix : List Nat) (a v : Nat) (bus : List TwTry) (s : State) : State :=
  if pairLo r.reg then storePair r ix a v ((heldHi who a s).getD (peek (a + 4) s)) (dropLatch who a s)
  else storeDw r ix a v bus s

/-- An accepted one-DW write: a _HI half goes to the requester's latch; a _LO half commits both; journaled writes take their number
first (R393, R402, R545, R546). -/
def acceptDw (who : Requester) (a v : Nat) (bus : List TwTry) (s : State) : State :=
  match regAt a with
  | none => s
  | some (r, ix) =>
    if pairHi r.reg then holdHi who a v s
    else
      let writes := commitList who r a v s
      let src := regSrc 0x60 s
      let s1 := journalWrite .ok writes s
      if ! writable r ∧ (journaled a).isSome then dropLatch who a s1
      else match journaled a with
      | some (0x60, _) => modeRequest (bits v 2 0) src (storeDw r ix a v bus s1)
      | some (0x31, _) => offerChange writes none [] (dropLatch who a s1)
      | _ => commitDw who r ix a v bus s1

/-- A one-DW write (R546, R547). -/
def writeDw (who : Requester) (o a v : Nat) (bus : List TwTry) (s : State) : State :=
  match lowest (reasonsDw who a v s) with
  | some n => refuseWrite who o a v n (a, v) s
  | none => acceptDw who a v bus s

/-- A two-DW write on a _LO and _HI pair, judged as one: _HI first (R544). An MSI-X address is two plain registers. -/
def writePair (who : Requester) (o a lo hi : Nat) (bus : List TwTry) (s : State) : State :=
  match lowest (reasonsDw who (a + 4) hi s) with
  | some n => refuseWrite who (o + 4) (a + 4) hi n (a, lo) s
  | none =>
    let s1 := match regAt a with
      | some (r, _) => if pairLo r.reg then holdHi who (a + 4) hi s else s
      | none => s
    match lowest (reasonsDw who a lo s1) with
    | some n => refuseWrite who o a lo n (a, lo) s1
    | none => acceptDw who a lo bus (match regAt a with
        | some (r, _) => if pairLo r.reg then s1 else acceptDw who (a + 4) hi bus s1
        | none => s1)

/-- The enabled bytes of a DW. -/
def enabledBytes (en v : Nat) : Nat :=
  ((List.range 4).map (fun b => if bit en b then bits v (8 * b + 7) (8 * b) <<< (8 * b) else 0)).sum

/-- A write request to BAR0, or to a virtual function's BAR0 (R348, R540, R544). -/
def writeBar0 (who : Requester) (o : Nat) (shape : WriteShape) (bus : List TwTry) (s : State) : State :=
  match placeOf who o with
  | none =>
    let v := match shape with
      | .dw en v => enabledBytes en.toNat v.toNat
      | .pair lo _ => lo.toNat
      | .long first => first.toNat
    logRefusal who false o v 5 s
  | some a =>
    let tooLong (v : Nat) : State := refuseWrite who o a v ((lowest (placeReasons who a s ++ [6])).getD 6) (a, v) s
    match shape with
    | .dw en v => if en = 15 then writeDw who o a v.toNat bus s else tooLong (enabledBytes en.toNat v.toNat)
    | .pair lo hi =>
      match regAt a with
      | some (r, _) => if pairAt r then writePair who o a lo.toNat hi.toNat bus s else tooLong lo.toNat
      | none => tooLong lo.toNat
    | .long first => tooLong first.toNat

/-- A write request to BAR2 (R367, R543, R544): NUDGE takes any 32-bit write; everything else is discarded and logged. -/
def writeBar2 (who : Requester) (o : Nat) (shape : WriteShape) (s : State) : State :=
  let place : List Nat := if o = 0 then [] else if who = .fn 0 ∧ 0x1000 ≤ o ∧ o < 0x10000 then [4] else [5]
  let log (v : Nat) (l : List Nat) : State := match lowest l with
    | some n => logRefusal who true o v n s
    | none => s
  match shape with
  | .dw en v => if en = 15 then log v.toNat place else log (enabledBytes en.toNat v.toNat) (place ++ [6])
  | .pair lo _ => log lo.toNat (place ++ [6])
  | .long first => log first.toNat (place ++ [6])

/-- A register write by a requester (R45, R540–R547). TW0 makes none, and the other requesters than the host reach only BAR0. -/
def regWrite (who : Requester) (bar2 : Bool) (o : Nat) (shape : WriteShape) (bus : List TwTry) (s : State) : State :=
  match who with
  | .tw0 => s
  | .fn f =>
    if ! hostUp f s then emit (.ur f) s
    else if bar2 then writeBar2 who o shape s
    else writeBar0 who o shape bus s
  | _ => if bar2 then s else writeBar0 who o shape bus s

/-! ### Rows that name a register -/

/-- The offset at which a requester reaches a place of the register map: the physical function, REGACC and the steward at the place itself,
a virtual function only its own (R348). -/
def ofsFor (who : Requester) (a : Nat) : Option Nat :=
  match who with
  | .fn f =>
    if f.val = 0 then (if a < 0x1000000 then some a else none)
    else if fnBase f ≤ a ∧ a < fnBase f + 0x40 then some (a - fnBase f)
    else if 0x28000 + f * 0x1000 ≤ a ∧ a < 0x29000 + f * 0x1000 then some (a - (0x28000 + f * 0x1000) + 0x1000)
    else if msixBase f ≤ a ∧ a < msixBase f + 0x1000 then some (a - msixBase f + 0x2000)
    else none
  | .tw0 => none
  | _ => if a < 0x1000000 then some a else none

/-- A write at a place of the register map; one that the requester cannot reach is no event. -/
def writeAt (who : Requester) (a : Nat) (shape : WriteShape) (bus : List TwTry) (s : State) : State :=
  match ofsFor who a with
  | some o => regWrite who false o shape bus s
  | none => s

/-- A full one-DW write. -/
def fullDw (v : Word) : WriteShape := .dw 15 v

end Sys2Proof.Machine
end

