-- ==== Sys2Proof/Machine/CfgCmds.lean ====
section
/-! DEFINITION. The commands that write register pairs: PORT_CFG, TB_CFG and TRIG_FAST_SET, and the releases of the last two (R389, R393). -/

namespace Sys2Proof.Machine

/-- Register pairs that the descriptor names, 1 to 5 (R389). [DEDUCED, log 126] -/
def nPairs (d : Desc) : Nat := bf d 16 31 29

/-- Pair k of the body: offset and value. -/
def pairOf (d : Desc) (k : Nat) : Nat × Nat := (bf d (24 + 8 * k) 15 0, bf d (28 + 8 * k) 31 0)

/-- The pairs of the body, in order. -/
def pairsOf (d : Desc) : List (Nat × Nat) := (List.range (min (nPairs d) 5)).map (pairOf d)

/-- The body fields of the three commands (R389). -/
def cfgFields : List (Nat × Nat × Nat) :=
  [(16, 31, 29), (16, 6, 0)] ++ (List.range 5).map (fun k => (24 + 8 * k, 15, 0)) ++ (List.range 5).map (fun k => (28 + 8 * k, 31, 0))

/-- A pair from n on that is not 0 (R389). [DEDUCED, log 126] -/
def pairsBeyond (d : Desc) : Bool := (List.range 5).any (fun k => decide (nPairs d ≤ k ∧ pairOf d k ≠ (0, 0)))

/-- A write of 1 to a WO or W1S bit (R393). -/
def flushSet (r : RegRow) (v : Nat) : Bool :=
  r.fields.any (fun f => (match f.acc with | .wo | .w1s => true | _ => false) && decide (bits v f.hi f.lo ≠ 0))

/-- The verdict on one pair of a block of a size (R393). [DEDUCED, log 123; DEDUCED, log 126] -/
def pairVerdict (who : Requester) (base size : Nat) (s : State) (p : Nat × Nat) : Status :=
  match (if p.1 < size then regAt (base + p.1) else none) with
  | none => .range
  | some (r, _) =>
    if ! writable r then .range
    else match lowest (reasonsDw who (base + p.1) p.2 s) with
      | some 3 => .range
      | some _ => .rsvdField
      | none => if flushSet r p.2 then .rsvdField else .ok

/-- The first verdict that is not OK. [DEDUCED, log 126] -/
def firstBad : List Status → Status
  | [] => .ok
  | .ok :: l => firstBad l
  | st :: _ => st

/-- The checks of R393 and R394 that the three commands share: RANGE for a count of 0, 6 or 7, then the pairs in order. [DEDUCED, log 126] -/
def pairsVerdict (base size : Nat) (d : Desc) (s : State) : Status :=
  if nPairs d = 0 ∨ 5 < nPairs d then .range
  else firstBad ((pairsOf d).map (pairVerdict (.fn d.func) base size s))

/-- One pair of PORT_CFG or TB_CFG takes effect as the register write it is. -/
def applyPair (who : Requester) (base : Nat) (s : State) (p : Nat × Nat) : State :=
  match regAt (base + p.1) with
  | some (r, ix) => if pairHi r.reg then holdHi who (base + p.1) p.2 s else commitDw who r ix (base + p.1) p.2 [] s
  | none => s

/-- The pairs of a command, in order. -/
def applyPairs (base : Nat) (d : Desc) (s : State) : State := (pairsOf d).foldl (applyPair (.fn d.func) base) s

/-! ### PORT_CFG and TB_CFG -/

/-- PORT_CFG's generic checks (R384, R389). -/
def specPortCfg (d : Desc) : CmdSpec :=
  { op := 0x10, fields := cfgFields, group := some 0, objs := [⟨1, bf d 16 6 0⟩], badEnc := pairsBeyond d }

/-- PORT_CFG (R104, R393): the pairs are written, and retraining follows under R66. [DEDUCED, log 123] -/
def execPortCfg (d : Desc) (s : State) : Host.Outcome State Fault Refusal :=
  let base := portBase (bf d 16 6 0)
  .next (serve (specPortCfg d) d (pairsVerdict base 0x800 d) (fun src s => complete src .ok 0 (applyPairs base d s)) s)

/-- TB_CFG's generic checks: the time base in bits [2:0], the target bits above reserved (R384, R388, R389). [DEDUCED, log 127] -/
def specTbCfg (d : Desc) : CmdSpec :=
  { op := 0x40, fields := cfgFields, relOk := true, group := some 3, objs := [⟨7, bf d 16 2 0⟩], namesTb0 := decide (bf d 16 2 0 = 0),
    config := true, badEnc := pairsBeyond d || decide (bf d 16 6 3 ≠ 0) }

/-- TB_CFG (R118, R153, R393). [DEDUCED, log 127] -/
def execTbCfg (d : Desc) (s : State) : Host.Outcome State Fault Refusal :=
  let base := tbBase (bf d 16 2 0)
  if dRelease d then .next s
  else .next (serve (specTbCfg d) d (pairsVerdict base 0x400 d) (fun src s => complete src .ok 0 (applyPairs base d s)) s)

/-- TB_RELEASE (R388): TB_CFG with release applies its pairs, and the time base's ownership ends. [DEDUCED, log 127] -/
def execTbRelease (d : Desc) (s : State) : Host.Outcome State Fault Refusal :=
  let base := tbBase (bf d 16 2 0)
  if dRelease d then
    .next (serve (specTbCfg d) d (pairsVerdict base 0x400 d)
      (fun src s => complete src .ok 0 (disown ⟨7, bf d 16 2 0⟩ (applyPairs base d s))) s)
  else .next s

/-! ### TRIG_FAST_SET -/

/-- The objects that the pairs touch, each once, in pair order (R385). A pair outside the block's registers touches none. -/
def trigObjs (d : Desc) : List ObjId :=
  ((pairsOf d).filterMap (fun p =>
    if p.1 < 0x1000 ∧ (regAt (trigBase + p.1)).isSome then some (trigObj p.1) else none)).foldl
      (fun l o => if l.contains o then l else l ++ [o]) []

/-- TRIG_FAST_SET's generic checks; its primary object is that of the first pair (R384, R387, R389). -/
def specFastSet (d : Desc) : CmdSpec :=
  { op := 0x31, fields := cfgFields, relOk := true, group := some 2, objs := (trigObjs d).take 2, config := true,
    badEnc := pairsBeyond d || decide (bf d 16 6 0 ≠ 0) }

/-- TRIG_FAST_SET's own checks: the pairs, and at most two objects (R393). -/
def ownFastSet (d : Desc) (s : State) : Status :=
  match pairsVerdict trigBase 0x1000 d s with
  | .ok => if 2 < (trigObjs d).length then .range else .ok
  | st => st

/-- The writes of the pairs: a _HI half goes to the requester's latch, a _LO half brings the held one. [DEDUCED, log 125] -/
def trigWrites (who : Requester) : List (Nat × Nat) → State → List (Nat × Nat) × State
  | [], s => ([], s)
  | p :: ps, s =>
    match regAt (trigBase + p.1) with
    | none => trigWrites who ps s
    | some (r, _) =>
      if pairHi r.reg then trigWrites who ps (holdHi who (trigBase + p.1) p.2 s)
      else
        let (w, s1) := trigWrites who ps (dropLatch who (trigBase + p.1) s)
        (commitList who r (trigBase + p.1) p.2 s ++ w, s1)

/-- An accepted TRIG_FAST_SET that does not complete at once waits for its conditions and lines (R274). -/
def fastWait (d : Desc) : Wait :=
  let w := (pairsOf d).map (fun p => (trigBase + p.1, p.2))
  .fastApply (fastsOf w) (linesOf w)

/-- TRIG_FAST_SET (R274, R393): completes once it is in effect. -/
def execTrigFastSet (d : Desc) (s : State) : Host.Outcome State Fault Refusal :=
  if dRelease d then .next s
  else .next (serve { specFastSet d with wait := fastWait d } d (ownFastSet d)
    (fun src s =>
      let (w, s1) := trigWrites (.fn d.func) (pairsOf d) s
      offerChange w (some src) [] s1) s)

/-- The control register of a TRIGIO object; its bit 31 is en (R279). [DEDUCED, log 52] -/
def trigCtlOf (o : ObjId) : Nat :=
  if o.id < 8 then trigBase + 0x400 + 0x20 * o.id
  else if o.id < 16 then trigBase + 0x40 * (o.id - 8)
  else if o.id < 24 then trigBase + 0x800 + 0x10 * (o.id - 16)
  else trigBase + 0x600 + 4 * (o.id - 24)

/-- A pair of a release that names a control register with en 1: no off value (R388). [DEDUCED, log 52] -/
def notOff (d : Desc) : Bool :=
  (pairsOf d).any (fun p => (trigObjs d).any (fun o => decide (trigCtlOf o = trigBase + p.1)) && bit p.2 31)

/-- The writes that turn off the named objects whose control register no pair names. [DEDUCED, log 52] -/
def offWrites (d : Desc) (s : State) : List (Nat × Nat) :=
  ((trigObjs d).filter (fun o => ! (pairsOf d).any (fun p => decide (trigCtlOf o = trigBase + p.1)))).map
    (fun o => (trigCtlOf o, match regAt (trigCtlOf o) with
      | some (r, _) => putBits (accReg r (trigCtlOf o) s) 31 31 0
      | none => 0))

/-- FAST_RELEASE (R388): TRIG_FAST_SET with release turns the named fast conditions, lines and strobes off, and their ownership ends. -/
def execFastRelease (d : Desc) (s : State) : Host.Outcome State Fault Refusal :=
  if dRelease d then
    let spec := specFastSet d
    .next (serve { spec with wait := fastWait d, badEnc := spec.badEnc || notOff d } d (ownFastSet d)
      (fun src s =>
        let (w, s1) := trigWrites (.fn d.func) (pairsOf d) s
        offerChange (w ++ offWrites d s) (some src) (trigObjs d) s1) s)
  else .next s

end Sys2Proof.Machine
end

