-- ==== Sys2Proof/Machine/EngCmds.lean ====
section
/-! DEFINITION. The commands and events of the engines apart from their operations: TASK_START, TASK_CANCEL, TASK_PRIO, ENG_LOAD,
wake times, messages, fences, the scrubber, micro-routine steps and chords that do not decode (R167–R184, R196, R235, R395). -/

namespace Sys2Proof.Machine

/-! ### Task commands (R172, R177, R174) -/

/-- The engine and slot of a task command (R389). -/
def tEng (d : Desc) : Nat := bf d 16 7 0
def tSlot (d : Desc) : Nat := bf d 16 11 8
def taskObj (d : Desc) : ObjId := ⟨4, 16 * tEng d + tSlot d⟩

def taskSpec (op : Nat) (d : Desc) (fields : List (Nat × Nat × Nat)) : CmdSpec :=
  { op := op, fields := fields, group := some 1, objs := [taskObj d] }

def startFields : List (Nat × Nat × Nat) := [(16, 27, 0), (20, 31, 0), (24, 39, 0)]

/-- The arg word of TASK_START. -/
def startArg (d : Desc) : EWord := BitVec.ofNat 40 (bf d 24 39 0)

/-- The engine is frozen or paused: the mode keeps TASK_START from it (R53). -/
def engOff (key : Nat) (s : State) : Bool := engFrozen key s || engPaused key s

/-- TASK_START's own checks (R172, R394). [DEDUCED, log 40] -/
def startCheck (d : Desc) (s : State) : Status :=
  let key := engOf (tEng d) s; let t := task key (tSlot d) s
  if 192 ≤ tEng d ∨ bf d 16 22 16 = 0 ∨ 64 < bf d 16 22 16 then .range
  else if t.state ≠ .free then .busy
  else if engOff key s then .mode
  else .ok

/-- The task of a TASK_START; every latch entry of the slot is written anew with it (R158, R168). -/
def startTask (d : Desc) (src : Src) (old : Task) : Task :=
  let arg := startArg d
  { state := .waiting, prio := bf d 16 25 23, waitMask := bf d 16 15 12, batchThr := bf d 16 22 16,
    handlerOn := decide (bf d 16 26 26 = 1), handler := bf d 20 31 16, pc := bf d 20 15 0,
    sStk := if tagOf arg = .empty then [] else [arg], src := some src,
    trapCode := old.trapCode, trapStr := old.trapStr, trapNested := old.trapNested, trapAddr := old.trapAddr,
    trapDetail := old.trapDetail }

/-- No latch entry of a slot is marked: they were all written (R168). -/
def freshMarks (key slot : Nat) (s : State) : State :=
  let marks (m : FMap Bool) : FMap Bool :=
    wroteMarks 3 slot 0 15 (wroteMarks 4 slot 0 15 (wroteMarks 5 slot 0 15 (wroteMarks 6 slot 0 15 m)))
  if (eng key s).bad.isEmpty then s else setEng key (fun e => { e with bad := marks e.bad }) s

/-- TASK_START puts a task into a FREE slot; it is READY at once (R172). -/
def execTaskStart (d : Desc) (s : State) : Host.Outcome State Fault Refusal :=
  if bf d 16 27 27 = 1 then .next s
  else .next (serve { taskSpec 0x21 d startFields with
      config := true, badEnc := decide (tagOf (startArg d) = .reserved) } d (startCheck d)
    (fun src s =>
      let key := engOf (tEng d) s
      complete src .ok 0 (makeReady key (tSlot d) (freshMarks key (tSlot d) (setTask key (tSlot d) (startTask d src) s)))) s)

/-- A kick's checks (R172). [DEDUCED, log 40] -/
def kickCheck (d : Desc) (s : State) : Status :=
  let key := engOf (tEng d) s; let t := task key (tSlot d) s
  if 192 ≤ tEng d then .range
  else match t.state with
    | .free => .stale
    | .trapped => .busy
    | .cancelling => .ok
    | _ => if 8 ≤ inboxLoad (tEng d) (tSlot d) s then .noResource else if engOff key s then .mode else .ok

/-- TASK_START with kick places a message from the host function (R172, R231); it advances no version (R384). -/
def execTaskKick (d : Desc) (s : State) : Host.Outcome State Fault Refusal :=
  if bf d 16 27 27 = 0 then .next s
  else .next (serve { taskSpec 0x21 d startFields with
      quiet := true, badEnc := decide (tagOf (startArg d) = .reserved) } d (kickCheck d)
    (fun src s =>
      complete src .ok 0
        (msgLand (engOf (tEng d) s) (tSlot d) ⟨startArg d, emptyWord, ownHost d.func⟩ s)) s)

/-- A slot named by TASK_CANCEL or TASK_PRIO. [DEDUCED, log 40] -/
def slotCheck (d : Desc) (s : State) : Status :=
  if 192 ≤ tEng d then .range
  else if (task (engOf (tEng d) s) (tSlot d) s).state = .free then .stale else .ok

/-- TASK_CANCEL (R177, R178). -/
def execTaskCancel (d : Desc) (s : State) : Host.Outcome State Fault Refusal :=
  .next (serve { taskSpec 0x22 d [(16, 11, 0)] with
      wait := .taskCancel (tEng d) (tSlot d) } d (slotCheck d)
    (fun src s => cancelSlot (engOf (tEng d) s) (tSlot d) (some src) s) s)

/-- TASK_PRIO (R174). -/
def execTaskPrio (d : Desc) (s : State) : Host.Outcome State Fault Refusal :=
  .next (serve (taskSpec 0x23 d [(16, 14, 0)]) d (slotCheck d)
    (fun src s => complete src .ok 0
      (setTask (engOf (tEng d) s) (tSlot d) (fun t => { t with prio := bf d 16 14 12 }) s)) s)

/-! ### ENG_LOAD (R395) -/

def ldEng (d : Desc) : Nat := bf d 16 7 0
def ldSpace (d : Desc) : Nat := bf d 16 31 28
def ldOff (d : Desc) : Nat := bf d 20 31 0
def ldCount (d : Desc) : Nat := bf d 24 31 0

/-- Bytes of a unit of a space: data 8, vector 384, program 2. -/
def unitBytes (space : Nat) : Nat := if space = 0 then 8 else if space = 1 then 384 else 2

def loadCheck (d : Desc) (s : State) : Status :=
  let bound := if ldSpace d = 1 then 128 else 65536
  if 192 ≤ ldEng d ∨ ldCount d = 0 ∨ 65536 < ldCount d ∨ bound < ldOff d + ldCount d ∨ bf d 32 5 0 ≠ 0 then .range
  else if bf d 16 27 27 = 0 ∧ (eng (engOf (ldEng d) s) s).tasks.any (fun x => decide (x.2.state ≠ .free)) then .busy
  else if engOff (engOf (ldEng d) s) s then .mode
  else .ok

/-- Writes one unit; none where the unit ends the load with RANGE. [DEDUCED, log 39] -/
def loadUnit (key space addr : Nat) (b : List Nat) (s : State) : Option State :=
  if space = 0 then
    let v := leNat b; let w : EWord := BitVec.ofNat 40 v
    if 2 ^ 40 ≤ v ∨ tagOf w = .reserved then none else some (dataWr key addr w s)
  else if space = 1 then
    let tag := leNat (sliceB b 320 1)
    let v : Vec := ⟨tag, BitVec.ofNat 2048 (leNat (b.take 256)), BitVec.ofNat 512 (leNat (sliceB b 256 64))⟩
    if 5 ≤ tag ∨ leNat (b.drop 321) ≠ 0 then none else some (vecWr key addr { v with flags := shownFlags v } s)
  else some (progWr key addr (leNat b) s)

/-- Writes n units from a list of bytes: the units written and whether a unit ended the load. [DEDUCED, log 39] -/
def loadUnits (key space : Nat) : Nat → Nat → List Nat → Nat → State → State × Nat × Bool
  | 0, _, _, k, s => (s, k, false)
  | n + 1, addr, l, k, s =>
    match loadUnit key space addr (l.take (unitBytes space)) s with
    | none => (s, k, true)
    | some s' => loadUnits key space n (addr + 1) (l.drop (unitBytes space)) (k + 1) s'

/-- ENG_LOAD: the bulk data is read while the command runs; a failed read completes it with FAULT (R382, R395). [DEDUCED, log 39] -/
def execEngLoad (d : Desc) (data : Option (List Byte)) (s : State) : Host.Outcome State Fault Refusal :=
  let spec : CmdSpec :=
    { op := 0x20, fields := [(16, 31, 27), (16, 7, 0), (20, 31, 0), (24, 31, 0), (32, 63, 0)], group := some 1,
      objs := [⟨3, ldEng d⟩], badEnc := decide (3 ≤ ldSpace d), dataCrc := crc32c ((data.getD []).map (·.toNat)) }
  .next (serve spec d (loadCheck d)
    (fun src s =>
      let bytes := (data.getD []).map (·.toNat)
      if data.isNone ∨ bytes.length < ldCount d * unitBytes (ldSpace d) then complete src .fault 0 s
      else
        let r := loadUnits (engOf (ldEng d) s) (ldSpace d) (ldCount d) (ldOff d) bytes 0 s
        complete src (if r.2.2 then .range else .ok) r.2.1 r.1) s)

/-! ### Wake times, messages, fences -/

/-- A time base reaches a slot's wake time (R171). -/
def execWakeTimeFire (q : Fin 4) (k : Fin 52) (slot : Fin 16) (s : State) : Host.Outcome State Fault Refusal :=
  let key := ekey q k
  .next (match (task key slot s).wake with
    | some w =>
      if sdiff (pay32 w) (tbNs (tBase w) s) ≤ 0 then
        timerFire key slot (fun t => { t with wake := none, timer := true }) s
      else s
    | none => s)

/-- The n-th message under way reaches its inbox, unless an earlier one of the same sender to the same slot is still under way
(R173). -/
def execMessageArrive (n : Nat) (s : State) : Host.Outcome State Fault Refusal :=
  .next (match s.msgs[n]? with
    | some m =>
      if (s.msgs.take n).any (fun x => decide (x.1 = m.1 ∧ x.2.1 = m.2.1 ∧ x.2.2.sender = m.2.2.sender)) then s
      else msgLand (engOf m.1 s) m.2.1 m.2.2 { s with msgs := s.msgs.eraseIdx n }
    | none => s)

/-- Everything a C.FENCE of a slot waits for has happened: its TPs are in the QCU and its messages in their inboxes (R184). -/
def fenceDone (key slot : Nat) (s : State) : Bool :=
  let l := (eng key s).logical.getD 0
  ! (eng key s).tpq.any (fun e => decide (e.slot = slot))
    && ! s.msgs.any (fun m => decide (m.1 / 48 = l / 48 ∧ m.2.2.sender = ownEngine (l % 48) slot))

/-- A fence completes: a C.FENCE once its TPs and messages are gone; an M.FENCE once its stores, hand-offs and releases are
visible, which they are in this model as soon as their chords commit (R184). -/
def execFenceComplete (q : Fin 4) (k : Fin 52) (slot : Fin 16) (s : State) : Host.Outcome State Fault Refusal :=
  let key := ekey q k
  .next (setTask key slot (fun t => { t with mFence := none, cFence := if fenceDone key slot s then none else t.cFence }) s)

/-- ENG_CFG.fence_to in device ticks (R184, R191). -/
def fenceTo (key : Nat) (s : State) : Nat := usTicks (rfld (engBase (key / 64) (key % 64) + 0x008) 31 16 s)

/-- A held chord's own trap comes before FENCE_TIMEOUT: an ILLEGAL or unreadable chord, one of an earlier string than the fence's, or one
of that string, all of a lower rank (R180). -/
def ownTrap (key slot str : Nat) (d : Dec) (s : State) : Bool :=
  match chordTrap key slot d s with
  | some (k, _) => decide (k ≤ str)
  | none => false

/-- The chord that a fence holds traps once fence_to has passed (R184); the fence is then over. [DEDUCED, log 36] -/
def execFenceTimeout (q : Fin 4) (k : Fin 52) (slot : Fin 16) (s : State) : Host.Outcome State Fault Refusal :=
  let key := ekey q k
  let t := task key slot s
  .next (match fenceHeld key slot s with
    | some (str, f) =>
      if engLive key s ∧ ! engStopped key s ∧ (t.state = .ready ∨ t.state = .running) ∧ passed f.since (fenceTo key s) s then
        let d := nextChord key slot s
        let s1 := setTask key slot (fun t => { t with
          cFence := if str = 0 then none else t.cFence, mFence := if str = 3 then none else t.mFence }) s
        let s2 := if t.inWait then setTask key slot returnFromWait s1 else s1
        let s3 := fixReads key slot d (eng key s2).soft.length (fixFetch key t.pc d s2)
        if ownTrap key slot str d s3 then runDecoded key slot d s3
        else raiseTrap key slot 9 str f.addr none (match d with | .ok _ len => some (t.pc + len) | _ => none) s3
      else s
    | none => s)

/-! ### The scrubber (R167) -/

/-- The scrubber finds an uncorrectable location: data becomes POISON with origin ECC, program and vector locations are
marked. -/
def scrubFind (key : Nat) (s : State) (x : Nat) : State :=
  let store := x / 2 ^ 24; let a := x % 2 ^ 24
  let s1 := if mfind (eng key s).bad x = some true then s else bump (engCnt key 5) s
  if store = 0 ∧ a < 65536 then dataWr key a (wPoison 4 a) s1
  else if (store = 1 ∧ a < 256) ∨ (store = 2 ∧ a < 65536) then
    setEng key (fun e => { e with bad := mput e.bad x true }) s1
  else s

/-- A location goes bad after the scrubber passed it: it is found, and counted, by the chord that reads it (R167, R168). -/
def goBad (key : Nat) (s : State) (x : Nat) : State :=
  let store := x / 2 ^ 24; let a := x % 2 ^ 24
  if (store = 0 ∧ a < 65536) ∨ (store = 1 ∧ a < 256) ∨ (store = 2 ∧ a < 65536) ∨ (3 ≤ store ∧ store ≤ 5 ∧ a < 256) then
    if (mfind (eng key s).bad x).isSome then s else setEng key (fun e => { e with bad := mput e.bad x false }) s
  else s

/-- A single-bit error arises in a store after the scrubber passed it: the chord that reads it corrects it, or the next pass (R167). -/
def goSoft (key : Nat) (s : State) (x : Nat) : State :=
  let store := x / 2 ^ 24; let a := x % 2 ^ 24
  if ((store = 0 ∧ a < 65536) ∨ (store = 1 ∧ a < 256) ∨ (store = 2 ∧ a < 65536)) ∧ ¬ (mfind (eng key s).bad x).isSome
      ∧ ¬ (eng key s).soft.contains x then
    setEng key (fun e => { e with soft := x :: e.soft }) s
  else s

/-- A pass of the background scrubber over an engine's stores: words corrected, those known to hold a single-bit error among them,
uncorrectable locations found, and locations, of a store or of a latch, and bytes of work buffers that go bad after it. A number of
`later` from 2 ^ 32 up is a single-bit error. -/
def execScrubPass (q : Fin 4) (k : Fin 52) (fixed : Nat) (found later : List Nat) (bytes : List (Nat × Nat)) (s : State) :
    Host.Outcome State Fault Refusal :=
  let key := ekey q k
  if (eng key s).powered ∧ quadUp q s then
    let s0 := (eng key s).soft.foldl (fun s k => fixLoc key k s) s
    let s1 := found.foldl (scrubFind key) (bumpN (engCnt key 4) fixed s0)
    let s2 := later.foldl (fun s x => if 2 ^ 32 ≤ x then goSoft key s (x - 2 ^ 32) else goBad key s x) s1
    .next (bytes.foldl (fun s e =>
      if hQuad e.1 = q.val ∧ (buf e.1 s).owner ≠ 0 ∧ e.2 < (buf e.1 s).size ∧ ¬ (buf e.1 s).bad.contains e.2 then
        setBuf e.1 (fun b => { b with bad := e.2 :: b.bad }) s
      else s) s2)
  else .next s

/-! ### Boundaries that are no operation's own -/

/-- The next step of a micro-routine in progress (R235). [DESIGN CHOICE, log 30] -/
def execMicroStep (q : Fin 4) (k : Fin 52) (s : State) : Host.Outcome State Fault Refusal :=
  let key := ekey q k
  .next (match boundary key s with
    | some slot =>
      let t := task key slot s
      if ! engStopped key s ∧ mrResumes t (nextChord key slot s) ∧ ! t.tpWait then issue key slot (switchTo key slot s) else s
    | none => s)

/-- A chord or step that waits for room in the TP queue issues again once there is some (R234). [DEDUCED, log 32] -/
def execTpQueueRoom (q : Fin 4) (k : Fin 52) (s : State) : Host.Outcome State Fault Refusal :=
  let key := ekey q k
  .next (match boundary key s with
    | some slot =>
      if ! engStopped key s ∧ (task key slot s).tpWait ∧ (eng key s).tpq.length < 32 then
        issue key slot (setTask key slot (fun t => { t with tpWait := false }) (switchTo key slot s))
      else s
    | none => s)

/-- A chord that does not decode: an encoding fault, or an uncorrectable syllable met first (R196, R197). [DESIGN CHOICE, log 30; DEDUCED, log 31] -/
def execIllegalChord (q : Fin 4) (k : Fin 52) (s : State) : Host.Outcome State Fault Refusal :=
  let key := ekey q k
  .next (match boundary key s with
    | some slot =>
      match nextChord key slot s with
      | .ok _ _ => s
      | _ => if engStopped key s then s else issue key slot (switchTo key slot s)
    | none => s)

end Sys2Proof.Machine
end

