-- ==== Sys2Proof/Machine/HostCmds.lean ====
section
/-! DEFINITION. The meanings of the host link, doorbells, free entries and the BASIC commands (11_host_rings.md, 12_commands_journal.md). -/

namespace Sys2Proof.Machine

/-! ### Link and power states (R45, R48, R345, R346, R371) -/

/-- HOST_LINK_UP (R345): link training ends at a rate of `gen`, a width, and what the host has set in the functions' capabilities: CXL and
Cache_Enable (R346), ATS and MSI-X enables by function. [PRESUMED, log 24] -/
def execHostLinkUp (gen width : Nat) (flit cxl cacheEn : Bool) (ats msix : BitVec 8) (s : State) : Host.Outcome State Fault Refusal :=
  if hostUp 0 s ∧ 3 ≤ gen ∧ gen ≤ 6 ∧ [1, 2, 4, 8, 16].contains width ∧ (flit ∨ gen ≠ 6) then
    let s1 : State := { s with host := { s.host with
      linkUp := true, gen := gen, width := width, flit := flit, cxl := cxl, cxlCache := cxl && cacheEn } }
    .next ((List.range 8).foldl (fun s f =>
      setFn f (fun x => { x with ats := ats.getLsbD f, msixEn := msix.getLsbD f }) s) s1)
  else .next s

/-- FUNCTION_D3HOT_ENTRY (R48, R371): a function goes into D3hot, or the link of all functions into L1.2. [DEDUCED, log 103] -/
def execFunctionD3hotEntry (f : Fin 8) (l12 : Bool) (s : State) : Host.Outcome State Fault Refusal :=
  .next (if hostUp f s then
    (if l12 then { s with host := { s.host with l12 := true } } else setFn f (fun x => { x with d3hot := true }) s) else s)

/-- The pending messages of a function are sent, as far as nothing keeps them back (R371). -/
def sendAll (f : Nat) (s : State) : State := (List.range 256).foldl (fun s v => sendPending f s v) s

/-- FUNCTION_D0_ENTRY (R48, R371): a function is back in D0 and the link out of L1.2; its pending messages are sent, and where the link was in
L1.2 those of the other functions that are awake. [DEDUCED, log 103] -/
def execFunctionD0Entry (f : Fin 8) (s : State) : Host.Outcome State Fault Refusal :=
  let s1 : State := { s with host := { s.host with l12 := false } }
  let s2 := sendAll f (setFn f (fun x => { x with d3hot := false, wake := false }) s1)
  .next (if hostUp f s then
    (if s.host.l12 then (List.range 8).foldl (fun s g =>
      if g = f.val ∨ ! fnAwake g s then s else sendAll g (setFn g (fun x => { x with wake := false }) s)) s2 else s2)
  else s)

/-! ### Doorbells (R365–R367) -/

/-- DOORBELL_POLL (R366): the interval has passed since the last poll; `words` is what the lines hold. -/
def execDoorbellPoll (f : Fin 8) (words : List (Fin 193 × BitVec 64)) (s : State) : Host.Outcome State Fault Refusal :=
  let due : Bool := match (fn f s).polled with
    | some k => passed k (nsTicks (pollEvery f s)) s
    | none => true
  .next (if canPoll f s && due then poll f words s else s)

/-- DOORBELL_INVALIDATE (R365): a line of a function that uses CXL.cache is refetched. -/
def execDoorbellInvalidate (f : Fin 8) (line : Fin 25) (words : List (Fin 193 × BitVec 64)) (s : State) :
    Host.Outcome State Fault Refusal :=
  .next (if canPoll f s && usesCxl f s then takeWords f (words.filter (fun w => decide (w.1.val / 8 = line.val))) s else s)

/-- NUDGE (R367): a write of the function's NUDGE word starts a poll. [DEDUCED, log 119] -/
def execNudge (f : Fin 8) (words : List (Fin 193 × BitVec 64)) (s : State) : Host.Outcome State Fault Refusal :=
  .next (if canPoll f s then poll f words s else s)

/-- DMA_READ_FAULT (R347): a read of a doorbell line, a ring entry or a segment list fails; every ring that needed it stops with FAULT. -/
def execDmaReadFault (f : Fin 8) (slots : List (Fin 193)) (s : State) : Host.Outcome State Fault Refusal :=
  .next (if hostUp f s then slots.foldl (fun s (x : Fin 193) => if ringRuns f x s then stopRing f x .fault s else s) s else s)

/-- COAL_TIMEOUT (R370): the oldest uninterrupted entry of a completion, event or journal ring is coal_t old. [DEDUCED, log 122] -/
def execCoalTimeout (f : Fin 8) (slot : Fin 193) (s : State) : Host.Outcome State Fault Refusal :=
  let due : Bool := match (ring f slot s).oldest with
    | some k => passed k (nsTicks (250 * rfld (ringBase f slot + 12) 15 0 s)) s
    | none => false
  .next (if hostUp f s && due then
      sendVec f (rfld (ringBase f slot + 8) 18 11 s) (setRing f slot (fun r => { r with cnt := 0, oldest := none }) s)
    else s)

/-! ### Free rings (R363) -/

/-- The fields of a free-ring entry: handle, generation, cookie. -/
def freeHandle (e : BitVec 128) : Nat := bits e.toNat 23 0
def freeGen (e : BitVec 128) : Nat := bits e.toNat 43 32
def freeCookie (e : BitVec 128) : BitVec 64 := BitVec.ofNat 64 (e.toNat >>> 64)

/-- What a free-ring entry is decided: RSVD_FIELD for a reserved bit, else R320 with the function as releaser. [DEDUCED, log 129] -/
def freeVerdict (f : Nat) (e : BitVec 128) (s : State) : Status :=
  if bits e.toNat 31 24 ≠ 0 ∨ bits e.toNat 63 44 ≠ 0 then .rsvdField
  else releaseVerdict (freeHandle e) (freeGen e) (ownHost f) s

/-- Takes one entry of a free ring. -/
def freeTake (f r : Nat) (e : BitVec 128) (s : State) : State :=
  let slot := 160 + r
  let st := freeVerdict f e s
  let ix := (ring f slot s).dev
  let s1 := writeShadow f slot (ix + 1) (setRing f slot (fun x => { x with dev := x.dev + 1 }) (showRing f slot 1 s))
  let s2 := match st with
    | .ok => releaseBy f (freeHandle e) s1
    | .rsvdField => bump (fnCnt f 7) s1
    | _ => bump (fnCnt f 7) (refuseRelease st (freeHandle e) (freeGen e) (ownHost f) s1)
  let c : Compl := { kind := .free, status := st, opcode := 0, ring := r, index := ix % 65536, cookie := freeCookie e, jseq := 0,
                     result := freeGen e <<< 24 ||| freeHandle e }
  if st = .ok ∧ ! bit (reg (ringBase f slot + 8) s) 10 then s2 else writeCompl f (cqOf f slot s) c s2

/-- FREE_ENTRY (R363): the next entry of a free ring; a full completion ring holds it (R358). [DEDUCED, log 129] -/
def execFreeEntry (f : Fin 8) (r : Fin 32) (entry : BitVec 128) (s : State) : Host.Outcome State Fault Refusal :=
  let slot := 160 + r.val
  .next (if hostUp f s && ! (fn f s).d3hot && ringRuns f slot s && decide ((ring f slot s).dev < (ring f slot s).host) then
      if cqHolds f (cqOf f slot s) s then showRing f slot 3 s else freeTake f r entry s
    else s)

/-! ### NOP, ECHO, JRNL_SYNC and reserved opcodes -/

/-- NOP (R394). -/
def execNop (d : Desc) (s : State) : Host.Outcome State Fault Refusal :=
  .next (serve { op := 0x00, fields := [] } d (fun _ => .ok) (fun src s => complete src .ok 0 s) s)

/-- ECHO (R394, R400): the result is body bytes 16 to 23. -/
def execEcho (d : Desc) (s : State) : Host.Outcome State Fault Refusal :=
  .next (serve { op := 0x01, fields := [(16, 63, 0)] } d (fun _ => .ok) (fun src s => complete src .ok (bf d 16 63 0) s) s)

/-- The oldest sequence number in the window of 960 entries (R403, R404). -/
def oldestSeq (s : State) : Nat := max 1 (s.jrnl.head - 959)

/-- JRNL_SYNC (R404). -/
def execJrnlSync (d : Desc) (s : State) : Host.Outcome State Fault Refusal :=
  .next (serve { op := 0x03, fields := [] } d (fun _ => .ok) (fun src s => complete src .ok (oldestSeq s) s) s)

/-- The opcodes of R384. -/
def opcodes : List Nat :=
  [0x00, 0x01, 0x02, 0x03, 0x04, 0x05, 0x06, 0x10, 0x11, 0x12, 0x20, 0x21, 0x22, 0x23, 0x30, 0x31, 0x40, 0x41, 0x42, 0x43, 0x50, 0x51,
   0x52, 0x60, 0x61, 0x62, 0x63, 0x64, 0x65, 0x66]

/-- RESERVED_OPCODE (R383 step 1): a descriptor with an opcode that R384 does not list; a listed one is no such event. -/
def execReservedOpcode (op : BitVec 8) (d : Desc) (s : State) : Host.Outcome State Fault Refusal :=
  if opcodes.contains op.toNat then .next s
  else .next (if canServe d s then reject { op := op.toNat, fields := [] } d .badOpcode (srcOf op.toNat d s) s
    else meetHeld d s)

/-! ### Fences (R376, R377) -/

def fenceMask (d : Desc) : Nat := bf d 16 3 0

/-- FENCE's own checks: RANGE for an empty mask, TOO_FAR for a time beyond 2,147,483,647 ns (R377, R394). [DEDUCED, log 128] -/
def ownFence (d : Desc) (s : State) : Status :=
  if fenceMask d = 0 then .range
  else if bit (fenceMask d) 3 ∧ tbNs (bf d 16 6 4) s + 2147483647 < bf d 24 63 0 then .tooFar
  else .ok

/-- The host indices that F_FUNC waits for, by command ring. Of its own ring the fence waits for nothing behind it. [DEDUCED, log 128] -/
def fenceHeads (f rg : Nat) (s : State) : List (Nat × Nat) :=
  ((List.range 64).filter (fun r => (ring f r s).en && r != rg)).map (fun r => (r, (ring f r s).host))

/-- Serves a FENCE descriptor: F_FUNC rereads the doorbell page, and a fence too far ahead stops its ring (R376, R377). [DEDUCED, log 128] -/
def serveFence (d : Desc) (words : List (Fin 193 × BitVec 64)) (s : State) : State :=
  let f := d.func.val; let m := fenceMask d; let b := bf d 16 6 4; let t := bf d 24 63 0
  serve { op := 0x02, fields := [(16, 6, 0), (24, 63, 0)], wait := .fence m [] b t } d (ownFence d)
    (fun src s =>
      let s1 := if bit m 1 then takeWords f (words.filter (fun w => decide (w.1.val < 64))) s else s
      let up := if bit m 1 then fenceHeads f d.ring s1 else []
      fences (setJrnl (fun j => { j with inflight := j.inflight.map (fun p =>
        if p.src.jseq = src.jseq then { p with wait := .fence m up b t } else p) }) s1)) s
    (fun st s => if st = .tooFar then stopRing f d.ring .tooFar s else s)

/-- FENCE_EXEC (R376): a FENCE with F_EXEC, or with an empty mask. [DEDUCED, log 128] -/
def execFenceExec (d : Desc) (words : List (Fin 193 × BitVec 64)) (s : State) : Host.Outcome State Fault Refusal :=
  if bit (fenceMask d) 0 ∨ fenceMask d = 0 then .next (serveFence d words s) else .next s

/-- FENCE_FUNC (R376): a FENCE with F_FUNC; `words` is what the doorbell page holds when it is accepted. -/
def execFenceFunc (d : Desc) (words : List (Fin 193 × BitVec 64)) (s : State) : Host.Outcome State Fault Refusal :=
  if bit (fenceMask d) 1 then .next (serveFence d words s) else .next s

/-- FENCE_DATA (R376): a FENCE with F_DATA; the data writes begun before it are outside as soon as they are made. -/
def execFenceData (d : Desc) (words : List (Fin 193 × BitVec 64)) (s : State) : Host.Outcome State Fault Refusal :=
  if bit (fenceMask d) 2 then .next (serveFence d words s) else .next s

/-- FENCE_TIME (R377): a FENCE with F_TIME. -/
def execFenceTime (d : Desc) (words : List (Fin 193 × BitVec 64)) (s : State) : Host.Outcome State Fault Refusal :=
  if bit (fenceMask d) 3 then .next (serveFence d words s) else .next s

/-- FENCE_TIME_REACHED (R377): fences whose time has come, and nothing else holds, complete. -/
def execFenceTimeReached (s : State) : Host.Outcome State Fault Refusal := .next (fences s)

/-! ### STATS_SNAP and COUNTER_READ (R396) -/

/-- The 64-bit counters of a block, by the offset of their _LO half, in offset order. -/
def snapBlock (b : Nat) : List Nat :=
  let perQ (n : Nat) (a : Nat → Nat → Nat) : List Nat := ((List.range 4).map (fun q => (List.range n).map (a q))).flatten
  match b with
  | 0 => ((List.range 128).map (fun p =>
      (List.range 16).map (portCnt p) ++ (List.range 15).map (fun c => chkCnt p (c + 1)))).flatten
  | 1 => perQ 416 (fun q i => engBase q (i / 8) + 0x200 + 8 * (i % 8))
  | 2 => perQ 8 qcuCnt
  | 3 => (List.range 16).map ccuCnt ++ ((List.range 64).map (fun c => (List.range 8).map (condCnt c))).flatten
  | 4 => (List.range 21).map sysCnt
  | 5 => perQ 16 histCnt
  | 6 => perQ 18 evbCnt
  | _ => ((List.range 8).map (fun n => (List.range 3).map (fun i => trigInBase n + 0x18 + 8 * i))).flatten
      ++ ((List.range 8).map (fun k => (List.range 2).map (fun i => trigBase + 0x410 + 0x20 * k + 8 * i))).flatten

/-- The counters of the selected blocks. [DEDUCED, log 130] -/
def snapAddrs (blocks : Nat) : List Nat :=
  ((List.range 8).map (fun b => if bit blocks b then snapBlock b else [])).flatten

/-- The bytes of a snapshot: its header, with TB0 at the first and at the last counter read, and the counters. [DEDUCED, log 130] -/
def snapBytes (blocks span : Nat) (s : State) : List Nat :=
  let l := snapAddrs blocks
  leBytes 8 (tbNs 0 s) ++ leBytes 8 (tbNs 0 s + span) ++ leBytes 4 blocks ++ leBytes 4 (64 + 8 * l.length) ++ leBytes 40 0
    ++ (l.map (fun a => leBytes 8 (cnt a s))).flatten

/-- STATS_SNAP (R394, R396); `span` is the time between the first and the last counter read, ns, at most 100 µs. [DEDUCED, log 130] -/
def execStatsSnap (d : Desc) (span : Fin 100001) (s : State) : Host.Outcome State Fault Refusal :=
  let blocks := bf d 16 7 0; let n := 64 + 8 * (snapAddrs blocks).length
  .next (serve { op := 0x04, fields := [(16, 7, 0), (24, 31, 0), (32, 63, 0)] } d
    (fun _ => if bf d 24 31 0 < n ∨ bf d 32 5 0 ≠ 0 then .range else .ok)
    (fun src s => complete src .ok n (emit (.hostWrite d.func (bf d 32 63 0) (snapBytes blocks span s)) s)) s)

/-- The 16 counters of a stream. [DEDUCED, log 131] -/
def streamCounters (x : Stream) : List Nat :=
  [x.framesTaken, x.batches, x.gated, x.silences, x.shed] ++ (List.range 8).map (fun i => mget 0 x.skipped i) ++ [0, 0, 0]

/-- The 16 counters of a function. [DEDUCED, log 131] -/
def fnCounters (f : Nat) (s : State) : List Nat := (List.range 8).map (fun i => cnt (fnCnt f i) s) ++ List.replicate 8 0

/-- COUNTER_READ's generic checks: kinds from 2 on are reserved. [DEDUCED, log 131] -/
def specCounterRead (d : Desc) : CmdSpec :=
  { op := 0x05, fields := [(16, 31, 28), (16, 19, 0), (32, 63, 0)], badEnc := decide (2 ≤ bf d 16 31 28) }

/-- COUNTER_READ_STREAM (R394, R396): COUNTER_READ of kind 0, or of a reserved kind. -/
def execCounterReadStream (d : Desc) (s : State) : Host.Outcome State Fault Refusal :=
  let id := bf d 16 19 0
  if bf d 16 31 28 = 1 then .next s
  else .next (serve (specCounterRead d) d
    (fun s => if bf d 32 5 0 ≠ 0 ∨ (streamAny id s).isNone then .range
      else if d.func.val ≠ 0 ∧ ownerOf ⟨2, id⟩ s ≠ some d.func.val then .notOwner
      else .ok)
    (fun src s =>
      let l := match streamAny id s with
        | some k => match stream k s with
          | some x => streamCounters x
          | none => []
        | none => []
      complete src .ok 0 (emit (.hostWrite d.func (bf d 32 63 0) ((l.map (leBytes 8)).flatten)) s)) s)

/-- COUNTER_READ_FUNCTION (R394, R396): COUNTER_READ of kind 1. [DEDUCED, log 131] -/
def execCounterReadFunction (d : Desc) (s : State) : Host.Outcome State Fault Refusal :=
  let id := bf d 16 19 0
  if bf d 16 31 28 = 1 then
    .next (serve (specCounterRead d) d
      (fun _ => if bf d 32 5 0 ≠ 0 ∨ 8 ≤ id then .range
        else if d.func.val ≠ 0 ∧ id ≠ d.func.val then .notOwner
        else .ok)
      (fun src s => complete src .ok 0
        (emit (.hostWrite d.func (bf d 32 63 0) (((fnCounters id s).map (leBytes 8)).flatten)) s)) s)
  else .next s

end Sys2Proof.Machine
end

