-- ==== Sys2Proof/Machine/MRows.lean ====
section
/-! DEFINITION. The M-string operations as commands: one chord boundary of a physical engine slot whose next chord holds the
operation (R174, R198). -/

namespace Sys2Proof.Machine

/-- R225, M.DUP. -/
def execMDup (q : Fin 4) (k : Fin 52) (s : State) : Host.Outcome State Fault Refusal :=
  .next (chordRow 3 0x0 0x0 q k s)

/-- R225, M.DROP. -/
def execMDrop (q : Fin 4) (k : Fin 52) (s : State) : Host.Outcome State Fault Refusal :=
  .next (chordRow 3 0x1 0x1 q k s)

/-- R225, M.SWAP. -/
def execMSwap (q : Fin 4) (k : Fin 52) (s : State) : Host.Outcome State Fault Refusal :=
  .next (chordRow 3 0x2 0x2 q k s)

/-- R225, M.OVER. -/
def execMOver (q : Fin 4) (k : Fin 52) (s : State) : Host.Outcome State Fault Refusal :=
  .next (chordRow 3 0x3 0x3 q k s)

/-- R225, M.FROMS. -/
def execMFroms (q : Fin 4) (k : Fin 52) (s : State) : Host.Outcome State Fault Refusal :=
  .next (chordRow 3 0x100 0x100 q k s)

/-- R225, M.INC. -/
def execMInc (q : Fin 4) (k : Fin 52) (s : State) : Host.Outcome State Fault Refusal :=
  .next (chordRow 3 0x110 0x11F q k s)

/-- R225, M.DEC. -/
def execMDec (q : Fin 4) (k : Fin 52) (s : State) : Host.Outcome State Fault Refusal :=
  .next (chordRow 3 0x120 0x12F q k s)

/-- R225, M.ADV. -/
def execMAdv (q : Fin 4) (k : Fin 52) (s : State) : Host.Outcome State Fault Refusal :=
  .next (chordRow 3 0x130 0x130 q k s)

/-- R228, M.TAKE. -/
def execMTake (q : Fin 4) (k : Fin 52) (s : State) : Host.Outcome State Fault Refusal :=
  .next (chordRow 3 0x200 0x200 q k s)

/-- R228, M.TAKEANY. -/
def execMTakeany (q : Fin 4) (k : Fin 52) (s : State) : Host.Outcome State Fault Refusal :=
  .next (chordRow 3 0x201 0x201 q k s)

/-- R228, M.DONE. -/
def execMDone (q : Fin 4) (k : Fin 52) (s : State) : Host.Outcome State Fault Refusal :=
  .next (chordRow 3 0x202 0x202 q k s)

/-- R225, M.STRM. -/
def execMStrm (q : Fin 4) (k : Fin 52) (s : State) : Host.Outcome State Fault Refusal :=
  .next (chordRow 3 0x203 0x203 q k s)

/-- R230, M.HDR. -/
def execMHdr (q : Fin 4) (k : Fin 52) (s : State) : Host.Outcome State Fault Refusal :=
  .next (chordRow 3 0x204 0x204 q k s)

/-- R229, M.ALLOC. -/
def execMAlloc (q : Fin 4) (k : Fin 52) (s : State) : Host.Outcome State Fault Refusal :=
  .next (chordRow 3 0x300 0x300 q k s)

/-- R229, M.FREE. -/
def execMFree (q : Fin 4) (k : Fin 52) (s : State) : Host.Outcome State Fault Refusal :=
  .next (chordRow 3 0x301 0x301 q k s)

/-- R229, M.GIVE. -/
def execMGive (q : Fin 4) (k : Fin 52) (s : State) : Host.Outcome State Fault Refusal :=
  .next (chordRow 3 0x302 0x302 q k s)

/-- R231, M.SEND. -/
def execMSend (q : Fin 4) (k : Fin 52) (s : State) : Host.Outcome State Fault Refusal :=
  .next (chordRow 3 0x400 0x400 q k s)

/-- R231, M.RECV. -/
def execMRecv (q : Fin 4) (k : Fin 52) (s : State) : Host.Outcome State Fault Refusal :=
  .next (chordRow 3 0x401 0x401 q k s)

/-- R232, M.TP. -/
def execMTp (q : Fin 4) (k : Fin 52) (s : State) : Host.Outcome State Fault Refusal :=
  .next (chordRow 3 0x500 0x500 q k s)

/-- R232, M.EMIT. -/
def execMEmit (q : Fin 4) (k : Fin 52) (s : State) : Host.Outcome State Fault Refusal :=
  .next (chordRow 3 0x501 0x501 q k s)

/-- R184, M.FENCE. -/
def execMFence (q : Fin 4) (k : Fin 52) (s : State) : Host.Outcome State Fault Refusal :=
  .next (chordRow 3 0x600 0x600 q k s)

/-- R237, M.GATHER. -/
def execMGather (q : Fin 4) (k : Fin 52) (s : State) : Host.Outcome State Fault Refusal :=
  .next (chordRow 3 0x700 0x700 q k s)

/-- R237, M.SCATTER. -/
def execMScatter (q : Fin 4) (k : Fin 52) (s : State) : Host.Outcome State Fault Refusal :=
  .next (chordRow 3 0x701 0x701 q k s)

/-- R238, M.HCOPY. -/
def execMHcopy (q : Fin 4) (k : Fin 52) (s : State) : Host.Outcome State Fault Refusal :=
  .next (chordRow 3 0x702 0x702 q k s)

end Sys2Proof.Machine
end

