-- ==== Sys2Proof/Machine/ModeCmds.lean ====
section
/-! DEFINITION. The meanings of the mode commands and events (02_operating_modes.md). -/

namespace Sys2Proof.Machine

/-- MODE_SET's generic checks (R384, R389); targets 6 and 7 are reserved (R57). -/
def specModeSet (d : Desc) : CmdSpec :=
  { op := 0x60, group := some 5, objs := [⟨10, 0⟩], fields := [(16, 2, 0)], badEnc := decide (6 ≤ bf d 16 2 0), wait := .modeSet }

/-- MODE_SET (R54, R57): a transition to the target begins; the command completes with it. -/
def execModeSet (d : Desc) (s : State) : Host.Outcome State Fault Refusal :=
  .next (serve (specModeSet d) d (modeCheck (bf d 16 2 0)) (fun src s => modeRequest (bf d 16 2 0) src s) s)

/-- MODE_TRANSITION_DONE (R42): the transition's last step, once its drain is over and no castling stands between freeze and resume. [DEDUCED, log 91] -/
def execModeTransitionDone (s : State) : Host.Outcome State Fault Refusal :=
  match s.mode.transit with
  | none => .next s
  | some t =>
    if (t.drain.isSome ∧ drainPending s) ∨ castleBlocks s ∨ s.mode.coreFail then .next s
    else .next (modeEnd t s)

/-- SAFE_ENTRY_THERMAL (R51): the hottest sensor has been above therm_warn for persist_ms. -/
def execSafeEntryThermal (s : State) : Host.Outcome State Fault Refusal :=
  match s.mode.hotSince with
  | some k =>
    if passed k (msTicks (rfld 0x2030 31 16 s)) s ∧ s.mode.current ≠ .bringup then
      .next (safeEnter (setMode (fun m => { m with cause := { m.cause with therm := true } }) s))
    else .next s
  | none => .next s

/-- SAFE_ENTRY_SUPPLY (R51): a monitored rail has been outside its window for 100 µs, or, with `outside` false, every rail is back in its
window, so that the cause can be cleared (R52). `core` tells that the rail is VCOREC and has failed: the central block stands still until
it is back (R20). [DEDUCED, log 141] -/
def execSafeEntrySupply (e : SupplyEvent) (s : State) : Host.Outcome State Fault Refusal :=
  if ! e.outside then .next (setMode (fun m => { m with railSince := none, coreFail := false }) s)
  else if s.mode.current = .bringup then .next s
  else .next (safeEnter (setMode (fun m => { m with
    railSince := some s.ticks, coreFail := m.coreFail || e.core, cause := { m.cause with supply := true } }) s))

/-- DRAIN_TIMEOUT (R58): drain_max expires; the builds that read HBM end their reads. -/
def execDrainTimeout (s : State) : Host.Outcome State Fault Refusal :=
  match s.mode.transit with
  | none => .next s
  | some t => match t.drain with
    | none => .next s
    | some k => if passed k (msTicks (rfld 0x2000 23 16 s)) s then .next (drainBuilds s) else .next s

/-- THERMAL_WARNING (R51, R518): the on-die sensors of Q0 to Q3 and the central block read so. Above therm_warn the attention cause becomes
pending and the persistence count starts; at or below it the count ends. [DEDUCED, log 93] -/
def execThermalWarning (temps : List Int) (s : State) : Host.Outcome State Fault Refusal :=
  let at5 (i : Nat) : Int := temps.getD i (mget 25 s.mode.sensors i)
  let hot := (List.range 5).foldl (fun h i => max h (at5 i)) (at5 0)
  let s1 := setMode (fun m => { m with
    hottest := hot, sensors := (List.range 5).foldl (fun f i => stPut 25 f i (at5 i)) m.sensors }) s
  if ((rfld 0x2030 7 0 s : Nat) : Int) < hot then
    .next (setMode (fun m => { m with hotSince := some (m.hotSince.getD s.ticks) })
      (if s.mode.hotSince.isNone ∧ centralUp s then attnRaise 1 s1 else s1))
  else .next (setMode (fun m => { m with hotSince := none }) s1)

end Sys2Proof.Machine
end

