-- ==== Sys2Proof/Machine/Pins.lean ====
section
/-! DEFINITION. What holds each pin of the block, from the assertion of a reset until its block configures it (R476, R479). -/

namespace Sys2Proof.Machine

/-- A pin that a block drives once a register's bit enables it. -/
def pinOn (on : Bool) (off : PinState) : PinState := if on then .driven else off

/-- What holds a pin now (R476, R479, R480). SPI0 is released while SYSRST_N is low, and until the boot ROM's step; CLKREQ_N is asserted from
the host interface's step. -/
def pinState (p : Pin) (s : State) : PinState :=
  match p with
  | .spi 0 => pinOn (s.rst.powered && ! s.rst.sysrstLow && ! domHeld 2 s) .pulledUp
  | .spi _ => pinOn (bit (reg (spiBase 1) s) 31) .pulledUp
  | .tw 0 => pinOn s.tw.awake .released
  | .tw _ => pinOn (bit (reg 0x43000 s) 31) .released
  | .tmr k => pinOn (bit (reg 0x44004 s) (8 + k.val)) .pulledUp
  | .wake => pinOn ((List.range 8).any (fun f => (fn f s).wake)) .released
  | .clkreq => pinOn (s.rst.powered && ! domHeld 11 s) .released
  | .ppsout => pinOn (bit (reg 0x12400 s) 31) .pulledUp
  | .trigout n => pinOn (bit (reg (trigOutBase n) s) 31) .zeroDiff
  | .refout m => pinOn (bit (reg (synBase m.val) s) 31) .zeroDiff
  | .serdes k => pinOn (portsUp (k.val / 32) s) .idle
  | .input => .pulledUp

/-- In BRINGUP every PCIe configuration request is answered with Configuration Request Retry Status (R45). No command carries such a request. -/
def configRetry (s : State) : Bool := decide (s.mode.current = .bringup)

end Sys2Proof.Machine
end

