-- ==== Sys2Proof/Machine/Ptp.lean ====
section
/-! DEFINITION. The meanings of the PTP events (04_time_bases.md R128–R138). -/

namespace Sys2Proof.Machine

/-- A PTP message of the types a command carries is taken by a port that runs PTP. One that came by another transport than the port's, or
over UDP from another address than the peer's, is dropped and counted (R130, R131); one of another domain or sdoId is not for this
port (R129). [PRESUMED, log 15] -/
def ptpTaken (p : Nat) (types : List PtpType) (m : PtpMsg) (from_ : PtpFrom) (f : State → State) (s : State) : State :=
  if ! ptpRuns p s ∨ ! types.contains m.type then s
  else if from_.transport.val ≠ ptpTransport p s ∨ (from_.transport ≠ 0 ∧ from_.addr.toNat ≠ ptpPeer p s) then ptpUnsupported p s
  else if m.domain ≠ ptpDomain (ptpTb p s) s ∨ m.sdo ≠ ptpSdo (ptpTb p s) s then s
  else f s

/-- The receive stamp of an event message on a port, in pips (R139). -/
def ptpNow (p : Nat) (err : Int) (s : State) : Int := (tbPips (ptpTb p s) s : Int) + err

/-- A message from the transmitter that a receiving port follows (R129, R134). [PRESUMED, log 15] -/
def fromParent (m : PtpMsg) (x : PtpSt) : Bool :=
  decide (x.state = .receiver ∨ x.state = .uncalibrated) && decide (x.parent = 0 ∨ m.sender = x.parent)

/-- PTP_SYNC_RECEIVE (R134): a one-step Sync gives an offset at once; a two-step one waits for its Follow_Up. -/
def execPtpSyncReceive (p : Fin 128) (m : PtpMsg) (err : Int) (from_ : PtpFrom) (s : State) : Host.Outcome State Fault Refusal :=
  .next (ptpTaken p [.sync] m from_ (fun s =>
    if fromParent m (ptp p s) then
      let t2 := ptpNow p err s
      if m.twoStep then setPtp p (fun x => { x with sync := some (m.seq, t2, m.corr, s.ticks) }) s
      else ptpSteer p (ptpStamp m) t2 m.corr s.ticks (setPtp p (fun x => { x with t1 := ptpStamp m + m.corr, t2 := t2 }) s)
    else s) s)

/-- PTP_FOLLOW_UP_RECEIVE (R134): the origin time of the Sync that waits. -/
def execPtpFollowUpReceive (p : Fin 128) (m : PtpMsg) (from_ : PtpFrom) (s : State) : Host.Outcome State Fault Refusal :=
  .next (ptpTaken p [.followUp] m from_ (fun s =>
    match (ptp p s).sync with
    | some (q, t2, c, k) =>
      if q = m.seq ∧ fromParent m (ptp p s) then
        ptpSteer p (ptpStamp m) t2 (c + m.corr) k
          (setPtp p (fun x => { x with sync := none, t1 := ptpStamp m + c + m.corr, t2 := t2 }) s)
      else s
    | none => s) s)

/-- PTP_DELAY_REQ_RECEIVE (R133): a transmitter answers with Delay_Resp carrying the receive stamp. -/
def execPtpDelayReqReceive (p : Fin 128) (m : PtpMsg) (err : Int) (from_ : PtpFrom) (s : State) : Host.Outcome State Fault Refusal :=
  .next (ptpTaken p [.delayReq] m from_ (fun s =>
    if (ptp p s).state = .transmitter ∧ ! ptpP2p p s then
      ptpQueue p (ptpStamped { ptpOwn p .delayResp m.seq s with req := m.sender, corr := m.corr } (ptpNow p err s) true) s
    else s) s)

/-- PTP_DELAY_RESP_RECEIVE (R134): the mean path delay sample of the request it answers. -/
def execPtpDelayRespReceive (p : Fin 128) (m : PtpMsg) (from_ : PtpFrom) (s : State) : Host.Outcome State Fault Refusal :=
  .next (ptpTaken p [.delayResp] m from_ (fun s =>
    match (ptp p s).req with
    | some (q, t3) =>
      let x := ptp p s
      if q = m.seq ∧ m.req = ptpSelf p ∧ fromParent m x ∧ ! ptpP2p p s then
        ptpDelaySample p (divOpen ((x.t2 - x.t1) + (ptpStamp m - m.corr - t3)) 2) (setPtp p (fun x => { x with req := none }) s)
      else s
    | none => s) s)

/-- PTP_PDELAY_REQ_RECEIVE (R133): every P2P port answers a peer delay request. One step puts the turnaround into the answer's correction;
two steps carry the receipt stamp now and the departure, with the request's correction, in the Pdelay_Resp_Follow_Up. -/
def execPtpPdelayReqReceive (p : Fin 128) (m : PtpMsg) (err : Int) (from_ : PtpFrom) (s : State) : Host.Outcome State Fault Refusal :=
  .next (ptpTaken p [.pdelayReq] m from_ (fun s =>
    if ptpP2p p s then
      let two := ptpTwoStep p s
      ptpQueue p (ptpStamped
        { ptpOwn p .pdelayResp m.seq s with req := m.sender, twoStep := two, corr := if two then 0 else m.corr, carry := m.corr }
        (ptpNow p err s) true) s
    else s) s)

/-- PTP_PDELAY_RESP_RECEIVE (R134): the answer to the request that waits. A one-step answer carries the responder's turnaround in its
correction and gives the path delay sample; a two-step one gives it with its Pdelay_Resp_Follow_Up, which comes by the same command. -/
def execPtpPdelayRespReceive (p : Fin 128) (m : PtpMsg) (err : Int) (from_ : PtpFrom) (s : State) : Host.Outcome State Fault Refusal :=
  .next (ptpTaken p [.pdelayResp, .pdelayRespFollowUp] m from_ (fun s =>
    match (ptp p s).req with
    | none => s
    | some (q, t1) =>
      if q ≠ m.seq ∨ m.req ≠ ptpSelf p ∨ ! ptpP2p p s then s
      else if m.type = .pdelayResp ∧ m.twoStep then
        setPtp p (fun x => { x with presp := some (q, ptpNow p err s, ptpStamp m, m.corr) }) s
      else if m.type = .pdelayResp then
        ptpDelaySample p (divOpen (ptpNow p err s - t1 - m.corr) 2) (setPtp p (fun x => { x with req := none, presp := none }) s)
      else match (ptp p s).presp with
        | some (k, t4, t2, c) =>
          if k = q then
            ptpDelaySample p (divOpen (t4 - t1 - (ptpStamp m - t2) - c - m.corr) 2)
              (setPtp p (fun x => { x with req := none, presp := none }) s)
          else s
        | none => s) s)

/-- The foreign masters of a port with one Announce more (R129). [PRESUMED, log 15] -/
def foreignPut (a : Announce) (now : Nat) : List Foreign → List Foreign
  | [] => [⟨a, now, none⟩]
  | f :: l => if f.ann.sender = a.sender then ⟨a, now, some f.last⟩ :: l else f :: foreignPut a now l

/-- PTP_ANNOUNCE_RECEIVE (R128, R129, R135): one with a path trace or alternate timescale TLV is not supported; the device's own is passed
over. The data set is held, the time base's ports are decided again, and the transmitter that a receiving port follows gives the
UTC offset. -/
def execPtpAnnounceReceive (p : Fin 128) (m : PtpMsg) (from_ : PtpFrom) (s : State) : Host.Outcome State Fault Refusal :=
  .next (ptpTaken p [.announce] m from_ (fun s =>
    match m.ann with
    | none => s
    | some d =>
      let a : Announce := { d with sender := m.sender }
      let n := ptpTb p s
      if a.tlvs.any (fun t => decide (t = 8 ∨ t = 9)) then ptpUnsupported p s
      else if m.sender / 65536 = Config.clockIdentity.toNat then s
      else
        let s1 := ptpDecide n none (setPtp p (fun x => { x with foreign := foreignPut a s.ticks x.foreign }) s)
        if fromParent m (ptp p s1) then takeUtc n a s1 else s1) s)

/-- PTP_ANNOUNCE_TIMEOUT (R129): a foreign master is silent for three intervals, or a listening port has heard none for as long; the states
are decided again. [PRESUMED, log 15] -/
def execPtpAnnounceTimeout (p : Fin 128) (s : State) : Host.Outcome State Fault Refusal :=
  let late (k : Nat) : Bool := passed k (3 * announceTicks p s) s
  let x := ptp p s
  .next (if ! ptpRuns p s then s
  else if x.foreign.any (fun f => late f.last) ∨ (x.foreign = [] ∧ x.state = .listening ∧ late x.preAt) then
    ptpDecide (ptpTb p s) (some p) (setPtp p (fun x => { x with foreign := x.foreign.filter (fun f => ! late f.last) }) s)
  else s)

/-- An interval since a message was last originated is over, or none was. -/
def ptpDue (last k : Nat) (s : State) : Bool := decide (last = 0) || passed last k s

/-- PTP_SYNC_INTERVAL (R133): a transmitter originates a Sync every 2^log_sync s. [DESIGN CHOICE, log 19] -/
def execPtpSyncInterval (p : Fin 128) (s : State) : Host.Outcome State Fault Refusal :=
  let x := ptp p s
  .next (if x.state = .transmitter ∧ (port p s).linkUp ∧ ptpDue x.syncAt (syncTicks p s) s then
    ptpQueue p { ptpOwn p .sync x.seqSync s with twoStep := ptpTwoStep p s }
      (setPtp p (fun x => { x with seqSync := (x.seqSync + 1) % 65536, syncAt := s.ticks }) s)
  else s)

/-- The Announce a port sends: the data set of the transmitter that its time base's receiver port follows, one step further, or the
device's own (R129, R135). -/
def announceOut (p : Nat) (s : State) : Announce :=
  let n := ptpTb p s
  let a := match (receiverPort n s).bind (fun r => parentOf r s) with
    | some b => { b with stepsRemoved := b.stepsRemoved + 1 }
    | none => ownAnnounce n s
  { a with sender := ptpSelf p, tlvs := [] }

/-- PTP_ANNOUNCE_INTERVAL (R133, R137): a transmitter originates an Announce every 2^log_announce s; a port in PRE_TIME_TRANSMITTER becomes a
transmitter when its qualification is over, one interval more than the steps to the grandmaster. [PRESUMED, log 15; DESIGN CHOICE, log 19] -/
def execPtpAnnounceInterval (p : Fin 128) (s : State) : Host.Outcome State Fault Refusal :=
  let x := ptp p s
  let a := announceOut p s
  let go : Bool := match x.state with
    | .transmitter => ptpDue x.annAt (announceTicks p s) s
    | .preTransmitter => passed x.preAt ((a.stepsRemoved + 1) * announceTicks p s) s
    | _ => false
  .next (if go ∧ (port p s).linkUp then
    ptpQueue p { ptpOwn p .announce x.seqAnnounce s with ann := some a }
      (setPtp p (fun x => { x with seqAnnounce := (x.seqAnnounce + 1) % 65536, state := .transmitter, annAt := s.ticks }) s)
  else s)

/-- PTP_DELAY_REQ_INTERVAL (R133, R134): every 2^log_delay s a receiving E2E port sends Delay_Req, a P2P port Pdelay_Req. -/
def execPtpDelayReqInterval (p : Fin 128) (s : State) : Host.Outcome State Fault Refusal :=
  let x := ptp p s
  let go : Bool := if ptpP2p p s then decide (ptpRole p s ≠ 0) else decide (x.state = .receiver ∨ x.state = .uncalibrated)
  .next (if go ∧ (port p s).linkUp ∧ ptpDue x.delayAt (delayTicks p s) s then
    ptpQueue p (ptpOwn p (if ptpP2p p s then .pdelayReq else .delayReq) x.seqDelay s)
      (setPtp p (fun x => { x with seqDelay := (x.seqDelay + 1) % 65536, delayAt := s.ticks }) s)
  else s)

/-- PTP_FOLLOW_UP_SEND (R133): the oldest transmit stamp goes into its Follow_Up or Pdelay_Resp_Follow_Up and its entry is
freed. -/
def execPtpFollowUpSend (p : Fin 128) (s : State) : Host.Outcome State Fault Refusal :=
  match (ptp p s).stamps with
  | [] => .next s
  | (m, t) :: r =>
    .next (ptpQueue p (ptpStamped
        { ptpOwn p (if m.type = .sync then .followUp else .pdelayRespFollowUp) m.seq s with req := m.req, corr := m.carry } t false)
      (setPtp p (fun x => { x with stamps := r }) s))

end Sys2Proof.Machine
end

