-- ==== Sys2Proof/Machine/RegCmds.lean ====
section
/-! DEFINITION. The meanings of register reads and writes, with and without a row of their own (19_register_map.md and the chapters' register
tables). -/

namespace Sys2Proof.Machine

/-! ### Any register (R540–R548) -/

/-- The write of a pair's _LO half, alone or with its _HI half. -/
def loShape (hi : Option Word) (lo : Word) : WriteShape :=
  match hi with
  | some h => .pair lo h
  | none => fullDw lo

/-- REGISTER_WRITE (R546): a write request by a requester at an offset of BAR0, or of BAR2; `bus` is what TW1's transactions meet, where the
write starts some. -/
def execRegisterWrite (who : Requester) (bar2 : Bool) (ofs : BitVec 24) (shape : WriteShape) (bus : List TwTry) (s : State) :
    Host.Outcome State Fault Refusal :=
  .next (regWrite who bar2 (ofs.toNat / 4 * 4) shape bus s)

/-- LO_READ_LATCH (R545): a read request of n DWs at an offset of BAR0 or BAR2, as one-DW reads in ascending order (R544). A request that
names a part of a DW reads the whole. -/
def execLoReadLatch (who : Requester) (bar2 : Bool) (ofs : BitVec 24) (n : Fin 1025) (s : State) : Host.Outcome State Fault Refusal :=
  match who with
  | .fn f => .next (if hostUp f s then readRun who bar2 n (ofs.toNat / 4 * 4) s else emit (.ur f) s)
  | _ => .next (if bar2 then s else readRun who false n (ofs.toNat / 4 * 4) s)

/-- JTAG_REGACC (R540): one 32-bit write, or one read whose value is shifted out. -/
def execJtagRegacc (ofs : BitVec 24) (value : Option Word) (s : State) : Host.Outcome State Fault Refusal :=
  let o := ofs.toNat / 4 * 4
  match value with
  | some v => .next (regWrite .regacc false o (fullDw v) [] s)
  | none =>
    let (v, s1) := readDw .regacc false o s
    .next (emit (.regacc (BitVec.ofNat 32 v)) s1)

/-- SETUP_FAULT_CLEAR (R548): a write of GLB_SETUP_FAULT; a one clears valid or overrun. -/
def execSetupFaultClear (who : Requester) (value : Word) (s : State) : Host.Outcome State Fault Refusal :=
  .next (writeAt who 0x20 (fullDw value) [] s)

/-! ### Modes, ports, time -/

/-- SAFE_CAUSE_CLEAR (R52): a write of MODE_STATUS; refused while the condition of a cause it names still holds. -/
def execSafeCauseClear (who : Requester) (value : Word) (s : State) : Host.Outcome State Fault Refusal :=
  .next (writeAt who 0x2004 (fullDw value) [] s)

/-- CAP_REARM (R76): a write of a port's PORT_CAP_VALID. -/
def execCapRearm (who : Requester) (p : Fin 128) (value : Word) (s : State) : Host.Outcome State Fault Refusal :=
  .next (writeAt who (portBase p + 0x400) (fullDw value) [] s)

/-- SYN_COMMIT (R146): a write of SYNm_CTL with en 1. [DEDUCED, log 116] -/
def execSynCommit (who : Requester) (m : Fin 4) (value : Word) (s : State) : Host.Outcome State Fault Refusal :=
  if bit value.toNat 31 then .next (writeAt who (synBase m) (fullDw value) [] s) else .next s

/-! ### Engine debug (R185, R186) -/

/-- ENG_DBG_CTL of a physical slot. -/
def dbgOf (q : Fin 4) (k : Fin 52) : Nat := dbgCtl (ekey q k)

/-- DEBUG_HALT (R185): a write of ENG_DBG_CTL that sets halt, without step. -/
def execDebugHalt (who : Requester) (q : Fin 4) (k : Fin 52) (value : Word) (s : State) : Host.Outcome State Fault Refusal :=
  if bit value.toNat 31 ∧ ! bit value.toNat 30 then .next (writeAt who (dbgOf q k) (fullDw value) [] s) else .next s

/-- DEBUG_RESUME (R185): a write of ENG_DBG_CTL with halt 0. -/
def execDebugResume (who : Requester) (q : Fin 4) (k : Fin 52) (value : Word) (s : State) : Host.Outcome State Fault Refusal :=
  if bit value.toNat 31 then .next s else .next (writeAt who (dbgOf q k) (fullDw value) [] s)

/-- DEBUG_STEP (R185): a write of ENG_DBG_CTL with step 1 and halt kept. [DEDUCED, log 120] -/
def execDebugStep (who : Requester) (q : Fin 4) (k : Fin 52) (value : Word) (s : State) : Host.Outcome State Fault Refusal :=
  if bit value.toNat 31 ∧ bit value.toNat 30 then .next (writeAt who (dbgOf q k) (fullDw value) [] s) else .next s

/-- DEBUG_WRITE (R186): a write of ENG_DBG_DATA_LO, alone or with its _HI half. -/
def execDebugWrite (who : Requester) (q : Fin 4) (k : Fin 52) (hi : Option Word) (lo : Word) (s : State) :
    Host.Outcome State Fault Refusal :=
  .next (writeAt who (engBase q k + 0x24) (loShape hi lo) [] s)

/-! ### Triggering, events -/

/-- TRIGIN_FIFO_POP (R265): a read of TRIG_IN_FIFOn_LO, then of its latched parts. -/
def execTriginFifoPop (who : Requester) (n : Fin 8) (s : State) : Host.Outcome State Fault Refusal :=
  match ofsFor who (trigInBase n + 0x0C) with
  | some o => .next (if reaches who s then readRun who false 3 o s else s)
  | none => .next s

/-- TRIGIN_FIFO_FLUSH (R538): a write of TRIG_IN_CTLn with flush 1. [DEDUCED, log 121] -/
def execTriginFifoFlush (who : Requester) (n : Fin 8) (value : Word) (s : State) : Host.Outcome State Fault Refusal :=
  if bit value.toNat 22 then .next (writeAt who (trigInBase n) (fullDw value) [] s) else .next s

/-- TRIG_FAST_APPLY (R274): the changes of the fast path that may take effect now do. -/
def execTrigFastApply (s : State) : Host.Outcome State Fault Refusal := .next (runChanges s)

/-- LATE_CAP_REARM (R246): a write of QCU_STATUS; a one at late_cap re-arms the capture. -/
def execLateCapRearm (who : Requester) (q : Fin 4) (value : Word) (s : State) : Host.Outcome State Fault Refusal :=
  .next (writeAt who (qcuBase q + 0x60) (fullDw value) [] s)

/-- BUF_FAULT_REARM (R321): a write of EVB_BUF_FAULT_VALID. -/
def execBufFaultRearm (who : Requester) (q : Fin 4) (value : Word) (s : State) : Host.Outcome State Fault Refusal :=
  .next (writeAt who (evbBase q + 0x1C) (fullDw value) [] s)

/-! ### Rings (R354, R371) -/

/-- RING_ENABLE (R354): a write of RING_CTL with en 1 while the ring is disabled. -/
def execRingEnable (who : Requester) (f : Fin 8) (slot : Fin 193) (value : Word) (s : State) : Host.Outcome State Fault Refusal :=
  if bit value.toNat 31 ∧ ! (ring f slot s).en then .next (writeAt who (ringBase f slot + 8) (fullDw value) [] s) else .next s

/-- RING_DISABLE (R354): a write of RING_CTL with en 0. -/
def execRingDisable (who : Requester) (f : Fin 8) (slot : Fin 193) (value : Word) (s : State) : Host.Outcome State Fault Refusal :=
  if bit value.toNat 31 then .next s else .next (writeAt who (ringBase f slot + 8) (fullDw value) [] s)

/-- RING_RESUME (R354, R357): a write of RING_CTL with resume 1 while the ring is enabled; a stopped ring is judged by the host index that the
doorbell page holds. [DEDUCED, log 110] -/
def execRingResume (who : Requester) (f : Fin 8) (slot : Fin 193) (x : Resume) (s : State) : Host.Outcome State Fault Refusal :=
  let seen (s : State) : State :=
    if (ring f slot s).stopped.isSome then setRing f slot (fun r => { r with seen := some x.word.toNat }) s else s
  if bit x.value.toNat 31 ∧ bit x.value.toNat 30 ∧ (ring f slot s).en then
    .next (writeAt who (ringBase f slot + 8) (fullDw x.value) [] (seen s))
  else .next s

/-- MSIX_UNMASK (R371): the function clears the mask of one of its vectors; a pending message is sent. -/
def execMsixUnmask (f : Fin 8) (v : Fin 256) (s : State) : Host.Outcome State Fault Refusal :=
  .next (writeAt (.fn f) (msixBase f + 16 * v + 12) (fullDw 0) [] s)

/-! ### Pace, reset -/

/-- PACE_ENABLE (R419): a write of PACE_CTL with en 1; `bus` is what the reads of VOUT_MODE meet. -/
def execPaceEnable (who : Requester) (value : Word) (bus : List TwTry) (s : State) : Host.Outcome State Fault Refusal :=
  if bit value.toNat 31 then .next (writeAt who 0x50000 (fullDw value) bus s) else .next s

/-- RAIL_SET (R421): a write of PACE_RAILr_SET. -/
def execRailSet (who : Requester) (r : Fin 5) (value : Word) (bus : List TwTry) (s : State) : Host.Outcome State Fault Refusal :=
  .next (writeAt who (railBase r + 8) (fullDw value) bus s)

/-- RST_SW_L1 (R463): a write of RST_SW with level 1. -/
def execRstSwL1 (who : Requester) (s : State) : Host.Outcome State Fault Refusal :=
  .next (writeAt who 0x1008 (fullDw 0x10000000) [] s)

/-- RST_SW_L2 (R463): a write of RST_SW with level 2. -/
def execRstSwL2 (who : Requester) (s : State) : Host.Outcome State Fault Refusal :=
  .next (writeAt who 0x1008 (fullDw 0x20000000) [] s)

/-- RST_SW_L3 (R463): a write of RST_SW with level 3 and a target; only 0 to 3 names a quadrant. -/
def execRstSwL3 (who : Requester) (target : BitVec 8) (s : State) : Host.Outcome State Fault Refusal :=
  .next (writeAt who 0x1008 (fullDw (BitVec.ofNat 32 (0x30000000 + target.toNat))) [] s)

/-- RST_SW_L4 (R463): a write of RST_SW with level 4 and a target; only 0 to 191 names a logical engine. -/
def execRstSwL4 (who : Requester) (target : BitVec 8) (s : State) : Host.Outcome State Fault Refusal :=
  .next (writeAt who 0x1008 (fullDw (BitVec.ofNat 32 (0x40000000 + target.toNat))) [] s)

/-! ### Serial ports as controllers (R486, R487, R538) -/

/-- SPI_TRANSFER (R487): a write of SPIn_CMD with go 1. [DESIGN CHOICE, log 70] -/
def execSpiTransfer (who : Requester) (n : Fin 2) (value : Word) (s : State) : Host.Outcome State Fault Refusal :=
  if bit value.toNat 31 then .next (writeAt who (spiBase n + 0x10) (fullDw value) [] s) else .next s

/-- SPI_TX_PUSH (R486): a write of SPIn_TX. -/
def execSpiTxPush (who : Requester) (n : Fin 2) (value : Word) (s : State) : Host.Outcome State Fault Refusal :=
  .next (writeAt who (spiBase n + 0x18) (fullDw value) [] s)

/-- SPI_RX_POP (R486): a read of SPIn_RX. -/
def execSpiRxPop (who : Requester) (n : Fin 2) (s : State) : Host.Outcome State Fault Refusal :=
  match ofsFor who (spiBase n + 0x1C) with
  | some o => .next (if reaches who s then readRun who false 1 o s else s)
  | none => .next s

/-- SPI_TX_FLUSH (R538): a write of SPIn_CTL with tx_flush 1. -/
def execSpiTxFlush (who : Requester) (n : Fin 2) (value : Word) (s : State) : Host.Outcome State Fault Refusal :=
  if bit value.toNat 25 then .next (writeAt who (spiBase n) (fullDw value) [] s) else .next s

/-- SPI_RX_FLUSH (R538): a write of SPIn_CTL with rx_flush 1. -/
def execSpiRxFlush (who : Requester) (n : Fin 2) (value : Word) (s : State) : Host.Outcome State Fault Refusal :=
  if bit value.toNat 26 then .next (writeAt who (spiBase n) (fullDw value) [] s) else .next s

/-- SPI_DISABLE (R487): a write of SPIn_CTL with en 0. -/
def execSpiDisable (who : Requester) (n : Fin 2) (value : Word) (s : State) : Host.Outcome State Fault Refusal :=
  if bit value.toNat 31 then .next s else .next (writeAt who (spiBase n) (fullDw value) [] s)

/-! ### Attention, timers -/

/-- ATTN_CAUSE_CLEAR (R518): a write of TW0_ATTN_CAUSE. -/
def execAttnCauseClear (who : Requester) (value : Word) (s : State) : Host.Outcome State Fault Refusal :=
  .next (writeAt who 0x42018 (fullDw value) [] s)

/-- TIMER_ENABLE (R529, R534): a write of TMRn_CTL with en 1 while the timer is off. -/
def execTimerEnable (who : Requester) (n : Fin 16) (value : Word) (s : State) : Host.Outcome State Fault Refusal :=
  if bit value.toNat 31 ∧ ! tmrEn n s then .next (writeAt who (tmrBase n) (fullDw value) [] s) else .next s

/-- TIMER_PIN_LEVEL (R531): a write of TMR_PIN. -/
def execTimerPinLevel (who : Requester) (value : Word) (s : State) : Host.Outcome State Fault Refusal :=
  .next (writeAt who 0x44004 (fullDw value) [] s)

/-- TIMER_RELOAD_COMMIT (R530): a write of TMRn_RELOAD_LO. -/
def execTimerReloadCommit (who : Requester) (n : Fin 16) (hi : Option Word) (lo : Word) (s : State) : Host.Outcome State Fault Refusal :=
  .next (writeAt who (tmrBase n + 8) (loShape hi lo) [] s)

/-- TIMER_CMP_COMMIT (R530): a write of TMRn_CMP_LO. -/
def execTimerCmpCommit (who : Requester) (n : Fin 16) (hi : Option Word) (lo : Word) (s : State) : Host.Outcome State Fault Refusal :=
  .next (writeAt who (tmrBase n + 0x10) (loShape hi lo) [] s)

end Sys2Proof.Machine
end

