-- ==== Sys2Proof/Machine/ResetCmds.lean ====
section
/-! DEFINITION. The meanings of the reset sources and of the bring-up's steps (15_reset_bringup.md). Software resets and TW0's are register
writes and management commands of their own. -/

namespace Sys2Proof.Machine

/-- POWER_ON_RESET (R464): VAON and VIO have been in range for 2 ms without a break, and power-on reset releases. -/
def execPowerOnReset (s : State) : Host.Outcome State Fault Refusal :=
  match s.rst.cur with
  | some c =>
    if c.hold = some .power then .next (endHold (setRst (fun r => { r with powered := true, cause := r.cause ||| 2 ^ c.cause }) s)) else .next s
  | none => .next s

/-- BROWN_OUT (R464): VAON has been below its brown-out level for 2 µs; the reset holds as power-on reset does. -/
def execBrownOut (s : State) : Host.Outcome State Fault Refusal :=
  if s.rst.powered then
    .next (resetRequest ⟨0, 0, 1, .power⟩ (setRst (fun r => { r with powered := false }) s))
  else .next s

/-- POWER_FAIL (R451, R464, R499): VIO falls out of its range and power-on reset asserts. -/
def execPowerFail (s : State) : Host.Outcome State Fault Refusal :=
  if s.rst.powered then
    .next (resetRequest ⟨0, 0, 0, .power⟩ (setRst (fun r => { r with powered := false }) s))
  else .next s

/-- Whether a low pulse of a number of microseconds asserts its reset (R465); between the two bounds it does one or the other. [DESIGN CHOICE, log 96] -/
def pulseAsserts (us : Nat) (s : State) : Bool × State :=
  if filterUs s ≤ us then (true, s)
  else if us + 1 < filterUs s then (false, s)
  else
    let (w, s1) := takeFree s
    (w.getLsbD 0, s1)

/-- A low pulse on a reset pin (R465): `low` tells that the pin is still low. The AON slow clock samples it once AON is released. [DEDUCED, log 95] -/
def pinLow (us : Nat) (r : ResetReq) (set_ : RstSt → RstSt) (s : State) : State :=
  if ! s.rst.powered then s
  else
    let (yes, s1) := pulseAsserts us s
    if yes then resetRequest r (setRst set_ s1) else bump (rstCnt 7) s1

/-- The pin has been high for filter_us: a hold of it ends (R465). [DEDUCED, log 95] -/
def pinHigh (us : Nat) (h : HoldBy) (clear : RstSt → RstSt) (s : State) : State :=
  if us < filterUs s then s
  else
    let s1 := setRst clear s
    match s1.rst.cur with
    | some c => if c.hold = some h then endHold s1 else s1
    | none => s1

/-- SYSRST_ASSERT (R465): SYSRST_N has been low for so many microseconds. -/
def execSysrstAssert (us : Nat) (s : State) : Host.Outcome State Fault Refusal :=
  .next (pinLow us ⟨sysrstLevel s, 0, 2, .sysrst⟩ (fun r => { r with sysrstLow := true }) s)

/-- SYSRST_RELEASE (R465): SYSRST_N has been high for so many microseconds. -/
def execSysrstRelease (us : Nat) (s : State) : Host.Outcome State Fault Refusal :=
  .next (pinHigh us .sysrst (fun r => { r with sysrstLow := false }) s)

/-- PERST_ASSERT (R465): PERST_N has been low for so many microseconds. -/
def execPerstAssert (us : Nat) (s : State) : Host.Outcome State Fault Refusal :=
  .next (pinLow us ⟨perstLevel s, 0, 3, .perst⟩ (fun r => { r with perstLow := true }) s)

/-- PERST_RELEASE (R465): PERST_N has been high for so many microseconds. -/
def execPerstRelease (us : Nat) (s : State) : Host.Outcome State Fault Refusal :=
  .next (pinHigh us .perst (fun r => { r with perstLow := false }) s)

/-- HOT_RESET (R347, R459): a PCIe hot reset, or a link-down the host did not cause by PERST_N. -/
def execHotReset (s : State) : Host.Outcome State Fault Refusal :=
  if s.rst.powered ∧ s.host.linkUp then .next (resetRequest ⟨mapLevel 2 3 false s, 0, 4, .minimum⟩ s) else .next s

/-- FLR (R351, R459, R466): Initiate Function Level Reset written for a function that answers configuration requests. -/
def execFlr (f : Fin 8) (s : State) : Host.Outcome State Fault Refusal :=
  if hostUp f s ∧ s.host.linkUp then .next (resetRequest ⟨2, f + 1, 5, .minimum⟩ s) else .next s

/-- The watchdog is paused during steward castling steps 3 to 5 (R462). [DEDUCED, log 97] -/
def wdogPaused (s : State) : Bool := s.repair.castles.any (fun c => decide (c.kind = 1 ∧ 3 ≤ c.step ∧ c.step ≤ 5))

/-- WATCHDOG_EXPIRE (R462): 1 s after its last restart. [DEDUCED, log 97] -/
def execWatchdogExpire (s : State) : Host.Outcome State Fault Refusal :=
  if s.rst.wdogOn ∧ ! wdogPaused s ∧ passed s.rst.wdogFrom (msTicks 1000) s then
    .next (resetRequest ⟨mapLevel 1 2 true s, 0, 6, .minimum⟩ s)
  else .next s

/-- THERMAL_TRIP (R461): the hottest sensor has read `temp` or more, at or above trip, for 100 µs without a break. [DEDUCED, log 93] -/
def execThermalTrip (temp : Int) (s : State) : Host.Outcome State Fault Refusal :=
  if s.rst.powered ∧ (Config.tripTemp : Int) ≤ temp then
    .next (resetRequest ⟨mapLevel 1 1 true s, 0, 7, .thermal⟩ (setMode (fun m => { m with hottest := temp }) s))
  else .next s

/-- THERMAL_TRIP_RELEASE (R461): the hottest sensor reads `temp`, at or below trip − 10 °C. [DEDUCED, log 93] -/
def execThermalTripRelease (temp : Int) (s : State) : Host.Outcome State Fault Refusal :=
  if temp ≤ (Config.tripTemp : Int) - 10 then
    let s1 := setMode (fun m => { m with hottest := temp }) s
    match s.rst.cur with
    | some c => if c.hold = some .thermal then .next (endHold s1) else .next s1
    | none => .next s1
  else .next s

/-- JTAG_DEVRST (R459): DEVRST has been shifted in and Update-IR passed. -/
def execJtagDevrst (s : State) : Host.Outcome State Fault Refusal :=
  if s.rst.powered then .next (resetRequest ⟨mapLevel 1 0 false s, 0, 8, .minimum⟩ s) else .next s

/-- BRINGUP_RELEASE_STEP (R465, R469–R478): the reset's 10 µs end, or the next domain is released. [DESIGN CHOICE, log 99] -/
def execBringupReleaseStep (sfdp : Option Sfdp) (bus : List TwTry) (s : State) : Host.Outcome State Fault Refusal :=
  .next (releaseStep sfdp bus s)

end Sys2Proof.Machine
end

