-- ==== Sys2Proof/Machine/SRows.lean ====
section
/-! DEFINITION. The S-string operations as commands: one chord boundary of a physical engine slot whose next chord holds the
operation (R174, R198). -/

namespace Sys2Proof.Machine

/-- R203, S.DUP. -/
def execSDup (q : Fin 4) (k : Fin 52) (s : State) : Host.Outcome State Fault Refusal :=
  .next (chordRow 1 0x0 0x0 q k s)

/-- R203, S.DROP. -/
def execSDrop (q : Fin 4) (k : Fin 52) (s : State) : Host.Outcome State Fault Refusal :=
  .next (chordRow 1 0x1 0x1 q k s)

/-- R203, S.SWAP. -/
def execSSwap (q : Fin 4) (k : Fin 52) (s : State) : Host.Outcome State Fault Refusal :=
  .next (chordRow 1 0x2 0x2 q k s)

/-- R203, S.OVER. -/
def execSOver (q : Fin 4) (k : Fin 52) (s : State) : Host.Outcome State Fault Refusal :=
  .next (chordRow 1 0x3 0x3 q k s)

/-- R203, S.ROT. -/
def execSRot (q : Fin 4) (k : Fin 52) (s : State) : Host.Outcome State Fault Refusal :=
  .next (chordRow 1 0x4 0x4 q k s)

/-- R203, S.NIP. -/
def execSNip (q : Fin 4) (k : Fin 52) (s : State) : Host.Outcome State Fault Refusal :=
  .next (chordRow 1 0x5 0x5 q k s)

/-- R203, S.PICK. -/
def execSPick (q : Fin 4) (k : Fin 52) (s : State) : Host.Outcome State Fault Refusal :=
  .next (chordRow 1 0x10 0x1F q k s)

/-- R203, S.LIT8. -/
def execSLit8 (q : Fin 4) (k : Fin 52) (s : State) : Host.Outcome State Fault Refusal :=
  .next (chordRow 1 0x100 0x1FF q k s)

/-- R203, S.LITI. -/
def execSLiti (q : Fin 4) (k : Fin 52) (s : State) : Host.Outcome State Fault Refusal :=
  .next (chordRow 1 0x201 0x203 q k s)

/-- R203, S.LITU. -/
def execSLitu (q : Fin 4) (k : Fin 52) (s : State) : Host.Outcome State Fault Refusal :=
  .next (chordRow 1 0x211 0x213 q k s)

/-- R203, S.LITW. -/
def execSLitw (q : Fin 4) (k : Fin 52) (s : State) : Host.Outcome State Fault Refusal :=
  .next (chordRow 1 0x223 0x223 q k s)

/-- R203, S.TAG. -/
def execSTag (q : Fin 4) (k : Fin 52) (s : State) : Host.Outcome State Fault Refusal :=
  .next (chordRow 1 0x300 0x300 q k s)

/-- R203, S.ORIGIN. -/
def execSOrigin (q : Fin 4) (k : Fin 52) (s : State) : Host.Outcome State Fault Refusal :=
  .next (chordRow 1 0x301 0x301 q k s)

/-- R203, S.TAGEQ. -/
def execSTageq (q : Fin 4) (k : Fin 52) (s : State) : Host.Outcome State Fault Refusal :=
  .next (chordRow 1 0x310 0x31F q k s)

/-- R204, S.TOINT. -/
def execSToint (q : Fin 4) (k : Fin 52) (s : State) : Host.Outcome State Fault Refusal :=
  .next (chordRow 1 0x320 0x320 q k s)

/-- R204, S.TOUINT. -/
def execSTouint (q : Fin 4) (k : Fin 52) (s : State) : Host.Outcome State Fault Refusal :=
  .next (chordRow 1 0x321 0x321 q k s)

/-- R204, S.TOFIX. -/
def execSTofix (q : Fin 4) (k : Fin 52) (s : State) : Host.Outcome State Fault Refusal :=
  .next (chordRow 1 0x322 0x322 q k s)

/-- R204, S.TODUR. -/
def execSTodur (q : Fin 4) (k : Fin 52) (s : State) : Host.Outcome State Fault Refusal :=
  .next (chordRow 1 0x323 0x323 q k s)

/-- R204, S.TIMEU. -/
def execSTimeu (q : Fin 4) (k : Fin 52) (s : State) : Host.Outcome State Fault Refusal :=
  .next (chordRow 1 0x324 0x324 q k s)

/-- R204, S.ADDRU. -/
def execSAddru (q : Fin 4) (k : Fin 52) (s : State) : Host.Outcome State Fault Refusal :=
  .next (chordRow 1 0x325 0x325 q k s)

/-- R204, S.MKTIME. -/
def execSMktime (q : Fin 4) (k : Fin 52) (s : State) : Host.Outcome State Fault Refusal :=
  .next (chordRow 1 0x328 0x32F q k s)

/-- R204, S.MKADDR. -/
def execSMkaddr (q : Fin 4) (k : Fin 52) (s : State) : Host.Outcome State Fault Refusal :=
  .next (chordRow 1 0x330 0x332 q k s)

/-- R204, S.MKCLASS. -/
def execSMkclass (q : Fin 4) (k : Fin 52) (s : State) : Host.Outcome State Fault Refusal :=
  .next (chordRow 1 0x340 0x340 q k s)

/-- R204, S.CLASSNO. -/
def execSClassno (q : Fin 4) (k : Fin 52) (s : State) : Host.Outcome State Fault Refusal :=
  .next (chordRow 1 0x341 0x341 q k s)

/-- R204, S.SCORE. -/
def execSScore (q : Fin 4) (k : Fin 52) (s : State) : Host.Outcome State Fault Refusal :=
  .next (chordRow 1 0x342 0x342 q k s)

/-- R204, S.UNPK16. -/
def execSUnpk16 (q : Fin 4) (k : Fin 52) (s : State) : Host.Outcome State Fault Refusal :=
  .next (chordRow 1 0x350 0x350 q k s)

/-- R204, S.UNPK8. -/
def execSUnpk8 (q : Fin 4) (k : Fin 52) (s : State) : Host.Outcome State Fault Refusal :=
  .next (chordRow 1 0x351 0x351 q k s)

/-- R204, S.FLAGS. -/
def execSFlags (q : Fin 4) (k : Fin 52) (s : State) : Host.Outcome State Fault Refusal :=
  .next (chordRow 1 0x352 0x352 q k s)

/-- R204, S.PACK16. -/
def execSPack16 (q : Fin 4) (k : Fin 52) (s : State) : Host.Outcome State Fault Refusal :=
  .next (chordRow 1 0x353 0x353 q k s)

/-- R204, S.PACK8. -/
def execSPack8 (q : Fin 4) (k : Fin 52) (s : State) : Host.Outcome State Fault Refusal :=
  .next (chordRow 1 0x354 0x354 q k s)

/-- R204, S.MKPOISON. -/
def execSMkpoison (q : Fin 4) (k : Fin 52) (s : State) : Host.Outcome State Fault Refusal :=
  .next (chordRow 1 0x360 0x360 q k s)

/-- R205, S.ADD. -/
def execSAdd (q : Fin 4) (k : Fin 52) (s : State) : Host.Outcome State Fault Refusal :=
  .next (chordRow 1 0x400 0x400 q k s)

/-- R205, S.SUB. -/
def execSSub (q : Fin 4) (k : Fin 52) (s : State) : Host.Outcome State Fault Refusal :=
  .next (chordRow 1 0x401 0x401 q k s)

/-- R205, S.MUL. -/
def execSMul (q : Fin 4) (k : Fin 52) (s : State) : Host.Outcome State Fault Refusal :=
  .next (chordRow 1 0x402 0x402 q k s)

/-- R205, S.DIV. -/
def execSDiv (q : Fin 4) (k : Fin 52) (s : State) : Host.Outcome State Fault Refusal :=
  .next (chordRow 1 0x403 0x403 q k s)

/-- R205, S.REM. -/
def execSRem (q : Fin 4) (k : Fin 52) (s : State) : Host.Outcome State Fault Refusal :=
  .next (chordRow 1 0x404 0x404 q k s)

/-- R205, S.NEG. -/
def execSNeg (q : Fin 4) (k : Fin 52) (s : State) : Host.Outcome State Fault Refusal :=
  .next (chordRow 1 0x405 0x405 q k s)

/-- R205, S.ABS. -/
def execSAbs (q : Fin 4) (k : Fin 52) (s : State) : Host.Outcome State Fault Refusal :=
  .next (chordRow 1 0x406 0x406 q k s)

/-- R205, S.MIN. -/
def execSMin (q : Fin 4) (k : Fin 52) (s : State) : Host.Outcome State Fault Refusal :=
  .next (chordRow 1 0x407 0x407 q k s)

/-- R205, S.MAX. -/
def execSMax (q : Fin 4) (k : Fin 52) (s : State) : Host.Outcome State Fault Refusal :=
  .next (chordRow 1 0x408 0x408 q k s)

/-- R205, S.ADDW. -/
def execSAddw (q : Fin 4) (k : Fin 52) (s : State) : Host.Outcome State Fault Refusal :=
  .next (chordRow 1 0x409 0x409 q k s)

/-- R205, S.SUBW. -/
def execSSubw (q : Fin 4) (k : Fin 52) (s : State) : Host.Outcome State Fault Refusal :=
  .next (chordRow 1 0x40A 0x40A q k s)

/-- R205, S.SAT16. -/
def execSSat16 (q : Fin 4) (k : Fin 52) (s : State) : Host.Outcome State Fault Refusal :=
  .next (chordRow 1 0x40B 0x40B q k s)

/-- R205, S.SAT8. -/
def execSSat8 (q : Fin 4) (k : Fin 52) (s : State) : Host.Outcome State Fault Refusal :=
  .next (chordRow 1 0x40C 0x40C q k s)

/-- R205, S.AND. -/
def execSAnd (q : Fin 4) (k : Fin 52) (s : State) : Host.Outcome State Fault Refusal :=
  .next (chordRow 1 0x410 0x410 q k s)

/-- R205, S.OR. -/
def execSOr (q : Fin 4) (k : Fin 52) (s : State) : Host.Outcome State Fault Refusal :=
  .next (chordRow 1 0x411 0x411 q k s)

/-- R205, S.XOR. -/
def execSXor (q : Fin 4) (k : Fin 52) (s : State) : Host.Outcome State Fault Refusal :=
  .next (chordRow 1 0x412 0x412 q k s)

/-- R205, S.NOT. -/
def execSNot (q : Fin 4) (k : Fin 52) (s : State) : Host.Outcome State Fault Refusal :=
  .next (chordRow 1 0x413 0x413 q k s)

/-- R205, S.SHLV. -/
def execSShlv (q : Fin 4) (k : Fin 52) (s : State) : Host.Outcome State Fault Refusal :=
  .next (chordRow 1 0x414 0x414 q k s)

/-- R205, S.SHRV. -/
def execSShrv (q : Fin 4) (k : Fin 52) (s : State) : Host.Outcome State Fault Refusal :=
  .next (chordRow 1 0x415 0x415 q k s)

/-- R205, S.SHL. -/
def execSShl (q : Fin 4) (k : Fin 52) (s : State) : Host.Outcome State Fault Refusal :=
  .next (chordRow 1 0x500 0x51F q k s)

/-- R205, S.SHR. -/
def execSShr (q : Fin 4) (k : Fin 52) (s : State) : Host.Outcome State Fault Refusal :=
  .next (chordRow 1 0x600 0x61F q k s)

/-- R206, S.ADDI. -/
def execSAddi (q : Fin 4) (k : Fin 52) (s : State) : Host.Outcome State Fault Refusal :=
  .next (chordRow 1 0x700 0x7FF q k s)

/-- R207, S.EQ. -/
def execSEq (q : Fin 4) (k : Fin 52) (s : State) : Host.Outcome State Fault Refusal :=
  .next (chordRow 1 0x800 0x800 q k s)

/-- R207, S.NE. -/
def execSNe (q : Fin 4) (k : Fin 52) (s : State) : Host.Outcome State Fault Refusal :=
  .next (chordRow 1 0x801 0x801 q k s)

/-- R207, S.LT. -/
def execSLt (q : Fin 4) (k : Fin 52) (s : State) : Host.Outcome State Fault Refusal :=
  .next (chordRow 1 0x802 0x802 q k s)

/-- R207, S.LE. -/
def execSLe (q : Fin 4) (k : Fin 52) (s : State) : Host.Outcome State Fault Refusal :=
  .next (chordRow 1 0x803 0x803 q k s)

/-- R207, S.GT. -/
def execSGt (q : Fin 4) (k : Fin 52) (s : State) : Host.Outcome State Fault Refusal :=
  .next (chordRow 1 0x804 0x804 q k s)

/-- R207, S.GE. -/
def execSGe (q : Fin 4) (k : Fin 52) (s : State) : Host.Outcome State Fault Refusal :=
  .next (chordRow 1 0x805 0x805 q k s)

/-- R207, S.SEL. -/
def execSSel (q : Fin 4) (k : Fin 52) (s : State) : Host.Outcome State Fault Refusal :=
  .next (chordRow 1 0x808 0x808 q k s)

/-- R208, S.LD. -/
def execSLd (q : Fin 4) (k : Fin 52) (s : State) : Host.Outcome State Fault Refusal :=
  .next (chordRow 1 0x900 0x900 q k s)

/-- R208, S.ST. -/
def execSSt (q : Fin 4) (k : Fin 52) (s : State) : Host.Outcome State Fault Refusal :=
  .next (chordRow 1 0x901 0x901 q k s)

/-- R208, S.LDM. -/
def execSLdm (q : Fin 4) (k : Fin 52) (s : State) : Host.Outcome State Fault Refusal :=
  .next (chordRow 1 0x908 0x908 q k s)

/-- R208, S.STM. -/
def execSStm (q : Fin 4) (k : Fin 52) (s : State) : Host.Outcome State Fault Refusal :=
  .next (chordRow 1 0x909 0x909 q k s)

/-- R208, S.XM. -/
def execSXm (q : Fin 4) (k : Fin 52) (s : State) : Host.Outcome State Fault Refusal :=
  .next (chordRow 1 0x910 0x910 q k s)

/-- R208, S.XLC. -/
def execSXlc (q : Fin 4) (k : Fin 52) (s : State) : Host.Outcome State Fault Refusal :=
  .next (chordRow 1 0x918 0x91B q k s)

/-- R208, S.XVLS. -/
def execSXvls (q : Fin 4) (k : Fin 52) (s : State) : Host.Outcome State Fault Refusal :=
  .next (chordRow 1 0x920 0x920 q k s)

/-- R208, S.XVL. -/
def execSXvl (q : Fin 4) (k : Fin 52) (s : State) : Host.Outcome State Fault Refusal :=
  .next (chordRow 1 0xA00 0xAFF q k s)

/-- R208, S.NOW. -/
def execSNow (q : Fin 4) (k : Fin 52) (s : State) : Host.Outcome State Fault Refusal :=
  .next (chordRow 1 0xB00 0xB07 q k s)

end Sys2Proof.Machine
end

