-- ==== Sys2Proof/Machine/TwCmds.lean ====
section
/-! DEFINITION. TW0's transfers and the management commands, the same over SPI1 as target, attention requests and stuck lines (R500–R502,
R505–R522). -/

namespace Sys2Proof.Machine

/-! ### Management commands (R513–R515) -/

/-- One bit step of the SMBus CRC-8 (R516). -/
def pecStep (c : Nat) : Nat := if 128 ≤ c then (2 * c % 256) ^^^ 0x07 else 2 * c

/-- PEC over bytes: polynomial x^8 + x^2 + x + 1, initial value 0 (R516). -/
def pec (l : List Nat) : Nat :=
  l.foldl (fun c b => pecStep (pecStep (pecStep (pecStep (pecStep (pecStep (pecStep (pecStep (c ^^^ b))))))))) 0

/-- The management command codes that are not reserved (R513). -/
def mgmtCodes : List Nat := [0x01, 0x02, 0x03, 0x04, 0x0F, 0x10, 0x11, 0x15, 0x20]

/-- A signed byte. -/
def sByte (v : Int) : Nat := wrapN 8 v

/-- The bring-up byte: RST_STATUS.bringup, level and step. -/
def rstByte (r : Nat) : Nat := bits r 31 31 <<< 7 ||| bits r 30 28 <<< 4 ||| bits r 27 24 % 16

/-- The data of a Block Read answer, after its status byte (R513). -/
def mgmtRead (code : Nat) (s : State) : List Nat :=
  match code with
  | 0x01 => leBytes 2 0x4128 ++ [0xA0] ++ leBytes 4 (peek 0x04 s)
      ++ leBytes 2 (bits (peek 0x84004 s) 31 31 <<< 15 ||| bits (peek 0x84004 s) 11 0)
  | 0x02 =>
    let m := peek 0x2004 s
    [bits m 31 31 <<< 7 ||| bits m 30 28, bits m 2 0, rstByte (peek 0x1004 s)] ++ leBytes 2 (bits (peek 0x1000 s) 10 0)
      ++ [bits (peek 0x60004 s) 29 27] ++ leBytes 2 (reg 0x42018 s % 65536)
  | 0x03 => sByte s.mode.hottest :: (List.range 5).map (fun i => sByte (mget 25 s.mode.sensors i))
  | 0x04 => ((List.range 5).map (fun r =>
      let v := peek (0x50100 + 32 * r + 0x0C) s
      leBytes 2 (bits v 25 16) ++ leBytes 2 (bits v 9 0))).flatten
  | _ => [rfld 0x4201C 27 20 s, rfld 0x4201C 19 12 s]

/-- REG_READ (R515): status, value, and what the read changes: TW0's own latches. -/
def mgmtRegRead (ofs : Nat) (s : State) : Status × Nat × State :=
  if ofs % 4 = 0 ∧ ofs < 2 ^ 24 then
    let (v, s1) := readDw .tw0 false ofs s
    (.ok, v, s1)
  else (.range, 0, s)

/-- RESULT's record of the last write command (R513, R514). [DEDUCED, log 133] -/
def mgmtResult (code : Nat) (st : Status) (s : State) : State :=
  setFld 0x4201C 19 12 (statusCode st) (setFld 0x4201C 27 20 code s)

/-- RESET's level and target as it asks for them, with its fixed bytes; none when they are wrong (R513, R514). [DEDUCED, log 133] -/
def mgmtResetReq (w : Nat) : Option ResetReq :=
  if bits w 31 16 ≠ 0x3CC3 then none
  else match bits w 7 0, bits w 15 8 with
    | 1, 0 => some ⟨1, 0, 9, .minimum⟩
    | 3, q => if q < 4 then some ⟨3, q + 1, 9, .minimum⟩ else none
    | _, _ => none

/-- RESET (R515): its status, and the request made as source TW0. [DEDUCED, log 133] -/
def mgmtReset (w : Nat) (s : State) : Status × State :=
  match mgmtResetReq w with
  | some r => (.ok, resetRequest r s)
  | none => (.range, s)

/-- SAFE (R515): MODE_SET with target SAFE from function 0, journaled with reg 1. [DEDUCED, log 133] -/
def mgmtSafe (w : Nat) (s : State) : Status × State :=
  if w ≠ 0x45464153 then (.range, s)
  else
    let st := modeCheck 5 s
    let src := regSrc 0x60 s
    let d := pairDesc 0 []
    let s1 := journalReg 0x60 st { d with body := 5 } [⟨10, 0⟩] s
    (st, if st = .ok then modeRequest 5 src s1 else s1)

/-- ATTN_CLR (R515, R518): clears the causes named whose condition no longer holds; refused for the others. [DEDUCED, log 115] -/
def mgmtAttnClr (w : Nat) (s : State) : Status × State :=
  if bits w 31 8 ≠ 0 then (.range, s)
  else (if (List.range 8).any (fun b => bit w b && attnHolds b s) then .range else .ok, attnClear w s)

/-- A write command with its four data bytes, as a little-endian word: its status and effect. RESULT is recorded first, so that an L1 clears
it (R515). -/
def mgmtWrite (code w : Nat) (s : State) : Status × State :=
  match code with
  | 0x10 => let r := mgmtReset w s; (r.1, (mgmtReset w (mgmtResult code r.1 s)).2)
  | 0x11 => let r := mgmtSafe w s; (r.1, mgmtResult code r.1 r.2)
  | _ => let r := mgmtAttnClr w s; (r.1, mgmtResult code r.1 r.2)

/-! ### TW0's transfers (R507–R516) -/

/-- TW0 answers an address (R507, R511): in BRINGUP the fused one. -/
def tw0Matches (a : Nat) (s : State) : Bool :=
  let plain := decide (8 ≤ a ∧ a < 0x78)
  let f := rfld 0x3050 6 0 s
  let d := reg 0x42004 s
  if s.mode.current = .bringup then plain && decide (a = if f < 8 ∨ 0x78 ≤ f then 0x4C else f)
  else plain && bit (reg 0x42000 s) 31 &&
    (if bit (reg 0x42008 s) 31 then decide (a &&& rfld 0x42008 6 0 s = bits d 6 0 &&& rfld 0x42008 6 0 s)
     else (List.range 4).any (fun i => bit d (8 * i + 7) && decide (bits d (8 * i + 6) (8 * i) = a)))

/-- TW0_STRETCH_MAX in device ticks. -/
def stretchMax (s : State) : Nat := usTicks (rfld 0x42010 14 0 s)

/-- The bus recogniser can match: powered, step L0.1 ended, and no stuck line in the last 100 µs (R511, R522). [DEDUCED, log 132] -/
def tw0Hears (s : State) : Bool :=
  s.rst.powered && ! domHeld 1 s && (! s.tw.stuck0 || passed s.tw.idle (usTicks 100) s)

/-- TW0_ADDRESS_MATCH (R507, R509–R511): a START with an address. One TW0 answers wakes it, and SCL is stretched until it is ready; awake, it
acknowledges. -/
def execTw0AddressMatch (addr : BitVec 7) (s : State) : Host.Outcome State Fault Refusal :=
  if tw0Hears s ∧ tw0Matches addr.toNat s ∧ s.tw.stretch.isNone then
    let s1 := bump (tw0Cnt 0) (setTw (fun t => { t with stuck0 := false, addr := addr.toNat }) s)
    .next (if s.mode.current ≠ .bringup ∧ s.tw.awake then setTw (fun t => { t with active := true }) s1
      else
        let s2 := if s.tw.awake then s1 else bump (tw0Cnt 1) s1
        setTw (fun t => { t with awake := true, active := false, stretch := some (s.ticks, true) }) s2)
  else .next s

/-- TW0 takes part in the transfer on the bus, ready: acknowledged, or its wake-up stretch has not reached the bound; never in BRINGUP
(R510, R511). -/
def tw0Ready (s : State) : Bool :=
  decide (s.mode.current ≠ .bringup) && centralUp s && (s.tw.active || match s.tw.stretch with
    | some (k, true) => ! passed k (stretchMax s) s
    | _ => false)

/-- The transfer ends with a STOP. -/
def tw0Stop (s : State) : State := setTw (fun t => { t with active := false, stretch := none, idle := s.ticks }) s

/-- TW0_SLEEP (R509). -/
def execTw0Sleep (s : State) : Host.Outcome State Fault Refusal :=
  .next (if bit (reg 0x42000 s) 30 ∧ s.tw.awake ∧ ! s.tw.active ∧ s.tw.stretch.isNone ∧ passed s.tw.idle (usTicks 1000) s
      ∧ s.mode.current ≠ .bringup then
    setTw (fun t => { t with awake := false }) s else s)

/-- A stretch that has reached TW0_STRETCH_MAX: counted and flagged (R510, R512). [DEDUCED, log 134] -/
def stretchOver (s : State) : State := setFld 0x4201C 29 29 1 (bump (tw0Cnt 4) s)

/-- TW0_STRETCH_EXPIRE (R510–R512): the wake-up stretch ends in not-acknowledge; awake, a stretch before an acknowledge does, and one before a
byte to send lets 0xFF out for the rest of the transfer. -/
def execTw0StretchExpire (beforeByte : Bool) (s : State) : Host.Outcome State Fault Refusal :=
  match s.tw.stretch with
  | some (k, _) =>
    .next (if passed k (stretchMax s) s then emit .tw0Nack (tw0Stop (stretchOver s)) else s)
  | none =>
    .next (if s.tw.active then
      (if beforeByte then emit (.tw0 [0xFF]) (tw0Stop (stretchOver s)) else emit .tw0Nack (tw0Stop (stretchOver s)))
    else s)

/-- The PEC byte after a read answer, unless PEC is off (R516). [DEDUCED, log 132] -/
def readPec (sent : List Nat) (s : State) : List Nat := if rfld 0x42000 29 28 s = 0 then [] else [pec sent]

/-- The answer of a Block Read: count, status OK, data (R513). [DEDUCED, log 132] -/
def tw0Block (code : Nat) (s : State) : State :=
  if tw0Ready s then
    let a := s.tw.addr
    let data := mgmtRead code s
    let ans := [data.length + 1, 0] ++ data
    emit (.tw0 (ans ++ readPec ([2 * a, code, 2 * a + 1] ++ ans) s)) (tw0Stop s)
  else s

/-- TW0_ID (R513). -/
def execTw0Id (s : State) : Host.Outcome State Fault Refusal := .next (tw0Block 0x01 s)
/-- TW0_STATUS (R513). -/
def execTw0Status (s : State) : Host.Outcome State Fault Refusal := .next (tw0Block 0x02 s)
/-- TW0_TEMP (R513). -/
def execTw0Temp (s : State) : Host.Outcome State Fault Refusal := .next (tw0Block 0x03 s)
/-- TW0_RAILS (R513). -/
def execTw0Rails (s : State) : Host.Outcome State Fault Refusal := .next (tw0Block 0x04 s)
/-- TW0_RESULT (R513). -/
def execTw0Result (s : State) : Host.Outcome State Fault Refusal := .next (tw0Block 0x0F s)

/-- TW0_REG_READ (R513, R515): the process call of a BAR0 offset; `pecIn` is a PEC byte the controller reads or not. -/
def execTw0RegRead (ofs : Word) (s : State) : Host.Outcome State Fault Refusal :=
  if tw0Ready s then
    let a := s.tw.addr
    let r := mgmtRegRead ofs.toNat s
    let ans := [5, statusCode r.1] ++ leBytes 4 r.2.1
    .next (emit (.tw0 (ans ++ readPec ([2 * a, 0x20, 4] ++ leBytes 4 ofs.toNat ++ [2 * a + 1] ++ ans) s)) (tw0Stop r.2.2))
  else .next s

/-- An invalid transfer: not acknowledged at the byte that makes it so, discarded, its status kept for RESULT (R514). [DEDUCED, log 132] -/
def tw0Invalid (code : Nat) (st : Status) (s : State) : State :=
  emit .tw0Nack (tw0Stop (mgmtResult code st (bump (tw0Cnt 2) s)))

/-- A Write 32 with its STOP, and a PEC byte if one was sent (R514, R516). [DEDUCED, log 132] -/
def tw0Write (code : Nat) (w : Word) (pecIn : Option Byte) (s : State) : State :=
  if ! tw0Ready s then s
  else
    let mode := rfld 0x42000 29 28 s
    let good := pec ([2 * s.tw.addr, code] ++ leBytes 4 w.toNat)
    match pecIn with
    | none => if mode = 2 then mgmtResult code .fault (tw0Stop s) else (mgmtWrite code w.toNat (tw0Stop s)).2
    | some p =>
      if mode = 0 then tw0Invalid code .range s
      else if p.toNat ≠ good then
        emit .tw0Nack (setFld 0x4201C 28 28 1 (bump (tw0Cnt 3) (mgmtResult code .fault (tw0Stop s))))
      else (mgmtWrite code w.toNat (tw0Stop s)).2

/-- TW0_RESET (R513–R516). -/
def execTw0Reset (w : Word) (pecIn : Option Byte) (s : State) : Host.Outcome State Fault Refusal := .next (tw0Write 0x10 w pecIn s)
/-- TW0_SAFE (R513–R516). -/
def execTw0Safe (w : Word) (pecIn : Option Byte) (s : State) : Host.Outcome State Fault Refusal := .next (tw0Write 0x11 w pecIn s)
/-- TW0_ATTN_CLR (R513–R516). -/
def execTw0AttnClr (w : Word) (pecIn : Option Byte) (s : State) : Host.Outcome State Fault Refusal := .next (tw0Write 0x15 w pecIn s)

/-- TW0_INVALID_TRANSFER (R514): a reserved code; a count or a byte beyond the form of its code; or a write while the last still runs. [DEDUCED, log 133] -/
def execTw0InvalidTransfer (code : Byte) (badForm : Bool) (s : State) : Host.Outcome State Fault Refusal :=
  let c := code.toNat
  if ! tw0Ready s then .next s
  else if ! mgmtCodes.contains c then .next (tw0Invalid c .badOpcode s)
  else if badForm then .next (tw0Invalid c .range s)
  else if [0x10, 0x11, 0x15].contains c then .next (tw0Invalid c .busy s)
  else .next s

/-! ### Attention requests (R519) and stuck lines (R522) -/

/-- Attention requests are made: TW0_ATTN.en, and any mode but BRINGUP. [DEDUCED, log 134] -/
def attnOn (s : State) : Bool := bit (reg 0x42014 s) 31 && decide (s.mode.current ≠ .bringup)

/-- ATTN_REQUEST (R519): after 100 µs of idle bus SDA is held low for 50 µs; `aborted`: SCL went low meanwhile. -/
def execAttnRequest (aborted : Bool) (s : State) : Host.Outcome State Fault Refusal :=
  .next (if attnOn s ∧ s.tw.attnWant ∧ attnPending s ≠ 0 ∧ ! s.tw.active ∧ s.tw.stretch.isNone ∧ passed s.tw.idle (usTicks 100) s then
    if aborted then bump (tw0Cnt 6) (setTw (fun t => { t with idle := s.ticks }) s)
    else emit .attn (bump (tw0Cnt 5) (setTw (fun t => { t with attnWant := false, attnAt := s.ticks }) s))
  else s)

/-- ATTN_REPEAT (R519): repeat × 100 ms after the last request a cause is still pending. -/
def execAttnRepeat (s : State) : Host.Outcome State Fault Refusal :=
  let n := rfld 0x42014 23 16 s
  .next (if attnOn s ∧ n ≠ 0 ∧ attnPending s ≠ 0 ∧ ! s.tw.attnWant ∧ passed s.tw.attnAt (msTicks (100 * n)) s then
    setTw (fun t => { t with attnWant := true }) s else s)

/-- TW1 clears a bus whose SDA is stuck while SCL is high: pulses until SDA is free, at most nine (R522). [DEDUCED, log 134] -/
def busClear (freed : Option (Fin 9)) (s : State) : State :=
  match freed with
  | some k => bump (tw1Cnt 4) (emit (.busClear (k + 1)) s)
  | none => setFld 0x43008 28 28 1 (emit (.busClear 9) s)

/-- TW_STUCK (R506, R522): a line of a block has been low for 35 ms. TW0 leaves the bus and discards what it has begun, whose code is
`code`; TW1 clears a stuck SDA, and with a stuck SCL fails its transactions. [DEDUCED, log 134] -/
def execTwStuck (tw1 scl : Bool) (code : Option Byte) (freed : Option (Fin 9)) (s : State) : Host.Outcome State Fault Refusal :=
  if ! centralUp s then .next s
  else if tw1 then
    let s1 := bump (tw1Cnt 5) s
    .next (if scl then setFld 0x43008 29 29 1 s1 else busClear freed (setFld 0x43008 30 30 1 s1))
  else
    let s1 := match s.tw.active, code with
      | true, some c => mgmtResult c.toNat .fault s
      | _, _ => s
    .next (setTw (fun t => { t with stuck0 := true }) (tw0Stop (setFld 0x4201C 30 30 1 (bump (tw0Cnt 7) s1))))

end Sys2Proof.Machine
end

