-- ==== Sys2Proof/Machine/SpiCmds.lean ====
section
/-! DEFINITION. The ends of controller transfers (R486, R487, R493), and SPI1 as target: words, selects, and the management frames the
steward reads from it (R500–R502, R517). -/

namespace Sys2Proof.Machine

/-! ### Controller transfers -/

/-- A raw transfer on SPI0 is over: the window goes on (R493). -/
def spiOver (n : Nat) (s : State) : State := if n = 0 then flashBegin s else s

/-- SPI_TRANSFER_DONE (R487): the remaining bits have been clocked and the post delay is over. -/
def execSpiTransferDone (n : Fin 2) (input : Nat) (s : State) : Host.Outcome State Fault Refusal :=
  match (spi n s).xfer with
  | none => .next s
  | some x =>
    if x.stop ≤ s.ticks ∧ burstWords (spi n s) x = xferWords x then 
      .next (spiOver n (spiEnd n (spiClock n input s)))
    else .next s

/-- SPI_FIFO_RESUME (R486): a transfer that the FIFOs cannot carry to its end clocks the words they allow, and stalls again or goes on. -/
def execSpiFifoResume (n : Fin 2) (input : Nat) (s : State) : Host.Outcome State Fault Refusal :=
  match (spi n s).xfer with
  | none => .next s
  | some x => if 0 < burstWords (spi n s) x then .next (spiClock n input s) else .next s

/-! ### Management frames (R517) -/

/-- An answer: status, count, data, and a PEC over the three. -/
def frameAnswer (st : Status) (data : List Nat) : List Nat :=
  let l := [statusCode st, data.length] ++ data
  l ++ [pec l]

/-- Words of an answer in words of k bytes, most significant byte first; what the last word lacks is not stated. [DEDUCED, log 135] -/
def frameWords (k : Nat) : Nat → List Nat → State → List Nat × State
  | 0, _, s => ([], s)
  | fuel + 1, l, s =>
    if l.isEmpty then ([], s)
    else
      let w := l.take k
      let (free, s1) := if w.length < k then takeFree s else (0, s)
      let pad := 256 ^ (k - w.length)
      let (r, s2) := frameWords k fuel (l.drop k) s1
      ((beNat w * pad + free.toNat % pad) :: r, s2)

/-- The steward places an answer in the transmit FIFO (R500). [DEDUCED, log 135] -/
def frameReply (st : Status) (data : List Nat) (s : State) : State :=
  let k := max 1 (rfld (spiBase 1 + 8) 12 0 s / 8)
  let r := frameWords k 300 (frameAnswer st data) s
  r.1.foldl (fun s w => spiPush 1 w s) r.2

/-- The answer to a whole request: code, count, data, PEC (R514, R517). -/
def frameRun (l : List Nat) (s : State) : State :=
  let code := l.getD 0 0; let n := l.getD 1 0; let data := sliceB l 2 n
  let w := leNat data
  let write (st : Status) (s : State) : State := frameReply st [] s
  if l.getD (2 + n) 0 ≠ pec (l.take (2 + n)) then
    write .fault (if [0x10, 0x11, 0x15].contains code then mgmtResult code .fault s else s)
  else if ! mgmtCodes.contains code then write .badOpcode (mgmtResult code .badOpcode s)
  else if [0x10, 0x11, 0x15].contains code then
    if n ≠ 4 then write .range (mgmtResult code .range s)
    else let r := mgmtWrite code w s; write r.1 r.2
  else if code = 0x20 then
    if n ≠ 4 then write .range s
    else let r := mgmtRegRead w s; frameReply r.1 (leBytes 4 r.2.1) r.2.2
  else if n ≠ 0 then write .range s
  else frameReply .ok (mgmtRead code s) s

/-- The steward reads one byte of a request; a 0x00 before a request is what the host clocks while it waits. [DEDUCED, log 135] -/
def frameByte (s : State) (b : Nat) : State :=
  let l := (spi 1 s).frame ++ [b]
  if l = [0] then s
  else if 2 ≤ l.length ∧ l.length = l.getD 1 0 + 3 then frameRun l (setSpi 1 (fun x => { x with frame := [] }) s)
  else setSpi 1 (fun x => { x with frame := l }) s

/-- The select ends: a request that it cuts short is discarded with FAULT (R517). [DEDUCED, log 135] -/
def frameEnd (s : State) : State :=
  match (spi 1 s).frame with
  | [] => s
  | code :: _ =>
    let s1 := setSpi 1 (fun x => { x with frame := [] }) s
    frameReply .fault [] (if [0x10, 0x11, 0x15].contains code then mgmtResult code .fault s1 else s1)

/-- The whole bytes of a received word, first received first. -/
def wordBytes (w : SpiWord) : List Nat := beBytes (w.count / 8) (w.word >>> (w.count % 8))

/-- The steward reads words from the receive FIFO. -/
def frameRead : Nat → State → State
  | 0, s => s
  | n + 1, s =>
    match (spi 1 s).rx with
    | [] => s
    | w :: r =>
      let s1 := (wordBytes w).foldl frameByte (setSpi 1 (fun x => { x with rx := r }) s)
      frameRead n (if w.selEnd then frameEnd s1 else s1)

/-! ### Words and selects (R500–R502) -/

/-- SPI1 follows the host that drives its select. -/
def tgtOn (s : State) : Bool := spiEn 1 s && spiTarget 1 s && centralUp s

/-- In BRINGUP every byte is answered with 0xA5 (R45, R501). -/
def tgtBoot (s : State) : Bool := decide (s.mode.current = .bringup) && s.rst.powered

/-- 0xA5 bytes sent, counted while the port's registers are out of reset (R501, R503). [DEDUCED, log 136] -/
def tgtBusy (n : Nat) (s : State) : State :=
  let s1 := emit (.spi 1 0 (beNat (List.replicate n 0xA5)) (8 * n)) s
  if centralUp s then setReg (spiBase 1 + 0x24) ((reg (spiBase 1 + 0x24) s1 + n) % 2 ^ 32) s1 else s1

/-- A received word goes to the receive FIFO; one that meets it full is dropped (R502). [DEDUCED, log 135] -/
def tgtDeliver (w : SpiWord) (s : State) : State :=
  if 64 ≤ (spi 1 s).rx.length then setFld (spiBase 1 + 0x14) 28 28 1 s
  else setSpi 1 (fun x => { x with rx := x.rx ++ [w] }) s

/-- The word sent while one is received: the transmit FIFO's next, or 0xA5 for every byte (R501). [DEDUCED, log 71] -/
def tgtSend (len : Nat) (s : State) : State :=
  match (spi 1 s).tx with
  | w :: r => emit (.spi 1 0 (w % 2 ^ len) len) (setSpi 1 (fun x => { x with tx := r }) s)
  | [] => setFld (spiBase 1 + 0x14) 29 29 1 (tgtBusy (len / 8) s)

/-- SPI_TARGET_SELECT (R500): CS0_N falls, and SCK's level gives the mode; `reads` words have been read by the steward since. -/
def execSpiTargetSelect (sckHigh : Bool) (reads : Nat) (s : State) : Host.Outcome State Fault Refusal :=
  .next (if tgtOn s then setSpi 1 (fun x => { x with selected := true, mode3 := sckHigh }) (frameRead reads s) else s)

/-- SPI_TARGET_WORD (R500–R502): a whole word is received and one is sent; the steward then reads `reads` words. [DEDUCED, log 71] -/
def execSpiTargetWord (word : Word) (reads : Nat) (s : State) : Host.Outcome State Fault Refusal :=
  let len := rfld (spiBase 1 + 8) 12 0 s
  .next (if tgtBoot s then tgtBusy (max 1 (len / 8)) s
    else if tgtOn s ∧ (spi 1 s).selected then
      frameRead reads (tgtDeliver ⟨word.toNat % 2 ^ len, false, false, len⟩ (tgtSend len s))
    else s)

/-- The select rises after n bits of a word: they are delivered right-aligned with partial and sel_end; a word that ended exactly there has
sel_end set; a transmit word cut short is discarded (R502). -/
def tgtRelease (n word : Nat) (s : State) : State :=
  let s1 := setSpi 1 (fun x => { x with selected := false }) s
  if n = 0 then
    match (spi 1 s1).rx.getLast? with
    | some w => setSpi 1 (fun x => { x with rx := x.rx.dropLast ++ [{ w with selEnd := true }] }) s1
    | none => frameEnd s1
  else
    let s2 := setFld (spiBase 1 + 0x14) 27 27 1 s1
    let s3 := match (spi 1 s2).tx with
      | _ :: r => setSpi 1 (fun x => { x with tx := r }) s2
      | [] => setFld (spiBase 1 + 0x14) 29 29 1 (tgtBusy ((n + 7) / 8) s2)
    tgtDeliver ⟨word % 2 ^ n, true, true, n⟩ s3

/-- SPI_TARGET_DESELECT (R502): CS0_N rises after `n` bits of a word; the steward then reads `reads` words. [DEDUCED, log 135] -/
def execSpiTargetDeselect (n : Fin 32) (word : Word) (reads : Nat) (s : State) : Host.Outcome State Fault Refusal :=
  .next (if tgtOn s ∧ (spi 1 s).selected then
    frameRead reads (tgtRelease (n % rfld (spiBase 1 + 8) 12 0 s) word.toNat s) else s)

end Sys2Proof.Machine
end

