-- ==== Sys2Proof/Machine/TmrCmds.lean ====
section
/-! DEFINITION. The meanings of the timer events (18_timers_fifos.md). -/

namespace Sys2Proof.Machine

/-- A match or reload of a counting timer has come. -/
def tmrDue (n : Nat) (s : State) : Bool :=
  tmrEn n s && decide (tmrMode n s < 2) && ! tmrAsleep s
    && (tmrMatches (tmr n s) || decide (0 < (tmr n s).due ∧ (tmr n s).count = 0))

/-- Two timers act on one pin. -/
def pinShared (n m : Nat) (s : State) : Bool :=
  bit (reg (tmrBase n) s) 15 && bit (reg (tmrBase m) s) 15 && decide (rfld (tmrBase n) 18 16 s = rfld (tmrBase m) 18 16 s)

/-- Actions on one pin come in the order of their edges, and at one edge in increasing timer number (R531): no other timer of the pin comes
first. [DEDUCED, log 67] -/
def tmrTurn (n : Nat) (s : State) : Bool :=
  (List.range 16).all (fun m => decide (m = n) || ! pinShared n m s || ! tmrDue m s
    || decide ((tmr n s).dueAt < (tmr m s).dueAt ∨ ((tmr n s).dueAt = (tmr m s).dueAt ∧ n < m)))

/-- TIMER_MATCH (R529): a tick that has come brings the count to the active compare value. -/
def execTimerMatch (n : Fin 16) (s : State) : Host.Outcome State Fault Refusal :=
  if tmrEn n s ∧ tmrMode n s < 2 ∧ tmrMatches (tmr n s) ∧ ! tmrAsleep s ∧ tmrTurn n s then .next (tmrMatch n s) else .next s

/-- TIMER_RELOAD (R529): a tick that has come at count 0. -/
def execTimerReload (n : Fin 16) (s : State) : Host.Outcome State Fault Refusal :=
  if tmrEn n s ∧ tmrMode n s < 2 ∧ 0 < (tmr n s).due ∧ (tmr n s).count = 0 ∧ ! tmrAsleep s ∧ tmrTurn n s then
    .next (tmrReloadTick n s)
  else .next s

/-- The capture of one timer at an edge (R533). [DEDUCED, log 69] -/
def tmrCapture (p : Nat) (rising : Bool) (s : State) (n : Nat) : State :=
  let ctl := reg (tmrBase n) s
  let e := bits ctl 6 5
  if bits ctl 10 7 = p + 1 ∧ (e = 2 ∨ (e = 0 ∧ rising) ∨ (e = 1 ∧ ! rising)) then
    let c := if tmrMode n s = 2 then 0 else (tmr n s).count
    let s1 := setReg (tmrBase n + 0x24) (c / 2 ^ 32) (setReg (tmrBase n + 0x20) (c % 2 ^ 32) s)
    if bit (reg (tmrBase n + 0x28) s) 28 then tmrNote n 27 s1 else tmrFlag n 28 s1
  else s

/-- TIMER_CAPTURE (R533): an edge of a TMRIN pin; every timer that selects it latches its count, and a rising edge is a source edge of
the timers that count the pin (R526). Edges in sleep are lost (R535). [DEDUCED, log 69] -/
def execTimerCapture (pin : Fin 8) (rising : Bool) (s : State) : Host.Outcome State Fault Refusal :=
  if tmrAsleep s ∨ ! centralUp s then .next s
  else
    let s1 := (List.range 16).foldl (tmrCapture pin rising) s
    .next ((List.range 16).foldl (fun s n =>
      if rising ∧ tmrSrc n s = 12 + pin.val then tmrEdges n 1 s else s) s1)

/-- TIMER_TIME_FIRE (R534): the time base reaches the target of an armed TIME timer. -/
def execTimerTimeFire (n : Fin 16) (s : State) : Host.Outcome State Fault Refusal :=
  if (tmr n s).armed ∧ tmrEn n s ∧ tmrLeft n s ≤ 0 ∧ ! tmrAsleep s then .next (tmrFire n false s) else .next s

end Sys2Proof.Machine
end

