-- ==== Sys2Proof/Machine/VRows.lean ====
section
/-! DEFINITION. The V-string operations as commands: one chord boundary of a physical engine slot whose next chord holds the
operation (R174, R198). -/

namespace Sys2Proof.Machine

/-- R222, V.DUP. -/
def execVDup (q : Fin 4) (k : Fin 52) (s : State) : Host.Outcome State Fault Refusal :=
  .next (chordRow 2 0x0 0x0 q k s)

/-- R222, V.DROP. -/
def execVDrop (q : Fin 4) (k : Fin 52) (s : State) : Host.Outcome State Fault Refusal :=
  .next (chordRow 2 0x1 0x1 q k s)

/-- R222, V.SWAP. -/
def execVSwap (q : Fin 4) (k : Fin 52) (s : State) : Host.Outcome State Fault Refusal :=
  .next (chordRow 2 0x2 0x2 q k s)

/-- R222, V.OVER. -/
def execVOver (q : Fin 4) (k : Fin 52) (s : State) : Host.Outcome State Fault Refusal :=
  .next (chordRow 2 0x3 0x3 q k s)

/-- R222, V.ROT. -/
def execVRot (q : Fin 4) (k : Fin 52) (s : State) : Host.Outcome State Fault Refusal :=
  .next (chordRow 2 0x4 0x4 q k s)

/-- R222, V.NIP. -/
def execVNip (q : Fin 4) (k : Fin 52) (s : State) : Host.Outcome State Fault Refusal :=
  .next (chordRow 2 0x5 0x5 q k s)

/-- R222, V.LDV. -/
def execVLdv (q : Fin 4) (k : Fin 52) (s : State) : Host.Outcome State Fault Refusal :=
  .next (chordRow 2 0x100 0x17F q k s)

/-- R222, V.LDA. -/
def execVLda (q : Fin 4) (k : Fin 52) (s : State) : Host.Outcome State Fault Refusal :=
  .next (chordRow 2 0x180 0x180 q k s)

/-- R222, V.STV. -/
def execVStv (q : Fin 4) (k : Fin 52) (s : State) : Host.Outcome State Fault Refusal :=
  .next (chordRow 2 0x200 0x27F q k s)

/-- R222, V.STA. -/
def execVSta (q : Fin 4) (k : Fin 52) (s : State) : Host.Outcome State Fault Refusal :=
  .next (chordRow 2 0x280 0x280 q k s)

/-- R220, V.LDB. -/
def execVLdb (q : Fin 4) (k : Fin 52) (s : State) : Host.Outcome State Fault Refusal :=
  .next (chordRow 2 0x300 0x300 q k s)

/-- R220, V.LDBW. -/
def execVLdbw (q : Fin 4) (k : Fin 52) (s : State) : Host.Outcome State Fault Refusal :=
  .next (chordRow 2 0x301 0x301 q k s)

/-- R221, V.LDQ. -/
def execVLdq (q : Fin 4) (k : Fin 52) (s : State) : Host.Outcome State Fault Refusal :=
  .next (chordRow 2 0x308 0x30B q k s)

/-- R221, V.STQ. -/
def execVStq (q : Fin 4) (k : Fin 52) (s : State) : Host.Outcome State Fault Refusal :=
  .next (chordRow 2 0x310 0x310 q k s)

/-- R222, V.SPLAT. -/
def execVSplat (q : Fin 4) (k : Fin 52) (s : State) : Host.Outcome State Fault Refusal :=
  .next (chordRow 2 0x400 0x400 q k s)

/-- R222, V.SPLAT16. -/
def execVSplat16 (q : Fin 4) (k : Fin 52) (s : State) : Host.Outcome State Fault Refusal :=
  .next (chordRow 2 0x401 0x401 q k s)

/-- R222, V.SPLAT8. -/
def execVSplat8 (q : Fin 4) (k : Fin 52) (s : State) : Host.Outcome State Fault Refusal :=
  .next (chordRow 2 0x402 0x402 q k s)

/-- R222, V.WLO. -/
def execVWlo (q : Fin 4) (k : Fin 52) (s : State) : Host.Outcome State Fault Refusal :=
  .next (chordRow 2 0x408 0x408 q k s)

/-- R222, V.WHI. -/
def execVWhi (q : Fin 4) (k : Fin 52) (s : State) : Host.Outcome State Fault Refusal :=
  .next (chordRow 2 0x409 0x409 q k s)

/-- R222, V.NARROW. -/
def execVNarrow (q : Fin 4) (k : Fin 52) (s : State) : Host.Outcome State Fault Refusal :=
  .next (chordRow 2 0x40C 0x40C q k s)

/-- R222, V.TOQ. -/
def execVToq (q : Fin 4) (k : Fin 52) (s : State) : Host.Outcome State Fault Refusal :=
  .next (chordRow 2 0x410 0x410 q k s)

/-- R222, V.FROMQ. -/
def execVFromq (q : Fin 4) (k : Fin 52) (s : State) : Host.Outcome State Fault Refusal :=
  .next (chordRow 2 0x411 0x411 q k s)

/-- R222, V.ADD. -/
def execVAdd (q : Fin 4) (k : Fin 52) (s : State) : Host.Outcome State Fault Refusal :=
  .next (chordRow 2 0x500 0x500 q k s)

/-- R222, V.SUB. -/
def execVSub (q : Fin 4) (k : Fin 52) (s : State) : Host.Outcome State Fault Refusal :=
  .next (chordRow 2 0x501 0x501 q k s)

/-- R222, V.MUL. -/
def execVMul (q : Fin 4) (k : Fin 52) (s : State) : Host.Outcome State Fault Refusal :=
  .next (chordRow 2 0x502 0x502 q k s)

/-- R222, V.MULQ. -/
def execVMulq (q : Fin 4) (k : Fin 52) (s : State) : Host.Outcome State Fault Refusal :=
  .next (chordRow 2 0x503 0x503 q k s)

/-- R222, V.ABS. -/
def execVAbs (q : Fin 4) (k : Fin 52) (s : State) : Host.Outcome State Fault Refusal :=
  .next (chordRow 2 0x504 0x504 q k s)

/-- R222, V.NEG. -/
def execVNeg (q : Fin 4) (k : Fin 52) (s : State) : Host.Outcome State Fault Refusal :=
  .next (chordRow 2 0x505 0x505 q k s)

/-- R222, V.MIN. -/
def execVMin (q : Fin 4) (k : Fin 52) (s : State) : Host.Outcome State Fault Refusal :=
  .next (chordRow 2 0x506 0x506 q k s)

/-- R222, V.MAX. -/
def execVMax (q : Fin 4) (k : Fin 52) (s : State) : Host.Outcome State Fault Refusal :=
  .next (chordRow 2 0x507 0x507 q k s)

/-- R222, V.AND. -/
def execVAnd (q : Fin 4) (k : Fin 52) (s : State) : Host.Outcome State Fault Refusal :=
  .next (chordRow 2 0x508 0x508 q k s)

/-- R222, V.OR. -/
def execVOr (q : Fin 4) (k : Fin 52) (s : State) : Host.Outcome State Fault Refusal :=
  .next (chordRow 2 0x509 0x509 q k s)

/-- R222, V.XOR. -/
def execVXor (q : Fin 4) (k : Fin 52) (s : State) : Host.Outcome State Fault Refusal :=
  .next (chordRow 2 0x50A 0x50A q k s)

/-- R222, V.SHR. -/
def execVShr (q : Fin 4) (k : Fin 52) (s : State) : Host.Outcome State Fault Refusal :=
  .next (chordRow 2 0x510 0x51F q k s)

/-- R222, V.SHL. -/
def execVShl (q : Fin 4) (k : Fin 52) (s : State) : Host.Outcome State Fault Refusal :=
  .next (chordRow 2 0x520 0x52F q k s)

/-- R222, V.MAG2. -/
def execVMag2 (q : Fin 4) (k : Fin 52) (s : State) : Host.Outcome State Fault Refusal :=
  .next (chordRow 2 0x530 0x530 q k s)

/-- R223, V.MACS. -/
def execVMacs (q : Fin 4) (k : Fin 52) (s : State) : Host.Outcome State Fault Refusal :=
  .next (chordRow 2 0x540 0x540 q k s)

/-- R223, V.MULS. -/
def execVMuls (q : Fin 4) (k : Fin 52) (s : State) : Host.Outcome State Fault Refusal :=
  .next (chordRow 2 0x541 0x541 q k s)

/-- R223, V.KEEPGE. -/
def execVKeepge (q : Fin 4) (k : Fin 52) (s : State) : Host.Outcome State Fault Refusal :=
  .next (chordRow 2 0x600 0x600 q k s)

/-- R222, V.KEEPGEV. -/
def execVKeepgev (q : Fin 4) (k : Fin 52) (s : State) : Host.Outcome State Fault Refusal :=
  .next (chordRow 2 0x601 0x601 q k s)

/-- R223, V.RSUM. -/
def execVRsum (q : Fin 4) (k : Fin 52) (s : State) : Host.Outcome State Fault Refusal :=
  .next (chordRow 2 0x700 0x700 q k s)

/-- R223, V.RMAX. -/
def execVRmax (q : Fin 4) (k : Fin 52) (s : State) : Host.Outcome State Fault Refusal :=
  .next (chordRow 2 0x701 0x701 q k s)

/-- R223, V.RMIN. -/
def execVRmin (q : Fin 4) (k : Fin 52) (s : State) : Host.Outcome State Fault Refusal :=
  .next (chordRow 2 0x702 0x702 q k s)

/-- R223, V.RCNT. -/
def execVRcnt (q : Fin 4) (k : Fin 52) (s : State) : Host.Outcome State Fault Refusal :=
  .next (chordRow 2 0x703 0x703 q k s)

/-- R223, V.SLD. -/
def execVSld (q : Fin 4) (k : Fin 52) (s : State) : Host.Outcome State Fault Refusal :=
  .next (chordRow 2 0x800 0x8FF q k s)

/-- R239, V.SORT. -/
def execVSort (q : Fin 4) (k : Fin 52) (s : State) : Host.Outcome State Fault Refusal :=
  .next (chordRow 2 0x900 0x900 q k s)

end Sys2Proof.Machine
end

