-- ==== Sys2Proof/Machine/Dispatch.lean ====
section
/-! DEFINITION. The dispatch of every command to its meaning. -/

namespace Sys2Proof.Machine

def exec (i : Instr) (s : State) : Host.Outcome State Fault Refusal :=
  match i with
  | .modeSet d => Sys2Proof.Machine.execModeSet d s
  | .modeTransitionDone => Sys2Proof.Machine.execModeTransitionDone s
  | .safeEntryThermal => Sys2Proof.Machine.execSafeEntryThermal s
  | .safeEntrySupply e => Sys2Proof.Machine.execSafeEntrySupply e s
  | .drainTimeout => Sys2Proof.Machine.execDrainTimeout s
  | .safeCauseClear who value => Sys2Proof.Machine.execSafeCauseClear who value s
  | .functionD0Entry f => Sys2Proof.Machine.execFunctionD0Entry f s
  | .portCfg d => Sys2Proof.Machine.execPortCfg d s
  | .portTrainingAttemptTimeout p => Sys2Proof.Machine.execPortTrainingAttemptTimeout p s
  | .linkUp p => Sys2Proof.Machine.execLinkUp p s
  | .linkDown p => Sys2Proof.Machine.execLinkDown p s
  | .frameReceive p f => Sys2Proof.Machine.execFrameReceive p f s
  | .batchTimeout q slot => Sys2Proof.Machine.execBatchTimeout q slot s
  | .silenceTimeout q slot => Sys2Proof.Machine.execSilenceTimeout q slot s
  | .noBufferGapClose q slot => Sys2Proof.Machine.execNoBufferGapClose q slot s
  | .capRearm who p value => Sys2Proof.Machine.execCapRearm who p value s
  | .streamCfg d pb => Sys2Proof.Machine.execStreamCfg d pb s
  | .streamRelease d pb => Sys2Proof.Machine.execStreamRelease d pb s
  | .portTxSelect p err => Sys2Proof.Machine.execPortTxSelect p err s
  | .launchDue p err => Sys2Proof.Machine.execLaunchDue p err s
  | .launchLate p => Sys2Proof.Machine.execLaunchLate p s
  | .txSettleDone p => Sys2Proof.Machine.execTxSettleDone p s
  | .tbCfg d => Sys2Proof.Machine.execTbCfg d s
  | .tbRelease d => Sys2Proof.Machine.execTbRelease d s
  | .tbOffset d => Sys2Proof.Machine.execTbOffset d s
  | .tbStepSlew d => Sys2Proof.Machine.execTbStepSlew d s
  | .tbStepRelative d => Sys2Proof.Machine.execTbStepRelative d s
  | .tbStepAbsolute d => Sys2Proof.Machine.execTbStepAbsolute d s
  | .tbStepMeasured d => Sys2Proof.Machine.execTbStepMeasured d s
  | .holdoverTimeout n => Sys2Proof.Machine.execHoldoverTimeout n s
  | .ptpSyncReceive p m err from_ => Sys2Proof.Machine.execPtpSyncReceive p m err from_ s
  | .ptpFollowUpReceive p m from_ => Sys2Proof.Machine.execPtpFollowUpReceive p m from_ s
  | .ptpDelayReqReceive p m err from_ => Sys2Proof.Machine.execPtpDelayReqReceive p m err from_ s
  | .ptpDelayRespReceive p m from_ => Sys2Proof.Machine.execPtpDelayRespReceive p m from_ s
  | .ptpPdelayReqReceive p m err from_ => Sys2Proof.Machine.execPtpPdelayReqReceive p m err from_ s
  | .ptpPdelayRespReceive p m err from_ => Sys2Proof.Machine.execPtpPdelayRespReceive p m err from_ s
  | .ptpAnnounceReceive p m from_ => Sys2Proof.Machine.execPtpAnnounceReceive p m from_ s
  | .ptpAnnounceTimeout p => Sys2Proof.Machine.execPtpAnnounceTimeout p s
  | .ptpSyncInterval p => Sys2Proof.Machine.execPtpSyncInterval p s
  | .ptpAnnounceInterval p => Sys2Proof.Machine.execPtpAnnounceInterval p s
  | .ptpDelayReqInterval p => Sys2Proof.Machine.execPtpDelayReqInterval p s
  | .ptpFollowUpSend p => Sys2Proof.Machine.execPtpFollowUpSend p s
  | .lane0LockLoss p => Sys2Proof.Machine.execLane0LockLoss p s
  | .refinLoss => Sys2Proof.Machine.execRefinLoss s
  | .pllRelock => Sys2Proof.Machine.execPllRelock s
  | .ppsinEdge err => Sys2Proof.Machine.execPpsinEdge err s
  | .ppsoutPulse => Sys2Proof.Machine.execPpsoutPulse s
  | .ppsoutPulseEnd => Sys2Proof.Machine.execPpsoutPulseEnd s
  | .synCommit who m value => Sys2Proof.Machine.execSynCommit who m value s
  | .synRelockDone m => Sys2Proof.Machine.execSynRelockDone m s
  | .synGateRelease m => Sys2Proof.Machine.execSynGateRelease m s
  | .launchFrame d data => Sys2Proof.Machine.execLaunchFrame d data s
  | .launchPulse d => Sys2Proof.Machine.execLaunchPulse d s
  | .taskStart d => Sys2Proof.Machine.execTaskStart d s
  | .taskKick d => Sys2Proof.Machine.execTaskKick d s
  | .taskCancel d => Sys2Proof.Machine.execTaskCancel d s
  | .taskPrio d => Sys2Proof.Machine.execTaskPrio d s
  | .wakeTimeFire q k slot => Sys2Proof.Machine.execWakeTimeFire q k slot s
  | .messageArrive n => Sys2Proof.Machine.execMessageArrive n s
  | .fenceComplete q k slot => Sys2Proof.Machine.execFenceComplete q k slot s
  | .fenceTimeout q k slot => Sys2Proof.Machine.execFenceTimeout q k slot s
  | .debugHalt who q k value => Sys2Proof.Machine.execDebugHalt who q k value s
  | .debugResume who q k value => Sys2Proof.Machine.execDebugResume who q k value s
  | .debugStep who q k value => Sys2Proof.Machine.execDebugStep who q k value s
  | .debugWrite who q k hi lo => Sys2Proof.Machine.execDebugWrite who q k hi lo s
  | .scrubPass q k fixed found later bytes => Sys2Proof.Machine.execScrubPass q k fixed found later bytes s
  | .microStep q k => Sys2Proof.Machine.execMicroStep q k s
  | .tpQueueRoom q k => Sys2Proof.Machine.execTpQueueRoom q k s
  | .sDup q k => Sys2Proof.Machine.execSDup q k s
  | .sDrop q k => Sys2Proof.Machine.execSDrop q k s
  | .sSwap q k => Sys2Proof.Machine.execSSwap q k s
  | .sOver q k => Sys2Proof.Machine.execSOver q k s
  | .sRot q k => Sys2Proof.Machine.execSRot q k s
  | .sNip q k => Sys2Proof.Machine.execSNip q k s
  | .sPick q k => Sys2Proof.Machine.execSPick q k s
  | .sLit8 q k => Sys2Proof.Machine.execSLit8 q k s
  | .sLiti q k => Sys2Proof.Machine.execSLiti q k s
  | .sLitu q k => Sys2Proof.Machine.execSLitu q k s
  | .sLitw q k => Sys2Proof.Machine.execSLitw q k s
  | .sTag q k => Sys2Proof.Machine.execSTag q k s
  | .sOrigin q k => Sys2Proof.Machine.execSOrigin q k s
  | .sTageq q k => Sys2Proof.Machine.execSTageq q k s
  | .sToint q k => Sys2Proof.Machine.execSToint q k s
  | .sTouint q k => Sys2Proof.Machine.execSTouint q k s
  | .sTofix q k => Sys2Proof.Machine.execSTofix q k s
  | .sTodur q k => Sys2Proof.Machine.execSTodur q k s
  | .sTimeu q k => Sys2Proof.Machine.execSTimeu q k s
  | .sAddru q k => Sys2Proof.Machine.execSAddru q k s
  | .sMktime q k => Sys2Proof.Machine.execSMktime q k s
  | .sMkaddr q k => Sys2Proof.Machine.execSMkaddr q k s
  | .sMkclass q k => Sys2Proof.Machine.execSMkclass q k s
  | .sClassno q k => Sys2Proof.Machine.execSClassno q k s
  | .sScore q k => Sys2Proof.Machine.execSScore q k s
  | .sUnpk16 q k => Sys2Proof.Machine.execSUnpk16 q k s
  | .sUnpk8 q k => Sys2Proof.Machine.execSUnpk8 q k s
  | .sFlags q k => Sys2Proof.Machine.execSFlags q k s
  | .sPack16 q k => Sys2Proof.Machine.execSPack16 q k s
  | .sPack8 q k => Sys2Proof.Machine.execSPack8 q k s
  | .sMkpoison q k => Sys2Proof.Machine.execSMkpoison q k s
  | .sAdd q k => Sys2Proof.Machine.execSAdd q k s
  | .sSub q k => Sys2Proof.Machine.execSSub q k s
  | .sMul q k => Sys2Proof.Machine.execSMul q k s
  | .sDiv q k => Sys2Proof.Machine.execSDiv q k s
  | .sRem q k => Sys2Proof.Machine.execSRem q k s
  | .sNeg q k => Sys2Proof.Machine.execSNeg q k s
  | .sAbs q k => Sys2Proof.Machine.execSAbs q k s
  | .sMin q k => Sys2Proof.Machine.execSMin q k s
  | .sMax q k => Sys2Proof.Machine.execSMax q k s
  | .sAddw q k => Sys2Proof.Machine.execSAddw q k s
  | .sSubw q k => Sys2Proof.Machine.execSSubw q k s
  | .sSat16 q k => Sys2Proof.Machine.execSSat16 q k s
  | .sSat8 q k => Sys2Proof.Machine.execSSat8 q k s
  | .sAnd q k => Sys2Proof.Machine.execSAnd q k s
  | .sOr q k => Sys2Proof.Machine.execSOr q k s
  | .sXor q k => Sys2Proof.Machine.execSXor q k s
  | .sNot q k => Sys2Proof.Machine.execSNot q k s
  | .sShlv q k => Sys2Proof.Machine.execSShlv q k s
  | .sShrv q k => Sys2Proof.Machine.execSShrv q k s
  | .sShl q k => Sys2Proof.Machine.execSShl q k s
  | .sShr q k => Sys2Proof.Machine.execSShr q k s
  | .sAddi q k => Sys2Proof.Machine.execSAddi q k s
  | .sEq q k => Sys2Proof.Machine.execSEq q k s
  | .sNe q k => Sys2Proof.Machine.execSNe q k s
  | .sLt q k => Sys2Proof.Machine.execSLt q k s
  | .sLe q k => Sys2Proof.Machine.execSLe q k s
  | .sGt q k => Sys2Proof.Machine.execSGt q k s
  | .sGe q k => Sys2Proof.Machine.execSGe q k s
  | .sSel q k => Sys2Proof.Machine.execSSel q k s
  | .sLd q k => Sys2Proof.Machine.execSLd q k s
  | .sSt q k => Sys2Proof.Machine.execSSt q k s
  | .sLdm q k => Sys2Proof.Machine.execSLdm q k s
  | .sStm q k => Sys2Proof.Machine.execSStm q k s
  | .sXm q k => Sys2Proof.Machine.execSXm q k s
  | .sXlc q k => Sys2Proof.Machine.execSXlc q k s
  | .sXvls q k => Sys2Proof.Machine.execSXvls q k s
  | .sXvl q k => Sys2Proof.Machine.execSXvl q k s
  | .sNow q k => Sys2Proof.Machine.execSNow q k s
  | .cJmp q k => Sys2Proof.Machine.execCJmp q k s
  | .cBrt q k => Sys2Proof.Machine.execCBrt q k s
  | .cBrf q k => Sys2Proof.Machine.execCBrf q k s
  | .cCall q k => Sys2Proof.Machine.execCCall q k s
  | .cJmpl q k => Sys2Proof.Machine.execCJmpl q k s
  | .cBrtl q k => Sys2Proof.Machine.execCBrtl q k s
  | .cBrfl q k => Sys2Proof.Machine.execCBrfl q k s
  | .cLoopi1 q k => Sys2Proof.Machine.execCLoopi1 q k s
  | .cLoopi2 q k => Sys2Proof.Machine.execCLoopi2 q k s
  | .cLoops q k => Sys2Proof.Machine.execCLoops q k s
  | .cNop q k => Sys2Proof.Machine.execCNop q k s
  | .cEnd q k => Sys2Proof.Machine.execCEnd q k s
  | .cWait q k => Sys2Proof.Machine.execCWait q k s
  | .cYield q k => Sys2Proof.Machine.execCYield q k s
  | .cFence q k => Sys2Proof.Machine.execCFence q k s
  | .cRet q k => Sys2Proof.Machine.execCRet q k s
  | .cLeave q k => Sys2Proof.Machine.execCLeave q k s
  | .cJmps q k => Sys2Proof.Machine.execCJmps q k s
  | .cCalls q k => Sys2Proof.Machine.execCCalls q k s
  | .cRth q k => Sys2Proof.Machine.execCRth q k s
  | .cRthn q k => Sys2Proof.Machine.execCRthn q k s
  | .cWake q k => Sys2Proof.Machine.execCWake q k s
  | .cUnwake q k => Sys2Proof.Machine.execCUnwake q k s
  | .cWaker q k => Sys2Proof.Machine.execCWaker q k s
  | .cSetmask q k => Sys2Proof.Machine.execCSetmask q k s
  | .vDup q k => Sys2Proof.Machine.execVDup q k s
  | .vDrop q k => Sys2Proof.Machine.execVDrop q k s
  | .vSwap q k => Sys2Proof.Machine.execVSwap q k s
  | .vOver q k => Sys2Proof.Machine.execVOver q k s
  | .vRot q k => Sys2Proof.Machine.execVRot q k s
  | .vNip q k => Sys2Proof.Machine.execVNip q k s
  | .vLdv q k => Sys2Proof.Machine.execVLdv q k s
  | .vLda q k => Sys2Proof.Machine.execVLda q k s
  | .vStv q k => Sys2Proof.Machine.execVStv q k s
  | .vSta q k => Sys2Proof.Machine.execVSta q k s
  | .vLdb q k => Sys2Proof.Machine.execVLdb q k s
  | .vLdbw q k => Sys2Proof.Machine.execVLdbw q k s
  | .vLdq q k => Sys2Proof.Machine.execVLdq q k s
  | .vStq q k => Sys2Proof.Machine.execVStq q k s
  | .vSplat q k => Sys2Proof.Machine.execVSplat q k s
  | .vSplat16 q k => Sys2Proof.Machine.execVSplat16 q k s
  | .vSplat8 q k => Sys2Proof.Machine.execVSplat8 q k s
  | .vWlo q k => Sys2Proof.Machine.execVWlo q k s
  | .vWhi q k => Sys2Proof.Machine.execVWhi q k s
  | .vNarrow q k => Sys2Proof.Machine.execVNarrow q k s
  | .vToq q k => Sys2Proof.Machine.execVToq q k s
  | .vFromq q k => Sys2Proof.Machine.execVFromq q k s
  | .vAdd q k => Sys2Proof.Machine.execVAdd q k s
  | .vSub q k => Sys2Proof.Machine.execVSub q k s
  | .vMul q k => Sys2Proof.Machine.execVMul q k s
  | .vMulq q k => Sys2Proof.Machine.execVMulq q k s
  | .vAbs q k => Sys2Proof.Machine.execVAbs q k s
  | .vNeg q k => Sys2Proof.Machine.execVNeg q k s
  | .vMin q k => Sys2Proof.Machine.execVMin q k s
  | .vMax q k => Sys2Proof.Machine.execVMax q k s
  | .vAnd q k => Sys2Proof.Machine.execVAnd q k s
  | .vOr q k => Sys2Proof.Machine.execVOr q k s
  | .vXor q k => Sys2Proof.Machine.execVXor q k s
  | .vShr q k => Sys2Proof.Machine.execVShr q k s
  | .vShl q k => Sys2Proof.Machine.execVShl q k s
  | .vMag2 q k => Sys2Proof.Machine.execVMag2 q k s
  | .vMacs q k => Sys2Proof.Machine.execVMacs q k s
  | .vMuls q k => Sys2Proof.Machine.execVMuls q k s
  | .vKeepge q k => Sys2Proof.Machine.execVKeepge q k s
  | .vKeepgev q k => Sys2Proof.Machine.execVKeepgev q k s
  | .vRsum q k => Sys2Proof.Machine.execVRsum q k s
  | .vRmax q k => Sys2Proof.Machine.execVRmax q k s
  | .vRmin q k => Sys2Proof.Machine.execVRmin q k s
  | .vRcnt q k => Sys2Proof.Machine.execVRcnt q k s
  | .vSld q k => Sys2Proof.Machine.execVSld q k s
  | .vSort q k => Sys2Proof.Machine.execVSort q k s
  | .mDup q k => Sys2Proof.Machine.execMDup q k s
  | .mDrop q k => Sys2Proof.Machine.execMDrop q k s
  | .mSwap q k => Sys2Proof.Machine.execMSwap q k s
  | .mOver q k => Sys2Proof.Machine.execMOver q k s
  | .mFroms q k => Sys2Proof.Machine.execMFroms q k s
  | .mInc q k => Sys2Proof.Machine.execMInc q k s
  | .mDec q k => Sys2Proof.Machine.execMDec q k s
  | .mAdv q k => Sys2Proof.Machine.execMAdv q k s
  | .mTake q k => Sys2Proof.Machine.execMTake q k s
  | .mTakeany q k => Sys2Proof.Machine.execMTakeany q k s
  | .mDone q k => Sys2Proof.Machine.execMDone q k s
  | .mStrm q k => Sys2Proof.Machine.execMStrm q k s
  | .mHdr q k => Sys2Proof.Machine.execMHdr q k s
  | .mAlloc q k => Sys2Proof.Machine.execMAlloc q k s
  | .mFree q k => Sys2Proof.Machine.execMFree q k s
  | .mGive q k => Sys2Proof.Machine.execMGive q k s
  | .mSend q k => Sys2Proof.Machine.execMSend q k s
  | .mRecv q k => Sys2Proof.Machine.execMRecv q k s
  | .mTp q k => Sys2Proof.Machine.execMTp q k s
  | .mEmit q k => Sys2Proof.Machine.execMEmit q k s
  | .mFence q k => Sys2Proof.Machine.execMFence q k s
  | .mGather q k => Sys2Proof.Machine.execMGather q k s
  | .mScatter q k => Sys2Proof.Machine.execMScatter q k s
  | .mHcopy q k => Sys2Proof.Machine.execMHcopy q k s
  | .tpArriveQcu q k => Sys2Proof.Machine.execTpArriveQcu q k s
  | .qcuRelease q b => Sys2Proof.Machine.execQcuRelease q b s
  | .releaseMark q => Sys2Proof.Machine.execReleaseMark q s
  | .castleHoldEnd q => Sys2Proof.Machine.execCastleHoldEnd q s
  | .ccuInput => Sys2Proof.Machine.execCcuInput s
  | .ccuDecide c => Sys2Proof.Machine.execCcuDecide c s
  | .stepShadowEnd b => Sys2Proof.Machine.execStepShadowEnd b s
  | .triginEdge n err level => Sys2Proof.Machine.execTriginEdge n err level s
  | .triginStuck n => Sys2Proof.Machine.execTriginStuck n s
  | .triginUnstuck n => Sys2Proof.Machine.execTriginUnstuck n s
  | .triginFifoPop who n => Sys2Proof.Machine.execTriginFifoPop who n s
  | .triginFifoFlush who n value => Sys2Proof.Machine.execTriginFifoFlush who n value s
  | .fastStretchEnd k inp veto => Sys2Proof.Machine.execFastStretchEnd k inp veto s
  | .fastOutputEnd k => Sys2Proof.Machine.execFastOutputEnd k s
  | .delayTrack k move => Sys2Proof.Machine.execDelayTrack k move s
  | .trigoutPulseEnd n => Sys2Proof.Machine.execTrigoutPulseEnd n s
  | .trigoutLaunchDue n err => Sys2Proof.Machine.execTrigoutLaunchDue n err s
  | .trigCondSet d pb => Sys2Proof.Machine.execTrigCondSet d pb s
  | .condRelease d pb => Sys2Proof.Machine.execCondRelease d pb s
  | .trigFastSet d => Sys2Proof.Machine.execTrigFastSet d s
  | .trigFastApply => Sys2Proof.Machine.execTrigFastApply s
  | .fastRelease d => Sys2Proof.Machine.execFastRelease d s
  | .lateCapRearm who q value => Sys2Proof.Machine.execLateCapRearm who q value s
  | .linkHelloTx p => Sys2Proof.Machine.execLinkHelloTx p s
  | .beaconTx => Sys2Proof.Machine.execBeaconTx s
  | .linkHelloTimeout p => Sys2Proof.Machine.execLinkHelloTimeout p s
  | .beaconTimeout k => Sys2Proof.Machine.execBeaconTimeout k s
  | .gcmTpReceive p g good => Sys2Proof.Machine.execGcmTpReceive p g good s
  | .gcmTaReceive p g good => Sys2Proof.Machine.execGcmTaReceive p g good s
  | .gcmRecallReceive p g good => Sys2Proof.Machine.execGcmRecallReceive p g good s
  | .gcmReplyReceive p g good => Sys2Proof.Machine.execGcmReplyReceive p g good s
  | .gcmHelloReceive p g good => Sys2Proof.Machine.execGcmHelloReceive p g good s
  | .gcmPackTimeout k => Sys2Proof.Machine.execGcmPackTimeout k s
  | .shedLevelUp q => Sys2Proof.Machine.execShedLevelUp q s
  | .shedLevelDown q => Sys2Proof.Machine.execShedLevelDown q s
  | .hbmRefresh q ns allowed => Sys2Proof.Machine.execHbmRefresh q ns allowed s
  | .streamQuota d => Sys2Proof.Machine.execStreamQuota d s
  | .bufRelease d => Sys2Proof.Machine.execBufRelease d s
  | .bufFaultRearm who q value => Sys2Proof.Machine.execBufFaultRearm who q value s
  | .evbTaTake q => Sys2Proof.Machine.execEvbTaTake q s
  | .eventBuildStart q n => Sys2Proof.Machine.execEventBuildStart q n s
  | .buildWaitTimeout q n => Sys2Proof.Machine.execBuildWaitTimeout q n s
  | .sizesComplete n posts => Sys2Proof.Machine.execSizesComplete n posts s
  | .evbRegionDone q e => Sys2Proof.Machine.execEvbRegionDone q e s
  | .recordDelivery n => Sys2Proof.Machine.execRecordDelivery n s
  | .recordHoldTimeout n => Sys2Proof.Machine.execRecordHoldTimeout n s
  | .attachHoldExpire q => Sys2Proof.Machine.execAttachHoldExpire q s
  | .recallLocal d => Sys2Proof.Machine.execRecallLocal d s
  | .recallDevice d => Sys2Proof.Machine.execRecallDevice d s
  | .recallAll d => Sys2Proof.Machine.execRecallAll d s
  | .evtRoute d pb => Sys2Proof.Machine.execEvtRoute d pb s
  | .profileRelease d pb => Sys2Proof.Machine.execProfileRelease d pb s
  | .quotaSet d => Sys2Proof.Machine.execQuotaSet d s
  | .doorbellPoll f words => Sys2Proof.Machine.execDoorbellPoll f words s
  | .doorbellInvalidate f line words => Sys2Proof.Machine.execDoorbellInvalidate f line words s
  | .nudge f words => Sys2Proof.Machine.execNudge f words s
  | .ringEnable who f slot value => Sys2Proof.Machine.execRingEnable who f slot value s
  | .ringDisable who f slot value => Sys2Proof.Machine.execRingDisable who f slot value s
  | .ringResume who f slot x => Sys2Proof.Machine.execRingResume who f slot x s
  | .freeEntry f r entry => Sys2Proof.Machine.execFreeEntry f r entry s
  | .coalTimeout f slot => Sys2Proof.Machine.execCoalTimeout f slot s
  | .msixUnmask f v => Sys2Proof.Machine.execMsixUnmask f v s
  | .flr f => Sys2Proof.Machine.execFlr f s
  | .dmaReadFault f slots => Sys2Proof.Machine.execDmaReadFault f slots s
  | .nop d => Sys2Proof.Machine.execNop d s
  | .echo d => Sys2Proof.Machine.execEcho d s
  | .fenceExec d words => Sys2Proof.Machine.execFenceExec d words s
  | .fenceFunc d words => Sys2Proof.Machine.execFenceFunc d words s
  | .fenceData d words => Sys2Proof.Machine.execFenceData d words s
  | .fenceTime d words => Sys2Proof.Machine.execFenceTime d words s
  | .fenceTimeReached => Sys2Proof.Machine.execFenceTimeReached s
  | .jrnlSync d => Sys2Proof.Machine.execJrnlSync d s
  | .statsSnap d span => Sys2Proof.Machine.execStatsSnap d span s
  | .counterReadStream d => Sys2Proof.Machine.execCounterReadStream d s
  | .counterReadFunction d => Sys2Proof.Machine.execCounterReadFunction d s
  | .engLoad d data => Sys2Proof.Machine.execEngLoad d data s
  | .castleEngine d => Sys2Proof.Machine.execCastleEngine d s
  | .castleSteward d => Sys2Proof.Machine.execCastleSteward d s
  | .castleSlice d => Sys2Proof.Machine.execCastleSlice d s
  | .castlePch d => Sys2Proof.Machine.execCastlePch d s
  | .repairCommit d => Sys2Proof.Machine.execRepairCommit d s
  | .flashWrite d data => Sys2Proof.Machine.execFlashWrite d data s
  | .flashErase d => Sys2Proof.Machine.execFlashErase d s
  | .fwStage d data => Sys2Proof.Machine.execFwStage d data s
  | .fwSwitchNextBoot x => Sys2Proof.Machine.execFwSwitchNextBoot x s
  | .fwSwitchLive x => Sys2Proof.Machine.execFwSwitchLive x s
  | .pacePeriod low bus => Sys2Proof.Machine.execPacePeriod low bus s
  | .paceEnable who value bus => Sys2Proof.Machine.execPaceEnable who value bus s
  | .railSet who r value bus => Sys2Proof.Machine.execRailSet who r value bus s
  | .wearAverage readings => Sys2Proof.Machine.execWearAverage readings s
  | .laneEyeMeasure n margin => Sys2Proof.Machine.execLaneEyeMeasure n margin s
  | .castleAutoStart again kind n => Sys2Proof.Machine.execCastleAutoStart again kind n s
  | .engineCastleFreeze unit passes dirty => Sys2Proof.Machine.execEngineCastleFreeze unit passes dirty s
  | .engineCastleResume unit => Sys2Proof.Machine.execEngineCastleResume unit s
  | .castleVerifyDone unit good => Sys2Proof.Machine.execCastleVerifyDone unit good s
  | .repairMapCommit kind q good => Sys2Proof.Machine.execRepairMapCommit kind q good s
  | .pchEvacDone st => Sys2Proof.Machine.execPchEvacDone st s
  | .bankCastleDone q => Sys2Proof.Machine.execBankCastleDone q s
  | .wireCastle q link set_ => Sys2Proof.Machine.execWireCastle q link set_ s
  | .powerWarning => Sys2Proof.Machine.execPowerWarning s
  | .powerWarningClear => Sys2Proof.Machine.execPowerWarningClear s
  | .powerOnReset => Sys2Proof.Machine.execPowerOnReset s
  | .brownOut => Sys2Proof.Machine.execBrownOut s
  | .sysrstAssert us => Sys2Proof.Machine.execSysrstAssert us s
  | .sysrstRelease us => Sys2Proof.Machine.execSysrstRelease us s
  | .perstAssert us => Sys2Proof.Machine.execPerstAssert us s
  | .perstRelease us => Sys2Proof.Machine.execPerstRelease us s
  | .hotReset => Sys2Proof.Machine.execHotReset s
  | .watchdogExpire => Sys2Proof.Machine.execWatchdogExpire s
  | .thermalTrip temp => Sys2Proof.Machine.execThermalTrip temp s
  | .thermalTripRelease temp => Sys2Proof.Machine.execThermalTripRelease temp s
  | .jtagDevrst => Sys2Proof.Machine.execJtagDevrst s
  | .rstSwL1 who => Sys2Proof.Machine.execRstSwL1 who s
  | .rstSwL2 who => Sys2Proof.Machine.execRstSwL2 who s
  | .rstSwL3 who target => Sys2Proof.Machine.execRstSwL3 who target s
  | .rstSwL4 who target => Sys2Proof.Machine.execRstSwL4 who target s
  | .bringupReleaseStep sfdp bus => Sys2Proof.Machine.execBringupReleaseStep sfdp bus s
  | .spiTransfer who n value => Sys2Proof.Machine.execSpiTransfer who n value s
  | .spiTransferDone n input => Sys2Proof.Machine.execSpiTransferDone n input s
  | .spiFifoResume n input => Sys2Proof.Machine.execSpiFifoResume n input s
  | .spiTxPush who n value => Sys2Proof.Machine.execSpiTxPush who n value s
  | .spiRxPop who n => Sys2Proof.Machine.execSpiRxPop who n s
  | .spiTxFlush who n value => Sys2Proof.Machine.execSpiTxFlush who n value s
  | .spiRxFlush who n value => Sys2Proof.Machine.execSpiRxFlush who n value s
  | .spiDisable who n value => Sys2Proof.Machine.execSpiDisable who n value s
  | .spiTargetSelect sckHigh reads => Sys2Proof.Machine.execSpiTargetSelect sckHigh reads s
  | .spiTargetWord word reads => Sys2Proof.Machine.execSpiTargetWord word reads s
  | .spiTargetDeselect n word reads => Sys2Proof.Machine.execSpiTargetDeselect n word reads s
  | .flashPageFlush => Sys2Proof.Machine.execFlashPageFlush s
  | .flashStatusPoll busy => Sys2Proof.Machine.execFlashStatusPoll busy s
  | .flashOpTimeout => Sys2Proof.Machine.execFlashOpTimeout s
  | .configRecordRewrite good => Sys2Proof.Machine.execConfigRecordRewrite good s
  | .tw0AddressMatch addr => Sys2Proof.Machine.execTw0AddressMatch addr s
  | .tw0Sleep => Sys2Proof.Machine.execTw0Sleep s
  | .tw0StretchExpire beforeByte => Sys2Proof.Machine.execTw0StretchExpire beforeByte s
  | .tw0Id => Sys2Proof.Machine.execTw0Id s
  | .tw0Status => Sys2Proof.Machine.execTw0Status s
  | .tw0Temp => Sys2Proof.Machine.execTw0Temp s
  | .tw0Rails => Sys2Proof.Machine.execTw0Rails s
  | .tw0Result => Sys2Proof.Machine.execTw0Result s
  | .tw0Reset w pecIn => Sys2Proof.Machine.execTw0Reset w pecIn s
  | .tw0Safe w pecIn => Sys2Proof.Machine.execTw0Safe w pecIn s
  | .tw0AttnClr w pecIn => Sys2Proof.Machine.execTw0AttnClr w pecIn s
  | .tw0RegRead ofs => Sys2Proof.Machine.execTw0RegRead ofs s
  | .attnRequest aborted => Sys2Proof.Machine.execAttnRequest aborted s
  | .attnRepeat => Sys2Proof.Machine.execAttnRepeat s
  | .attnCauseClear who value => Sys2Proof.Machine.execAttnCauseClear who value s
  | .twStuck tw1 scl code freed => Sys2Proof.Machine.execTwStuck tw1 scl code freed s
  | .timerEnable who n value => Sys2Proof.Machine.execTimerEnable who n value s
  | .timerMatch n => Sys2Proof.Machine.execTimerMatch n s
  | .timerReload n => Sys2Proof.Machine.execTimerReload n s
  | .timerCapture pin rising => Sys2Proof.Machine.execTimerCapture pin rising s
  | .timerTimeFire n => Sys2Proof.Machine.execTimerTimeFire n s
  | .timerPinLevel who value => Sys2Proof.Machine.execTimerPinLevel who value s
  | .timerReloadCommit who n hi lo => Sys2Proof.Machine.execTimerReloadCommit who n hi lo s
  | .timerCmpCommit who n hi lo => Sys2Proof.Machine.execTimerCmpCommit who n hi lo s
  | .registerWrite who bar2 ofs shape bus => Sys2Proof.Machine.execRegisterWrite who bar2 ofs shape bus s
  | .jtagRegacc ofs value => Sys2Proof.Machine.execJtagRegacc ofs value s
  | .setupFaultClear who value => Sys2Proof.Machine.execSetupFaultClear who value s
  | .powerFail => Sys2Proof.Machine.execPowerFail s
  | .hostLinkUp gen width flit cxl cacheEn ats msix => Sys2Proof.Machine.execHostLinkUp gen width flit cxl cacheEn ats msix s
  | .functionD3hotEntry f l12 => Sys2Proof.Machine.execFunctionD3hotEntry f l12 s
  | .thermalWarning temps => Sys2Proof.Machine.execThermalWarning temps s
  | .loReadLatch who bar2 ofs n => Sys2Proof.Machine.execLoReadLatch who bar2 ofs n s
  | .illegalChord q k => Sys2Proof.Machine.execIllegalChord q k s
  | .tw0InvalidTransfer code badForm => Sys2Proof.Machine.execTw0InvalidTransfer code badForm s
  | .reservedOpcode op d => Sys2Proof.Machine.execReservedOpcode op d s

end Sys2Proof.Machine
end

