-- ==== Sys2Proof/Machine/Tick.lean ====
section
/-! DEFINITION. One tick of the 625 MHz device clock: what happens whatever is commanded. -/

namespace Sys2Proof.Machine

/-- One period of 1.6 ns (R112): the time bases count, the synthesizers' outputs follow (R145), the timers take their source edges (R526), the write buffers drain (R312), TRIGIO's delays
and durations run (R264–R269), the backlog monitors follow (R416), and the rings show whether they are held (R355, R358). [DESIGN CHOICE, log 3] -/
def blockTick (s : State) : State :=
  let a := (List.range 4).foldl (fun t m => synTick s m t) (timeTick { s with ticks := s.ticks + 1 })
  if centralUp a then
    let b := tmrTick s a
    let c := (List.range 4).foldl (fun s q => histTick q s) b
    showHeld (paceTick (trigTick c))
  else a

end Sys2Proof.Machine
end

