-- ==== Sys2Proof/Machine/Step.lean ====
section
/-! DEFINITION. One step of the block: the command at the front of the queue, or one tick of the clock when none waits. -/

namespace Sys2Proof.Machine

/-- Takes the front command and runs it with the queue's rest; with no command waiting, the clock ticks once. [DESIGN CHOICE, log 1; DESIGN CHOICE, log 3] -/
def step (s : State) : Host.Outcome State Fault Refusal :=
  match s.pending with
  | [] => .next (blockTick s)
  | c :: q => exec c { s with pending := q }

/-- The command that a word spells, put at the front of the queue; the rows of the table give no bits, so no word spells one. [DESIGN CHOICE, log 29] -/
def State.withFetchWord (s : State) (nbits w : Nat) : State :=
  match decodeTableWord nbits w with
  | some c => { s with pending := c :: s.pending }
  | none => s

end Sys2Proof.Machine
end

