-- ==== Sys2Proof/Safety.lean ====
section
/-! DEFINITION. What counts as a sound state of the block and a safe step, in the terms claims use. -/

namespace Sys2Proof.Machine

/-- A step went on: the block never stops of itself. -/
def ran : Host.Outcome State Fault Refusal → Bool
  | .next _ => true
  | _ => false

/-- The register store holds only DWs that differ from their reset value, in rising order of offset (R13). -/
def regsWf (s : State) : Bool := mwf s.regs && s.regs.all (fun e => e.2.toNat != resetOf e.1)

/-- Every counter is a 64-bit value (R13). -/
def cntsWf (s : State) : Bool := mwf s.cnts && s.cnts.all (fun e => decide (e.2 < 2 ^ 64))

/-! ### An engine at a chord boundary -/

/-- What a chord of task slot n of a physical engine slot reads (R198). -/
def chordCtx (q : Fin 4) (k : Fin 52) (n : Nat) (s : State) : ECtx :=
  { key := ekey q k, slot := n, pc := (task (ekey q k) n s).pc, s := s }

/-- Engine slot k of quadrant q runs task slot n and stands between two of its chords: nothing stops it (R188), no fence, breakpoint,
wait, micro-routine or faulty location is in the way, and the scheduler goes on with the same slot (R174). -/
def atBoundary (q : Fin 4) (k : Fin 52) (n : Nat) (s : State) : Bool :=
  let key := ekey q k
  let e := eng key s
  let t := task key n s
  engLive key s && ! engStopped key s && decide (selectSlot key s = some n) && decide (e.running = some n)
    && decide (t.state = .running) && t.trapHeld.isNone && ! t.inWait && ! t.tpWait && ! t.mrActive
    && ! bpHit key t.pc s && e.haltAt.isNone && e.bad.isEmpty && e.soft.isEmpty

/-- A chord of one syllable: string, op field, literal and length in program words. -/
def isLone (str op lit len : Nat) (d : Dec) : Bool :=
  match d with
  | .ok [y] l => decide (y.str = str ∧ y.op = op ∧ y.lit = lit ∧ l = len)
  | _ => false

/-- The next chord of the slot is that one syllable. -/
def nextAt (str op lit len : Nat) (q : Fin 4) (k : Fin 52) (n : Nat) (s : State) : Bool :=
  atBoundary q k n s && isLone str op lit len (nextChord (ekey q k) n s)

/-- It is, and the program store goes on behind it (R197). -/
def nextIs (str op lit len : Nat) (q : Fin 4) (k : Fin 52) (n : Nat) (s : State) : Bool :=
  nextAt str op lit len q k n s && decide ((task (ekey q k) n s).pc + len ≤ 65535)

/-- The slot after a chord that goes on to the next address, loops permitting (R197, R213): `f` is what the chord does to the task. -/
def pastChord (len : Nat) (f : Task → Task) (t : Task) : Task :=
  let p := fallTo (t.pc + len) t.loops
  { f t with pc := p.1, loops := p.2, mrp := 0, begun := true }

/-- The state after such a chord: the slot, and CHORDS counted (R192). -/
def chordDone (q : Fin 4) (k : Fin 52) (n len : Nat) (f : Task → Task) (s : State) : State :=
  bump (engCnt (ekey q k) 0) (setTask (ekey q k) n (pastChord len f) s)

/-- The state after a chord that does `f` to its task, the next address included. -/
def chordTo (q : Fin 4) (k : Fin 52) (n : Nat) (f : Task → Task) (s : State) : State :=
  bump (engCnt (ekey q k) 0) (setTask (ekey q k) n (fun t => { f t with mrp := 0, begun := true }) s)

/-! ### Rows of single operations -/

/-- The stacks of a task slot. -/
def sStk (q : Fin 4) (k : Fin 52) (n : Nat) (s : State) : List EWord := (task (ekey q k) n s).sStk
def vStk (q : Fin 4) (k : Fin 52) (n : Nat) (s : State) : List Vec := (task (ekey q k) n s).vStk
def mStk (q : Fin 4) (k : Fin 52) (n : Nat) (s : State) : List EWord := (task (ekey q k) n s).mStk

/-- After a chord that only gave the slot a new S stack. -/
def sDone (q : Fin 4) (k : Fin 52) (n len : Nat) (st : List EWord) (s : State) : State :=
  chordDone q k n len (fun t => { t with sStk := st }) s

/-- An operation of the S string with one op value, on a stack that begins with `ins` (top first): its row answers the state past its
chord, with `outs` of the chord's address in place of `ins`, and nothing else changed. -/
def sRow (i : Fin 4 → Fin 52 → Instr) (op : Nat) (ins : List EWord) (outs : Nat → List EWord) : Prop :=
  ∀ (q : Fin 4) (k : Fin 52) (n lit len : Nat) (s : State) (r : List EWord),
    nextIs 1 op lit len q k n s = true → sStk q k n s = ins ++ r → r.length + (outs 0).length ≤ 16 →
    exec (i q k) s = .next (sDone q k n len (outs (task (ekey q k) n s).pc ++ r) s)

/-- The word may be copied: its tag is not reserved (R160). -/
def copyable (w : EWord) : Prop := tagOf w ≠ .reserved

/-- The ranges of the scalar types (R159). -/
def I32 (v : Int) : Prop := -2147483648 ≤ v ∧ v ≤ 2147483647
def U32 (v : Nat) : Prop := v < 2 ^ 32
def F36 (v : Int) : Prop := -34359738368 ≤ v ∧ v ≤ 34359738367

/-- POISON with origin RANGE and the chord address's low bits (R163). -/
def poisonRange (pc : Nat) : EWord := mkW .poison (0x2000 + pc % 4096)

/-- A result in its range, else POISON RANGE (R205). -/
def intOr (v : Int) (pc : Nat) : EWord := if -2147483648 ≤ v ∧ v ≤ 2147483647 then wInt v else poisonRange pc
def uintOr (v : Int) (pc : Nat) : EWord := if 0 ≤ v ∧ v < 2 ^ 32 then wUint v.toNat else poisonRange pc
def durOr (v : Int) (pc : Nat) : EWord := if -2147483648 ≤ v ∧ v ≤ 2147483647 then wDur v else poisonRange pc
def fixOr (v : Int) (pc : Nat) : EWord := if -34359738368 ≤ v ∧ v ≤ 34359738367 then wFix v else poisonRange pc
def addrOr (sp : Nat) (v : Int) (pc : Nat) : EWord := if 0 ≤ v ∧ v < 2 ^ 32 then wAddr sp v.toNat else poisonRange pc

/-- A 32-bit value, wrapped to int32 (R205). -/
def wrap32 (v : Int) : Int := (v + 2147483648) % 4294967296 - 2147483648

/-- An S16X2 word of two samples and their flags of R83, and an S8X4 word of four samples and flag bits (R159). -/
def wS16x2 (a b : Int) (f g : Nat) : EWord := mkW .s16x2 (wrapN 16 a + wrapN 16 b * 2 ^ 16 + f * 2 ^ 32 + g * 2 ^ 34)
def wS8x4 (a b c d : Int) (f : Nat) : EWord :=
  mkW .s8x4 (wrapN 8 a + wrapN 8 b * 2 ^ 8 + wrapN 8 c * 2 ^ 16 + wrapN 8 d * 2 ^ 24 + f * 2 ^ 32)
/-- A CLASS word of a class and a score (R159). -/
def wClass (c sc : Nat) : EWord := mkW .class_ (c * 65536 + sc)
/-- A sample taken into a scalar word: POISON with origin INGEST when it is flagged GAP or POISON (R163, R204). -/
def sampleOr (flagged : Bool) (v : Int) : EWord := if flagged then mkW .poison 0x1000 else wInt v
/-- A value clamped between two bounds. -/
def clampTo (lo hi v : Int) : Int := max lo (min hi v)

/-- After a chord that only gave the slot a new V stack; an operation other than a stack operation counts its lanes (R423). -/
def vDone (q : Fin 4) (k : Fin 52) (n len : Nat) (works : Bool) (st : List Vec) (s : State) : State :=
  bump (engCnt (ekey q k) 0) ((if works then bumpN (paceCnt (11 + q)) 128 else id)
    (setTask (ekey q k) n (pastChord len (fun t => { t with vStk := st })) s))

/-- An operation of the V string with one op value, as `sRow`, with the words that it reads from the tops of M and S by XFER. -/
def vRow (i : Fin 4 → Fin 52 → Instr) (op : Nat) (m w : Option EWord) (ins outs : List Vec) : Prop :=
  ∀ (q : Fin 4) (k : Fin 52) (n lit len : Nat) (s : State) (r : List Vec),
    nextIs 2 op lit len q k n s = true → vStk q k n s = ins ++ r → r.length + outs.length ≤ 8 →
    (∀ x, m = some x → (mStk q k n s).head? = some x) → (∀ x, w = some x → (sStk q k n s).head? = some x) →
    exec (i q k) s = .next (vDone q k n len (decide (6 ≤ op)) (outs ++ r) s)

/-- The vector may be copied, and it may be worked on: its tag is not reserved, and not EMPTY (R218). -/
def vCopyable (v : Vec) : Prop := v.tag ≤ 4
def vLanes (v : Vec) : Prop := 1 ≤ v.tag ∧ v.tag ≤ 4

/-- A location of an engine's vector store. -/
def vecAt (q : Fin 4) (k : Fin 52) (a : Nat) (s : State) : Vec := mget {} (eng (ekey q k) s).vec a
/-- A location of an engine's data store. -/
def dataAt (q : Fin 4) (k : Fin 52) (a : Nat) (s : State) : EWord := mget emptyWord (eng (ekey q k) s).data a

/-- Lanes of two vectors combined by a rule on their values; the result saturates and takes the higher flag (R219). -/
def zipLanes (g : Int → Int → Int) (x y : Vec) : Vec :=
  mkVec x.tag (List.zipWith (fun a b => satLane (laneBits x.tag) (g a.1 b.1) (max a.2 b.2)) (lanes x) (lanes y))
/-- Lanes of one vector, each by a rule, into a tag, saturating (R219). -/
def mapLanes (tag : Nat) (g : Int → Int) (x : Vec) : Vec :=
  mkVec tag ((lanes x).map (fun a => satLane (laneBits tag) (g a.1) a.2))

/-- After a chord that gave the slot a new M stack and did `f` to the rest of its task. -/
def mPast (q : Fin 4) (k : Fin 52) (n len : Nat) (st : List EWord) (f : Task → Task) (s : State) : State :=
  chordDone q k n len (fun t => { f t with mStk := st }) s

/-- An operation of the M string with one op value, as `sRow`. -/
def mRow (i : Fin 4 → Fin 52 → Instr) (op : Nat) (w : Option EWord) (ins outs : List EWord) : Prop :=
  ∀ (q : Fin 4) (k : Fin 52) (n lit len : Nat) (s : State) (r : List EWord),
    nextIs 3 op lit len q k n s = true → mStk q k n s = ins ++ r → r.length + outs.length ≤ 8 →
    (∀ x, w = some x → (sStk q k n s).head? = some x) →
    exec (i q k) s = .next (mPast q k n len (outs ++ r) id s)

/-- The word may lie on M (R157). -/
def mWord (w : EWord) : Prop := tagOf w = .addr ∨ tagOf w = .handle ∨ tagOf w = .stream

/-- The slot's status word in the data store (R226). -/
def withStatus (q : Fin 4) (k : Fin 52) (n : Nat) (st : Status) (aux : Nat) (s : State) : State :=
  dataWr (ekey q k) (0xFFF0 + n) (wUint (aux * 65536 + statusCode st)) s

/-- The owner code of a task slot of the logical engine that a physical slot serves (R319). -/
def ownerCode (q : Fin 4) (k : Fin 52) (n : Nat) (s : State) : Nat := ownEngine ((eng (ekey q k) s).logical.getD 0 % 48) n

/-- The handle names a live buffer of the engine's quadrant and of a kind, with its present generation (R227). -/
def names (q : Fin 4) (h : EWord) (pool key : Nat) (s : State) : Prop :=
  h = wHandle key (buf key s).gen ∧ key < 2 ^ 24 ∧ hQuad key = q.val ∧ hPool key = pool ∧ (buf key s).gen < 4096
    ∧ (buf key s).owner ≠ 0
/-- The slot borrows the buffer, and the slot owns it (R227). -/
def borrows (q : Fin 4) (k : Fin 52) (n key : Nat) (s : State) : Prop :=
  ∃ l ∈ (task (ekey q k) n s).loans, l.buf = key ∧ l.gen = (buf key s).gen
def owns (q : Fin 4) (k : Fin 52) (n key : Nat) (s : State) : Prop := (buf key s).owner = ownerCode q k n s

/-! ### Traps (R181) -/

/-- The slot after a trap whose action is to stop, in a task that no host function started: the record, TRAPS counted, TRAPPED,
its V stack saved (R166). -/
def trappedStop (q : Fin 4) (k : Fin 52) (n code str detail : Nat) (s : State) : State :=
  setEng (ekey q k) (fun e => { e with tasks := mmod {} e.tasks n (fun t => { t with state := .trapped }), running := none })
    (saveV (ekey q k) n (bump (engCnt (ekey q k) 2) (setTask (ekey q k) n (fun t => { t with
      trapCode := code, trapStr := str, trapNested := false, trapAddr := t.pc, trapDetail := detail, begun := true }) s)))

/-- The slot after a trap whose action is a handler: the record, the code and the chord's address on S, the handler's entry, and the
latch entries written with them good again (R168). -/
def trappedHandler (q : Fin 4) (k : Fin 52) (n code str detail : Nat) (succ : Option Nat) (s : State) : State :=
  let t := task (ekey q k) n s
  let marks (m : FMap Bool) : FMap Bool :=
    wroteMarks 3 n t.sStk.length 15 (wroteMarks 5 n (4 + t.rets.length) 11 (wroteMarks 5 n 15 15 m))
  setEng (ekey q k) (fun e => { e with bad := marks e.bad }) (bump (engCnt (ekey q k) 2) (setTask (ekey q k) n (fun t => { t with
    trapCode := code, trapStr := str, trapNested := false, trapAddr := t.pc, trapDetail := detail, begun := true,
    sStk := wAddr 2 t.pc :: wUint code :: t.sStk, rets := .handler t.pc succ t.loops.length :: t.rets, pc := t.handler }) s))

/-- A trap of the slot's chord, by the task's action: `succ` is where the chord after it lies, where its length is known (R181, R216). -/
def traps (i : Instr) (q : Fin 4) (k : Fin 52) (n code str detail : Nat) (succ : Option Nat) (s s' : State) : Prop :=
  bit (reg (dbgCtl (ekey q k)) s) 29 = false →
    ((task (ekey q k) n s).handlerOn = false → (task (ekey q k) n s).src = none → exec i s = .next (trappedStop q k n code str detail s'))
    ∧ ((task (ekey q k) n s).handlerOn = true → inHandler (task (ekey q k) n s) = false → (sStk q k n s).length ≤ 14 →
      exec i s = .next (trappedHandler q k n code str detail succ s'))

/-- As `atBoundary`, in an engine that may hold uncorrectable locations. -/
def atBoundaryBad (q : Fin 4) (k : Fin 52) (n : Nat) (s : State) : Bool :=
  atBoundary q k n (setEng (ekey q k) (fun e => { e with bad := [] }) s) && decide (selectSlot (ekey q k) s = some n)

/-! ### Micro-routines (R235) -/

/-- Engine slot k stands between two steps of a micro-routine of task slot n, whose chord is that one syllable. -/
def midRoutine (str op len : Nat) (q : Fin 4) (k : Fin 52) (n : Nat) (s : State) : Bool :=
  let key := ekey q k
  let e := eng key s
  let t := task key n s
  engLive key s && ! engStopped key s && decide (selectSlot key s = some n) && decide (e.running = some n)
    && decide (t.state = .running) && t.trapHeld.isNone && ! t.inWait && ! t.tpWait && t.mrActive && decide (t.mr.pc = t.pc)
    && decide (t.mr.inH = inHandler t ∧ t.mr.syl = str * 8192 + op) && e.haltAt.isNone && e.bad.isEmpty && e.soft.isEmpty && isLone str op 0 len (nextChord key n s)
    && decide (t.pc + len ≤ 65535)

/-- Step kk of a routine is what a command runs next: its first step by its own row, any later one as MICRO_STEP, with what the routine
keeps. -/
def stepIs (i first : Instr) (q : Fin 4) (k : Fin 52) (str op len n kk : Nat) (m : MrSt) (s : State) : Prop :=
  (i = first ∧ kk = 0 ∧ nextIs str op 0 len q k n s = true)
    ∨ (i = .microStep q k ∧ 0 < kk ∧ midRoutine str op len q k n s = true ∧ (task (ekey q k) n s).mrp = kk
      ∧ (task (ekey q k) n s).mr = { m with inH := inHandler (task (ekey q k) n s), syl := str * 8192 + op })

/-- After a step that is not the last: the routine goes on at a step. -/
def stepOn (q : Fin 4) (k : Fin 52) (n str op next : Nat) (m : MrSt) (s : State) : State :=
  setTask (ekey q k) n (fun t => { t with mrActive := true, mrp := next, mr := { m with back := false, inH := inHandler t, syl := str * 8192 + op }, begun := true }) s

/-- After the last step: the chord is complete. -/
def stepsDone (q : Fin 4) (k : Fin 52) (n len : Nat) (s : State) : State := chordDone q k n len (fun t => { t with mrActive := false }) s

/-! ### Served descriptors (R383, R394, R398, R402) -/

/-- The device may read the descriptor now, and it passes the checks that all commands share (R382, R383). -/
def passes (c : CmdSpec) (d : Desc) (s : State) : Bool :=
  canServe d s && c.pb.isSome && ! rsvdBad c d && ! notPermitted c d s && ! staleVer c d s && ! c.objs.any (fun o => objInReset o s)

/-- What was driven to the outside since a state. [DESIGN CHOICE, log 4] -/
def outSince (s t : State) : List Output := t.out.drop s.out.length

/-- The descriptor was read: the device index moved past it and its shadow was written (R352, R355); nothing driven before is undone. -/
def consumed (d : Desc) (s t : State) : Prop :=
  (ring d.func d.ring t).dev = (ring d.func d.ring s).dev + 1 ∧ s.out <+: t.out
    ∧ .shadow d.func d.ring (shadowAddr d.func d.ring s) ((ring d.func d.ring s).dev + 1) ∈ outSince s t

/-- It was entered into the journal with an outcome, under the next sequence number (R402). -/
def entered (c : CmdSpec) (d : Desc) (outcome : Status) (s t : State) : Prop :=
  t.jrnl.head = s.jrnl.head + 1 ∧ ∃ e rest, t.jrnl.entries = e :: rest ∧ e.seq = s.jrnl.head + 1 ∧ e.outcome = outcome
    ∧ e.opcode = c.op ∧ e.func = d.func.val ∧ e.ring = d.ring.val ∧ e.reg = false
    ∧ e.index = (ring d.func d.ring s).dev % 65536 ∧ e.cookie = d.cookie

/-- A completion can be written at once: the completion ring runs, and the journal ring does not keep the journal entry back. -/
def canAnswer (d : Desc) (s : State) : Bool :=
  ringRuns d.func (64 + cqOf d.func d.ring s) s && ((ring d.func 192 s).stopped.isNone || ! (ring d.func 192 s).en)
    && (fn d.func s).jrnlWait.isEmpty

/-- Its CMD completion was written, if one can be at once (R394, R398). -/
def answered (c : CmdSpec) (d : Desc) (st : Status) (result : Nat) (s t : State) : Prop :=
  canAnswer d s = true → ∃ e, complOut d.func (cqOf d.func d.ring s) (ring d.func (64 + cqOf d.func d.ring s) s).dev e s ∈ outSince s t
    ∧ e.kind = .cmd ∧ e.status = st ∧ e.opcode = c.op ∧ e.ring = d.ring.val ∧ e.index = (ring d.func d.ring s).dev % 65536
    ∧ e.cookie = d.cookie ∧ e.jseq = s.jrnl.head + 1 ∧ e.result = result

/-- The versions of its objects advanced, and no others (R386). -/
def versioned (objs : List ObjId) (s t : State) : Prop :=
  (∀ o ∈ objs, o.type ≠ 0 → objVer o t = (objVer o s + 1) % 2 ^ 32)
    ∧ (∀ k, (∀ o ∈ objs, o.type ≠ 0 → k ≠ objKey o) → mget 0 t.jrnl.vers k = mget 0 s.jrnl.vers k)

/-- The register holds pending bits of interrupts (R371). -/
def isPba (a : Nat) : Bool := (List.range 8).any (fun f => decide (pbaBase f ≤ a ∧ a < pbaBase f + 64))

/-- The state but for what the host's rings, journal and interrupts change. -/
def settledTo (e t : State) : Prop :=
  t = { e with host := t.host, jrnl := t.jrnl, cnts := t.cnts, regs := t.regs, out := t.out }
    ∧ (∀ a < 0x2000000, cnt a t = cnt a e) ∧ (∀ a, isPba a = false → reg a t = reg a e)

/-- A descriptor is accepted, journaled and completed in one step, with the effect `eff` on the rest of the block; `also` holds of the
state after it. -/
def runsAnd (i : Instr) (c : CmdSpec) (d : Desc) (st : Status) (result : Nat) (eff : State → State) (also : State → Prop) (s : State) : Prop :=
  ∃ t, exec i s = .next t ∧ consumed d s t ∧ entered c d .ok s t ∧ answered c d st result s t
    ∧ versioned (if c.quiet then [] else c.objs) s t ∧ settledTo (eff s) t ∧ also t

/-- The same with nothing more. -/
def runs (i : Instr) (c : CmdSpec) (d : Desc) (st : Status) (result : Nat) (eff : State → State) (s : State) : Prop :=
  runsAnd i c d st result eff (fun _ => True) s

/-- A descriptor is accepted and journaled; its command goes on, and its completion comes later (R394). -/
def starts (i : Instr) (c : CmdSpec) (d : Desc) (eff : State → State) (s : State) : Prop :=
  ∃ t, exec i s = .next t ∧ consumed d s t ∧ entered c d .ok s t ∧ versioned c.objs s t ∧ settledTo (eff s) t
    ∧ ∃ p ∈ t.jrnl.inflight, p.src.jseq = s.jrnl.head + 1 ∧ p.src.func = d.func.val ∧ p.src.cookie = d.cookie ∧ p.wait = c.wait

/-- A descriptor is rejected with a status: it is consumed, journaled and completed, and nothing else changes (R383). -/
def rejects (i : Instr) (c : CmdSpec) (d : Desc) (st : Status) (s : State) : Prop :=
  ∃ t, exec i s = .next t ∧ consumed d s t ∧ entered c d st s t ∧ answered c d st 0 s t ∧ versioned [] s t ∧ settledTo s t

/-! ### Register writes (R14, R540–R547) -/

/-- A requester's one-DW write of the register at a place reaches it and breaks no rule (R14, R45, R348, R547). -/
def writesOk (who : Requester) (a : Nat) (v : Word) (s : State) : Bool :=
  (ofsFor who a).isSome && (match who with | .fn f => hostUp f s | _ => true) && (lowest (reasonsDw who a v.toNat s)).isNone

/-- The value that the register at a place holds after an accepted write (R13, R14). -/
def storedAt (a v : Nat) (s : State) : Nat := match regAt a with | some (r, _) => stored r (reg a s) v | none => v

/-- The register stored. -/
def putReg (a : Nat) (v : Word) (s : State) : State := setReg a (storedAt a v.toNat s) s

/-! ### A descriptor and its command, apart -/

/-- An accepted descriptor's command: what it does to the state past the acceptance (R383, R402). -/
def serves (i : Instr) (c : CmdSpec) (d : Desc) (eff : Src → State → State) (s : State) : Prop :=
  exec i s = .next (eff (srcOf c.op d s) (accept c d (srcOf c.op d s) s))

/-- A descriptor turned away with a status, with what the refusal records besides. -/
def refuses (i : Instr) (c : CmdSpec) (d : Desc) (st : Status) (also : State → State) (s : State) : Prop :=
  exec i s = .next (also (reject c d st (srcOf c.op d s) s))

end Sys2Proof.Machine
end

