-- ==== Sys2Proof/Certificates/Slice0/Obligations.lean ====
section
/-! DEFINITION. The statements about the block, one definition each, for the provers. -/

open Sys2Proof Sys2Proof.Machine

/-! ### The S string (06_chords_scalar_control.md) -/

/-- R184, R203, R208, R219, R225: the stack operations of the S string, and the stack and address operations of the M string with M.FENCE, as their
rows say; literals, the inspection of a word's tag and origin, and the reads of M, of a loop counter, of a time base and of one lane of the vector
on top of V: its value, or POISON with origin INGEST where it is flagged GAP or POISON. With R198 and R201, nothing but the slot's stack, its
address, loops and fence, and CHORDS changes. -/
def Obligations.StackAndLiteralOperations : Prop :=
  ((∀ x y z : EWord, copyable x → copyable y → copyable z →
     sRow .sDup 0 [x] (fun _ => [x, x])
     ∧ sRow .sDrop 1 [x] (fun _ => [])
     ∧ sRow .sSwap 2 [y, x] (fun _ => [x, y])
     ∧ sRow .sOver 3 [y, x] (fun _ => [x, y, x])
     ∧ sRow .sRot 4 [z, y, x] (fun _ => [x, z, y])
     ∧ sRow .sNip 5 [y, x] (fun _ => [y])
     ∧ ∀ l : List EWord, l.length < 16 → sRow .sPick (0x10 + l.length) (l ++ [x]) (fun _ => x :: l ++ [x]))
  ∧ ((∀ a b : EWord, mWord a → mWord b →
      mRow .mDup 0 none [a] [a, a]
      ∧ mRow .mDrop 1 none [a] []
      ∧ mRow .mSwap 2 none [b, a] [a, b]
      ∧ mRow .mOver 3 none [b, a] [a, b, a]
      ∧ mRow .mFroms 0x100 (some a) [] [a])
    ∧ (∀ sp o : Nat, sp < 3 → U32 o →
      (∀ j < 16, (o + j + 1 < 2 ^ 32 → mRow .mInc (0x110 + j) none [wAddr sp o] [wAddr sp (o + j + 1)])
        ∧ (j + 1 ≤ o → mRow .mDec (0x120 + j) none [wAddr sp o] [wAddr sp (o - (j + 1))]))
      ∧ (∀ d : Int, I32 d → 0 ≤ o + d → o + d < 4294967296 → mRow .mAdv 0x130 (some (wInt d)) [wAddr sp o] [wAddr sp (o + d).toNat])
      ∧ (∀ d : Nat, U32 d → o + d < 2 ^ 32 → mRow .mAdv 0x130 (some (wUint d)) [wAddr sp o] [wAddr sp (o + d)]))
    ∧ (∀ (q : Fin 4) (k : Fin 52) (n lit len : Nat) (s : State), nextIs 3 0x600 lit len q k n s = true → (mStk q k n s).length ≤ 8 →
      exec (.mFence q k) s = .next (chordDone q k n len (fun t => { t with mFence := some ⟨t.pc, s.ticks⟩ }) s))))
  ∧ ((∀ v < 256, sRow .sLit8 (0x100 + v) [] (fun _ => [wInt (sgn 8 v)]))
  ∧ (∀ (q : Fin 4) (k : Fin 52) (n lit len : Nat) (s : State), (sStk q k n s).length < 16 →
      (∀ m, 1 ≤ m → m ≤ 3 → nextIs 1 (0x200 + m) lit len q k n s = true →
        exec (.sLiti q k) s = .next (sDone q k n len (wInt (sgn (15 * m) lit) :: sStk q k n s) s))
      ∧ (∀ m, 1 ≤ m → m ≤ 3 → nextIs 1 (0x210 + m) lit len q k n s = true →
        exec (.sLitu q k) s = .next (sDone q k n len (wUint lit :: sStk q k n s) s))
      ∧ (copyable (BitVec.ofNat 40 lit) → nextIs 1 0x223 lit len q k n s = true →
        exec (.sLitw q k) s = .next (sDone q k n len (BitVec.ofNat 40 lit :: sStk q k n s) s))
      ∧ (∀ b < 8, nextIs 1 (0xB00 + b) lit len q k n s = true →
        exec (.sNow q k) s = .next (sDone q k n len (wTime (tb b s).valid b (tb b s).ns :: sStk q k n s) s))
      ∧ (∀ w r, copyable w → mStk q k n s = w :: r → nextIs 1 0x910 lit len q k n s = true →
        exec (.sXm q k) s = .next (sDone q k n len (w :: sStk q k n s) s))
      ∧ (∀ j < 4, nextIs 1 (0x918 + j) lit len q k n s = true →
        exec (.sXlc q k) s = .next (sDone q k n len
          (wUint (((task (ekey q k) n s).loops[j]?.map (·.lc)).getD 0) :: sStk q k n s) s)))
  ∧ (∀ w : EWord, copyable w →
      sRow .sTag 0x300 [w] (fun _ => [wUint (w.toNat / 2 ^ 36), w])
      ∧ sRow .sOrigin 0x301 [w] (fun _ => [wUint (if tagOf w = .poison then w.toNat % 65536 else 0), w])
      ∧ ∀ t < 16, t ≠ 13 → t ≠ 14 → sRow .sTageq (0x310 + t) [w] (fun _ => [wBool (decide (w.toNat / 2 ^ 36 = t)), w]))
  ∧ (∀ (q : Fin 4) (k : Fin 52) (n lit len i : Nat) (s : State) (v : Vec) (vs : List Vec) (r : List EWord),
      vStk q k n s = v :: vs → 1 ≤ v.tag → v.tag ≤ 4 → i < laneCount v.tag →
      let l := (lanes v).getD i (0, 0)
      let w := if 2 ≤ l.2 then mkW .poison 0x1000 else if v.tag = 4 then wFix l.1 else wInt l.1
      (nextIs 1 (0xA00 + i) lit len q k n s = true → (sStk q k n s).length < 16 →
        exec (.sXvl q k) s = .next (sDone q k n len (w :: sStk q k n s) s))
      ∧ (nextIs 1 0x920 lit len q k n s = true → sStk q k n s = wUint i :: r → r.length < 16 →
        exec (.sXvls q k) s = .next (sDone q k n len (w :: r) s))))

/-- R204: every conversion of the S string, on every operand it accepts. -/
def Obligations.ScalarConversions : Prop :=
  (∀ a : Int, I32 a →
    sRow .sToint 0x320 [wInt a] (fun _ => [wInt a])
    ∧ sRow .sToint 0x320 [wDur a] (fun _ => [wInt a])
    ∧ sRow .sTouint 0x321 [wInt a] (fun pc => [uintOr a pc])
    ∧ sRow .sTofix 0x322 [wInt a] (fun pc => [fixOr (a * 65536) pc])
    ∧ sRow .sTodur 0x323 [wDur a] (fun _ => [wDur a])
    ∧ sRow .sTodur 0x323 [wInt a] (fun _ => [wDur a]))
  ∧ (∀ u : Nat, U32 u →
    sRow .sToint 0x320 [wUint u] (fun pc => [intOr u pc])
    ∧ sRow .sTouint 0x321 [wUint u] (fun _ => [wUint u])
    ∧ (∀ sp < 3, sRow .sMkaddr (0x330 + sp) [wUint u] (fun _ => [wAddr sp u]))
    ∧ sRow .sMkpoison 0x360 [wUint u] (fun _ => [mkW .poison (0x5000 + u % 4096)])
    ∧ (∀ v : Nat, U32 v →
      sRow .sMkclass 0x340 [wUint v, wUint u] (fun pc => [if u ≤ 255 ∧ v ≤ 65535 then wClass u v else poisonRange pc])))
  ∧ (∀ a : Int, F36 a →
    sRow .sToint 0x320 [wFix a] (fun _ => [wInt ((a + 32768) / 65536)])
    ∧ sRow .sTofix 0x322 [wFix a] (fun _ => [wFix a]))
  ∧ (∀ b : Bool,
    sRow .sToint 0x320 [wBool b] (fun _ => [wInt (if b then 1 else 0)])
    ∧ sRow .sTouint 0x321 [wBool b] (fun _ => [wUint (if b then 1 else 0)]))
  ∧ (∀ (valid : Bool) (b t : Nat), b < 8 → U32 t →
    sRow .sTimeu 0x324 [wTime valid b t] (fun _ => [if valid then wUint t else mkW .poison (0x3000 + b)]))
  ∧ (∀ sp o : Nat, sp < 3 → U32 o → sRow .sAddru 0x325 [wAddr sp o] (fun _ => [wUint o]))
  ∧ (∀ c sc : Nat, c ≤ 255 → sc ≤ 65535 →
    sRow .sClassno 0x341 [wClass c sc] (fun _ => [wUint c]) ∧ sRow .sScore 0x342 [wClass c sc] (fun _ => [wUint sc]))
  ∧ (∀ (q : Fin 4) (k : Fin 52) (n lit len b u : Nat) (s : State) (r : List EWord), b < 8 → U32 u →
    nextIs 1 (0x328 + b) lit len q k n s = true → sStk q k n s = wUint u :: r → r.length < 16 →
    exec (.sMktime q k) s = .next (sDone q k n len (wTime (tb b s).valid b u :: r) s))

/-- R204: unpacking and packing of samples, and their flags. -/
def Obligations.ScalarSamples : Prop :=
  (∀ (a b : Int) (f g : Nat), -32768 ≤ a → a ≤ 32767 → -32768 ≤ b → b ≤ 32767 → f < 4 → g < 4 →
    sRow .sUnpk16 0x350 [wS16x2 a b f g] (fun _ => [sampleOr (decide (2 ≤ g)) b, sampleOr (decide (2 ≤ f)) a])
    ∧ sRow .sFlags 0x352 [wS16x2 a b f g] (fun _ => [wUint (f + 4 * g), wS16x2 a b f g]))
  ∧ (∀ (a b c d : Int) (f : Nat), -128 ≤ a → a ≤ 127 → -128 ≤ b → b ≤ 127 → -128 ≤ c → c ≤ 127 → -128 ≤ d → d ≤ 127 → f < 16 →
    sRow .sUnpk8 0x351 [wS8x4 a b c d f] (fun _ =>
      [sampleOr (decide (f / 8 % 2 = 1)) d, sampleOr (decide (f / 4 % 2 = 1)) c, sampleOr (decide (f / 2 % 2 = 1)) b,
       sampleOr (decide (f % 2 = 1)) a])
    ∧ sRow .sFlags 0x352 [wS8x4 a b c d f] (fun _ => [wUint f, wS8x4 a b c d f]))
  ∧ (∀ a b : Int, I32 a → I32 b →
    sRow .sPack16 0x353 [wInt b, wInt a] (fun _ => [wS16x2 (clampTo (-32768) 32767 a) (clampTo (-32768) 32767 b)
      (if a < -32768 ∨ 32767 < a then 1 else 0) (if b < -32768 ∨ 32767 < b then 1 else 0)]))
  ∧ (∀ a b c d : Int, I32 a → I32 b → I32 c → I32 d →
    sRow .sPack8 0x354 [wInt d, wInt c, wInt b, wInt a] (fun pc =>
      [if (-128 ≤ a ∧ a ≤ 127) ∧ (-128 ≤ b ∧ b ≤ 127) ∧ (-128 ≤ c ∧ c ≤ 127) ∧ (-128 ≤ d ∧ d ≤ 127) then wS8x4 a b c d 0
       else poisonRange pc]))

/-- R205, R206: arithmetic and shifts on INT operands, and arithmetic, logic and shifts on UINT and BOOL operands. -/
def Obligations.IntegerArithmeticAndLogic : Prop :=
  (∀ a b : Int, I32 a → I32 b →
    sRow .sAdd 0x400 [wInt b, wInt a] (fun pc => [intOr (a + b) pc])
    ∧ sRow .sSub 0x401 [wInt b, wInt a] (fun pc => [intOr (a - b) pc])
    ∧ sRow .sMul 0x402 [wInt b, wInt a] (fun pc => [intOr (a * b) pc])
    ∧ sRow .sDiv 0x403 [wInt b, wInt a] (fun pc => [if b = 0 then poisonRange pc else intOr (a.tdiv b) pc])
    ∧ sRow .sRem 0x404 [wInt b, wInt a] (fun pc =>
        [if b = 0 ∨ (a = -2147483648 ∧ b = -1) then poisonRange pc else wInt (a.tmod b)])
    ∧ sRow .sNeg 0x405 [wInt a] (fun pc => [intOr (-a) pc])
    ∧ sRow .sAbs 0x406 [wInt a] (fun pc => [intOr (a.natAbs : Int) pc])
    ∧ sRow .sMin 0x407 [wInt b, wInt a] (fun _ => [wInt (min a b)])
    ∧ sRow .sMax 0x408 [wInt b, wInt a] (fun _ => [wInt (max a b)])
    ∧ sRow .sAddw 0x409 [wInt b, wInt a] (fun _ => [wInt (wrap32 (a + b))])
    ∧ sRow .sSubw 0x40A [wInt b, wInt a] (fun _ => [wInt (wrap32 (a - b))])
    ∧ sRow .sSat16 0x40B [wInt a] (fun _ => [wInt (clampTo (-32768) 32767 a)])
    ∧ sRow .sSat8 0x40C [wInt a] (fun _ => [wInt (clampTo (-128) 127 a)])
    ∧ (∀ n < 32, sRow .sShl (0x500 + n) [wInt a] (fun pc => [intOr (a * 2 ^ n) pc])
        ∧ sRow .sShr (0x600 + n) [wInt a] (fun _ => [wInt (a / 2 ^ n)]))
    ∧ (∀ u, U32 u → sRow .sShlv 0x414 [wUint u, wInt a] (fun pc => [intOr (a * 2 ^ u) pc])
        ∧ sRow .sShrv 0x415 [wUint u, wInt a] (fun _ => [wInt (a / 2 ^ u)]))
    ∧ (∀ v < 256, sRow .sAddi (0x700 + v) [wInt a] (fun pc => [intOr (a + sgn 8 v) pc])))
  ∧ ((∀ a b : Nat, U32 a → U32 b →
    sRow .sAdd 0x400 [wUint b, wUint a] (fun pc => [uintOr (a + b) pc])
    ∧ sRow .sSub 0x401 [wUint b, wUint a] (fun pc => [uintOr ((a : Int) - b) pc])
    ∧ sRow .sMul 0x402 [wUint b, wUint a] (fun pc => [uintOr (a * b) pc])
    ∧ sRow .sDiv 0x403 [wUint b, wUint a] (fun pc => [if b = 0 then poisonRange pc else wUint (a / b)])
    ∧ sRow .sRem 0x404 [wUint b, wUint a] (fun pc => [if b = 0 then poisonRange pc else wUint (a % b)])
    ∧ sRow .sMin 0x407 [wUint b, wUint a] (fun _ => [wUint (min a b)])
    ∧ sRow .sMax 0x408 [wUint b, wUint a] (fun _ => [wUint (max a b)])
    ∧ sRow .sAddw 0x409 [wUint b, wUint a] (fun _ => [wUint ((a + b) % 2 ^ 32)])
    ∧ sRow .sSubw 0x40A [wUint b, wUint a] (fun _ => [wUint ((a + 2 ^ 32 - b) % 2 ^ 32)])
    ∧ sRow .sAnd 0x410 [wUint b, wUint a] (fun _ => [wUint (a &&& b)])
    ∧ sRow .sOr 0x411 [wUint b, wUint a] (fun _ => [wUint (a ||| b)])
    ∧ sRow .sXor 0x412 [wUint b, wUint a] (fun _ => [wUint (a ^^^ b)])
    ∧ sRow .sNot 0x413 [wUint a] (fun _ => [wUint (2 ^ 32 - 1 - a)])
    ∧ (∀ n < 32, sRow .sShl (0x500 + n) [wUint a] (fun _ => [wUint (a * 2 ^ n % 2 ^ 32)])
        ∧ sRow .sShr (0x600 + n) [wUint a] (fun _ => [wUint (a / 2 ^ n)]))
    ∧ sRow .sShlv 0x414 [wUint b, wUint a] (fun _ => [wUint (if b < 32 then a * 2 ^ b % 2 ^ 32 else 0)])
    ∧ sRow .sShrv 0x415 [wUint b, wUint a] (fun _ => [wUint (if b < 32 then a / 2 ^ b else 0)])
    ∧ (∀ v < 256, sRow .sAddi (0x700 + v) [wUint a] (fun pc => [uintOr (a + sgn 8 v) pc])))
  ∧ (∀ a b : Bool,
    sRow .sAnd 0x410 [wBool b, wBool a] (fun _ => [wBool (a && b)])
    ∧ sRow .sOr 0x411 [wBool b, wBool a] (fun _ => [wBool (a || b)])
    ∧ sRow .sXor 0x412 [wBool b, wBool a] (fun _ => [wBool (a != b)])
    ∧ sRow .sNot 0x413 [wBool a] (fun _ => [wBool (! a)])))

/-- R205, R206, R161 and R162 on FIX, DUR, TIME and ADDR operands. -/
def Obligations.FixedPointTimeAndAddressArithmetic : Prop :=
  (∀ a b : Int, F36 a → F36 b →
    sRow .sAdd 0x400 [wFix b, wFix a] (fun pc => [fixOr (a + b) pc])
    ∧ sRow .sSub 0x401 [wFix b, wFix a] (fun pc => [fixOr (a - b) pc])
    ∧ sRow .sMul 0x402 [wFix b, wFix a] (fun pc => [fixOr ((a * b + 32768) / 65536) pc])
    ∧ sRow .sNeg 0x405 [wFix a] (fun pc => [fixOr (-a) pc])
    ∧ sRow .sAbs 0x406 [wFix a] (fun pc => [fixOr (a.natAbs : Int) pc])
    ∧ sRow .sMin 0x407 [wFix b, wFix a] (fun _ => [wFix (min a b)])
    ∧ sRow .sMax 0x408 [wFix b, wFix a] (fun _ => [wFix (max a b)])
    ∧ (∀ n < 32, sRow .sShl (0x500 + n) [wFix a] (fun pc => [fixOr (a * 2 ^ n) pc])
        ∧ sRow .sShr (0x600 + n) [wFix a] (fun _ => [wFix (a / 2 ^ n)])))
  ∧ (∀ a b : Int, F36 a → I32 b →
    sRow .sMul 0x402 [wInt b, wFix a] (fun pc => [fixOr (a * b) pc])
    ∧ sRow .sMul 0x402 [wFix a, wInt b] (fun pc => [fixOr (b * a) pc]))
  ∧ (∀ a b : Int, I32 a → I32 b →
    sRow .sAdd 0x400 [wDur b, wDur a] (fun pc => [durOr (a + b) pc])
    ∧ sRow .sSub 0x401 [wDur b, wDur a] (fun pc => [durOr (a - b) pc])
    ∧ sRow .sMul 0x402 [wInt b, wDur a] (fun pc => [durOr (a * b) pc])
    ∧ sRow .sMul 0x402 [wDur b, wInt a] (fun pc => [durOr (a * b) pc])
    ∧ sRow .sDiv 0x403 [wInt b, wDur a] (fun pc => [if b = 0 then poisonRange pc else durOr (a.tdiv b) pc])
    ∧ sRow .sDiv 0x403 [wDur b, wDur a] (fun pc => [if b = 0 then poisonRange pc else intOr (a.tdiv b) pc])
    ∧ sRow .sNeg 0x405 [wDur a] (fun pc => [durOr (-a) pc])
    ∧ sRow .sAbs 0x406 [wDur a] (fun pc => [durOr (a.natAbs : Int) pc])
    ∧ sRow .sMin 0x407 [wDur b, wDur a] (fun _ => [wDur (min a b)])
    ∧ sRow .sMax 0x408 [wDur b, wDur a] (fun _ => [wDur (max a b)])
    ∧ (∀ v < 256, sRow .sAddi (0x700 + v) [wDur a] (fun pc => [durOr (a + sgn 8 v) pc])))
  ∧ (∀ (v w : Bool) (b t u : Nat) (d : Int), b < 8 → U32 t → U32 u → I32 d →
    sRow .sAdd 0x400 [wDur d, wTime v b t] (fun _ => [wTime v b (((t : Int) + d) % 4294967296).toNat])
    ∧ sRow .sAdd 0x400 [wTime v b t, wDur d] (fun _ => [wTime v b (((t : Int) + d) % 4294967296).toNat])
    ∧ sRow .sSub 0x401 [wDur d, wTime v b t] (fun _ => [wTime v b (((t : Int) - d) % 4294967296).toNat])
    ∧ sRow .sSub 0x401 [wTime w b u, wTime v b t] (fun _ =>
        [if v && w then wDur (wrap32 ((t : Int) - u)) else mkW .poison (0x3000 + b)])
    ∧ sRow .sMin 0x407 [wTime w b u, wTime v b t] (fun _ =>
        [if v && w then (if wrap32 ((t : Int) - u) < 0 then wTime v b t else wTime w b u) else mkW .poison (0x3000 + b)])
    ∧ sRow .sMax 0x408 [wTime w b u, wTime v b t] (fun _ =>
        [if v && w then (if wrap32 ((t : Int) - u) < 0 then wTime w b u else wTime v b t) else mkW .poison (0x3000 + b)]))
  ∧ (∀ (sp o : Nat) (a : Int) (u : Nat), sp < 3 → U32 o → I32 a → U32 u →
    sRow .sAdd 0x400 [wInt a, wAddr sp o] (fun pc => [addrOr sp (o + a) pc])
    ∧ sRow .sAdd 0x400 [wAddr sp o, wInt a] (fun pc => [addrOr sp (o + a) pc])
    ∧ sRow .sAdd 0x400 [wUint u, wAddr sp o] (fun pc => [addrOr sp (o + u) pc])
    ∧ sRow .sAdd 0x400 [wAddr sp o, wUint u] (fun pc => [addrOr sp (o + u) pc])
    ∧ sRow .sSub 0x401 [wInt a, wAddr sp o] (fun pc => [addrOr sp (o - a) pc])
    ∧ sRow .sSub 0x401 [wUint u, wAddr sp o] (fun pc => [addrOr sp ((o : Int) - u) pc])
    ∧ (∀ v < 256, sRow .sAddi (0x700 + v) [wAddr sp o] (fun pc => [addrOr sp (o + sgn 8 v) pc])))

/-- The six relations of R207 on the sign of a difference. -/
def relHolds (r : Nat) (d : Int) : Bool :=
  match r with
  | 0 => decide (d = 0) | 1 => decide (d ≠ 0) | 2 => decide (d < 0) | 3 => decide (d ≤ 0) | 4 => decide (0 < d)
  | _ => decide (0 ≤ d)

/-- R207: comparisons by every relation, of every pair of words they accept, and selection. -/
def Obligations.ScalarComparisons : Prop :=
  (∀ i r, (i, r) = (Instr.sEq, 0) ∨ (i, r) = (Instr.sNe, 1) ∨ (i, r) = (Instr.sLt, 2) ∨ (i, r) = (Instr.sLe, 3)
      ∨ (i, r) = (Instr.sGt, 4) ∨ (i, r) = (Instr.sGe, 5) →
    (∀ a b : Int, I32 a → I32 b → sRow i (0x800 + r) [wInt b, wInt a] (fun _ => [wBool (relHolds r (a - b))])
      ∧ sRow i (0x800 + r) [wDur b, wDur a] (fun _ => [wBool (relHolds r (a - b))]))
    ∧ (∀ a b : Nat, U32 a → U32 b → sRow i (0x800 + r) [wUint b, wUint a] (fun _ => [wBool (relHolds r ((a : Int) - b))])
      ∧ (∀ sp < 3, sRow i (0x800 + r) [wAddr sp b, wAddr sp a] (fun _ => [wBool (relHolds r ((a : Int) - b))]))
      ∧ (∀ tb < 8, sRow i (0x800 + r) [wTime true tb b, wTime true tb a] (fun _ =>
          [wBool (relHolds r (wrap32 ((a : Int) - b)))])))
    ∧ (∀ a b : Int, F36 a → F36 b → sRow i (0x800 + r) [wFix b, wFix a] (fun _ => [wBool (relHolds r (a - b))]))
    ∧ (∀ c x d y : Nat, c ≤ 255 → d ≤ 255 → x ≤ 65535 → y ≤ 65535 →
      sRow i (0x800 + r) [wClass d y, wClass c x] (fun _ =>
        [wBool (relHolds r (if r ≤ 1 then ((c * 65536 + x : Nat) : Int) - (d * 65536 + y : Nat) else (x : Int) - y))]))
    ∧ (r ≤ 1 → ∀ a b : Bool, sRow i (0x800 + r) [wBool b, wBool a] (fun _ => [wBool (decide (a = b) != decide (r = 1))]))
    ∧ (r ≤ 1 → ∀ a b : Nat, a < 2 ^ 36 → b < 2 ^ 36 →
      sRow i (0x800 + r) [mkW .handle b, mkW .handle a] (fun _ => [wBool (decide (a = b) != decide (r = 1))])
      ∧ sRow i (0x800 + r) [mkW .stream b, mkW .stream a] (fun _ => [wBool (decide (a = b) != decide (r = 1))])))
  ∧ (∀ (b : Bool) (x y : EWord), copyable x → copyable y → sRow .sSel 0x808 [wBool b, y, x] (fun _ => [if b then x else y]))

/-- R208: loads and stores of the data store. A store writes the one word its address names, and its frame is the rest of the state. -/
def Obligations.ScalarMemory : Prop :=
  ∀ (q : Fin 4) (k : Fin 52) (n lit len a : Nat) (s : State) (w : EWord) (r : List EWord), a < 65536 →
    (copyable (dataAt q k a s) →
      (nextIs 1 0x900 lit len q k n s = true → sStk q k n s = wAddr 0 a :: r → r.length < 16 →
        exec (.sLd q k) s = .next (sDone q k n len (dataAt q k a s :: r) s))
      ∧ (nextIs 1 0x908 lit len q k n s = true → (∃ m, mStk q k n s = wAddr 0 a :: m) → (sStk q k n s).length < 16 →
        exec (.sLdm q k) s = .next (sDone q k n len (dataAt q k a s :: sStk q k n s) s)))
    ∧ (copyable w →
      (nextIs 1 0x901 lit len q k n s = true → sStk q k n s = wAddr 0 a :: w :: r → r.length < 15 →
        exec (.sSt q k) s = .next (dataWr (ekey q k) a w (sDone q k n len r s)))
      ∧ (nextIs 1 0x909 lit len q k n s = true → sStk q k n s = w :: r → (∃ m, mStk q k n s = wAddr 0 a :: m) → r.length < 16 →
        exec (.sStm q k) s = .next (dataWr (ekey q k) a w (sDone q k n len r s))))
    ∧ (∀ b, dataAt q k b (dataWr (ekey q k) a w s) = if b = a then w else dataAt q k b s)

/-- R164: a propagating operation with a POISON operand gives POISON with the origin of its deepest POISON operand, whatever its other
operands are, reserved tags apart. -/
def Obligations.PoisonPropagates : Prop :=
  ∀ (o : Nat) (x : EWord), o < 65536 → copyable x →
    (∀ i op, (i, op) = (Instr.sAdd, 0x400) ∨ (i, op) = (Instr.sSub, 0x401) ∨ (i, op) = (Instr.sMul, 0x402)
        ∨ (i, op) = (Instr.sDiv, 0x403) ∨ (i, op) = (Instr.sRem, 0x404) ∨ (i, op) = (Instr.sMin, 0x407) ∨ (i, op) = (Instr.sMax, 0x408)
        ∨ (i, op) = (Instr.sAddw, 0x409) ∨ (i, op) = (Instr.sSubw, 0x40A) ∨ (i, op) = (Instr.sAnd, 0x410) ∨ (i, op) = (Instr.sOr, 0x411)
        ∨ (i, op) = (Instr.sXor, 0x412) ∨ (i, op) = (Instr.sShlv, 0x414) ∨ (i, op) = (Instr.sShrv, 0x415)
        ∨ (i, op) = (Instr.sMkclass, 0x340) ∨ (i, op) = (Instr.sPack16, 0x353) →
      sRow i op [x, mkW .poison o] (fun _ => [mkW .poison o])
      ∧ (tagOf x ≠ .poison → sRow i op [mkW .poison o, x] (fun _ => [mkW .poison o])))
    ∧ (∀ i op, (i, op) = (Instr.sNeg, 0x405) ∨ (i, op) = (Instr.sAbs, 0x406) ∨ (i, op) = (Instr.sSat16, 0x40B)
        ∨ (i, op) = (Instr.sSat8, 0x40C) ∨ (i, op) = (Instr.sNot, 0x413) ∨ (i, op) = (Instr.sToint, 0x320) ∨ (i, op) = (Instr.sTouint, 0x321)
        ∨ (i, op) = (Instr.sTofix, 0x322) ∨ (i, op) = (Instr.sTodur, 0x323) ∨ (i, op) = (Instr.sTimeu, 0x324)
        ∨ (i, op) = (Instr.sAddru, 0x325) ∨ (i, op) = (Instr.sClassno, 0x341) ∨ (i, op) = (Instr.sScore, 0x342)
        ∨ (i, op) = (Instr.sMkpoison, 0x360) →
      sRow i op [mkW .poison o] (fun _ => [mkW .poison o]))

/-! ### The C string -/

/-- R209, R210: jumps and branches. -/
def Obligations.JumpsAndBranches : Prop :=
  ∀ (q : Fin 4) (k : Fin 52) (n lit len x : Nat) (s : State),
    let pc := (task (ekey q k) n s).pc
    let near : Int := (pc : Int) + sgn 9 x
    let far := x * 32768 + lit
    let dst (a : Nat) : State := chordTo q k n (fun t => { t with pc := a }) s
    let on := chordDone q k n len id s
    let room : Prop := pc + len ≤ 65535
    (nextAt 0 0 lit len q k n s = true → room → exec (.cNop q k) s = .next on)
    ∧ (x < 512 → 0 ≤ near → near ≤ 65535 →
      (nextAt 0 (0x200 + x) lit len q k n s = true → exec (.cJmp q k) s = .next (dst near.toNat))
      ∧ (∀ r, sStk q k n s = wBool true :: r → nextAt 0 (0x400 + x) lit len q k n s = true → exec (.cBrt q k) s = .next (dst near.toNat))
      ∧ (∀ r, sStk q k n s = wBool false :: r → nextAt 0 (0x600 + x) lit len q k n s = true → exec (.cBrf q k) s = .next (dst near.toNat)))
    ∧ (x < 512 → room →
      (∀ r, sStk q k n s = wBool false :: r → nextAt 0 (0x400 + x) lit len q k n s = true → exec (.cBrt q k) s = .next on)
      ∧ (∀ r, sStk q k n s = wBool true :: r → nextAt 0 (0x600 + x) lit len q k n s = true → exec (.cBrf q k) s = .next on))
    ∧ (x < 2 → lit < 32768 →
      (nextAt 0 (0xA00 + x) lit len q k n s = true → exec (.cJmpl q k) s = .next (dst far))
      ∧ (∀ r, sStk q k n s = wBool true :: r → nextAt 0 (0xC00 + x) lit len q k n s = true → exec (.cBrtl q k) s = .next (dst far))
      ∧ (∀ r, sStk q k n s = wBool false :: r → nextAt 0 (0xE00 + x) lit len q k n s = true → exec (.cBrfl q k) s = .next (dst far))
      ∧ (room → (∀ r, sStk q k n s = wBool false :: r → nextAt 0 (0xC00 + x) lit len q k n s = true → exec (.cBrtl q k) s = .next on)
        ∧ (∀ r, sStk q k n s = wBool true :: r → nextAt 0 (0xE00 + x) lit len q k n s = true → exec (.cBrfl q k) s = .next on)))
    ∧ (∀ a r, a < 65536 → sStk q k n s = wAddr 2 a :: r → nextAt 0 8 lit len q k n s = true → exec (.cJmps q k) s = .next (dst a))

/-- R212 to R216: calls and returns, hardware loops, and the end of a trap handler. -/
def Obligations.CallsLoopsAndHandlers : Prop :=
  ∀ (q : Fin 4) (k : Fin 52) (n lit len x : Nat) (s : State),
    let t := task (ekey q k) n s
    let next := t.pc + len
    let le := next + x
    let opened (c : Nat) : State := chordTo q k n (fun t => { t with pc := next, loops := ⟨next, le, c⟩ :: t.loops }) s
    let skipped := chordTo q k n (fun t => { t with pc := (fallTo le t.loops).1, loops := (fallTo le t.loops).2 }) s
    let called (a : Nat) : State := chordTo q k n (fun t => { t with pc := a, rets := .call next t.loops.length :: t.rets }) s
    let ended (a : Nat) (l : List LoopLv) (r : List RetEnt) : State := chordTo q k n (fun t => { t with pc := a, loops := l, rets := r }) s
    (callDepth t < (if inHandler t then 2 else 5) →
      (x < 2 → lit < 32768 → nextAt 0 (0x800 + x) lit len q k n s = true → exec (.cCall q k) s = .next (called (x * 32768 + lit)))
      ∧ (∀ a r, a < 65536 → sStk q k n s = wAddr 2 a :: r → nextAt 0 9 lit len q k n s = true → exec (.cCalls q k) s = .next (called a)))
    ∧ (∀ a l r, a ≤ 65535 → t.rets = .call a l :: r → nextAt 0 5 lit len q k n s = true →
        exec (.cRet q k) s = .next (ended a (t.loops.drop (t.loops.length - l)) r))
    ∧ (1 ≤ x → x < 512 → le ≤ 65535 →
      (0 < lit → t.loops.length < 4 →
        (nextAt 0 (0x1000 + x) lit len q k n s = true → exec (.cLoopi1 q k) s = .next (opened lit))
        ∧ (nextAt 0 (0x1200 + x) lit len q k n s = true → exec (.cLoopi2 q k) s = .next (opened lit)))
      ∧ (lit = 0 → (nextAt 0 (0x1000 + x) lit len q k n s = true → exec (.cLoopi1 q k) s = .next skipped)
        ∧ (nextAt 0 (0x1200 + x) lit len q k n s = true → exec (.cLoopi2 q k) s = .next skipped))
      ∧ (∀ u r, U32 u → sStk q k n s = wUint u :: r → nextAt 0 (0x1400 + x) lit len q k n s = true →
        (0 < u → t.loops.length < 4 → exec (.cLoops q k) s = .next (opened u))
        ∧ (u = 0 → exec (.cLoops q k) s = .next skipped)))
    ∧ (∀ lv ls, t.loops = lv :: ls → lv.le ≤ 65535 → nextAt 0 6 lit len q k n s = true →
        exec (.cLeave q k) s = .next (chordTo q k n (fun t => { t with pc := (fallTo lv.le ls).1, loops := (fallTo lv.le ls).2 }) s))
    ∧ (∀ a r, a < 65536 → sStk q k n s = wAddr 2 a :: r → nextAt 0 0xA lit len q k n s = true →
        (inHandler t = false → exec (.cRth q k) s = .next (chordTo q k n (fun t => { t with pc := a }) s))
        ∧ (∀ calls c succ l rest, t.rets = calls ++ .handler c succ l :: rest → calls.all (fun e => ! isHandler e) = true →
            exec (.cRth q k) s = .next (ended a (t.loops.drop (t.loops.length - l)) rest)))
    ∧ (∀ calls c a l rest, t.rets = calls ++ .handler c (some a) l :: rest → calls.all (fun e => ! isHandler e) = true → a ≤ 65535 →
        nextAt 0 0xB lit len q k n s = true → exec (.cRthn q k) s = .next (ended a (t.loops.drop (t.loops.length - l)) rest))

/-- R170, R171, R184, R217: what the task operations of the C string do to their task. -/
def Obligations.TaskOperations : Prop :=
  ∀ (q : Fin 4) (k : Fin 52) (n lit len : Nat) (s : State), (task (ekey q k) n s).pc + len ≤ 65535 →
    let key := ekey q k
    let t := task key n s
    let on (f : Task → Task) : State := chordDone q k n len f s
    (∀ m, 1 ≤ m → m < 16 → nextAt 0 (0x20 + m) lit len q k n s = true →
      exec (.cSetmask q k) s = .next (on (fun t => { t with waitMask := m })))
    ∧ (nextAt 0 0xD lit len q k n s = true → exec (.cUnwake q k) s = .next (on (fun t => { t with wake := none })))
    ∧ (∀ b u r, b < 8 → U32 u → sStk q k n s = wTime true b u :: r → nextAt 0 0xC lit len q k n s = true →
      let d := wrap32 ((u : Int) - (tb b s).ns)
      exec (.cWake q k) s = .next (on (fun t =>
        if 0 < d then { t with wake := some (wTime true b u) }
        else if d = -2147483648 then { t with wake := none, timer := true, timerFar := true }
        else { t with wake := none, timer := true, timerLate := true })))
    ∧ (∀ b d r, b < 8 → I32 d → (tb b s).valid = true → sStk q k n s = wDur d :: r → nextAt 0 (0x10 + b) lit len q k n s = true →
      exec (.cWaker q k) s = .next (on (fun t =>
        if 0 < d then { t with wake := some (wTime true b (((tb b s).ns + d) % 4294967296).toNat) }
        else if d = -2147483648 then { t with wake := none, timer := true, timerFar := true }
        else { t with wake := none, timer := true, timerLate := true })))
    ∧ (nextAt 0 4 lit len q k n s = true →
      exec (.cFence q k) s = .next (on (fun t => { t with cFence := some ⟨t.pc, s.ticks⟩ })))
    ∧ (nextAt 0 2 lit len q k n s = true → t.sStk.length < 16 →
      exec (.cWait q k) s = .next (
        if pendingBits t &&& t.waitMask ≠ 0 then on (fun t => { t with inWait := true })
        else setEng key (fun e => { e with running := none }) (on (fun t => { t with inWait := true, state := .waiting }))))
    ∧ (nextAt 0 3 lit len q k n s = true →
      exec (.cYield q k) s = .next (
        if (eng key s).tasks.any (fun x => decide (x.1 ≠ n ∧ x.2.state = .ready ∧ x.2.prio = t.prio)) then
          setEng key (fun e => { e with running := none, seqNext := e.seqNext + 1 })
            (on (fun t => { t with state := .ready, seq := (eng key s).seqNext }))
        else on id))
    ∧ (nextAt 0 1 lit len q k n s = true →
      exec (.cEnd q k) s = .next (freeSlotTask key n (on id)) ∧
      let u := task key n (freeSlotTask key n (on id))
      u.state = .free ∧ u.loans = [] ∧ u.inbox = [] ∧ u.wake = none ∧ u.sStk = [] ∧ u.vStk = [] ∧ u.mStk = [])

/-! ### The V string (07_vector_memory_strings.md) -/

/-- R222: the stack operations of the V string, its loads and stores, and splats and changes of format, on every vector and word they accept. A store
writes the one location it names. -/
def Obligations.VectorStackStoresAndFormats : Prop :=
  ((∀ x y z : Vec, vCopyable x → vCopyable y → vCopyable z →
    vRow .vDup 0 none none [x] [x, x]
    ∧ vRow .vDrop 1 none none [x] []
    ∧ vRow .vSwap 2 none none [y, x] [x, y]
    ∧ vRow .vOver 3 none none [y, x] [x, y, x]
    ∧ vRow .vRot 4 none none [z, y, x] [x, z, y]
    ∧ vRow .vNip 5 none none [y, x] [y])
  ∧ (∀ (q : Fin 4) (k : Fin 52) (n lit len a : Nat) (s : State) (v : Vec) (r : List Vec), a < 128 → vCopyable v →
    (vecAt q k a s = v → (vStk q k n s).length < 8 →
      (nextIs 2 (0x100 + a) lit len q k n s = true →
        exec (.vLdv q k) s = .next (vDone q k n len true (v :: vStk q k n s) s))
      ∧ (nextIs 2 0x180 lit len q k n s = true → (mStk q k n s).head? = some (wAddr 1 a) →
        exec (.vLda q k) s = .next (vDone q k n len true (v :: vStk q k n s) s)))
    ∧ (vStk q k n s = v :: r → r.length ≤ 8 →
      (nextIs 2 (0x200 + a) lit len q k n s = true →
        exec (.vStv q k) s = .next (vecWr (ekey q k) a v (vDone q k n len true r s)))
      ∧ (nextIs 2 0x280 lit len q k n s = true → (mStk q k n s).head? = some (wAddr 1 a) →
        exec (.vSta q k) s = .next (vecWr (ekey q k) a v (vDone q k n len true r s))))
    ∧ (∀ b, vecAt q k b (vecWr (ekey q k) a v s) = if b = a then v else vecAt q k b s)))
  ∧ ((∀ v : Int, I32 v →
    vRow .vSplat 0x400 none (some (wInt v)) [] [mkVec 3 (List.replicate 64 (v, 0))]
    ∧ vRow .vSplat16 0x401 none (some (wInt v)) [] [mkVec 2 (List.replicate 128 (satLane 16 v 0))]
    ∧ vRow .vSplat8 0x402 none (some (wInt v)) [] [mkVec 1 (List.replicate 256 (satLane 8 v 0))])
  ∧ (∀ v : Int, F36 v → vRow .vSplat 0x400 none (some (wFix v)) [] [mkVec 4 (List.replicate 64 (satLane 32 v 0))])
  ∧ (∀ o < 65536,
    vRow .vSplat 0x400 none (some (mkW .poison o)) [] [mkVec 3 (List.replicate 64 (0, 3))]
    ∧ vRow .vSplat16 0x401 none (some (mkW .poison o)) [] [mkVec 2 (List.replicate 128 (0, 3))]
    ∧ vRow .vSplat8 0x402 none (some (mkW .poison o)) [] [mkVec 1 (List.replicate 256 (0, 3))])
  ∧ (∀ x : Vec, x.tag = 1 ∨ x.tag = 2 →
    vRow .vWlo 0x408 none none [x] [mkVec (x.tag + 1) ((lanes x).take (laneCount x.tag / 2))]
    ∧ vRow .vWhi 0x409 none none [x] [mkVec (x.tag + 1) ((lanes x).drop (laneCount x.tag / 2))])
  ∧ (∀ hi lo : Vec, hi.tag = lo.tag → lo.tag = 2 ∨ lo.tag = 3 →
    vRow .vNarrow 0x40C none none [lo, hi]
      [mkVec (lo.tag - 1) ((lanes lo ++ lanes hi).map (fun a => satLane (laneBits (lo.tag - 1)) a.1 a.2))])
  ∧ (∀ x : Vec, x.tag = 3 → vRow .vToq 0x410 none none [x] [mapLanes 4 (fun a => a * 65536) x])
  ∧ (∀ x : Vec, x.tag = 4 → vRow .vFromq 0x411 none none [x] [mapLanes 3 (fun a => (a + 32768) / 65536) x]))

/-- R219, R222: arithmetic lane by lane. -/
def Obligations.VectorLaneArithmetic : Prop :=
  (∀ x y : Vec, vLanes x → x.tag = y.tag →
    vRow .vAdd 0x500 none none [y, x] [zipLanes (fun a b => a + b) x y]
    ∧ vRow .vSub 0x501 none none [y, x] [zipLanes (fun a b => a - b) x y]
    ∧ vRow .vMul 0x502 none none [y, x] [zipLanes (fun a b => if x.tag = 4 then (a * b + 32768) / 65536 else a * b) x y]
    ∧ (x.tag = 2 → vRow .vMulq 0x503 none none [y, x] [zipLanes (fun a b => (a * b + 16384) / 32768) x y])
    ∧ vRow .vAbs 0x504 none none [x] [mapLanes x.tag (fun a => (a.natAbs : Int)) x]
    ∧ vRow .vNeg 0x505 none none [x] [mapLanes x.tag (fun a => -a) x]
    ∧ vRow .vMin 0x506 none none [y, x] [zipLanes min x y]
    ∧ vRow .vMax 0x507 none none [y, x] [zipLanes max x y]
    ∧ vRow .vKeepgev 0x601 none none [y, x] [zipLanes (fun a t => if a < t then 0 else a) x y]
    ∧ (∀ n < 16, vRow .vShr (0x510 + n) none none [x] [mapLanes x.tag (fun a => a / 2 ^ n) x]
      ∧ vRow .vShl (0x520 + n) none none [x] [mapLanes x.tag (fun a => a * 2 ^ n) x])
    ∧ (∀ n < laneCount x.tag, vRow .vSld (0x800 + n) none none [y, x] [mkVec x.tag ((lanes x ++ lanes y).drop n)]))
  ∧ (∀ x y : Vec, 1 ≤ x.tag → x.tag ≤ 3 → x.tag = y.tag →
    let w := laneBits x.tag
    let bw (f : Nat → Nat → Nat) (a b : Int) : Int := sgn w (f (a % 2 ^ w).toNat (b % 2 ^ w).toNat)
    vRow .vAnd 0x508 none none [y, x] [zipLanes (bw (· &&& ·)) x y]
    ∧ vRow .vOr 0x509 none none [y, x] [zipLanes (bw (· ||| ·)) x y]
    ∧ vRow .vXor 0x50A none none [y, x] [zipLanes (bw (· ^^^ ·)) x y])
  ∧ (∀ x : Vec, x.tag = 1 ∨ x.tag = 2 →
    vRow .vMag2 0x530 none none [x] [mkVec (x.tag + 1) ((List.range (laneCount x.tag / 2)).map (fun i =>
      let a := (lanes x).getD (2 * i) (0, 0); let b := (lanes x).getD (2 * i + 1) (0, 0)
      satLane (laneBits (x.tag + 1)) (a.1 * a.1 + b.1 * b.1) (max a.2 b.2)))])

/-- R223: the operations of the V string that take an INT from S; a POISON word there makes every result lane POISON. -/
def Obligations.VectorScalarOperations : Prop :=
  (∀ (v : Int) (x a : Vec), I32 v → vLanes x → a.tag = x.tag →
    let h := clampTo (-32768) 32767 v
    (x.tag = 2 → vRow .vMacs 0x540 none (some (wInt v)) [x, a] [zipLanes (fun c b => c + (b * h + 16384) / 32768) a x]
      ∧ vRow .vMuls 0x541 none (some (wInt v)) [x] [mapLanes 2 (fun b => (b * h + 16384) / 32768) x])
    ∧ (x.tag = 3 → vRow .vMacs 0x540 none (some (wInt v)) [x, a] [zipLanes (fun c b => c + b * v) a x])
    ∧ (x.tag = 1 ∨ x.tag = 3 → vRow .vMuls 0x541 none (some (wInt v)) [x] [mapLanes x.tag (fun b => b * v) x])
    ∧ (x.tag = 4 → vRow .vMuls 0x541 none (some (wInt v)) [x] [mapLanes 4 (fun b => (b * (v * 65536) + 32768) / 65536) x])
    ∧ vRow .vKeepge 0x600 none (some (wInt v)) [x]
        [mapLanes x.tag (fun b => if b < (if x.tag = 4 then v * 65536 else v) then 0 else b) x])
  ∧ (∀ (o : Nat) (x a : Vec), o < 65536 → vLanes x → a.tag = x.tag →
    let bad := mkVec x.tag (List.replicate (laneCount x.tag) (0, 3))
    (x.tag = 2 ∨ x.tag = 3 → vRow .vMacs 0x540 none (some (mkW .poison o)) [x, a] [bad])
    ∧ vRow .vMuls 0x541 none (some (mkW .poison o)) [x] [bad]
    ∧ vRow .vKeepge 0x600 none (some (mkW .poison o)) [x] [bad])

/-- R223: reductions. GAP lanes are left out; a POISON lane makes the result POISON; CLIP is passed on. -/
def Obligations.VectorReductions : Prop :=
  ∀ x : Vec, vLanes x →
    let used := (lanes x).filter (fun l => decide (l.2 ≠ 2))
    let clip : Nat := if used.any (fun l => decide (l.2 = 1)) then 1 else 0
    let sum : Int := (used.map (·.1)).sum
    let flagAt (i : Nat) : Option Nat := ((lanes x)[i]?).map (·.2)
    (used.all (fun l => decide (l.2 ≠ 3)) = true → used ≠ [] →
      vRow .vRsum 0x700 none none [x] [mkVec 3 [satLane 32 sum clip]]
      ∧ vRow .vRcnt 0x703 none none [x] [mkVec 3 [(((used.filter (fun l => decide (l.1 ≠ 0))).length : Nat), clip)]]
      ∧ (∀ (i : Nat) (m : Lane), (lanes x)[i]? = some m → m.2 ≠ 2 →
        ((∀ (j : Nat) (l : Lane), (lanes x)[j]? = some l → l.2 ≠ 2 → l.1 ≤ m.1 ∧ (j < i → l.1 < m.1)) →
          vRow .vRmax 0x701 none none [x] [mkVec 3 [(m.1, clip), ((i : Int), 0)]])
        ∧ ((∀ (j : Nat) (l : Lane), (lanes x)[j]? = some l → l.2 ≠ 2 → m.1 ≤ l.1 ∧ (j < i → m.1 < l.1)) →
          vRow .vRmin 0x702 none none [x] [mkVec 3 [(m.1, clip), ((i : Int), 0)]])))
    ∧ (used = [] →
      vRow .vRsum 0x700 none none [x] [mkVec 3 [(0, 2)]] ∧ vRow .vRcnt 0x703 none none [x] [mkVec 3 [(0, 2)]]
      ∧ vRow .vRmax 0x701 none none [x] [mkVec 3 [(0, 2), (0, 2)]] ∧ vRow .vRmin 0x702 none none [x] [mkVec 3 [(0, 2), (0, 2)]])
    ∧ (∀ i : Nat, flagAt i = some 3 → (∀ j < i, flagAt j ≠ some 3) →
      vRow .vRsum 0x700 none none [x] [mkVec 3 [(0, 3)]] ∧ vRow .vRcnt 0x703 none none [x] [mkVec 3 [(0, 3)]]
      ∧ vRow .vRmax 0x701 none none [x] [mkVec 3 [(0, 3), ((i : Int), 0)]]
      ∧ vRow .vRmin 0x702 none none [x] [mkVec 3 [(0, 3), ((i : Int), 0)]])

/-- R220, R221, R227: reads of a lent batch and of a vector record, and the store of a record, in a buffer the task may use. Choices of the model in it:
notes/assumptions/11. -/
def Obligations.VectorBatchesAndRecords : Prop :=
  ∀ (q : Fin 4) (k : Fin 52) (n lit len key i : Nat) (s : State) (h w : EWord),
    let b := buf key s
    let done (v : Vec) : State := vDone q k n len true (v :: vStk q k n s) s
    (mStk q k n s).head? = some h → (sStk q k n s).head? = some w → (w = wUint i ∧ U32 i ∨ w = wInt i ∧ I32 i) →
    (names q h 1 key s → borrows q k n key s → i < 131072 → (vStk q k n s).length < 8 →
      let comps (tag : Nat) : Vec := mkVec tag ((List.range (laneCount tag)).map (fun j => batchComp b (batchHdr b) (i + j)))
      (nextIs 2 0x300 lit len q k n s = true →
        exec (.vLdb q k) s = .next (done (comps (if (batchHdr b).w16 then 2 else 1))))
      ∧ (nextIs 2 0x301 lit len q k n s = true → exec (.vLdbw q k) s = .next (done (comps 2))))
    ∧ (∀ pool tag, (pool = 1 ∧ borrows q k n key s) ∨ ((pool = 1 ∨ pool = 2) ∧ owns q k n key s) → names q h pool key s →
      i % 64 = 0 → i + 320 ≤ b.size →
      (tag < 4 → b.bad = [] → (vStk q k n s).length < 8 → nextIs 2 (0x308 + tag) lit len q k n s = true →
        exec (.vLdq q k) s = .next (done (mkVec (tag + 1) (lanes ⟨tag + 1, BitVec.ofNat 2048 (leNat (bufRd b i 256)),
          BitVec.ofNat 512 (leNat (bufRd b (i + 256) 64))⟩))))
      ∧ (owns q k n key s → ∀ v r, vStk q k n s = v :: r → vLanes v → r.length ≤ 8 → nextIs 2 0x310 lit len q k n s = true →
        let rec_ := leBytes 256 v.data.toNat ++ leBytes 64 v.flags.toNat
        exec (.vStq q k) s = .next (bufWr key i rec_ (vDone q k n len true r s))
        ∧ ∀ a, mget (0 : Byte) (buf key (bufWr key i rec_ s)).bytes a
            = if i ≤ a ∧ a < i + 320 then BitVec.ofNat 8 (rec_.getD (a - i) 0) else mget (0 : Byte) b.bytes a))

/-! ### The M string -/

/-- R226, R228, R230: taking loans and ending them, and what a lent batch is. Choices of the model in it: notes/assumptions/8. -/
def Obligations.LoansOfBatches : Prop :=
  ∀ (q : Fin 4) (k : Fin 52) (n lit len : Nat) (s : State) (st : List EWord),
    mStk q k n s = st → n < 16 →
    let t := task (ekey q k) n s
    let waiting := t.loans.filter (fun l => ! l.consumed)
    let taken (l : Loan) (st' : List EWord) : State :=
      withStatus q k n .ok (waiting.length - 1) (mPast q k n len (wHandle l.buf l.gen :: st')
        (fun t => { t with loans := consumeLoan l t.loans }) s)
    let none_ : State := withStatus q k n .noResource waiting.length (mPast q k n len (nullHandle q :: st) id s)
    waiting.length < 65536 →
    (nextIs 3 0x201 lit len q k n s = true → st.length < 8 →
      (∀ l ls, waiting = l :: ls → exec (.mTakeany q k) s = .next (taken l st))
      ∧ (waiting = [] → exec (.mTakeany q k) s = .next none_))
    ∧ (∀ id r, nextIs 3 0x200 lit len q k n s = true → ∀ stream, id < 2 ^ 20 → stream < 65536 →
      st = mkW .stream (stream / 16384 * 2 ^ 34 + stream % 16384 * 2 ^ 20 + id) :: r → st.length < 8 →
      let mine (l : Loan) : Bool := decide (l.stream = stream ∧ leNat (bufRd (buf l.buf s) 0 4) % 2 ^ 20 = id)
      (∀ l ls, waiting.filter mine = l :: ls → exec (.mTake q k) s = .next (taken l st))
      ∧ (waiting.filter mine = [] → exec (.mTake q k) s = .next none_))
    ∧ (∀ h key r l, st = h :: r → r.length ≤ 7 → names q h 1 key s →
      (nextIs 3 0x202 lit len q k n s = true → t.loans.find? (fun x => decide (x.buf = key ∧ x.gen = (buf key s).gen)) = some l →
        let after := mPast q k n len r (fun t => { t with loans := dropLoan key t.loans }) s
        exec (.mDone q k) s = .next (if (buf key s).loans ≤ 1 then freeBuf key after
          else setBuf key (fun b => { b with loans := b.loans - 1, ended := ownerCode q k n s :: b.ended }) after))
      ∧ (nextIs 3 0x203 lit len q k n s = true → r.length < 7 → borrows q k n key s →
        ∀ l, t.loans.find? (fun x => decide (x.buf = key)) = some l →
        exec (.mStrm q k) s = .next (mPast q k n len (mkW .stream (l.stream / 16384 * 2 ^ 34 + l.stream % 16384 * 2 ^ 20
          + leNat (bufRd (buf key s) 0 4) % 2 ^ 20) :: st) id s))
      ∧ (∀ a, nextIs 3 0x204 lit len q k n s = true → borrows q k n key s → (sStk q k n s).head? = some (wAddr 0 a) → a + 10 < 65536 →
        let u (i : Nat) : EWord := wUint (leNat (bufRd (buf key s) i 4))
        let base := leNat (bufRd (buf key s) 0 4) / 2 ^ 23 % 8
        exec (.mHdr q k) s = .next (dataWrs (ekey q k) a [u 0, u 4, wTime (tb base s).valid base (leNat (bufRd (buf key s) 8 4)), u 12, u 8,
          u 20, wUint (leNat (bufRd (buf key s) 24 2)), u 28, u 32, u 16, u 40] (mPast q k n len st id s))))

/-- R226, R229: work buffers. Choices of the model in it: notes/assumptions/8. -/
def Obligations.WorkBuffers : Prop :=
  ∀ (q : Fin 4) (k : Fin 52) (n lit len : Nat) (s : State), n < 16 →
    let st := mStk q k n s
    let own := ownerCode q k n s
    let local_ := (eng (ekey q k) s).logical.getD 0 % 48
    (∀ w, U32 w → (sStk q k n s).head? = some (wUint w) → st.length < 8 → nextIs 3 0x300 lit len q k n s = true →
      let fail (x : Status) : State := withStatus q k n x 0 (mPast q k n len (nullHandle q :: st) id s)
      let sized : Prop := 64 ≤ w ∧ w ≤ 1048576 ∧ w % 64 = 0
      let fits : Prop := workBytes q local_ s + w ≤ mget 1048576 s.evt.engQuota (48 * q + local_)
      (¬ sized → exec (.mAlloc q k) s = .next (fail .range))
      ∧ (sized → ¬ fits → exec (.mAlloc q k) s = .next (fail .quota))
      ∧ (sized → fits → allocBuf q 2 w own s = none → exec (.mAlloc q k) s = .next (fail .noResource))
      ∧ (∀ key t, sized → fits → allocBuf q 2 w own s = some (key, t) →
        exec (.mAlloc q k) s = .next (withStatus q k n .ok 0 (setBuf key (fun b => { gen := b.gen, owner := own, size := w })
          (mPast q k n len (wHandle key (buf key s).gen :: st) id s)))))
    ∧ (∀ h r key, st = h :: r → r.length ≤ 7 → names q h 2 key s → owns q k n key s →
      (nextIs 3 0x301 lit len q k n s = true →
        exec (.mFree q k) s = .next (setBuf key (fun b => { gen := (b.gen + 1) % 4096 }) (mPast q k n len r id s)))
      ∧ (nextIs 3 0x302 lit len q k n s = true →
        ((sStk q k n s).head? = some (wUint 0x2000) →
          exec (.mGive q k) s = .next (withStatus q k n .ok 0 (setBuf key (fun b => { b with owner := 0x2000 }) (mPast q k n len st id s))))
        ∧ (∀ e < 48, ∀ j < 16, (sStk q k n s).head? = some (wUint (0x1000 + e * 64 + j)) →
          let x := (task (engOf (48 * q + e) s) j s).state
          exec (.mGive q k) s = .next (if x = .free ∨ x = .cancelling then withStatus q k n .stale 0 (mPast q k n len st id s)
            else withStatus q k n .ok 0 (setBuf key (fun b => { b with owner := 0x1000 + e * 64 + j }) (mPast q k n len st id s))))))

/-- R231: messages between tasks. -/
def Obligations.MessagesBetweenTasks : Prop :=
  ∀ (q : Fin 4) (k : Fin 52) (n lit len a : Nat) (s : State) (r : List EWord), n < 16 → mStk q k n s = wAddr 0 a :: r → r.length ≤ 7 →
    let st := mStk q k n s
    let on := mPast q k n len st id s
    (∀ e < 48, ∀ j < 16, (sStk q k n s).head? = some (wUint (0x1000 + e * 64 + j)) → a + 1 < 65536 →
      copyable (dataAt q k a s) → copyable (dataAt q k (a + 1) s) → nextIs 3 0x400 lit len q k n s = true →
      let l := 48 * q + e
      let x := (task (engOf l s) j s).state
      exec (.mSend q k) s = .next (
        if x = .free ∨ x = .cancelling then withStatus q k n .stale 0 on
        else if 8 ≤ inboxLoad l j s then withStatus q k n .busy 0 (bump (engCnt (engOf l s) 6) on)
        else withStatus q k n .ok 0 { on with msgs := s.msgs ++ [(l, j, ⟨dataAt q k a s, dataAt q k (a + 1) s, ownerCode q k n s⟩)] }))
    ∧ (nextIs 3 0x401 lit len q k n s = true →
      ((task (ekey q k) n s).inbox = [] → exec (.mRecv q k) s = .next (withStatus q k n .noResource 0 on))
      ∧ (∀ m ms, (task (ekey q k) n s).inbox = m :: ms → ms.length < 65536 → a + 2 < 65536 →
        exec (.mRecv q k) s = .next (withStatus q k n .ok ms.length (dataWr (ekey q k) (a + 2) (wUint m.sender)
          (dataWr (ekey q k) (a + 1) m.w1 (dataWr (ekey q k) a m.w0 (mPast q k n len st (fun t => { t with inbox := ms }) s)))))))

/-- R232, R233, R241: a trigger primitive from its template, and the hand-off of its attachment. -/
def Obligations.TriggerPrimitiveFromTemplate : Prop :=
  ∀ (q : Fin 4) (k : Fin 52) (n lit len a b u cls score fl key sid logical : Nat) (h : EWord) (s : State) (r : List EWord),
    n < 16 → mStk q k n s = wAddr 0 a :: r → r.length ≤ 7 → a + 4 < 65536 → b < 8 → U32 u → cls < 256 → score < 65536 → fl < 16 →
    key < 65536 → sid < 2 ^ 20 → logical < 192 →
    (eng (ekey q k) s).logical = some logical → (eng (ekey q k) s).tpq.length < 32 → (eng (ekey q k) s).tpSeq < 65536 →
    dataAt q k a s = wTime true b u → dataAt q k (a + 1) s = mkW .stream (key / 16384 * 2 ^ 34 + key % 16384 * 2 ^ 20 + sid) →
    dataAt q k (a + 2) s = wClass cls score → dataAt q k (a + 3) s = wUint fl → dataAt q k (a + 4) s = h →
    nextIs 3 0x500 lit len q k n s = true →
    let seq := (eng (ekey q k) s).tpSeq
    let tp (att : Nat) : TpWord := BitVec.ofNat 128 (u + (b * 2 ^ 29 + att * 2 ^ 28 + fl * 2 ^ 20 + sid) * 2 ^ 32
      + (cls * 2 ^ 24 + logical * 2 ^ 16 + score) * 2 ^ 64 + (deviceNum s * 2 ^ 20 + seq) * 2 ^ 96)
    let queued (att : Nat) : State := setEng (ekey q k)
      (fun e => { e with tpq := e.tpq ++ [⟨tp att, n, s.ticks⟩], tpSeq := (e.tpSeq + 1) % 65536 }) (mPast q k n len (mStk q k n s) id s)
    (∀ gen < 4096, h = wHandle (q * 2 ^ 22) gen → exec (.mTp q k) s = .next (withStatus q k n .ok 0 (queued 0)))
    ∧ (∀ att, names q h 2 att s → owns q k n att s → (mget [] s.evt.attach q.val).length < 1024 →
      exec (.mTp q k) s = .next (withStatus q k n .ok 0 (dataWr (ekey q k) (a + 4) (nullHandle q)
        (setEvt (fun e => { e with attach := mput e.attach q (mget [] e.attach q.val ++ [⟨att, logical, seq, u, b, sid, cls, s.ticks⟩]) })
          (setBuf att (fun b => { b with owner := 0x2000 }) (queued 1))))))

/-- R232, R234, R235, R239: the first steps of V.SORT, a step of M.EMIT, and waiting for room in the TP queue. Choices of the model in it:
notes/assumptions/30, 32. -/
def Obligations.SortAndEmitSteps : Prop :=
  ∀ (q : Fin 4) (k : Fin 52) (n len : Nat) (i : Instr) (s : State) (r : List EWord), n < 16 →
    let key := ekey q k
    let t := task key n s
    (∀ base m tag o, (mStk q k n s).head? = some (wAddr 1 base) → (sStk q k n s).head? = some (wUint m) → 1 ≤ m → m ≤ 64 →
      base + 2 * m ≤ 128 → 1 ≤ tag → tag ≤ 4 → (∀ j < m, (vecAt q k (base + j) s).tag = tag) → o < m →
      let mr : MrSt := { m0 := wAddr 1 base, s0 := wUint m, v0 := { tag := tag }, pc := t.pc }
      let sorted := vecWr key (base + m + o) (mkVec tag (laneSort (lanes (vecAt q k (base + o) s))))
      let after : State := if m = 1 then bumpN (paceCnt (11 + q)) 128 (sorted (stepsDone q k n len s))
        else stepOn q k n 2 0x900 (if o + 1 < m then o + 1 else 64) mr (sorted s)
      -- the first step is V.SORT's own, a later one MICRO_STEP's
      (o = 0 → nextIs 2 0x900 0 len q k n s = true → exec (.vSort q k) s = .next after)
      ∧ (0 < o → midRoutine 2 0x900 len q k n s = true → t.mrp = o → t.mr = { mr with inH := inHandler t, syl := 2 * 8192 + 0x900 } →
        exec (.microStep q k) s = .next after))
    ∧ (∀ a v b u cls sc fl skey sid gen sp mx logical, mStk q k n s = wAddr 0 a :: r → r.length ≤ 7 → (vStk q k n s).head? = some v →
      1 ≤ v.tag → v.tag ≤ 3 → a + 6 < 65536 → b < 8 → U32 u → cls < 256 → sc < 65536 → fl < 16 → skey < 65536 → sid < 2 ^ 20 → gen < 4096 →
      0 < sp → F36 sp → 1 ≤ mx → mx ≤ 256 → logical < 192 → (eng key s).logical = some logical → (eng key s).tpSeq < 65536 →
      (eng key s).tpq.length < 32 →
      dataAt q k a s = wTime true b u → dataAt q k (a + 1) s = mkW .stream (skey / 16384 * 2 ^ 34 + skey % 16384 * 2 ^ 20 + sid) →
      dataAt q k (a + 2) s = wClass cls sc → dataAt q k (a + 3) s = wUint fl → dataAt q k (a + 4) s = wHandle (q * 2 ^ 22) gen →
      dataAt q k (a + 5) s = wFix sp → dataAt q k (a + 6) s = wUint mx →
      let mr : MrSt := { m0 := wAddr 0 a, v0 := v, pc := t.pc }
      stepIs i (.mEmit q k) q k 3 0x501 len n 0 mr s →
      let emits (l : Lane) : Bool := decide (0 < l.1 ∧ l.2 < 2)
      let at_ (j : Nat) : Nat := ((u + ((j : Int) * sp + 32768) / 65536) % 4294967296).toNat
      ((∀ j < 32, emits ((lanes v).getD j (0, 0)) = false) → exec i s = .next (stepOn q k n 3 0x501 32 mr s))
      ∧ (∀ j < 32, (∀ l < j, emits ((lanes v).getD l (0, 0)) = false) → emits ((lanes v).getD j (0, 0)) = true → mx = 1 →
        let x := (lanes v).getD j (0, 0)
        let tp : TpWord := BitVec.ofNat 128 (at_ j + (b * 2 ^ 29 + (if x.2 = 1 then 2 ^ 27 else 0) + fl * 2 ^ 20 + sid) * 2 ^ 32
          + (cls * 2 ^ 24 + logical * 2 ^ 16 + min 65535 x.1.toNat) * 2 ^ 64 + (deviceNum s * 2 ^ 20 + (eng key s).tpSeq) * 2 ^ 96)
        exec i s = .next (withStatus q k n .ok 1 (dataWr key a (wTime true b (at_ (laneCount v.tag))) (setEng key (fun e => { e with
          tpq := e.tpq ++ [⟨tp, n, s.ticks⟩], tpSeq := (e.tpSeq + 1) % 65536 }) (stepsDone q k n len s))))))
    ∧ (nextIs 3 0x500 0 len q k n s = true → 32 ≤ (eng key s).tpq.length →
      exec (.mTp q k) s = .next (setTask key n (fun t => { t with tpWait := true }) s)
      ∧ ∀ l : List TpEnt, l.length < 32 →
        let freed := setEng key (fun e => { e with tpq := l }) s
        ∃ t', exec (.tpQueueRoom q k) (setTask key n (fun t => { t with tpWait := true }) freed) = .next t'
          ∧ exec (.mTp q k) (setTask key n (fun t => { t with tpWait := false }) freed) = .next t')

/-- R237: every step of M.GATHER and of M.SCATTER moves up to 32 elements. Choices of the model in it: notes/assumptions/11. -/
def Obligations.GatherAndScatterSteps : Prop :=
  ∀ (q : Fin 4) (k : Fin 52) (n len kk a off count form stride dst key : Nat) (i : Instr) (h : EWord) (s : State) (r : List EWord),
    let b := buf key s
    let t := task (ekey q k) n s
    let st := if stride = 0 then formBytes form else stride
    let m := min 32 (count - kk)
    let mr : MrSt := { m0 := wAddr 0 a, m1 := h, pc := t.pc }
    let upTo (f : Nat → State → State) (s : State) : State := (List.range m).foldl (fun s j => f (kk + j) s) s
    let after (op : Nat) (f : Nat → State → State) : State :=
      if kk + m < count then stepOn q k n 3 op (kk + m) mr (upTo f s) else upTo f (stepsDone q k n len s)
    mStk q k n s = wAddr 0 a :: h :: r → r.length ≤ 6 → a + 4 < 65536 → U32 off → 1 ≤ count → count ≤ 4096 → form < 4 → U32 stride →
    dataAt q k a s = wUint off → dataAt q k (a + 1) s = wUint count → dataAt q k (a + 2) s = wUint form →
    dataAt q k (a + 3) s = wUint stride → dataAt q k (a + 4) s = wAddr 0 dst → dst + count ≤ 65536 → kk < count → b.bad = [] →
    (∀ j < count, off + j * st + formBytes form ≤ b.size) →
    (∀ pool, (pool = 1 ∧ borrows q k n key s) ∨ ((pool = 1 ∨ pool = 2) ∧ owns q k n key s) → names q h pool key s →
      stepIs i (.mGather q k) q k 3 0x700 len n kk mr s →
      exec i s = .next (after 0x700 (fun j => dataWr (ekey q k) (dst + j) (gatherWord key b form (off + j * st) (dst + j)))))
    ∧ (∀ o d, let v := leNat (bufRd b o (formBytes form))
      (form = 0 → gatherWord key b form o d = wUint v) ∧ (form = 1 → gatherWord key b form o d = wInt (sgn 32 v))
      ∧ (form = 2 → gatherWord key b form o d = wInt (sgn 16 v)) ∧ (form = 3 → hPool key = 2 → gatherWord key b form o d = mkW .s16x2 v))
    ∧ (names q h 2 key s → owns q k n key s → stepIs i (.mScatter q k) q k 3 0x701 len n kk mr s →
      (∀ j < count, let w := dataAt q k (dst + j) s
        (form = 0 ∧ ∃ u, U32 u ∧ w = wUint u) ∨ ((form = 1 ∨ form = 2) ∧ ∃ v, I32 v ∧ w = wInt v) ∨ (form = 3 ∧ tagOf w = .s16x2)) →
      exec i s = .next (after 0x701 (fun j => bufWr key (off + j * st) (
        let w := dataAt q k (dst + j) s
        if form = 2 then leBytes 2 (clampTo (-32768) 32767 (sgn 32 (w.toNat % 2 ^ 32)) % 65536).toNat else leBytes 4 (w.toNat % 2 ^ 32)))))

/-- R238: M.HCOPY reports RANGE where there is nothing to copy; else it writes the copied batch, 2 KiB a step, its header last. Choices of the model in
it: notes/assumptions/11, 38. -/
def Obligations.HistoryCopySteps : Prop :=
  ∀ (q : Fin 4) (k : Fin 52) (n len a b u key : Nat) (dd : Int) (i : Instr) (strm h : EWord) (s : State) (r : List EWord),
    n < 16 → mStk q k n s = strm :: h :: r → r.length ≤ 6 → (sStk q k n s).head? = some (wAddr 0 a) → a + 1 < 65536 → b < 8 → U32 u →
    0 < dd → I32 dd → dataAt q k a s = wTime true b u → dataAt q k (a + 1) s = wDur dd → tagOf strm = .stream →
    names q h 2 key s → owns q k n key s → stepIs i (.mHcopy q k) q k 3 0x702 len n 0 {} s →
    let plan := hcopyPlan (chordCtx q k n s) strm (wTime true b u) (wDur dd) (buf key s).size
    (plan = none → exec i s = .next (withStatus q k n .range 0 (stepsDone q k n len s)))
    ∧ (∀ m, plan = some m →
      let bs := heldBatches q (bits strm.toNat 19 0) s
      -- the instants whose samples lie in the step's 2 KiB are read in it; the rest of the plane is not there yet
      let now := min m.n (1984 / (cpi m.complex * cbytes m.w16))
      let part := m.part || (List.range now).any (fun j => (instantAt bs (m.first + j * m.period)).isNone)
      let copied := (gridInstants bs m.complex m.first m.period now).flatten
      let all := batchBytes {
        gap := false, complex := m.complex, w16 := m.w16, tb := m.tb, stream := bits strm.toNat 19 0, seq := 0, tFirst := m.first,
        arrivalTime := false, afterGap := false, clip := false, suspect := false, cut := part, period := m.period, n := m.n % 2 ^ 17,
        comps := copied ++ List.replicate (m.n * cpi m.complex - copied.length) (0, 2), arr := 0, gapId := 0 }
      let body := bufWr key 64 (sliceB all 64 1984)
      exec i s = .next (if all.length ≤ 2048 then withStatus q k n .ok 0 (bufWr key 0 (all.take 64) (body (stepsDone q k n len s)))
        else stepOn q k n 3 0x702 1 { m with m0 := strm, m1 := h, s0 := wAddr 0 a, count := 1, part := part, comps := copied } (body s)))

/-! ### Traps, task commands and engine events (05_nyiva_engine.md) -/

/-- R180, R181, R196, R197: what a chord that traps leaves, for encoding faults, an uncorrectable syllable, and traps of lone operations of each kind:
S.DROP, S.LD and C.JMPS. Choices of the model in it: notes/assumptions/2. -/
def Obligations.TrapRecordsAndActions : Prop :=
  ∀ (q : Fin 4) (k : Fin 52) (n lit len : Nat) (s : State),
    let t := task (ekey q k) n s
    (∀ f raw pos, atBoundary q k n s = true → nextChord (ekey q k) n s = .illegal f raw pos →
      traps (.illegalChord q k) q k n 1 0 (raw * 65536 + f * 16 + pos) none s s)
    ∧ (∀ a, atBoundaryBad q k n s = true → nextChord (ekey q k) n s = .ecc a → mfind (eng (ekey q k) s).bad (0x2000000 + a) = some false →
      traps (.illegalChord q k) q k n 7 0 a none s
        (bump (engCnt (ekey q k) 5) (setEng (ekey q k) (fun e => { e with bad := mput e.bad (0x2000000 + a) true }) s)))
    ∧ (nextIs 1 1 lit len q k n s = true → sStk q k n s = [] →
      traps (.sDrop q k) q k n 4 1 ((Config.freeWord s.freeIdx).toNat % 2 ^ 32) (some (t.pc + len)) s { s with freeIdx := s.freeIdx + 1 })
    ∧ (∀ o r, nextIs 1 0x900 lit len q k n s = true → sStk q k n s = wAddr 0 o :: r → 65536 ≤ o → U32 o → r.length < 16 →
      traps (.sLd q k) q k n 6 1 o (some (t.pc + len)) s s)
    ∧ (∀ o r, nextAt 0 8 lit len q k n s = true → sStk q k n s = mkW .poison o :: r → o < 65536 →
      traps (.cJmps q k) q k n 8 0 o (some (t.pc + len)) s s)

/-- R172, R174, R177, R178: TASK_START, kicks, TASK_CANCEL and TASK_PRIO. Choices of the model in it: notes/assumptions/7, 27. -/
def Obligations.TaskCommandEffects : Prop :=
  ∀ (d : Desc) (s : State),
    let e := bf d 16 7 0
    let n := bf d 16 11 8
    let key := engOf e s
    let t := task key n s
    let arg : EWord := BitVec.ofNat 40 (bf d 24 39 0)
    let obj : ObjId := ⟨4, 16 * e + n⟩
    let startC : CmdSpec := { op := 0x21, fields := [(16, 27, 0), (20, 31, 0), (24, 39, 0)], group := some 1, objs := [obj], config := true }
    let cancelC : CmdSpec := { op := 0x22, fields := [(16, 11, 0)], group := some 1, objs := [obj], wait := .taskCancel e n }
    let prioC : CmdSpec := { op := 0x23, fields := [(16, 14, 0)], group := some 1, objs := [obj] }
    let off : Prop := engFrozen key s = true ∨ engPaused key s = true
    let cleared : Task := { trapCode := t.trapCode, trapStr := t.trapStr, trapNested := t.trapNested, trapAddr := t.trapAddr,
                            trapDetail := t.trapDetail }
    let started (seq : Nat) : Task := { cleared with
      state := .ready, seq := seq, prio := bf d 16 25 23, waitMask := bf d 16 15 12, batchThr := bf d 16 22 16,
      handlerOn := decide (bf d 16 26 26 = 1), handler := bf d 20 31 16, pc := bf d 20 15 0,
      sStk := if tagOf arg = .empty then [] else [arg], src := some (srcOf 0x21 d s) }
    let marks (m : FMap Bool) : FMap Bool := wroteMarks 3 n 0 15 (wroteMarks 4 n 0 15 (wroteMarks 5 n 0 15 (wroteMarks 6 n 0 15 m)))
    let mine (m : Nat × Nat × Msg) : Bool := decide (m.1 = (eng key s).logical.getD 0 ∧ m.2.1 = n)
    let gone : Nat := discardedReadies { t with state := cancelFrom t } + (s.msgs.filter mine).length
    e < 192 →
    (bf d 16 27 27 = 0 → passes startC d s = true → copyable arg → 1 ≤ bf d 16 22 16 → bf d 16 22 16 ≤ 64 → t.state = .free → ¬ off →
      runs (.taskStart d) startC d .ok 0
        (setEng key (fun x => { x with seqNext := x.seqNext + 1, tasks := mput x.tasks n (started x.seqNext), bad := marks x.bad })) s)
    ∧ (bf d 16 27 27 = 1 → passes { startC with config := false, quiet := true } d s = true → copyable arg →
      (t.state = .waiting ∨ t.state = .ready ∨ t.state = .running → inboxLoad e n s < 8 → ¬ off →
        runs (.taskKick d) { startC with config := false, quiet := true } d .ok 0
          (fun s => wakeSlot key n (setTask key n (fun t => { t with inbox := t.inbox ++ [⟨arg, emptyWord, 0x3000 + d.func⟩] }) s)) s)
      ∧ (t.state = .cancelling →
        runs (.taskKick d) { startC with config := false, quiet := true } d .ok 0 (bump (engCnt key 3)) s)
      ∧ (t.state = .free → rejects (.taskKick d) { startC with config := false, quiet := true } d .stale s)
      ∧ (t.state = .trapped → rejects (.taskKick d) { startC with config := false, quiet := true } d .busy s))
    ∧ (passes cancelC d s = true →
      (t.state = .free → rejects (.taskCancel d) cancelC d .stale s)
      ∧ (t.state ≠ .free → t.cancels = [] → t.state = .trapped ∨ engStopped key s = false →
        runs (.taskCancel d) cancelC d .ok 0 (fun s => setEng key (fun x => { x with
            tasks := mput x.tasks n cleared, running := if x.running = some n then none else x.running })
          (freeOwned (key / 64) (ownEngine ((eng key s).logical.getD 0 % 48) n) (endLoans key n
            (bump (engCnt key 7) (bumpN (engCnt key 3) gone { s with msgs := s.msgs.filter (fun m => ! mine m) }))))) s)
      ∧ (t.state = .waiting ∨ t.state = .ready ∨ t.state = .running → engStopped key s = true →
        starts (.taskCancel d) cancelC d (setTask key n (fun x => { x with
          state := .cancelling, cancels := x.cancels ++ [srcOf 0x22 d s], begun := x.begun || decide (x.state ≠ .ready) })) s)
      ∧ (t.state = .cancelling → engStopped key s = true →
        starts (.taskCancel d) cancelC d (setTask key n (fun x => { x with
          cancels := x.cancels ++ [srcOf 0x22 d s] })) s))
    ∧ (passes prioC d s = true → t.state ≠ .free →
      runs (.taskPrio d) prioC d .ok 0 (setTask key n (fun t => { t with prio := bf d 16 14 12 })) s)

/-- R395: ENG_LOAD writes the units of its bulk data in order, up to the first that is malformed. Choices of the model in it: notes/assumptions/27, 39. -/
def Obligations.EngineLoad : Prop :=
  ∀ (d : Desc) (data : List Byte) (s : State),
    let e := bf d 16 7 0
    let space := bf d 16 31 28
    let off := bf d 20 31 0
    let count := bf d 24 31 0
    let key := engOf e s
    let l := data.map (·.toNat)
    let c : CmdSpec := { op := 0x20, fields := [(16, 31, 27), (16, 7, 0), (20, 31, 0), (24, 31, 0), (32, 63, 0)], group := some 1,
                         objs := [⟨3, e⟩], dataCrc := crc32c l }
    let word (i : Nat) : Nat := leNat (sliceB l (8 * i) 8)
    let vec (i : Nat) : List Nat := sliceB l (384 * i) 384
    let wordOk (i : Nat) : Prop := word i < 2 ^ 40 ∧ copyable (BitVec.ofNat 40 (word i))
    let vecOk (i : Nat) : Prop := (vec i).getD 320 0 ≤ 4 ∧ leNat ((vec i).drop 321) = 0
    let upTo (n : Nat) (f : Nat → State → State) (s : State) : State := (List.range n).foldl (fun s i => f i s) s
    let idle : Prop := bf d 16 27 27 = 1 ∨ ∀ x ∈ (eng key s).tasks, x.2.state = .free
    e < 192 → 1 ≤ count → bf d 32 5 0 = 0 → passes c d s = true → idle →
    (engFrozen key s = true ∨ engPaused key s = true → space ≤ 2 → count ≤ 65536 → off + count ≤ (if space = 1 then 128 else 65536) →
      rejects (.engLoad d (some data)) c d .mode s)
    ∧ (engFrozen key s = false → engPaused key s = false →
    (space = 2 → off + count ≤ 65536 → 2 * count ≤ l.length →
      runs (.engLoad d (some data)) c d .ok count (upTo count (fun i => progWr key (off + i) (leNat (sliceB l (2 * i) 2)))) s)
    ∧ (∀ n ≤ count, space = 0 → off + count ≤ 65536 → 8 * count ≤ l.length → (∀ i < n, wordOk i) → (n < count → ¬ wordOk n) →
      runs (.engLoad d (some data)) c d (if n = count then .ok else .range) n
        (upTo n (fun i => dataWr key (off + i) (BitVec.ofNat 40 (word i)))) s)
    ∧ (∀ n ≤ count, space = 1 → off + count ≤ 128 → 384 * count ≤ l.length → (∀ i < n, vecOk i) → (n < count → ¬ vecOk n) →
      runs (.engLoad d (some data)) c d (if n = count then .ok else .range) n
        (upTo n (fun i => vecWr key (off + i) ⟨(vec i).getD 320 0, BitVec.ofNat 2048 (leNat ((vec i).take 256)),
          shownFlags ⟨(vec i).getD 320 0, 0, BitVec.ofNat 512 (leNat (sliceB (vec i) 256 64))⟩⟩)) s))

/-- R167, R171, R173, R184: wake times, messages, fences and the scrubber. Choices of the model in it: notes/assumptions/36. -/
def Obligations.EngineEvents : Prop :=
  ∀ (q : Fin 4) (k : Fin 52) (n : Fin 16) (s : State),
    let key := ekey q k
    let t := task key n s
    (∀ b u, b < 8 → U32 u → t.wake = some (wTime true b u) →
      let fired : State := setTask key n (fun t => { t with wake := none, timer := true }) s
      exec (.wakeTimeFire q k n) s = .next (if wrap32 ((u : Int) - (tb b s).ns) ≤ 0 then
        (if t.state = .cancelling ∧ t.timer = false then bump (engCnt key 3) fired else wakeSlot key n fired) else s))
    ∧ (∀ e j m l1 l2, s.msgs = l1 ++ (e, j, m) :: l2 → (∀ x ∈ l1, ¬ (x.1 = e ∧ x.2.1 = j ∧ x.2.2.sender = m.sender)) →
      let x := (task (engOf e s) j s).state
      let gone : State := { s with msgs := l1 ++ l2 }
      exec (.messageArrive l1.length) s = .next (if x = .free then gone else if x = .cancelling then bump (engCnt (engOf e s) 3) gone
        else wakeSlot (engOf e s) j (setTask (engOf e s) j (fun t => { t with inbox := t.inbox ++ [m] }) gone)))
    ∧ ((∀ x ∈ (eng key s).tpq, x.slot ≠ n) → (∀ m ∈ s.msgs, m.2.2.sender ≠ ownerCode q k n s) →
      exec (.fenceComplete q k n) s = .next (setTask key n (fun t => { t with mFence := none, cFence := none }) s))
    ∧ (∀ f, engLive key s = true → engStopped key s = false → t.state = .ready ∨ t.state = .running →
      f.since + 625 * rfld (engBase q k + 8) 31 16 s ≤ s.ticks → t.inWait = false → (eng key s).soft = [] →
      (eng key s).running = some n.val ∨ (eng key s).running = none →
      let overC : State := setTask key n (fun t => { t with cFence := none }) s
      let overM : State := setTask key n (fun t => { t with mFence := none }) s
      (∀ syls len, t.cFence = some f → nextChord key n s = .ok syls len → ownTrap key n 0 (.ok syls len) overC = false →
        traps (.fenceTimeout q k n) q k n 9 0 f.addr (some (t.pc + len)) s overC)
      ∧ (∀ syls len, t.cFence = none → t.mFence = some f → nextChord key n s = .ok syls len → syls.any mHeld = true →
        ownTrap key n 3 (.ok syls len) overM = false →
        traps (.fenceTimeout q k n) q k n 9 3 f.addr (some (t.pc + len)) s overM)
      ∧ (∀ g raw pos, t.cFence = some f → nextChord key n s = .illegal g raw pos →
        traps (.fenceTimeout q k n) q k n 1 0 (raw * 65536 + g * 16 + pos) none s overC))
    ∧ (∀ o r lit len, (eng key s).soft = [o] → o < 65536 → (mfind (eng key s).bad o) = none →
      nextIs 1 0x900 lit len q k n (fixLoc key o s) = true → sStk q k n s = wAddr 0 o :: r →
      exec (.sLd q k) s = exec (.sLd q k) (fixLoc key o s))
    ∧ ((eng key s).powered = true → quadUp q s = true →
      (∀ fixed, exec (.scrubPass q k fixed [] [] []) s =
        .next (bumpN (engCnt key 4) fixed ((eng key s).soft.foldl (fun s x => fixLoc key x s) s)))
      ∧ (∀ a < 65536, mfind (eng key s).bad a = none → (eng key s).soft = [] →
        exec (.scrubPass q k 0 [] [2 ^ 32 + a] []) s = .next (setEng key (fun e => { e with soft := [a] }) (bumpN (engCnt key 4) 0 s)))
      ∧ (∀ a < 65536, (eng key s).soft = [] → mfind (eng key s).bad a ≠ some true →
        exec (.scrubPass q k 0 [a] [] []) s = .next (dataWr key a (mkW .poison (0x4000 + a % 4096)) (bump (engCnt key 5) (bumpN (engCnt key 4) 0 s))))
      ∧ (∀ a, (a < 128 → (eng key s).soft = [] → mfind (eng key s).bad (0x1000000 + a) = none →
          exec (.scrubPass q k 0 [] [0x1000000 + a] []) s = .next (setEng key (fun e => { e with bad := mput e.bad (0x1000000 + a) false })
            (bumpN (engCnt key 4) 0 s)))))

/-! ### Operating modes (02_operating_modes.md) -/

/-- R46, R52, R54, R57, R58: MODE_SET, by its target and the mode it meets, and the end of the transition it begins. Choices of the model in it:
notes/assumptions/27, 60, 66, 91. -/
def Obligations.ModeTransitions : Prop :=
  ∀ (d : Desc) (s : State),
    let target := bf d 16 2 0
    let c : CmdSpec := { op := 0x60, fields := [(16, 2, 0)], group := some 5, objs := [⟨10, 0⟩], wait := .modeSet }
    let cur := s.mode.current
    let busy : Prop := s.mode.transit ≠ none ∨ cur = .bringup
    (passes c d s = true → target < 6 →
      (target = 0 → rejects (.modeSet d) c d .mode s)
      ∧ (target ≠ 0 → busy → rejects (.modeSet d) c d .busy s)
      ∧ (target ≠ 0 → ¬ busy → target = modeCode cur → runs (.modeSet d) c d .ok 0 (setFld 0x2000 2 0 target) s)
      ∧ (¬ busy → cur = .safe → s.mode.cause.therm = true ∨ s.mode.cause.supply = true → 1 ≤ target → target ≤ 4 →
          rejects (.modeSet d) c d .mode s)
      ∧ (∀ m, ¬ busy → m ≠ .bringup → m ≠ cur → target = modeCode m → (cur = .safe → s.mode.cause.therm = false ∧ s.mode.cause.supply = false) →
          (m = .vigil → vigilBad s = false) →
          let begun (x : State) : State := setMode (fun y => { y with
            transit := some ⟨m, if (cur = .retain ∨ cur = .calibrate) ∧ (m = .acquire ∨ m = .vigil) then some x.ticks else none, false,
              if m = .vigil then (rfld 0x2008 9 8 x, reg 0x200C x, reg 0x2010 x + rfld 0x2014 15 0 x * 2 ^ 32) else (0, 0, 0)⟩ }) x
          (m ≠ .safe ∨ s.evt.builds = [] → starts (.modeSet d) c d (fun x => setFld 0x2000 2 0 target (begun x)) s)
          ∧ (m = .safe → serves (.modeSet d) c d (fun _ x => setFld 0x2000 2 0 target (drainBuilds (begun x))) s)))
    ∧ (∀ tr, s.mode.transit = some tr → castleBlocks s = false →
      (s.mode.coreFail = true → exec .modeTransitionDone s = .next s)
      ∧ (tr.drain ≠ none ∧ drainPending s = true → exec .modeTransitionDone s = .next s)
      ∧ (s.mode.coreFail = false → tr.drain = none ∨ drainPending s = false → ∃ t, exec .modeTransitionDone s = .next t
        ∧ t.mode = { s.mode with
            current := tr.target, transit := none, vigilSafe := decide (tr.target = .safe ∧ cur = .vigil),
            vigilQ := if tr.target = .vigil then tr.vigil.1 else s.mode.vigilQ,
            vigilPorts := if tr.target = .vigil then tr.vigil.2.1 else s.mode.vigilPorts,
            vigilEngines := if tr.target = .vigil then tr.vigil.2.2 else s.mode.vigilEngines, calSet := if tr.target = .calibrate then BitVec.ofNat 128
              (reg 0x2020 s + reg 0x2024 s * 2 ^ 32 + reg 0x2028 s * 2 ^ 64 + reg 0x202C s * 2 ^ 96) else s.mode.calSet,
            cause := if tr.target = .safe ∧ tr.auto = false then { s.mode.cause with cmd := true } else s.mode.cause }
        ∧ t.rst = s.rst ∧ t.fuses = s.fuses ∧ t.engMap = s.engMap ∧ t.msgs.Sublist s.msgs ∧ t.spis = s.spis ∧ t.rdLatch = s.rdLatch
        ∧ t.wrLatch = s.wrLatch ∧ t.ticks = s.ticks ∧ t.pending = s.pending))

/-- R51, R52, R58: automatic entry to Safe, the clearing of its causes, and the end of a drain. Choices of the model in it: notes/assumptions/28, 60,
93. -/
def Obligations.AutomaticSafeEntry : Prop :=
  ∀ s : State,
    let cur := s.mode.current
    let enter (x : State) : State :=
      setFld 0x2000 2 0 5 (drainBuilds (setMode (fun m => { m with transit := some ⟨.safe, none, true, (0, 0, 0)⟩ }) x))
    let onWay : Prop := (cur = .safe ∧ s.mode.transit = none) ∨ (∃ tr, s.mode.transit = some tr ∧ tr.target = .safe)
    (∀ k, s.mode.hotSince = some k → cur ≠ .bringup → k + 625000 * rfld 0x2030 31 16 s ≤ s.ticks →
      let hot : State := setMode (fun m => { m with cause := { m.cause with therm := true } }) s
      (cur ≠ .safe → s.mode.transit = none → exec .safeEntryThermal s = .next (enter hot))
      ∧ (onWay → exec .safeEntryThermal s = .next hot)
      ∧ (∀ tr, s.mode.transit = some tr → tr.target ≠ .safe → exec .safeEntryThermal s = .next (enter (answerMode .aborted hot))))
    ∧ (∀ core, exec (.safeEntrySupply ⟨false, core⟩) s = .next (setMode (fun m => { m with railSince := none, coreFail := false }) s))
    ∧ (∀ core,
      let off : State := setMode (fun m => { m with
        railSince := some s.ticks, coreFail := m.coreFail || core, cause := { m.cause with supply := true } }) s
      (cur = .bringup → exec (.safeEntrySupply ⟨true, core⟩) s = .next s)
      ∧ (cur ≠ .bringup → onWay → exec (.safeEntrySupply ⟨true, core⟩) s = .next off)
      ∧ (cur ≠ .bringup → cur ≠ .safe → s.mode.transit = none → exec (.safeEntrySupply ⟨true, core⟩) s = .next (enter off))
      ∧ (cur ≠ .bringup → ∀ tr, s.mode.transit = some tr → tr.target ≠ .safe →
        exec (.safeEntrySupply ⟨true, core⟩) s = .next (enter (answerMode .aborted off))))
    ∧ (∀ l : List Int, l.length = 5 → centralUp s = true →
      let hot := l.foldl max (l.headD 0)
      let read := setMode (fun m => { m with hottest := hot, sensors := (List.range 5).foldl (fun f i => stPut 25 f i (l.getD i 0)) m.sensors }) s
      (hot ≤ (rfld 0x2030 7 0 s : Nat) → exec (.thermalWarning l) s = .next (setMode (fun m => { m with hotSince := none }) read))
      ∧ ((rfld 0x2030 7 0 s : Nat) < hot → s.mode.hotSince ≠ none → exec (.thermalWarning l) s = .next read)
      ∧ ((rfld 0x2030 7 0 s : Nat) < hot → s.mode.hotSince = none → exec (.thermalWarning l) s = .next (
        let x := setFld 0x42018 1 1 1 (setMode (fun m => { m with hotSince := some s.ticks }) read)
        if bit (reg 0x42018 s) 1 = false ∧ bit (reg 0x42014 s) 31 = true ∧ bit (reg 0x42014 s) 1 = true then
          { x with tw := { x.tw with attnWant := true } } else x)))
    ∧ (∀ who v, writesOk who 0x2004 v s = true →
      exec (.safeCauseClear who v) s = .next (setMode (fun m => { m with cause := {
        therm := m.cause.therm && ! v.getLsbD 0, supply := m.cause.supply && ! v.getLsbD 1, cmd := m.cause.cmd && ! v.getLsbD 2 } })
        (putReg 0x2004 v s)))
    ∧ (∀ tr k, s.mode.transit = some tr → tr.drain = some k → mwf s.evt.builds = true →
      (s.ticks < k + 625000 * rfld 0x2000 23 16 s → exec .drainTimeout s = .next s)
      ∧ (k + 625000 * rfld 0x2000 23 16 s ≤ s.ticks → ∃ t, exec .drainTimeout s = .next t
        ∧ t = { s with out := t.out, regs := t.regs, cnts := t.cnts, host := t.host, jrnl := t.jrnl, evt := t.evt }
        ∧ drainPending t = false))

/-! ### Ports, links and frames (03_sample_ingest.md) -/

/-- R66, R76, R96, R101, R103, R104, R570: PORT_CFG on a port whose link is down, training, the link's coming and going, what an idle port sends next,
and a capture re-armed. Choices of the model in it: notes/assumptions/8, 16, 18, 21, 27, 65, 123, 126. -/
def Obligations.PortsAndLinks : Prop :=
  ∀ (p : Fin 128) (s : State),
    let x := port p s
    let base := portBase p
    (∀ (d : Desc) (o v : Nat),
      let c : CmdSpec := { op := 0x10, fields := cfgFields, group := some 0, objs := [⟨1, p⟩], badEnc := pairsBeyond d }
      bf d 16 6 0 = p → passes c d s = true → nPairs d = 1 → pairOf d 0 = (o, v) →
      (o = 0x28 → 1518 ≤ v → v ≤ 9216 → runs (.portCfg d) c d .ok 0 (setReg (base + 0x28) v) s)
      ∧ (o = 0x28 → v < 1518 ∨ (9216 < v ∧ v < 2 ^ 14) → rejects (.portCfg d) c d .range s)
      ∧ (o = 0x28 → 2 ^ 14 ≤ v → rejects (.portCfg d) c d .rsvdField s)
      ∧ (o = 0x04 → rejects (.portCfg d) c d .range s)
      ∧ (o = 0 → v % 65536 = 0 → v / 2 ^ 24 ≤ 8 → x.linkUp = false → x.launchQ = [] → portStreams p s = [] →
        let same : Prop := rfld base 27 24 s = bits v 27 24 ∧ rfld base 22 22 s = bits v 22 22
        runs (.portCfg d) c d .ok 0 (fun s =>
          if same ∨ portPowered p s = false then setReg base v s
          else if bits v 27 24 = 0 then setPtp p (fun y => { y with stamps := [] })
            (setPort p (fun y => { y with training := false, linkUp := false, speed := 0 }) (dropEvents p (setReg base v s)))
          else bumpN (portCnt p 15) (x.txQ.length - (settleKeeps 8 x.txQ).length) (setPort p (fun y => { y with
            training := true, attempt := s.ticks, txSettle := true, txQ := settleKeeps 8 y.txQ }) (setReg base v s))) s))
    ∧ (∀ d : Desc,
      let c : CmdSpec := { op := 0x10, fields := cfgFields, group := some 0, objs := [⟨1, p⟩], badEnc := pairsBeyond d }
      bf d 16 6 0 = p → passes c d s = true → pairsVerdict base 0x800 d s = .ok →
      serves (.portCfg d) c d (fun src t => complete src .ok 0 (applyPairs base d t)) s)
    ∧ (x.training = true → x.linkUp = false → x.attempt + 156250000 ≤ s.ticks →
      exec (.portTrainingAttemptTimeout p) s = .next (setPort p (fun y => { y with attempt := s.ticks }) s))
    ∧ (x.training = true → x.linkUp = false → portPowered p s = true → portsUp (p.val / 32) s = true →
      let up : State := ptpDecide (ptpTb p s) none
        (setPtp p (fun y => { y with state := if ptpRole p s = 0 then .disabled else .listening, preAt := s.ticks })
          (setPort p (fun y => { y with
            linkUp := true, training := false, speed := rfld base 27 24 s, laneLock := laneMask (rfld base 27 24 s) }) s))
      exec (.linkUp p) s = .next (sliceLinkUp p up)
      ∧ ((∀ c ∈ s.repair.castles, c.kind ≠ 2) → exec (.linkUp p) s = .next up))
    ∧ (x.linkUp = true →
      exec (.linkDown p) s = .next (setPort p (fun y => { y with training := true, attempt := s.ticks })
        (l1Update (ptpTb p s) (setPtp p (fun y => { y with
            state := if ptpRole p s = 0 then .disabled else .faulty, foreign := [], parent := 0, sync := none, req := none, presp := none })
          (dropEvents p (portGaps p 2 (linkLost p (l1Lost p
            (bump (portCnt p 13) (setPort p (fun y => { y with linkUp := false, laneLock := 0 }) s))))))))))
    ∧ (x.linkUp = false → exec (.linkDown p) s = .next s)
    ∧ (∀ err l1 l2 it, x.txQ = l1 ++ it :: l2 → txBarred p it s = false → txHeld p it s = false →
      (∀ y ∈ l1, txBarred p y s = true ∨ txClass it < txClass y) → (∀ y ∈ l2, txBarred p y s = true ∨ txClass it ≤ txClass y) →
      x.linkUp = true → x.txSettle = false → x.busyUntil ≤ s.ticks → x.pause ≤ s.ticks →
      (∀ l ∈ x.launchQ, ((frameNs p (txLen p it s) s * 65536 : Nat) : Int) < launchLeft l s) →
      let took : State := setPort p (fun y => { y with txQ := l1 ++ l2, busyUntil := s.ticks + nsTicks (frameNs p (txLen p it s) s) }) s
      let sent (o : Output) : State := bump (portCnt p 14) (emit o took)
      (∀ m, it = .ptp m → exec (.portTxSelect p err) s =
        .next (ptpSent p m ((tbPips (ptpTb p s) s : Int) + err) (bump (portCnt p 14) took)))
      ∧ (∀ g, it = .gcm g → exec (.portTxSelect p err) s = .next (sent (if g.stomp then .stomp p g.bytes else .frame p g.bytes)))
      ∧ (∀ b, it = .reply b → exec (.portTxSelect p err) s = .next (sent (.frame p b)))
      ∧ (∀ key b, it = .event key b → exec (.portTxSelect p err) s = .next (
        if (l1 ++ l2).any (holdsBuf key) = true ∨ hPool key ≠ 3 then sent (.frame p b) else freeBuf key (sent (.frame p b)))))
    ∧ exec (.txSettleDone p) s = .next (setPort p (fun y => { y with txSettle := false }) s)
    ∧ (∀ who v, writesOk who (base + 0x400) v s = true →
      exec (.capRearm who p v) s = .next (putReg (base + 0x400) v (journalWrite .ok [(base + 0x400, v.toNat)] s)))

/-- R86–R88, R90, R92, R94–R96, R388: STREAM_CFG on a new stream or on one without an open batch, its release, and what ends a batch, a silence and a
NO_BUFFER gap. Choices of the model in it: notes/assumptions/22, 25, 27. -/
def Obligations.StreamsAndBatches : Prop :=
  (∀ (d : Desc) (pb : BitVec 1024) (s : State),
    let id := bf d 16 19 0
    let p := bf d 20 6 0
    let cfg := streamCfgOf p pb
    let o : ObjId := ⟨2, id⟩
    let c : CmdSpec := { op := 0x11, relOk := true, group := some 0, objs := [o], config := true,
                         fields := [(16, 19, 0), (20, 6, 0), (24, 63, 0), (32, 31, 0)], badEnc := pbBad pb streamPbFields || decide (8 ≤ pbf pb 0 19 16),
                         needs := if dRelease d = true then [] else [⟨1, p⟩], pb := some (leBytes 128 pb.toNat) }
    let mine (t : State) : Prop := ownerOf o t = some ((ownerOf o s).getD d.func)
    bf d 32 31 0 = 128 → bf d 24 5 0 = 0 →
    (dRelease d = false → passes c d s = true →
      (streamCfgOk cfg (pbf pb 16 28 25) = false → rejects (.streamCfg d (some pb)) c d .range s)
      ∧ (streamCfgOk cfg (pbf pb 16 28 25) = true →
        (streamAny id s = none →
          (freeSlot (p / 32) s = none → rejects (.streamCfg d (some pb)) c d .noResource s)
          ∧ (∀ n, freeSlot (p / 32) s = some n → runsAnd (.streamCfg d (some pb)) c d .ok 0
              (fun s => { s with streams := mput s.streams (p / 32 * 16384 + n) { id := id, cfg := cfg } }) mine s))
        ∧ (∀ k x, streamAny id s = some k → stream k s = some x →
          (k / 16384 ≠ p / 32 → rejects (.streamCfg d (some pb)) c d .range s)
          ∧ (k / 16384 = p / 32 → x.open_ = none → x.fresh = true ∨ cfgTouches x.cfg cfg = false →
            runsAnd (.streamCfg d (some pb)) c d .ok 0 (modStream k (fun y => { y with
              cfg := cfg, fresh := true, ended := false, silent := false, index := 0, line := [], clipPend := false })) mine s))))
    ∧ (let c := { c with badEnc := decide (pb ≠ 0) }
      dRelease d = true → passes c d s = true →
      (streamAny id s = none → rejects (.streamRelease d (some pb)) c d .range s)
      ∧ (∀ k x, streamAny id s = some k → stream k s = some x → x.open_ = none →
        runsAnd (.streamRelease d (some pb)) c d .ok 0 (fun s => streamGone (k / 16384) id { s with streams := mdel s.streams k })
          (fun t => ownerOf o t = none ∧ stream k t = none) s)))
  ∧ (∀ (q : Fin 4) (slot : Fin 16384) (x : Stream) (s : State),
    let k := q.val * 16384 + slot.val
    stream k s = some x →
    (∀ b, x.open_ = some b → s.mode.current ≠ .safe → x.openTick + 625 * x.cfg.batchUs ≤ s.ticks →
      exec (.batchTimeout q slot) s = .next (deliver k x
        { b with seq := x.batchSeq, cut := decide (b.n < x.cfg.batch), afterGap := x.afterGap, gapId := if x.afterGap then x.gapId else 0 }
        (modStream k (fun y => { y with
          open_ := none, batchSeq := (y.batchSeq + 1) % 2 ^ 32, batches := y.batches + 1, afterGap := false }) s)))
    ∧ (x.fresh = false → x.ended = false → x.silent = false → s.mode.current ≠ .safe → x.lastTick + 625 * x.cfg.gapUs ≤ s.ticks →
      x.open_ = none → x.gap = none →
      let n := mget 0 s.gapHead q.val
      let x' := { x with silences := x.silences + 1 }
      let entry : GapEntry := ⟨1, false, false, true, x.id, x.exp, 0, x.batchSeq, x.expTime / 65536, 0, x.lastArr / 65536, 0⟩
      exec (.silenceTimeout q slot) s = .next (modStream k (fun y => { y with
          gap := some ⟨1, n, false, false⟩, batchSeq := (y.batchSeq + 1) % 2 ^ 32, gaps := (y.gaps + 1) % 65536, silent := true })
        (deliver k x' (gapMarker x' (rfld (portBase x.cfg.port) 18 16 s) n) (histGap q.val 1 x.expTime x'
          { s with streams := mput s.streams k x', gapLog := mput s.gapLog (q.val * 512 + n % 512) entry,
                   gapHead := mput s.gapHead q.val ((n + 1) % 2 ^ 32) }))))
    ∧ (∀ g, x.noBuf = some g → s.mode.current ≠ .safe → canAllocBatch q (batchRoom x.cfg) s = true →
      exec (.noBufferGapClose q slot) s = .next (modStream k (fun y => { y with noBuf := none, afterGap := true, gapId := g.n % 65536 })
        (modGapEntry q g.n (fun e => { e with
          open_ := false, rcv := (x.exp + 4294967295) % 2 ^ 32, resume := x.lastSend, resumeArr := x.lastArr / 65536 }) (closeBatch k s)))
      ∧ ∀ e, x.open_ = none → mfind s.gapLog (q.val * 512 + g.n % 512) = some e → mget 0 s.gapHead q.val - g.n ≤ 512 →
      exec (.noBufferGapClose q slot) s = .next { s with
        streams := mput s.streams k { x with noBuf := none, afterGap := true, gapId := g.n % 65536 }
        gapLog := mput s.gapLog (q.val * 512 + g.n % 512)
          { e with open_ := false, rcv := (x.exp + 4294967295) % 2 ^ 32, resume := x.lastSend, resumeArr := x.lastArr / 65536 } }))

/-- R64, R67, R73–R79, R99: a received frame is counted, filtered, and taken by its stream, or dropped by the first step or check that it fails. Choices
of the model in it: notes/assumptions/18, 26. -/
def Obligations.FrameReception : Prop :=
  ∀ (p : Fin 128) (f : RxFrame) (s : State),
    let base := portBase p
    let l0 := f.bytes.map (·.toNat)
    let flen := l0.length + 4
    let tb := rfld base 18 16 s
    let arr := wrapN 80 ((tbPips tb s : Int) + f.stampErr)
    let tagged : Bool := decide (beNat (sliceB l0 12 2) = 0x8100)
    let l := if tagged then l0.take 12 ++ l0.drop 16 else l0
    let et := beNat (sliceB l 12 2)
    let dst := beNat (sliceB l0 0 6)
    let fec := bumpN (portCnt p 12) f.fecUncorr (bumpN (portCnt p 11) f.fecCorr s)
    let good : Prop := (port p s).linkUp = true ∧ f.fcsOk = true
    let counted := bumpN (portCnt p 1) flen (bump (portCnt p 0) fec)
    let sized : Prop := good ∧ s.mode.current ≠ .safe ∧ 64 ≤ flen ∧ flen ≤ rfld (base + 0x28) 13 0 s
    let tagOk : Prop := ¬ (tagged = true ∧ rfld base 19 19 s = 0) ∧ et ≠ 0x8100 ∧ et ≠ 0x88A8
    let goes (t : State) : Prop := exec (.frameReceive p f) s = .next t
    ((port p s).linkUp = false → goes s)
    ∧ ((port p s).linkUp = true → f.fcsOk = false → goes (bump (portCnt p 2) fec))
    ∧ (good → s.mode.current = .safe →
      (gsfAt p l s = none → goes counted)
      ∧ (et = 0x88B5 → gsfAt p l s = some 14)
      ∧ (∀ n, gsfAt p l s = some n →
        let id := (parseGsf (sliceB l n 32)).stream
        (∀ k x, streamKey (p.val / 32) id s = some k → stream k s = some x →
          goes { counted with streams := mput s.streams k { x with lastArr := arr, lastTick := s.ticks } })
        ∧ (streamKey (p.val / 32) id s = none → goes counted)))
    ∧ (good → s.mode.current ≠ .safe → flen < 64 → goes (bump (portCnt p 3) counted))
    ∧ (good → s.mode.current ≠ .safe → 64 ≤ flen → rfld (base + 0x28) 13 0 s < flen → goes (bump (portCnt p 4) counted))
    ∧ (sized → et = 0x8808 → goes (
      if rfld base 21 21 s = 1 ∧ beNat (sliceB l 14 2) = 1 then
        setPort p (fun x => { x with pause := s.ticks + nsTicks (beNat (sliceB l 16 2) * 512 / portGbps x.speed) }) (bump (portCnt p 7) counted)
      else bump (portCnt p 7) counted))
    ∧ (sized → et ≠ 0x8808 → addrOk p dst et l s = false → goes (bump (portCnt p 5) counted))
    ∧ (sized → et = 0x88B5 → dst ≠ portMac p s → addrOk p dst et l s = false)
    ∧ (dst = portMac p s → addrOk p dst et l s = true)
    ∧ (sized → et ≠ 0x8808 → addrOk p dst et l s = true → ¬ tagOk → goes (bump (portCnt p 6) counted))
    ∧ (sized → dst = portMac p s → tagOk → ¬ et ∈ [0x8808, 0x88F7, 0x88B6, 0x88B5, 0x0800, 0x86DD, 0x0806] → goes (bump (portCnt p 10) counted))
    ∧ (sized → et = 0x88B5 → dst = portMac p s → tagOk →
      let h := sliceB l 14 32
      let g := parseGsf h
      let check := headerCheck p h g (l.length - 46) (decide (flen = 64)) s
      (check ≠ 0 → goes (failCheck p check h flen arr tb counted))
      ∧ (check ≠ 0 → bit (reg (base + 0x400) s) check = true → goes (bump (chkCnt p check) counted))
      ∧ (∀ k x, check = 0 → streamKey (p.val / 32) g.stream s = some k → stream k s = some x → x.fresh = false → x.ended = false →
        let lag : Int := (arr / 65536 : Nat) - (g.time : Int)
        let inWindow : Prop := x.cfg.latMin ≤ lag ∧ lag ≤ x.cfg.latMax ∧ -2147483648 ≤ lag ∧ lag ≤ 2147483647
        let takes (v : SeqVerdict) (t : State) : Prop :=
          goes (takeFrame p k g ((l.drop 46).take g.payload) v false arr h flen t)
        (g.seq = x.exp → inWindow → takes .take counted)
        ∧ (0 < sdiff g.seq x.exp → x.cfg.resync = false → inWindow →
          takes .ahead (if x.silent then counted else failCheck p 11 h flen arr tb counted))
        ∧ (sdiff g.seq x.exp < 0 → x.cfg.resync = false → goes (failCheck p 10 h flen arr tb counted))
        ∧ (g.seq = x.exp → ¬ inWindow → x.cfg.drop = true → goes (failCheck p 12 h flen arr tb counted))
        ∧ (g.seq = x.exp → inWindow → g.last = false → ∃ t y, goes t ∧ stream k t = some y ∧ y.exp = (g.seq + 1) % 2 ^ 32
          ∧ y.lastArr = arr ∧ y.lastTick = s.ticks ∧ y.lastSend = g.time ∧ y.fresh = false ∧ y.ended = false ∧ y.silent = false
          ∧ y.expTime = (g.time * 65536 + g.frac + g.count * gsfPeriod g) % 2 ^ 80)))

/-! ### Time bases (04_time_bases.md) -/

/-- R108, R113, R119–R126, R388, R393: TB_CFG, TB_OFFSET and TB_STEP in its four modes, entry to HOLDOVER, and how a change of a count moves its
nanoseconds, fraction and residual together, modulo 2^64 ns. Choices of the model in it: notes/assumptions/6, 14, 27, 126, 127. -/
def Obligations.TimeBaseCommands : Prop :=
  (∀ (d : Desc) (s : State),
    let n := bf d 16 2 0
    let x := tb n s
    let base := tbBase n
    let o : Int := fieldPips (bf d 24 63 0) (bf d 20 31 16)
    let lim : Int := 250000 * 4294967296
    let far : Prop := (reg (base + 0x20) s : Int) * 65536 < o.natAbs
    let src := rfld base 27 25 s
    let refused (tMeas : Nat) (s : State) : State := bump (base + 0x48) (setTb n (fun t =>
      { t with jumpSeen := true, ofs := o, ofsTime := tMeas, ofsTick := measTick n tMeas s, refused := true, held := true }) s)
    -- the servo of a time base without a recovered clock takes an offset (R121, R122, R124)
    let taken (tMeas : Nat) (s : State) : State := setTb n (fun t =>
      let held : Bool := decide (t.servo = .holdover)
      let i := clampTo (-lim) lim ((if held then -(t.freq * 16777216) else t.integ) + reg (base + 0x18) s * o)
      let f := (clampTo (-lim) lim (-(reg (base + 0x14) s * o) - i) + 8388608) / 16777216
      let run := if o.natAbs ≤ rfld (base + 0x28) 31 16 s * 65536 then min 8 ((if held then 0 else t.run) + 1) else 0
      { t with
        integ := i, freq := f, hist := (f :: t.hist).take 16, run := run, servo := if run = 8 then .locked else .acquiring
        valid := t.valid || decide (run = 8), holdFrom := s.ticks, ofs := o, ofsTime := tMeas, ofsTick := measTick n tMeas s
        refused := false, held := true }) s
    let cfgC : CmdSpec := { op := 0x40, fields := cfgFields, relOk := true, group := some 3, objs := [⟨7, n⟩], namesTb0 := decide (n = 0),
                            config := true, badEnc := pairsBeyond d || decide (bf d 16 6 3 ≠ 0) }
    let ofsC : CmdSpec := { op := 0x42, group := some 3, namesTb0 := decide (n = 0),
                            fields := [(16, 2, 0), (20, 31, 16), (24, 63, 0), (32, 63, 0)] }
    let stepC (mode : Nat) : CmdSpec := {
      op := 0x41, group := some 3, objs := [⟨7, n⟩], namesTb0 := decide (n = 0),
      fields := [(16, 7, 4), (16, 2, 0), (20, 31, 16), (24, 63, 0)],
      badEnc := decide (4 ≤ bf d 16 6 4) || decide (mode = 3 ∧ (bf d 24 63 0 ≠ 0 ∨ bf d 20 31 16 ≠ 0)) }
    let forced : Prop := bf d 16 7 7 = 1
    let stepped (f : TbSt → TbSt) (src' : Src) (a : State) : State := complete src' .ok 0 (stepDependants n (syncDiscard n (setTb n (fun t =>
      let t := f t
      { t with
        servo := if rfld base 27 25 a = 0 then .free else .acquiring, run := 0, holdFrom := a.ticks, valid := true
        stepTick := some a.ticks, steps := (t.steps + 1) % 2 ^ 32 }) a)))
    (∀ v, passes cfgC d s = true → nPairs d = 1 → pairOf d 0 = (0, v) →
      v < 2 ^ 28 → v % 2 ^ 17 = 0 → bits v 27 25 ≤ 4 → (bits v 27 25 ≠ 3 → bits v 23 17 = 0) → bits v 23 17 ≤ 7 →
      bit v 24 = false → x.l1 = none →
      let new := bits v 27 25
      let put (a : State) : State :=
        let a1 := setReg base v a
        let a2 := if rfld base 27 25 a = new ∧ rfld base 23 17 a = bits v 23 17 then a1 else setTb n (fun t => { t with
          servo := if new = 0 then .free else .acquiring, integ := -(t.freq * 16777216), holdFrom := a.ticks, hist := [], run := 0 }) a1
        if new = 0 then setTb n (fun t => { t with valid := true }) a2 else a2
      (dRelease d = false → serves (.tbCfg d) cfgC d (fun c a => complete c .ok 0 (put a)) s)
      ∧ (dRelease d = true → serves (.tbRelease d) cfgC d (fun c a => complete c .ok 0 (disown ⟨7, n⟩ (put a))) s))
    ∧ (passes ofsC d s = true →
      let t := bf d 32 63 0
      let window : Prop := src = 4 ∧ t ≤ x.ns ∧ x.ns - t ≤ rfld (base + 0x24) 15 0 s * 1000000
      (¬ window → refuses (.tbOffset d) ofsC d .range id s)
      ∧ (window → far → beforeStep n t s = false → refuses (.tbOffset d) ofsC d .jumpRefused (refused t) s)
      ∧ (window → ¬ far ∨ beforeStep n t s = true → x.l1 = none → s.time.pllLock = true →
        serves (.tbOffset d) ofsC d (fun c a => complete c .ok 0 (if beforeStep n t a = true then a else taken t a)) s))
    ∧ (bf d 16 6 4 = 0 → passes (stepC 0) d s = true →
      (forced → refuses (.tbStepSlew d) (stepC 0) d .rsvdField id s)
      ∧ (¬ forced → src = 0 → refuses (.tbStepSlew d) (stepC 0) d .range id s)
      ∧ (¬ forced → src ≠ 0 → far → refuses (.tbStepSlew d) (stepC 0) d .jumpRefused (fun a => refused (tbNs n a) a) s)
      ∧ (¬ forced → src ≠ 0 → ¬ far → x.l1 = none → s.time.pllLock = true → serves (.tbStepSlew d) (stepC 0) d (fun c a =>
          complete c .ok 0 (taken (tbNs n a) a)) s))
    ∧ (bf d 16 6 4 = 1 → passes (stepC 1) d s = true →
      (¬ forced → refuses (.tbStepRelative d) (stepC 1) d .rsvdField id s)
      ∧ (forced → serves (.tbStepRelative d) (stepC 1) d (stepped (addCount (o * 4294967296))) s))
    ∧ (bf d 16 6 4 = 2 → passes (stepC 2) d s = true →
      (¬ forced → refuses (.tbStepAbsolute d) (stepC 2) d .rsvdField id s)
      ∧ (forced → serves (.tbStepAbsolute d) (stepC 2) d (stepped (fun t => { t with
        ns := bf d 24 63 0, frac := bf d 20 31 16 * 65536, resid := 0 })) s))
    ∧ (bf d 16 6 4 = 3 → passes (stepC 3) d s = true →
      let fresh : Prop := x.held = true ∧ (s.ticks : Int) ≤ x.ofsTick + 1250000000
      (¬ forced → refuses (.tbStepMeasured d) (stepC 3) d .rsvdField id s)
      ∧ (forced → ¬ fresh → refuses (.tbStepMeasured d) (stepC 3) d .range id s)
      ∧ (forced → fresh → serves (.tbStepMeasured d) (stepC 3) d (stepped (addCount (-x.ofs * 4294967296))) s)))
  ∧ (∀ (n : Fin 8) (s : State),
    let x := tb n s
    x.servo = .acquiring ∨ x.servo = .locked → x.holdFrom + 625000 * rfld (tbBase n + 0x24) 15 0 s ≤ s.ticks →
    (x.hist = [] ∨ x.l1 ≠ none → exec (.holdoverTimeout n) s = .next (setTb n (fun t =>
      { t with servo := .holdover, holdSeen := true, run := 0 }) s))
    ∧ (∀ m : Int, x.l1 = none → x.hist ≠ [] → x.hist.sum = m * x.hist.length →
      exec (.holdoverTimeout n) s = .next (setTb n (fun t => { t with servo := .holdover, holdSeen := true, run := 0, freq := m }) s)))
  ∧ (∀ (t : TbSt) (d : Int), t.ns < 2 ^ 64 → t.frac < 2 ^ 32 → t.resid < 2 ^ 16 →
      let count (x : TbSt) : Int := (x.ns : Int) * 2 ^ 48 + x.frac * 2 ^ 16 + x.resid
      let u := addCount d t
      u = { t with ns := u.ns, frac := u.frac, resid := u.resid } ∧ u.ns < 2 ^ 64 ∧ u.frac < 2 ^ 32 ∧ u.resid < 2 ^ 16
        ∧ count u = (count t + d) % 2 ^ 112)

/-- R136, R141, R142, R144–R148: loss and return of references, the pulses at PPSIN and PPSOUT, and a synthesizer's commit, relock and release. Choices
of the model in it: notes/assumptions/21, 116. -/
def Obligations.ReferencesAndSynthesizers : Prop :=
  (∀ (p : Fin 128) (s : State),
    let n := ptpTb p s
    let dark := setPort p (fun x => { x with laneLock := x.laneLock / 2 * 2 }) s
    (exec (.lane0LockLoss p) s = .next (l1Update n (l1Lost p dark)))
    ∧ ((tb n s).l1 = none → bit (reg (tbBase n) s) 24 = false → exec (.lane0LockLoss p) s = .next dark)
    ∧ (∀ w, (tb n s).l1 = some w → receiverPort n s = some p.val →
      exec (.lane0LockLoss p) s = .next (setTb n (fun t => { t with
        l1Lost := true, l1 := none
        freq := (clampTo (-(250000 * 4294967296)) (250000 * 4294967296) (-t.integ) + 8388608) / 16777216 }) dark)))
  ∧ (∀ s : State,
    (s.time.refinPresent = true → (∀ n < 8, (tb n s).l1 = none) →
      ∃ t, exec .refinLoss s = .next t ∧ t = { s with time := t.time }
        ∧ t.time = { s.time with refinPresent := false, pllLock := false, refinLost := true, tbs := t.time.tbs }
        ∧ ∀ n < 8, (tb n t).servo = (if (tb n s).servo = .free then .free else .holdover) ∧ (tb n t).ns = (tb n s).ns
          ∧ (tb n t).valid = (tb n s).valid ∧ ((tb n s).servo = .free → tb n t = tb n s))
    ∧ (s.time.running = true → s.time.pllLock = false →
      ∃ t, exec .pllRelock s = .next t ∧ t = { s with time := t.time }
        ∧ t.time = { s.time with refinPresent := true, pllLock := true, syns := t.time.syns }
        ∧ ∀ m < 4, syn m t = if bit (reg (0x12800 + m * 0x100) s) 31 then if (syn m s).level then { syn m s with stage := .asked } else { syn m s with
            stage := .relock, since := s.ticks, locked := false, gated := true, relocks := ((syn m s).relocks + 1) % 65536 } else syn m s)
    ∧ (∀ err, s.time.running = true →
      (∀ k, s.time.ppsIn = some k → s.ticks < k + 312500000 →
        exec (.ppsinEdge err) s = .next { s with time := { s.time with ppsIgnored := min 65535 (s.time.ppsIgnored + 1) } })
      ∧ ((∀ k, s.time.ppsIn = some k → k + 312500000 ≤ s.ticks) →
        let taken : State := { s with time := { s.time with ppsIn := some s.ticks, ppsEdges := (s.time.ppsEdges + 1) % 65536 } }
        let phase (n : Nat) : Int := foldSecond (tbPips n s + err - sgn 32 (reg 0x12404 s) * 65536)
        ((∀ n < 8, tbSrc n s ≠ 2) → exec (.ppsinEdge err) s = .next taken)
        ∧ (∀ n < 8, tbSrc n s = 2 → (∀ m < 8, m ≠ n → tbSrc m s ≠ 2) →
          exec (.ppsinEdge err) s = .next (offerOffset n (phase n) (tbNs n s) taken)
          ∧ (phase n - (tbPips n s + err - sgn 32 (reg 0x12404 s) * 65536)) % 65536000000000 = 0
          ∧ -32768000000000 ≤ phase n ∧ phase n ≤ 32768000000000)))
    ∧ (let comp := sgn 32 (reg 0x12408 s)
      let t : Int := ((tbNs (rfld 0x12400 30 28 s) s : Nat) : Int) + comp
      s.time.running = true → bit (reg 0x12400 s) 31 = true → s.time.ppsOut = false → t % 1000000000 < 2 →
      (∀ k, s.time.ppsRise = some k → k + 312500000 ≤ s.ticks) →
      -- the edge's error is free within 0.5 ns
      let f := takeFree s
      let err : Int := ((f.1.toNat % 65537 : Nat) : Int) - 32768
      exec .ppsoutPulse s = .next (emit (.pps true ((t - t % 1000000000 - comp) * 65536 + err))
        { f.2 with time := { s.time with ppsOut := true, ppsRise := some s.ticks } }))
    ∧ (∀ k, s.time.ppsOut = true → s.time.ppsRise = some k → k + 625 * rfld 0x12400 18 0 s ≤ s.ticks →
      exec .ppsoutPulseEnd s = .next (emit (.pps false (tbPips (rfld 0x12400 30 28 s) s)) { s with time := { s.time with ppsOut := false } })))
  ∧ (∀ (m : Fin 4) (s : State),
    let base := 0x12800 + m.val * 0x100
    let put (y : SynSt) : State := { s with time := { s.time with syns := mput s.time.syns m y } }
    (∀ who v, writesOk who base v s = true →
      let a := putReg base v s
      let y : SynSt := { syn m s with
        period := reg (base + 4) a ||| reg (base + 8) a <<< 32, phase := reg (base + 12) a ||| reg (base + 16) a <<< 32 }
      let goes (z : SynSt) : Prop := exec (.synCommit who m v) s = .next { a with time := { a.time with syns := mput a.time.syns m z } }
      (v.getLsbD 31 = true → (syn m s).level = true → goes { y with stage := .asked })
      ∧ (v.getLsbD 31 = true → (syn m s).level = false → goes { y with
        stage := .relock, since := s.ticks, locked := false, gated := true, relocks := (y.relocks + 1) % 65536 })
      -- with en 0 the row is no event, and the plain register write switches the output off
      ∧ (v.getLsbD 31 = false → exec (.synCommit who m v) s = .next s
        ∧ ∀ (ofs : BitVec 24) (bus : List TwTry), ofsFor who base = some (ofs.toNat / 4 * 4) →
          let off : SynSt := if (syn m s).level then { syn m s with stage := .asked } else { syn m s with stage := .idle, locked := false, gated := false }
          exec (.registerWrite who false ofs (.dw 15 v) bus) s = .next { a with time := { a.time with syns := mput a.time.syns m off } }))
    ∧ ((syn m s).stage = .relock → (syn m s).since + 62500 ≤ s.ticks →
      exec (.synRelockDone m) s = .next (put { syn m s with stage := .gate, since := s.ticks, locked := true }))
    ∧ ((syn m s).stage = .gate → (syn m s).since + nsTicks (4 * (syn m s).period / 65536) ≤ s.ticks →
      let now : Int := tbPips (rfld base 30 28 s) s
      let past := (now - (syn m s).phase) % (syn m s).period
      past < 131072 →
      exec (.synGateRelease m) s = .next (emit (.refout m true (now - past)) (put { syn m s with
        stage := .idle, since := s.ticks, gated := false, level := true, fallAt := s.ticks + nsTicks ((syn m s).period / 2 / 65536) }))))

/-- R128–R131, R133–R135, R137, R139: what a PTP port does with the messages it receives, and those it sends of itself. Choices of the model in it:
notes/assumptions/15, 19, 21. -/
def Obligations.PtpMessages : Prop :=
  (∀ (p : Fin 128) (s : State),
    let x := ptp p s
    let n := ptpTb p s
    let hears : Prop := s.time.running = true ∧ (port p s).linkUp = true ∧ ptpRole p s ≠ 0
    let byPeer (f : PtpFrom) : Prop := f.transport.val = ptpTransport p s ∧ (f.transport = 0 ∨ f.addr.toNat = ptpPeer p s)
    let here (m : PtpMsg) (f : PtpFrom) : Prop := hears ∧ byPeer f ∧ m.domain = ptpDomain n s ∧ m.sdo = ptpSdo n s
    let sent (m : PtpMsg) (a : State) : State := setPort p (fun y => { y with txQ := y.txQ ++ [.ptp m] }) a
    let with_ (y : PtpSt) : State := setTime (fun t => { t with ptps := mput t.ptps p y }) s
    let now (err : Int) : Int := (tbPips n s : Int) + err
    let bad : State := with_ { x with unsupported := min 65535 (x.unsupported + 1) }
    -- the servo's offset of R134, for a receiver of a PTP time base that no forced step overtook
    let steered (t1 t2 corr : Int) (tick : Nat) (a : State) : State :=
      if x.state = .receiver ∧ tbSrc n s = 1 ∧ (∀ k ∈ (tb n s).stepTick, k ≤ tick) then
        offerOffset n (t2 - t1 - x.mpd - corr - sgn 32 (reg (ptpBase p + 4) s)) (wrapN 64 (t2 / 65536)) a else a
    let sampled (presp : Option (Nat × Int × Int × Int)) (v : Int) : State := l1Update n (with_ { x with
      req := none, presp := presp, mpd := v, fresh := false, state := if x.state = .uncalibrated then .receiver else x.state })
    -- a delay sample v through the filter of R134
    let sample (i : Instr) (presp : Option (Nat × Int × Int × Int)) (v : Int) : Prop :=
      (x.fresh = true → exec i s = .next (sampled presp v))
        ∧ (∀ w : Int, x.fresh = false → v - x.mpd = w * 2 ^ rfld (ptpBase p) 9 7 s → exec i s = .next (sampled presp (x.mpd + w)))
    (hears → ∀ m err f, ¬ byPeer f →
      (m.type = .sync → exec (.ptpSyncReceive p m err f) s = .next bad) ∧ (m.type = .followUp → exec (.ptpFollowUpReceive p m f) s = .next bad)
      ∧ (m.type = .delayReq → exec (.ptpDelayReqReceive p m err f) s = .next bad)
      ∧ (m.type = .delayResp → exec (.ptpDelayRespReceive p m f) s = .next bad)
      ∧ (m.type = .pdelayReq → exec (.ptpPdelayReqReceive p m err f) s = .next bad)
      ∧ (m.type = .pdelayResp → exec (.ptpPdelayRespReceive p m err f) s = .next bad)
      ∧ (m.type = .announce → exec (.ptpAnnounceReceive p m f) s = .next bad))
    ∧ (hears → ∀ m err f, byPeer f → m.domain ≠ ptpDomain n s ∨ m.sdo ≠ ptpSdo n s →
      exec (.ptpSyncReceive p m err f) s = .next s ∧ exec (.ptpFollowUpReceive p m f) s = .next s
      ∧ exec (.ptpDelayReqReceive p m err f) s = .next s ∧ exec (.ptpDelayRespReceive p m f) s = .next s
      ∧ exec (.ptpPdelayReqReceive p m err f) s = .next s ∧ exec (.ptpPdelayRespReceive p m err f) s = .next s
      ∧ exec (.ptpAnnounceReceive p m f) s = .next s)
    ∧ (∀ m err f, here m f →
      (m.type = .sync → fromParent m x = true →
        (m.twoStep = true → exec (.ptpSyncReceive p m err f) s = .next (with_ { x with sync := some (m.seq, now err, m.corr, s.ticks) }))
        ∧ (m.twoStep = false → exec (.ptpSyncReceive p m err f) s = .next
          (steered (ptpStamp m) (now err) m.corr s.ticks (with_ { x with t1 := ptpStamp m + m.corr, t2 := now err }))))
      ∧ (m.type = .sync → fromParent m x = false → exec (.ptpSyncReceive p m err f) s = .next s)
      ∧ (∀ t2 c tick, m.type = .followUp → fromParent m x = true → x.sync = some (m.seq, t2, c, tick) →
        exec (.ptpFollowUpReceive p m f) s = .next
          (steered (ptpStamp m) t2 (c + m.corr) tick (with_ { x with sync := none, t1 := ptpStamp m + c + m.corr, t2 := t2 })))
      ∧ (m.type = .delayReq → x.state = .transmitter → ptpP2p p s = false → exec (.ptpDelayReqReceive p m err f) s = .next
          (sent (ptpStamped { ptpOwn p .delayResp m.seq s with req := m.sender, corr := m.corr } (now err) true) s))
      ∧ (m.type = .pdelayReq → ptpP2p p s = true → exec (.ptpPdelayReqReceive p m err f) s = .next
          (sent (ptpStamped { ptpOwn p .pdelayResp m.seq s with
            req := m.sender, twoStep := ptpTwoStep p s, corr := if ptpTwoStep p s then 0 else m.corr, carry := m.corr } (now err) true) s))
      ∧ (∀ t3 v : Int, m.type = .delayResp → x.req = some (m.seq, t3) → m.req = ptpSelf p → fromParent m x = true → ptpP2p p s = false →
        (x.t2 - x.t1) + (ptpStamp m - m.corr - t3) = 2 * v → sample (.ptpDelayRespReceive p m f) x.presp v)
      ∧ (∀ t1 v : Int, x.req = some (m.seq, t1) → m.req = ptpSelf p → ptpP2p p s = true →
        (m.type = .pdelayResp → m.twoStep = true → exec (.ptpPdelayRespReceive p m err f) s =
          .next (with_ { x with presp := some (m.seq, now err, ptpStamp m, m.corr) }))
        ∧ (m.type = .pdelayResp → m.twoStep = false → now err - t1 - m.corr = 2 * v → sample (.ptpPdelayRespReceive p m err f) none v)
        ∧ (∀ t4 t2 c : Int, m.type = .pdelayRespFollowUp → x.presp = some (m.seq, t4, t2, c) →
          t4 - t1 - (ptpStamp m - t2) - c - m.corr = 2 * v → sample (.ptpPdelayRespReceive p m err f) none v))
      ∧ (∀ d : Announce, m.type = .announce → m.ann = some d →
        let a : Announce := { d with sender := m.sender }
        let t := ptpDecide n none (with_ { x with foreign := foreignPut a s.ticks x.foreign })
        let odd : Prop := 8 ∈ d.tlvs ∨ 9 ∈ d.tlvs
        (odd → exec (.ptpAnnounceReceive p m f) s = .next bad)
        ∧ (¬ odd → m.sender / 65536 = Config.clockIdentity.toNat → exec (.ptpAnnounceReceive p m f) s = .next s)
        ∧ (¬ odd → m.sender / 65536 ≠ Config.clockIdentity.toNat → exec (.ptpAnnounceReceive p m f) s = .next (
          if fromParent m (ptp p t) then setTb n (fun y => { y with utc := a.utcOffset, leap61 := a.leap61, leap59 := a.leap59 }) t else t))))
    ∧ (hears →
      let late (k : Nat) : Prop := k + 3 * announceTicks p s ≤ s.ticks
      ((∃ g ∈ x.foreign, late g.last) ∨ (x.foreign = [] ∧ x.state = .listening ∧ late x.preAt) →
        exec (.ptpAnnounceTimeout p) s = .next (ptpDecide n (some p)
          (with_ { x with foreign := x.foreign.filter (fun g => decide (s.ticks < g.last + 3 * announceTicks p s)) })))
      ∧ ((∀ g ∈ x.foreign, ¬ late g.last) → x.foreign ≠ [] ∨ x.state ≠ .listening → exec (.ptpAnnounceTimeout p) s = .next s))
    ∧ (x.state = .transmitter → (port p s).linkUp = true →
      (x.syncAt = 0 ∨ x.syncAt + syncTicks p s ≤ s.ticks → exec (.ptpSyncInterval p) s = .next
        (sent { ptpOwn p .sync x.seqSync s with twoStep := ptpTwoStep p s }
          (with_ { x with seqSync := (x.seqSync + 1) % 65536, syncAt := s.ticks })))
      ∧ (x.syncAt ≠ 0 → s.ticks < x.syncAt + syncTicks p s → exec (.ptpSyncInterval p) s = .next s))
    ∧ ((port p s).linkUp = true →
      let a := announceOut p s
      (x.state = .transmitter ∧ (x.annAt = 0 ∨ x.annAt + announceTicks p s ≤ s.ticks))
        ∨ (x.state = .preTransmitter ∧ x.preAt + (a.stepsRemoved + 1) * announceTicks p s ≤ s.ticks) →
      exec (.ptpAnnounceInterval p) s = .next (sent { ptpOwn p .announce x.seqAnnounce s with ann := some a }
        (with_ { x with seqAnnounce := (x.seqAnnounce + 1) % 65536, state := .transmitter, annAt := s.ticks })))
    ∧ ((port p s).linkUp = true → x.delayAt = 0 ∨ x.delayAt + delayTicks p s ≤ s.ticks →
      let asked : State := with_ { x with seqDelay := (x.seqDelay + 1) % 65536, delayAt := s.ticks }
      (ptpP2p p s = true → ptpRole p s ≠ 0 →
        exec (.ptpDelayReqInterval p) s = .next (sent (ptpOwn p .pdelayReq x.seqDelay s) asked))
      ∧ (ptpP2p p s = false → x.state = .receiver ∨ x.state = .uncalibrated →
        exec (.ptpDelayReqInterval p) s = .next (sent (ptpOwn p .delayReq x.seqDelay s) asked)))
    ∧ (x.stamps = [] → exec (.ptpFollowUpSend p) s = .next s)
    ∧ (∀ m t r, x.stamps = (m, t) :: r → exec (.ptpFollowUpSend p) s = .next
        (sent (ptpStamped { ptpOwn p (if m.type = .sync then .followUp else .pdelayRespFollowUp) m.seq s with
          req := m.req, corr := m.carry } t false) (with_ { x with stamps := r }))))
  ∧ (∀ (m : PtpMsg) (t : Int) (receipt : Bool), 0 ≤ t → t < 2 ^ 80 →
    let u := ptpStamped m t receipt
    u = { m with sec := u.sec, nsec := u.nsec, corr := u.corr } ∧ u.nsec < 1000000000
      ∧ ptpStamp u + (if receipt then m.corr - u.corr else u.corr - m.corr) = t)

/-- R101, R102, R133, R149–R152, R273: a LAUNCH of a port frame or of a TRIGOUT pulse is queued by its time or meets its late policy; a due entry
starts, a missed one is late; and a PTP message is stamped as it leaves. Choices of the model in it: notes/assumptions/16, 18, 27, 65. -/
def Obligations.TimedLaunches : Prop :=
  (∀ (d : Desc) (data : List Byte) (s : State),
    let b := bf d 16 26 24
    let time : Nat := bf d 24 63 0 * 65536 + bf d 20 31 16
    let far : Prop := (2147483647 * 65536 : Int) < (time : Int) - tbPips b s
    let launch (kind : Nat) : CmdSpec := {
      op := 0x43, group := some 3, namesTb0 := decide (b = 0), objs := [⟨11, if kind = 0 then bf d 16 6 0 else 128 + bf d 16 2 0⟩]
      fields := [(16, 31, 31), (16, 29, 28), (16, 26, 24), (16, 6, 0), (20, 31, 16), (24, 63, 0), (32, 63, 0), (40, 13, 0)]
      badEnc := decide (2 ≤ bf d 16 29 28) || (decide (kind = 1) && decide (bf d 16 6 3 ≠ 0 ∨ bf d 32 63 0 ≠ 0 ∨ bf d 40 13 0 ≠ 0))
      dataCrc := crc32c (if kind = 0 then data.map (·.toNat) else []), wait := .launch }
    let entry (frame : List Nat) (src : Src) : Launch :=
      ⟨⟨bf d 24 63 0, bf d 20 31 16⟩, b, decide (bf d 16 29 28 = 1), false, frame, src⟩
    (bf d 16 31 31 = 0 → passes (launch 0) d s = true →
      let p := bf d 16 6 0
      let len := bf d 40 13 0
      let i : Instr := .launchFrame d (some data)
      (far → refuses i (launch 0) d .tooFar id s)
      ∧ (¬ far → 64 ≤ (port p s).launchQ.length → refuses i (launch 0) d .noResource id s)
      ∧ (¬ far → (port p s).launchQ.length < 64 →
        (len < 60 ∨ rfld (portBase p + 0x28) 13 0 s < len + 4 → refuses i (launch 0) d .range id s)
        ∧ (60 ≤ len → len + 4 ≤ rfld (portBase p + 0x28) 13 0 s →
          (portPowered p s = false → refuses i (launch 0) d .mode id s)
          ∧ (portPowered p s = true → serves i (launch 0) d (fun src a =>
            let e := entry ((data.map (·.toNat)).take len) src
            let queued := setPort p (fun x => { x with launchQ := launchInsert e a x.launchQ }) a
            if time ≤ tbPips b a then launchLate p e queued else queued) s))))
    ∧ (bf d 16 31 31 = 1 → passes (launch 1) d s = true →
      let n := bf d 16 2 0
      let i : Instr := .launchPulse d
      (far → refuses i (launch 1) d .tooFar id s)
      ∧ (¬ far → 16 ≤ (trigOut n s).queue.length → refuses i (launch 1) d .noResource id s)
      ∧ (¬ far → (trigOut n s).queue.length < 16 →
        (rfld (trigOutBase n) 29 27 s ≠ 3 → refuses i (launch 1) d .range id s)
        ∧ (rfld (trigOutBase n) 29 27 s = 3 → serves i (launch 1) d (fun src a =>
          let e := entry [] src
          let queued := setTrigOut n (fun x => { x with queue := launchInsert e a x.queue }) a
          if time ≤ tbPips b a then outLate n e queued else queued) s))))
  ∧ (∀ (p : Fin 128) (err : Int) (s : State), canTx p s = true →
    let x := port p s
    let starts (l : Launch) (at_ : Nat) : State :=
      let a := setPort p (fun y => { y with launchQ := y.launchQ.filter (fun z => z.src.jseq != l.src.jseq) }) s
      completeWith l.src .ok (at_ / 65536) (at_ % 65536) l.late false (bump (portCnt p 14) (emit (.frame p l.frame)
        (setPort p (fun y => { y with busyUntil := s.ticks + nsTicks (frameNs p l.frame.length s) }) a)))
    (∀ q1 l q2, x.launchQ = q1 ++ l :: q2 → (∀ y ∈ q1, y.late = false ∧ (0 < launchLeft y s ∨ launchLeft y s < -131072)) →
      (l.late = true → exec (.launchDue p err) s = .next (starts l (tbPips l.tb s)))
      ∧ (l.late = false → launchLeft l s ≤ 0 → -131072 ≤ launchLeft l s →
        exec (.launchDue p err) s = .next (starts l (wrapN 80 ((l.time.ns * 65536 + l.time.pips : Nat) + err)))))
    ∧ (∀ m l1 l2, x.txQ = l1 ++ .ptp m :: l2 → (∀ y ∈ l1, txClass y ≠ 0) → ptpTransport p s = 0 →
      let len := 14 + max 46 (ptpMsgLen m.type)
      (∀ l ∈ x.launchQ, ((frameNs p len s * 65536 : Nat) : Int) < launchLeft l s) →
      let stamp : Int := (tbPips (ptpTb p s) s : Int) + err
      let left : State := bump (portCnt p 14) (setPort p (fun y => { y with
        txQ := l1 ++ l2, busyUntil := s.ticks + nsTicks (frameNs p len s) }) s)
      let out (m : PtpMsg) : State := emit (.ptp p m (ptpFrameOf p m 0 0 s) stamp) left
      let goes (t : State) : Prop := exec (.portTxSelect p err) s = .next t
      let room : Prop := (ptp p s).stamps.length < 16
      (m.type = .sync → m.twoStep = false → ptpTwoStep p s = false → goes (out (ptpStamped m stamp false)))
      ∧ (m.type = .pdelayResp → m.twoStep = false → ptpTwoStep p s = false →
        goes (out { m with sec := 0, nsec := 0, corr := m.corr + stamp - ptpStamp m }))
      ∧ (m.type = .sync ∨ m.type = .pdelayResp → m.twoStep = true → room →
        goes (setPtp p (fun y => { y with stamps := y.stamps ++ [(m, stamp)] }) (out m)))
      ∧ (m.type = .delayReq ∨ m.type = .pdelayReq → m.twoStep = false → room ∨ ptpTwoStep p s = false →
        goes (setPtp p (fun y => { y with req := some (m.seq, stamp) }) (out m)))
      ∧ (m.type = .sync → m.twoStep = true → ¬ room → goes s)))
  ∧ (∀ (n : Fin 136) (q1 q2 : List Launch) (l : Launch) (s : State),
    (if n.val < 128 then (port n s).launchQ else (trigOut (n.val - 128) s).queue) = q1 ++ l :: q2 →
    (∀ x ∈ q1, x.late = true ∨ -131072 ≤ launchLeft x s) → l.late = false → launchLeft l s < -131072 →
    exec (.launchLate n) s = .next (
      if n.val < 128 then
        if l.sendLate = true then setPort n (fun x => { x with launchQ := x.launchQ.map (fun y =>
          if y.src.jseq = l.src.jseq then { y with late := true } else y) }) s
        else complete l.src .late 0 (setPort n (fun x => { x with launchQ := x.launchQ.filter (fun y => y.src.jseq != l.src.jseq) }) s)
      else
        if l.sendLate = true then setTrigOut (n.val - 128) (fun x => { x with queue := x.queue.map (fun y =>
          if y.src.jseq = l.src.jseq then { y with late := true } else y) }) s
        else complete l.src .late 0 (setTrigOut (n.val - 128) (fun x => { x with
          queue := x.queue.filter (fun y => y.src.jseq != l.src.jseq) }) s)))

/-! ### Trigger decision (08_trigger_decision.md) -/

/-- R243–R248, R252–R256, R261–R263, R297, R388: what becomes of a trigger primitive at its QCU, releases and marks, inputs and decisions of the CCU,
and the setting of a condition. Choices of the model in it: notes/assumptions/25, 27, 42, 44, 45, 46, 47, 48, 52, 67. -/
def Obligations.CoincidenceUnits : Prop :=
  (∀ (q : Fin 4) (k : Fin 52) (s : State) (h : TpEnt) (rest : List TpEnt),
    (eng (ekey q k) s).tpq = h :: rest → quadUp q s = true → quadGated q s = false → centralUp s = true → s.mode.current ≠ .safe →
    let w := h.tp
    let u := qcu q s
    let b := tpTb w
    let age := sdiff (tbNs b s) (tpT w)
    let late : Prop := (reg (qcuBase q + 4) s : Int) < age ∧ (qcuHolding q s = true → 0 < sdiff (markNow q b s) (tpT w))
    let taken := bump (qcuCnt q 0) (setEng (ekey q k) (fun e => { e with tpq := rest }) s)
    let kept : Prop := u.buffer.length < 1024 ∧ qcuEn q s = true ∧ inShadow b s = false
    let filtered : Prop := kept ∧ qcuClass 0x10 q (tpClass w) s = true
    let merges : Prop := rfld (qcuBase q + 0x30) 15 0 s ≠ 0 ∧ qcuClass 0x40 q (tpClass w) s = true
    (1024 ≤ u.buffer.length → u.stalled = false →
      exec (.tpArriveQcu q k) s = .next (bump (qcuCnt q 7) (setQcu q (fun x => { x with stalled := true }) s)))
    ∧ (u.buffer.length < 1024 → qcuEn q s = false → exec (.tpArriveQcu q k) s = .next (bump (qcuCnt q 2) taken))
    ∧ (u.buffer.length < 1024 → qcuEn q s = true → inShadow b s = true → exec (.tpArriveQcu q k) s = .next (bump (qcuCnt q 6) taken))
    ∧ (kept → qcuClass 0x10 q (tpClass w) s = false → exec (.tpArriveQcu q k) s = .next (bump (qcuCnt q 2) taken))
    ∧ (filtered → late → bit (reg (qcuBase q + 0x60) s) 31 = true → exec (.tpArriveQcu q k) s = .next (bump (qcuCnt q 3) taken))
    ∧ (filtered → late → bit (reg (qcuBase q + 0x60) s) 31 = false → exec (.tpArriveQcu q k) s = .next (
      (List.range 4).foldl (fun a i => setReg (qcuBase q + 0x70 + 4 * i) (w.toNat / 2 ^ (32 * i) % 2 ^ 32) a)
        (setFld (qcuBase q + 0x60) 31 31 1 (bump (qcuCnt q 3) taken))))
    ∧ (filtered → ¬ late → age < -1000000000 → exec (.tpArriveQcu q k) s = .next (bump (qcuCnt q 4) taken))
    ∧ (filtered → ¬ late → -1000000000 ≤ age →
      (∀ l, merges → mergeInto (rfld (qcuBase q + 0x30) 15 0 s) w u.buffer = some l →
        exec (.tpArriveQcu q k) s = .next (bump (qcuCnt q 5) (setQcu q (fun x => { x with buffer := l }) taken)))
      ∧ (¬ merges ∨ mergeInto (rfld (qcuBase q + 0x30) 15 0 s) w u.buffer = none →
        exec (.tpArriveQcu q k) s = .next (setQcu q (fun x => { x with buffer := x.buffer ++ [w] }) taken))))
  ∧ (∀ (q : Fin 4) (k : Fin 52) (s : State),
    quadUp q s = false ∨ quadGated q s = true ∨ s.mode.current = .safe ∨ centralUp s = false → exec (.tpArriveQcu q k) s = .next s)
  ∧ (∀ (q : Fin 4) (s : State), centralUp s = true →
    (∀ (b : Fin 8) (w : TpWord), quadUp q s = true → quadGated q s = false → releaseNext q b s = some w →
      exec (.qcuRelease q b) s = .next (sendMarks q (exportTp w (ccuArrive (tpInput 1 q w) (bump (qcuCnt q 1)
        (setQcu q (fun x => { x with buffer := dropTp w x.buffer, stalled := false }) s))))))
    ∧ (qcuIn q s = true → exec (.releaseMark q) s = .next (issueReady (ccuRun (sendMarks q s)))
      ∧ ∀ b < 8, (∀ w ∈ (qcu q s).buffer, tpTb w ≠ b) → qcuHolding q s = false →
        mget 0 (qcu q (sendMarks q s)).marks b = wrapN 32 ((tbNs b s : Int) - reg (qcuBase q + 4) s))
    ∧ (∀ e, (qcu q s).holdEnd = some e → e ≤ s.ticks →
      exec (.castleHoldEnd q) s = .next (setQcu q (fun x => { x with hold := false, holdEnd := none, holdMarks := [] }) s)))
  ∧ (∀ (s : State) (x : CcuInput) (r : List CcuInput), s.trig.arrivals = x :: r → centralUp s = true →
    let a : State := { s with trig := { s.trig with arrivals := r } }
    let a := if x.group = 1 ∨ x.group = 2 then bump (ccuCnt 0) a else a
    (inShadow x.tb s = true → exec .ccuInput s = .next (bump (ccuCnt 2) a))
    ∧ (inShadow x.tb s = false → ccuEn s = false → exec .ccuInput s = .next a)
    ∧ (inShadow x.tb s = false → ccuEn s = true →
      let now := ccuNowP x.tb s
      exec .ccuInput s = .next (issueReady (ccuRun (setTrig (fun t => { t with
        taken := t.taken.filter (fun y => decide (sdiff (ccuNow y.tb s) y.t ≤ 2000000)) ++ [x],
        conds := t.conds.map (fun c => (c.1, { c.2 with defs := c.2.defs.map (fun d =>
          if defTakes (fun q => qcuIn q s) d x then { d with queue := inputIns now x d.queue } else d) })) }) a)))))
  ∧ (∀ (c : Fin 64) (s : State), centralUp s = true →
    let s1 := condRun s c
    (dueDef c s1 = none → exec (.ccuDecide c) s = .next s1)
    ∧ (∀ i d o rest, dueDef c s1 = some i → (Machine.cond c s1).defs[i]? = some d → d.pending = o :: rest →
      let ends (x : State) : Prop := exec (.ccuDecide c) s = .next (issueReady (dropOld c x))
      let left (f : CondDef → CondDef) : State := setDef c i (fun d => f { d with pending := rest }) s1
      let at_ : Nat := o.x.t * 65536 + o.x.pips
      let gapped : Prop := ∃ l, d.last = some l ∧ sdiffP at_ l < (d.cfg.minGap * 65536 : Nat)
      let full : Prop := 256 ≤ taHeld (some o.x.num) s1
      let acc := d.acc + 0x10000
      let silent : Prop := sysOn s1 = true ∧ isArbiter s1 = true ∧ suppressed s1 = true
      (vetoHit d at_ s1 = true → ends (bump (condCnt c 1) (left id)))
      ∧ (vetoHit d at_ s1 = false →
        (gapped → ends (bump (condCnt c 2) (left id)))
        ∧ (¬ gapped → acc < d.cfg.prescale → ends (bump (condCnt c 3) (left (fun d => { d with acc := acc }))))
        ∧ (¬ gapped → d.cfg.prescale ≤ acc →
          let off := left (fun d => { d with acc := acc - d.cfg.prescale })
          let on := left (fun d => { d with acc := acc - d.cfg.prescale, last := some at_ })
          (full → ends (bump (condCnt c 5) off))
          ∧ (¬ full → s1.mode.current = .safe → ends (bump (condCnt c 7) off))
          ∧ (¬ full → s1.mode.current ≠ .safe → silent → ends (bump (sysCnt 15) on))
          ∧ (¬ full → s1.mode.current ≠ .safe → ¬ silent →
            ends (bump (condCnt c 4) (joinTa o.x ⟨c, o.hits, d.cfg.profile⟩ on)))))))
  ∧ (∀ (b : Fin 8) (e : Nat) (s : State), mfind s.trig.shadow b = some e → e ≤ s.ticks →
    exec (.stepShadowEnd b) s = .next { s with trig := { s.trig with shadow := mdel s.trig.shadow b } })
  ∧ (∀ (d : Desc) (pb : BitVec 768) (s : State),
    let n := bf d 16 5 0
    let cfg := condCfgOf pb
    let c : CmdSpec := {
      op := 0x30, relOk := true, group := some 2, objs := [⟨5, n⟩], config := true, fields := [(16, 5, 0), (24, 63, 0), (32, 31, 0)]
      badEnc := pbBad pb condPbFields || (List.range 8).any (fun j => decide ((termOf pb j).src = 7)) || (dRelease d && cfg.en)
      pb := some (leBytes 96 pb.toNat) }
    let placed : Prop := bf d 32 31 0 = 96 ∧ bf d 24 5 0 = 0
    passes c d s = true →
    (dRelease d = false →
      (¬ placed ∨ condOk cfg = false → refuses (.trigCondSet d (some pb)) c d .range id s)
      ∧ (placed → condOk cfg = true → serves (.trigCondSet d (some pb)) c d (fun src a => complete src .ok 0
        (condReplace n (if cfg.en && ccuEn a then some cfg else none) (setCond n (fun x => { x with cfg := cfg }) a))) s))
    ∧ (dRelease d = true →
      (¬ placed → refuses (.condRelease d (some pb)) c d .range id s)
      ∧ (placed → serves (.condRelease d (some pb)) c d (fun src a => complete src .ok 0 (disown ⟨5, n⟩
        (condReplace n none (setCond n (fun x => { x with cfg := { cfg with en := false } }) a)))) s)))

/-- R143, R264–R269, R272, R273, R538: edges and states of a TRIGIN line, its capture FIFO, the ends of the fast path's pulses, and TIMED pulses.
Choices of the model in it: notes/assumptions/16, 24, 53, 55, 121, 140. -/
def Obligations.TriggerLines : Prop :=
  (∀ (n : Fin 8) (err : Int) (s : State),
    let x := trigIn n s
    let base := trigInBase n
    let on : Prop := bit (reg base s) 31 = true ∧ s.mode.current ≠ .bringup ∧ centralUp s = true
    (∀ (high : Bool) (len : Nat),
      -- the level at the ball; what the receiver makes of it; the filter's width and its tolerance, in twentieths of a nanosecond
      let pin : State := setTrigIn n (fun y => { y with pin := high }) s
      let active : Bool := high != bit (reg base s) 30
      let w := 10 * rfld base 29 26 s
      let slack := if w = 0 then 0 else 5 + w / 50
      let long : Prop := max 20 (w + slack) ≤ len
      let level : State := setTrigIn n (fun y => { y with level := active, since := s.ticks }) pin
      let goes (t : State) : Prop := exec (.triginEdge n err ⟨high, len⟩) s = .next t
      (¬ on → goes pin)
      ∧ (on → len < max 8 (w - slack) → goes pin)
      ∧ (on → len < max 20 (w + slack) → max 8 (w - slack) ≤ len →
        let f := takeFree pin
        goes (if f.1.getLsbD 0 && active != lineLast x then lineIn n err active f.2 else f.2))
      ∧ (on → long → active = lineLast x → goes pin)
      ∧ (on → long → active ≠ lineLast x → w ≠ 0 → goes (setTrigIn n (fun y => { y with
          filter := y.filter ++ [(32 * s.ticks + w, active, err)] }) pin))
      ∧ (on → long → w = 0 → active ≠ x.level → x.filter = [] →
      (active = false → goes level)
      ∧ (active = true → x.stuck = true → goes level)
      ∧ (active = true → x.stuck = false →
        let a := fastEdges n level
        let gap : Nat := match (trigIn n a).last with | some k => nsSince k a | none => 2 ^ 32
        (gap < 4 → goes a)
        ∧ (4 ≤ gap → gap < rfld base 15 0 a → goes (bump (base + 0x20) a))
        ∧ (4 ≤ gap → rfld base 15 0 a ≤ gap →
          let c := (List.range 8).foldl (phaseEdge n err) (ccuOffer 4 n err (bump (base + 0x18)
            (setTrigIn n (fun y => { y with last := some a.ticks }) a)))
          let stamp := wrapN 80 ((tbPips (rfld base 25 23 a) c : Int) + err)
          goes (if 64 ≤ (trigIn n c).fifo.length then setFld (base + 8) 28 28 1 c
            else setTrigIn n (fun y => { y with fifo := y.fifo ++ [stamp] }) c)))))
    ∧ (rfld (base + 4) 19 0 s ≠ 0 → x.level = true → x.stuck = false → x.since + 625 * rfld (base + 4) 19 0 s ≤ s.ticks →
      exec (.triginStuck n) s = .next (bump (base + 0x28) (setFld (base + 8) 29 29 1 (stuckOn n s)))
      ∧ (trigIn n (stuckOn n s)).stuck = true)
    ∧ (x.stuck = true → x.level = false → x.since + 625 ≤ s.ticks →
      exec (.triginUnstuck n) s = .next (stuckOff n s) ∧ (trigIn n (stuckOff n s)).stuck = false)
    ∧ (∀ who t r, who = .fn 0 ∨ who = .steward ∨ who = .regacc → reaches who s = true → blockHeld (base + 0xC) s = false →
      mfind s.rdLatch (latchAt who (base + 0xC)) = none → x.flushed = false → x.fifo = t :: r → t < 2 ^ 80 →
      let w (v : Nat) : Word := BitVec.ofNat 32 v
      let lo := w (t / 65536)
      let hi := w (t / 65536 / 2 ^ 32)
      let frac := w (t % 65536 * 65536 + 32768)
      exec (.triginFifoPop who n) s = .next { setTrigIn n (fun y => { y with fifo := r }) s with
        rdLatch := mput (mput s.rdLatch (latchAt who (base + 0x10)) hi) (latchAt who (base + 0x14)) frac
        out := s.out ++ [.readData who (base + 0xC) lo, .readData who (base + 0x10) hi, .readData who (base + 0x14) frac] })
    ∧ (∀ who v, writesOk who base v s = true → v.getLsbD 22 = true → s.trig.changes = [] →
      let a := setTrigIn n (fun y => { y with fifo := [], flushed := true }) (putReg base v (journalWrite .ok [(base, v.toNat)] s))
      (v.getLsbD 31 = true → (x.pin != v.getLsbD 30) = lineLast x → exec (.triginFifoFlush who n v) s = .next a)
      ∧ (v.getLsbD 31 = false → exec (.triginFifoFlush who n v) s = .next (setTrigIn n (fun y => { y with level := false, filter := [] })
          (stuckOff n a)))))
  ∧ (∀ (k : Fin 8) (s : State),
    let f := fast k s
    let time (hi lo : Nat) : Nat := rfld (fastBase k + 8) hi lo s
    (∀ (i : Fin 12) (stop : Nat), f.delayed = [] →
      (mfind f.req i = some stop → stop - (5 + 5 * time 31 24 / 50) ≤ 32 * s.ticks →
        exec (.fastStretchEnd k i false) s = .next (setFast k (fun f => { f with req := mdel f.req i, delayed := [] }) s))
      ∧ (mfind f.veto i = some stop → stop - (5 + 5 * time 23 16 / 50) ≤ 32 * s.ticks →
        exec (.fastStretchEnd k i true) s = .next (setFast k (fun f => { f with veto := mdel f.veto i, delayed := [] }) s)))
    ∧ (∀ stop, f.out = some stop → stop - (5 + 20 * time 15 8 / 50) ≤ 32 * s.ticks →
      exec (.fastOutputEnd k) s = .next (setFast k (fun f => { f with
          out := none, dead := if time 7 0 = 0 then none else some (32 * s.ticks + 80 * time 7 0) })
        ((outsOf 1 (some k) s).foldl (fun s n => driveOut n false s) s)))
    ∧ (∀ stop, f.out = none → f.dead = some stop → stop - (5 + 80 * time 7 0 / 50) ≤ 32 * s.ticks →
      exec (.fastOutputEnd k) s = .next (setFast k (fun f => { f with dead := none }) s))
    ∧ (∀ m : Fin 3, (f.req = [] → f.veto = [] → f.out = none →
        exec (.delayTrack k m) s = .next (setFast k (fun f => { f with tap := f.tap + (m.val : Int) - 1 }) s))
      ∧ (f.req ≠ [] ∨ f.veto ≠ [] ∨ f.out ≠ none → exec (.delayTrack k m) s = .next s)))
  ∧ (∀ (n : Fin 8) (s : State),
    let x := trigOut n s
    let width := 20 * rfld (trigOutBase n) 15 0 s
    (∀ stop, x.pulse = some stop → stop - (5 + width / 50) ≤ 32 * s.ticks →
      exec (.trigoutPulseEnd n) s = .next (driveOut n false (setTrigOut n (fun y => { y with pulse := none }) s)))
    ∧ (∀ err q1 l q2, x.queue = q1 ++ l :: q2 → (∀ y ∈ q1, y.late = false ∧ (0 < launchLeft y s ∨ launchLeft y s < -131072)) →
      let rises (at_ : Nat) : State := completeWith l.src .ok (at_ / 65536) (at_ % 65536) l.late false (driveOut n true
        (setTrigOut n (fun y => { y with
          queue := y.queue.filter (fun z => z.src.jseq != l.src.jseq), pulse := some (32 * s.ticks + width)
          quiet := 32 * s.ticks + 2 * width }) s))
      (outBusy n s = false →
        (l.late = true → exec (.trigoutLaunchDue n err) s = .next (rises (tbPips l.tb s)))
        ∧ (l.late = false → launchLeft l s ≤ 0 → -131072 ≤ launchLeft l s → exec (.trigoutLaunchDue n err) s = .next
            (rises (wrapN 80 ((l.time.ns * 65536 + l.time.pips : Nat) + err)))))
      ∧ (outBusy n s = true →
        (l.late = true → exec (.trigoutLaunchDue n err) s = .next s)
        ∧ (l.late = false → launchLeft l s ≤ 0 → -131072 ≤ launchLeft l s →
          exec (.trigoutLaunchDue n err) s = .next (outLate n l s)))))

/-- R246, R274, R388, R393: TRIG_FAST_SET of one register pair and its release, changes that wait for the fast path, and a late capture re-armed.
Choices of the model in it: notes/assumptions/24, 27, 52, 124, 126. -/
def Obligations.FastPathChanges : Prop :=
  (∀ (d : Desc) (o v : Nat) (s : State),
    let c : CmdSpec := { specFastSet d with wait := fastWait d }
    let w := [(trigBase + o, v)]
    nPairs d = 1 → pairOf d 0 = (o, v) → (∀ r ix, regAt (trigBase + o) = some (r, ix) → pairHi r.reg = false ∧ pairLo r.reg = false) →
    (dRelease d = false → passes c d s = true →
      (∀ st, pairVerdict (.fn d.func) trigBase 0x1000 s (o, v) = st → st ≠ .ok → refuses (.trigFastSet d) c d st id s)
      ∧ (pairVerdict (.fn d.func) trigBase 0x1000 s (o, v) = .ok →
        serves (.trigFastSet d) c d (fun src a => offerChange w (some src) [] a) s))
    ∧ (let c : CmdSpec := { c with badEnc := c.badEnc || notOff d }
      dRelease d = true → passes c d s = true → pairVerdict (.fn d.func) trigBase 0x1000 s (o, v) = .ok →
      trigCtlOf (trigObj o) = trigBase + o →
      serves (.fastRelease d) c d (fun src a => offerChange w (some src) [trigObj o] a) s))
  ∧ (∀ (c : FastChange) (s : State),
    let idle : Prop := (∀ k ∈ c.fasts, (fast k s).out = none ∧ (fast k s).dead = none) ∧ (∀ n ∈ c.outs, outBusy n s = false)
    let none_ : State := { s with trig := { s.trig with changes := [] } }
    let put : State := c.freed.foldl (fun s o => disown o s) (c.writes.foldl applyWrite none_)
    (s.trig.changes = [] → exec .trigFastApply s = .next s)
    ∧ (s.trig.changes = [c] →
      (¬ idle → exec .trigFastApply s = .next s)
      ∧ (idle → exec .trigFastApply s = .next (match c.src with | some src => complete src .ok 0 put | none => put))))
  ∧ (∀ (q : Fin 4) who v (s : State), writesOk who (qcuBase q + 0x60) v s = true →
    exec (.lateCapRearm who q v) s = .next (putReg (qcuBase q + 0x60) v s))

/-! ### The joined system (09_system_coincidence.md) -/

/-- R282–R285, R287, R289–R291, R295–R298, R301–R303: HELLOs and beacons sent and missed, a coincidence message received on a link port of each kind
(bad, own, not for here, forwarded, out of age, delivered), and a packed export that waits no longer. Choices of the model in it:
notes/assumptions/2, 19, 49, 50, 59, 60. -/
def Obligations.JoinedSystem : Prop :=
  (∀ (p : Fin 128) (s : State),
    (linkPort p s = true → (port p s).linkUp = true → centralUp s = true →
      (∀ k, (link p s).sent = some k → s.ticks < k + usTicks (helloUs s) → exec (.linkHelloTx p) s = .next s)
      ∧ ((∀ k, (link p s).sent = some k → k + usTicks (helloUs s) ≤ s.ticks) →
        -- the destination number of a link HELLO is not stated: a free value
        let f := takeFree s
        let r := gcmNew 5 1 1 false (f.1.toNat % 4096) (helloBytes p s) f.2
        exec (.linkHelloTx p) s = .next (bump (sysCnt 1) (gcmPut r.1 (setLink p (fun l => { l with sent := some s.ticks }) r.2) p))))
    ∧ ((link p s).up = true → (link p s).last + usTicks (4 * helloUs s) ≤ s.ticks → exec (.linkHelloTimeout p) s = .next (linkLost p s))
    ∧ ((link p s).up = true → s.ticks < (link p s).last + usTicks (4 * helloUs s) → exec (.linkHelloTimeout p) s = .next s))
  ∧ (∀ s : State,
    let due : Prop := ∀ k, s.sys.beaconSent = some k → k + usTicks (beaconUs s) ≤ s.ticks
    let sent : State := { s with sys := { s.sys with beaconSent := some s.ticks } }
    (activeArbiter s = true → centralUp s = true → due → treePorts s ≠ [] →
      let r := gcmNew 5 1 (rfld 0x84014 3 0 s) true 0 [] sent
      exec .beaconTx s = .next (bump (sysCnt 1) ((treePorts s).foldl (fun a p =>
        gcmPut { r.1 with body := (helloBytes p a).map (BitVec.ofNat 8) } a p) r.2)))
    ∧ (activeArbiter s = true → centralUp s = true → due → treePorts s = [] → exec .beaconTx s = .next sent)
    ∧ (activeArbiter s = false ∨ ¬ due → exec .beaconTx s = .next s)
    ∧ (∀ (i : Fin 4) (k : Nat), mfind s.sys.beacons i = some k →
      (k + usTicks (4 * beaconUs s) ≤ s.ticks → exec (.beaconTimeout (i.castSucc)) s =
        .next { s with sys := { s.sys with beacons := mdel s.sys.beacons i } })
      ∧ (s.ticks < k + usTicks (4 * beaconUs s) → exec (.beaconTimeout (i.castSucc)) s = .next s))
    ∧ (∀ k : Nat, s.sys.primary = some k → k + usTicks (4 * beaconUs s) ≤ s.ticks →
      exec (.beaconTimeout 4) s = .next { s with sys := { s.sys with primary := none } })
    ∧ (∀ (i : Fin 4) (x : Pack) (dev : Nat), mfind s.sys.pack i = some x → arbSlot i s = some dev →
      let waits : Prop := x.busy = false ∧ nsSince x.since s < rfld 0x84000 23 16 s
      let gone : State := { s with sys := { s.sys with pack := mdel s.sys.pack i } }
      (¬ waits → egressBusy dev s = false → centralUp s = true →
        (arbAlive i s = true → exec (.gcmPackTimeout i) s = .next (gcmSend 1 x.tps.length (some dev) (x.tps.map tpBytes).flatten gone).1)
        ∧ (arbAlive i s = false → exec (.gcmPackTimeout i) s = .next (bumpN (sysCnt 14) x.tps.length gone)))
      ∧ (waits ∨ egressBusy dev s = true → exec (.gcmPackTimeout i) s = .next s)))
  ∧ (∀ (p : Fin 128) (g : Gcm) (good : Bool) (s : State),
    linkPort p s = true → (port p s).linkUp = true → centralUp s = true →
    let tells (t : State) : Prop :=
      (g.kind = 1 → exec (.gcmTpReceive p g good) s = .next t) ∧ (g.kind = 2 → exec (.gcmTaReceive p g good) s = .next t)
      ∧ (g.kind = 3 → exec (.gcmRecallReceive p g good) s = .next t) ∧ (g.kind = 4 → exec (.gcmReplyReceive p g good) s = .next t)
      ∧ (g.kind = 5 → exec (.gcmHelloReceive p g good) s = .next t)
    let a := bump (sysCnt 0) s
    let own : Prop := g.src = deviceNum s ∧ bit (reg 0x84004 s) 31 = true
    let toOthers := (treePorts s).filter (fun x => decide (x ≠ p.val))
    (linkHello g = false → sysUp p s = false → tells (bump (sysCnt 8) s))
    ∧ (linkHello g = true ∨ sysUp p s = true → badHeader g = true → tells (bump (sysCnt 3) s))
    ∧ (badHeader g = false → linkHello g = true → good = true → tells (takeLinkHello p g a))
    ∧ (badHeader g = false → linkHello g = true → good = false → tells a)
    ∧ (badHeader g = false → linkHello g = false → sysUp p s = true → g.kind ≠ 5 → sysOn s = false → tells a)
    ∧ (badHeader g = false → linkHello g = false → sysUp p s = true → g.kind = 5 ∨ sysOn s = true →
      (own → tells (bump (sysCnt 7) a))
      ∧ (¬ own → g.bcast = true → inTree p s = false → tells (bump (sysCnt 4) a))
      ∧ (¬ own → g.bcast = false → g.dst ≠ deviceNum s →
        (route g.dst s = none → tells (bump (sysCnt 5) a))
        ∧ (∀ r, route g.dst s = some r →
          (g.ttl ≤ 1 → tells (bump (sysCnt 6) a))
          ∧ (1 < g.ttl → good = true → tells (bump (sysCnt 2) (gcmPut { g with ttl := g.ttl - 1 } a r)))
          ∧ (1 < g.ttl → good = false → tells (bump (sysCnt 10) (bump (sysCnt 2) (gcmPut { g with ttl := g.ttl - 1 } a r true))))))
      ∧ (∀ b : State, ¬ own →
        (g.bcast = true ∧ inTree p s = true ∧ b = gcmForward g toOthers good a ∨ g.bcast = false ∧ g.dst = deviceNum s ∧ b = a) →
        (good = false → tells b)
        ∧ (good = true → ageBad g b = true → tells (bump (sysCnt 11) b))
        ∧ (good = true → ageBad g b = false →
          let held : Prop := bit (reg 0x84000 b) 28 = true ∧ g.tb0 ≠ 2
          let asked := recallOf (gcmRec g 0)
          let c := bump (sysCnt 18) b
          let reply := gcmRec g 0
          let word (i : Nat) : Nat := beNat (sliceB reply (4 * i) 4)
          (∀ w : TpWord, g.kind = 1 → g.count = 1 → w = BitVec.ofNat 128 (((List.range 4).map (fun k => beNat (sliceB (gcmRec g 0) (4 * k) 4) * 2 ^ (32 * k))).sum) →
            (tpTb w ≠ 0 → tells (bump (sysCnt 3) b))
            ∧ (tpTb w = 0 → held → tells (bump (sysCnt 12) b))
            ∧ (tpTb w = 0 → ¬ held → tells (remoteTake (tpInput 2 0 w) b)))
          ∧ (g.kind = 1 → tells ((List.range g.count).foldl (takeTpRecord g) b))
          ∧ (∀ t : Ta, g.kind = 2 → g.count = 1 → t = taOf (gcmRec g 0) →
            (t.tb ≠ 0 → tells (bump (sysCnt 3) b))
            ∧ (t.tb = 0 → held → tells (bump (sysCnt 12) b))
            ∧ (t.tb = 0 → ¬ held →
              let d := remoteTake ⟨6, 0, 0, 0, 0, t.cond, 0, t.t % 2 ^ 32, t.pips, 0, 0⟩ b
              let wanted : Prop := t.system = true ∧ t.cond &&& (reg 0x84068 d ||| reg 0x8406C d <<< 32) ≠ 0
              (¬ wanted → tells d) ∧ (wanted → taFull d = true → tells (bump (sysCnt 17) d))
              ∧ (wanted → taFull d = false → tells (bump (sysCnt 16) (taHold t true d)))))
          ∧ (g.kind = 2 → tells ((List.range g.count).foldl (takeTaRecord g) b))
          ∧ (∀ x, g.kind = 3 → s.evt.asked.find? (fun y => decide (y.device = g.src ∧ y.reqId = asked.reqId)) = some x →
            (x.reply = none → tells (bump (sysCnt 20) c))
            ∧ (∀ y, x.reply = some y → asked.reply = true →
              tells (gcmSend 4 1 (some g.src) (replyBytes asked.reqId y) (bump (sysCnt 20) c)).1))
          ∧ (g.kind = 3 → s.evt.asked.find? (fun y => decide (y.device = g.src ∧ y.reqId = asked.reqId)) = none →
            (recallCheck 0 asked c = .ok → tells (recallStart 0 asked (.device g.src asked.reply) g.src
              { c with evt := { c.evt with asked := (⟨g.src, asked.reqId, none⟩ :: c.evt.asked).take 64 } }))
            ∧ (∀ st, recallCheck 0 asked c = st → st ≠ .ok →
              let d := bump (sysCnt 19) (skipCount asked.reqId st c)
              (asked.reply = false → tells d)
              ∧ (asked.reply = true →
                tells (gcmSend 4 1 (some g.src) (replyBytes asked.reqId ⟨statusCode st, false, 0, 0, tbNs 0 s % 2 ^ 32⟩) d).1)))
          ∧ (∀ x st, g.kind = 4 → s.evt.issued.find? (fun x => decide (x.1 = word 0)) = some x → statusOf (bits (word 1) 31 24) = some st →
            tells (replyEntry x.2 st (bit (word 1) 23) (recallResult g.src (bits (word 1) 15 0) (word 2)) b))
          ∧ (g.kind = 4 → s.evt.issued.find? (fun x => decide (x.1 = word 0)) = none → tells b)
          ∧ (g.kind = 5 → tells (takeBeacon g.src b))))))

/-! ### History, buffers and events (10_history_events.md) -/

/-- R314, R316, R320, R321, R323, R325, R388: STREAM_QUOTA, BUF_RELEASE, QUOTA_SET and EVT_ROUTE, the release of a profile, and a buffer fault capture
re-armed. Choices of the model in it: notes/assumptions/27, 129. -/
def Obligations.BuffersQuotasAndProfiles : Prop :=
  (∀ (d : Desc) (s : State),
    let sid := bf d 16 19 0
    let v := bf d 24 63 0
    let c : CmdSpec := { op := 0x12, group := some 0, objs := [⟨2, sid⟩], fields := [(16, 19, 0), (24, 63, 0)] }
    passes c d s = true →
    (streamAny sid s = none → refuses (.streamQuota d) c d .range id s)
    ∧ (∀ k, streamAny sid s = some k →
      let q := k / 16384
      let n := v / 65536
      let over_ : Prop := quotaOf sid s < n ∧ stackBlocks < reservedBlocks q s - quotaOf sid s + n
      (v % 65536 ≠ 0 ∨ n = 1 ∨ stackBlocks < n → refuses (.streamQuota d) c d .range id s)
      ∧ (v % 65536 = 0 → n ≠ 1 → n ≤ stackBlocks → over_ → refuses (.streamQuota d) c d .quota id s)
      ∧ (v % 65536 = 0 → n ≠ 1 → n ≤ stackBlocks → ¬ over_ → serves (.streamQuota d) c d (fun src a =>
        let b : State := { a with evt := { a.evt with quota := stPut 0 a.evt.quota sid n } }
        complete src .ok 0 (if n = 0 then b else releaseBlocks q sid n b)) s)))
  ∧ (∀ (d : Desc) (s : State),
    let key := bf d 16 23 0
    let gen := bf d 20 11 0
    let f := d.func.val
    let c : CmdSpec := { op := 0x06, fields := [(16, 23, 0), (20, 11, 0)] }
    let live : Prop := (buf key s).owner ≠ 0 ∧ (buf key s).gen = gen
    let pool : Prop := 1 ≤ hPool key ∧ hPool key ≤ 4
    let no (st : Status) : Prop := refuses (.bufRelease d) c d st (fun a => bump (fnCnt f 7) (refuseRelease st key gen (0x3000 + f) a)) s
    passes c d s = true →
    (¬ pool → no .range) ∧ (pool → ¬ live → no .stale) ∧ (pool → live → (buf key s).owner ≠ 0x3000 + f → no .notOwner)
    ∧ (pool → live → (buf key s).owner = 0x3000 + f → serves (.bufRelease d) c d (fun src a => complete src .ok 0
      (bump (fnCnt f 6) (setEvt (fun e => { e with delivered := e.delivered.filter (fun x => decide (x.handle ≠ key)) })
        (setBuf key (fun b => { gen := (b.gen + 1) % 4096 }) a)))) s))
  ∧ (∀ (q : Fin 4) who v (s : State), writesOk who (evbBase q + 0x1C) v s = true →
    exec (.bufFaultRearm who q v) s = .next (putReg (evbBase q + 0x1C) v s))
  ∧ (∀ (d : Desc) (s : State),
    let t := bf d 16 11 8
    let i := bf d 16 7 0
    let v := bf d 24 63 0
    let c : CmdSpec := { op := 0x52, group := some 4, objs := [⟨9, bf d 16 11 0⟩], fields := [(16, 11, 0), (24, 63, 0)] }
    -- a function other than 0 sets quotas of engines only, and of none with a slot that another function owns
    let mine : Prop := d.func = 0 ∨ t = 0 ∧ ∀ j < 16, ∀ f, ownerOf ⟨4, 16 * i + j⟩ s = some f → f = d.func.val
    let fits : Prop := (t = 0 ∧ i < 192 ∧ v % 64 = 0 ∧ v ≤ 33554432) ∨ (t = 1 ∧ i < 8 ∧ v % 4096 = 0 ∧ v ≤ 2 ^ 40)
      ∨ (t = 2 ∧ i < 8 ∧ v ≤ 1048576)
    passes c d s = true →
    (¬ mine → refuses (.quotaSet d) c d .notOwner id s) ∧ (mine → ¬ fits → refuses (.quotaSet d) c d .range id s)
    ∧ (mine → fits → serves (.quotaSet d) c d (fun src a => complete src .ok 0 { a with evt :=
        if t = 0 then { a.evt with engQuota := mput a.evt.engQuota i v }
        else if t = 1 then { a.evt with byteQuota := mput a.evt.byteQuota i v }
        else { a.evt with cntQuota := mput a.evt.cntQuota i v } }) s))
  ∧ (∀ (d : Desc) (pb : BitVec 512) (s : State),
    let n := bf d 16 7 0
    let p := profileFrom pb
    let c := specEvtRoute d (some pb)
    let placed : Prop := bf d 32 31 0 = 64 ∧ bf d 24 5 0 = 0
    let good : Prop := p.pre ≤ 30000000000 ∧ p.post ≤ 1000000000 ∧ 0 < p.pre + p.post ∧ 1 ≤ p.maxUnits ∧ p.maxUnits ≤ 16384
      ∧ 1 ≤ p.hold ∧ p.hold ≤ 10000000 ∧ (p.dest = 0 ∨ ∀ x ∈ p.ports, x.isSome = true)
    passes c d s = true →
    (dRelease d = false →
      (¬ placed ∨ ¬ good → refuses (.evtRoute d (some pb)) c d .range id s)
      ∧ (placed → good → serves (.evtRoute d (some pb)) c d (fun src a => complete src .ok 0 (profileSet n p a)) s))
    ∧ (dRelease d = true →
      (¬ placed → refuses (.profileRelease d (some pb)) c d .range id s)
      ∧ (placed → serves (.profileRelease d (some pb)) c d (fun src a => complete src .ok 0
        (disown ⟨8, n⟩ (profileSet n { p with en := false } a))) s)))

/-- R280, R300–R302, R305, R327, R338: RECALL of this device's history and of other devices', its checks, what is sent or built, and the memory of
pairs that the requester's own run goes through as well. Choices of the model in it:
notes/assumptions/27, 59, 60. -/
def Obligations.Recalls : Prop :=
  ∀ (d : Desc) (s : State),
    -- a RECALL of this device's own history needs the quadrants that build, out of reset (R472)
    let here : List ObjId := ((List.range 4).filter (fun q => ! quadGated q s)).map (fun q => ⟨1, 32 * q⟩)
    let c : CmdSpec := if bf d 16 31 30 = 0 then { specRecall d with needs := here } else specRecall d
    let b := bf d 16 26 24
    let r := recallReq d
    passes c d s = true →
    (bf d 16 31 30 = 0 →
      let i : Instr := .recallLocal d
      let plain : Prop := bf d 16 28 28 = 0 ∧ bf d 16 27 27 = 0 ∧ bf d 16 11 0 = 0
      let now := tbNs b s
      let age := sdiff (bf d 32 31 0) (now % 2 ^ 32)
      let near : Prop := bf d 16 29 29 = 1 → age ≤ 0 ∧ -2000000000 ≤ age
      let w : RecallReq := if bf d 16 29 29 = 1 then { r with start := extendNs (r.start % 2 ^ 32) now, stop := extendNs (r.stop % 2 ^ 32) now } else r
      let no (st : Status) : Prop := refuses i c d st (skipCount r.reqId st) s
      let fits : Prop := near ∧ w.start < w.stop ∧ now ≤ w.start + 30000000000 ∧ w.stop ≤ now + 1000000000
      (¬ plain → no .range)
      ∧ (plain → (tb b s).valid = false → no .fault)
      ∧ (plain → (tb b s).valid = true →
        (¬ fits → no .range)
        ∧ (fits → recallMode b w.start s = true → no .mode)
        ∧ (fits → recallMode b w.start s = false → (profileOf w.profile s).en = false → no .range)
        ∧ (fits → recallMode b w.start s = false → (profileOf w.profile s).en = true →
          (64 ≤ recallsPending s → no .noResource)
          ∧ (recallsPending s < 64 → serves i c d (fun src a => recallStart b w (.host src false) (deviceNum s) a) s))))
    ∧ (bf d 16 31 30 = 1 ∨ bf d 16 31 30 = 2 →
      let far : Prop := bf d 16 31 30 = 1
      let i : Instr := if bf d 16 31 30 = 1 then .recallDevice d else .recallAll d
      let here : Prop := b = 0 ∧ bf d 16 29 29 = 0 ∧ (far → bf d 16 11 0 ≠ deviceNum s)
      let now := tbNs 0 s
      let fits : Prop := r.start < r.stop ∧ now ≤ r.start + 30000000000 ∧ r.stop ≤ now + 1000000000
      (¬ here → refuses i c d .range id s)
      ∧ (here → (tb 0 s).valid = false → refuses i c d .fault id s)
      ∧ (here → (tb 0 s).valid = true → ¬ fits → refuses i c d .range id s)
      ∧ (here → (tb 0 s).valid = true → fits → serves i c d (fun src a =>
        let dst : Option Nat := if bf d 16 31 30 = 1 then some (bf d 16 11 0) else none
        let x := gcmSend 3 1 dst (recallBytes r) a
        let issued := (r.reqId, src) :: x.1.evt.issued.filter (fun y => decide (y.1 ≠ r.reqId))
        let e := complete src (if x.2 then .ok else .link) 0 { x.1 with evt := { x.1.evt with issued := issued } }
        let me := deviceNum e
        let again := bump (sysCnt 20) e
        let answered (y : ReplyRec) : State := match statusOf y.status with
          | some st => replyEntry src st y.part (recallResult me y.frags y.length) again
          | none => again
        if r.self = false then e
        else match askedOf me r.reqId e with
          | some k => k.reply.elim again answered
          | none =>
            if recallCheck 0 r e = .ok then recallStart 0 r (.host src true) me (askedPut me r.reqId e)
            else replyEntry src (recallCheck 0 r e) false (recallResult me 0 0) (bump (sysCnt 19) (skipCount r.reqId (recallCheck 0 r e) e))) s))

/-- R313, R415, R58, R324–R332, R335–R337, R361: shedding, refresh, the taking of TAs, and the steps of a build from sizing over the layout and the
posts, or a wait for them, to its delivery. Choices of the model in it: notes/assumptions/8, 19, 56, 57, 58, 60, 62, 63, 64, 66, 113. -/
def Obligations.EventBuilding : Prop :=
  (∀ (q : Fin 4) (s : State),
    let h := hist q s
    let shed (k : Nat) (f : HistSt → HistSt) : State := setHist q (fun x => f { x with shed := k }) s
    (1572864 < h.wb → h.shed < 8 → (∀ k ∈ h.upTick, k + 625 ≤ s.ticks) →
      exec (.shedLevelUp q) s = .next (shed (h.shed + 1) (fun x => { x with upTick := some s.ticks })))
    ∧ (h.wb ≤ 1572864 ∨ 8 ≤ h.shed → exec (.shedLevelUp q) s = .next s)
    ∧ (∀ k, h.lowSince = some k → k + 62500 ≤ s.ticks → 0 < h.shed →
      exec (.shedLevelDown q) s = .next (shed (h.shed - 1) (fun x => { x with lowSince := some s.ticks })))
    ∧ (h.lowSince = none ∨ h.shed = 0 → exec (.shedLevelDown q) s = .next s)
    ∧ (∀ (ns : Fin 411) (allowed : Bool), histMode q s = .hbm →
      let spare : Prop := s.ticks < h.refreshUntil ∨ 0 < h.owed
      (1572864 < h.wb → allowed = true →
        exec (.hbmRefresh q ns allowed) s = .next (setHist q (fun x => { x with postponed := x.postponed + 1 }) s))
      ∧ (h.wb ≤ 1572864 ∨ allowed = false → spare →
        exec (.hbmRefresh q ns allowed) s = .next (setHist q (fun x => { x with postponed := x.postponed - 1 }) s))
      ∧ (h.wb ≤ 1572864 ∨ allowed = false → ¬ spare → exec (.hbmRefresh q ns allowed) s =
        .next (setHist q (fun x => { x with refreshUntil := s.ticks + nsTicks ns, postponed := x.postponed - 1 }) s))))
  ∧ (∀ (q : Fin 4) (s : State),
    (s.trig.taQueue.find? (fun t => t.left.contains q.val) = none → exec (.evbTaTake q) s = .next s)
    ∧ (∀ t, s.trig.taQueue.find? (fun t => t.left.contains q.val) = some t →
      let p := profileOf t.ta.profile s
      let first : Prop := t.begun = false
      let safe : Prop := s.mode.current = .safe
      let runs : Prop := evbUp q s = true ∧ centralUp s = true ∧ buildsIn q s < 64
      -- the first EVB begins the record, or in Safe counts it; each EVB counts the TA
      let begun : State := if safe then bump (evbCnt (t.ta.trig % 4) 17) s else if p.en = true then
          addBuild { ta := t.ta, rcl := none, prof := p, start := t.ta.t - p.pre, stop := t.ta.t + p.post
                     collector := some (collectorOf t.ta.trig s), parts := newParts (t.left.filter (fun q => evbUp q s)) } s
        else s
      (¬ runs → exec (.evbTaTake q) s = .next s)
      ∧ (runs → ∀ a, (first → a = bump (evbCnt q 0) begun) → (¬ first → a = bump (evbCnt q 0) s) →
        (buildOfTa t.ta a = none → p.en = false → exec (.evbTaTake q) s = .next (taTaken q t (bump (evbCnt q 10) a)))
        ∧ (buildOfTa t.ta a = none → p.en = true → exec (.evbTaTake q) s = .next (taTaken q t a))
        ∧ (∀ n b, buildOfTa t.ta a = some (n, b) →
          (mfind b.parts q = none →
            exec (.evbTaTake q) s = .next (taTaken q t (setBuild n { b with parts := mput b.parts q .waiting } a)))
          ∧ (mfind b.parts q ≠ none → exec (.evbTaTake q) s = .next (taTaken q t a))))))
  ∧ (∀ (q : Fin 4) (n : Nat) (b : Build) (s : State), buildOf n s = some b →
    -- taken, or of a RECALL, and not in Safe
    let ready : Prop := evbUp q s = true ∧ s.mode.current ≠ .safe ∧ (mfind b.parts q = some .waiting
      ∨ mfind b.parts q = none ∧ b.rcl ≠ none ∧ buildsIn q s < 64)
    let streams := matching q b.prof.sel b.prof.mask s
    let own := streams.filter (fun x => decide (streamTb x s = b.ta.tb))
    let found := own.map (fun x => streamFrags q b x s)
    let sized : State := bumpN (evbCnt q 11) (streams.length - own.length) (setBuild n { b with
      collector := some (b.collector.getD (collectorOf (pickNum b.ta b.rcl) s))
      parts := mput b.parts q (.sized (found.flatten ++ attachFrags q b s) (found.any (·.isEmpty))) } s)
    (ready → b.stop + 10000 ≤ tbNs b.ta.tb s → covered q b s = true → exec (.eventBuildStart q n) s = .next sized)
    ∧ (¬ ready ∨ tbNs b.ta.tb s < b.stop + 10000 ∨ covered q b s = false → exec (.eventBuildStart q n) s = .next s)
    ∧ (ready → b.stop + 10000 + rfld (evbBase q) 15 0 s * 1000000 ≤ tbNs b.ta.tb s → exec (.buildWaitTimeout q n) s = .next sized)
    ∧ (¬ ready ∨ tbNs b.ta.tb s < b.stop + 10000 + rfld (evbBase q) 15 0 s * 1000000 → exec (.buildWaitTimeout q n) s = .next s))
  -- a component lost to an uncorrectable error is POISON, whose value is 0; a missing one stays missing
  ∧ (∀ (l : List Nat) (f : Frag), (f.attach = true → fragErr l f = f)
    ∧ (f.attach = false → ∀ i c, f.comps[i]? = some c → (fragErr l f).comps[i]? = some (if i ∈ l ∧ c.2 ≠ 2 then (0, 3) else c))
    ∧ (f.attach = false → (∃ i c, i ∈ l ∧ f.comps[i]? = some c ∧ c.2 ≠ 2) → (fragErr l f).poisoned = true))
  -- sizes, completions and host traffic cross the central block
  ∧ (∀ (n : Nat) (q : Fin 4) (posts : List Post) (s : State), centralUp s = false →
    exec (.sizesComplete n posts) s = .next s ∧ (∀ errs, exec (.evbRegionDone q ⟨n, errs⟩) s = .next s) ∧ exec (.recordDelivery n) s = .next s
      ∧ exec (.recordHoldTimeout n) s = .next s)
  ∧ (∀ (n : Nat) (posts : List Post) (b x : Build) (a s : State), buildOf n s = some b → centralUp s = true →
    -- the record is laid out now, or it waits already
    (b.stage = .sizing ∧ sizesIn b = true ∧ b.collector.isSome = true ∧ x = layOut b ∧ x.stage = .sizing ∧ x.prof.dest = 0 ∧ a = setBuild n x s
      ∨ (∃ k, b.stage = .held k) ∧ x = b ∧ a = s) →
    let f := x.prof.func
    let r := evSlot x
    let len := recordLen (allFrags x)
    let waits (e : State) : State := match x.stage with | .held _ => e | _ => holdRecord n x e
    let free : Prop := hostUp f a = true ∧ fnAwake f a = true ∧ ringRuns f r a = true ∧ quotaRoom f len a = true ∧ earlierHeld n x a = false
    let got := takePosts len ((ring f r a).host - (ring f r a).dev - (ring f r a).resv) (ringSize f r a) posts []
    (¬ free → exec (.sizesComplete n posts) s = .next (waits a))
    ∧ (free →
      (∀ l, got = .got l → exec (.sizesComplete n posts) s = .next (setBuild n { x with
          stage := .moving false, posts := l, first := (ring f r a).dev + (ring f r a).resv }
        (setRing f r (fun y => { y with resv := y.resv + l.length }) a)))
      ∧ (got = .few → exec (.sizesComplete n posts) s = .next (waits a))
      ∧ (got = .bad → exec (.sizesComplete n posts) s = .next (waits (stopRing f r .rsvdField a)))
      ∧ (got = .failed → exec (.sizesComplete n posts) s = .next (waits (stopRing f r .fault a)))
      ∧ (got = .never → exec (.sizesComplete n posts) s = .next (applyPolicy n x a))))
  ∧ (∀ (n : Nat) (posts : List Post) (b : Build) (s : State), buildOf n s = some b → b.stage = .sizing → centralUp s = true →
    (sizesIn b = false ∨ b.collector = none → exec (.sizesComplete n posts) s = .next s)
    ∧ (sizesIn b = true → b.collector.isSome = true → b.prof.dest = 1 →
      exec (.sizesComplete n posts) s = .next (setBuild n { layOut b with stage := .moving true } s)))
  -- a record for both routes: one without room for the host goes to the ports alone
  ∧ (∀ (n : Nat) (posts : List Post) (b : Build) (s : State), buildOf n s = some b → b.stage = .sizing → centralUp s = true →
    sizesIn b = true → b.collector.isSome = true → b.prof.dest = 2 → b.posts = [] →
    let x := layOut b
    let a := setBuild n x s
    let f := x.prof.func
    let r := evSlot x
    let len := recordLen (allFrags x)
    let spilled (e : State) : State := bump (evbCnt (b.collector.getD 0) 6) (setBuild n { x with stage := .moving true } e)
    let free : Prop := hostUp f a = true ∧ fnAwake f a = true ∧ ringRuns f r a = true ∧ quotaRoom f len a = true ∧ earlierHeld n x a = false
    let got := takePosts len ((ring f r a).host - (ring f r a).dev - (ring f r a).resv) (ringSize f r a) posts []
    (¬ free → exec (.sizesComplete n posts) s = .next (spilled a))
    ∧ (free →
      (∀ l, got = .got l → l ≠ [] → exec (.sizesComplete n posts) s = .next (setBuild n { x with
          stage := .moving false, posts := l, first := (ring f r a).dev + (ring f r a).resv, prof := { x.prof with policy := 1 } }
        (setRing f r (fun y => { y with resv := y.resv + l.length }) a)))
      ∧ (got = .few → exec (.sizesComplete n posts) s = .next (spilled a))
      ∧ (got = .bad → exec (.sizesComplete n posts) s = .next (spilled (stopRing f r .rsvdField a)))
      ∧ (got = .failed → exec (.sizesComplete n posts) s = .next (spilled (stopRing f r .fault a)))))
  ∧ (∀ (n : Nat) (b : Build) (direct : Bool) (s : State), buildOf n s = some b → b.stage = .moving direct → centralUp s = true →
    let ported : Prop := b.prof.dest = 2 ∨ direct = true
    let col := b.collector.getD 0
    (∀ (q : Fin 4) errs, (∀ l short, mfind b.parts q ≠ some (.sized l short)) → exec (.evbRegionDone q ⟨n, errs⟩) s = .next s)
    ∧ (∀ (q : Fin 4) (errs : List (Nat × Nat)) l0 short, mfind b.parts q = some (.sized l0 short) →
      -- what HBM could not give back whole is POISON in the record
      let met (i : Nat) : List Nat := if histMode q s = .hbm then (errs.filter (fun e => decide (e.1 = i))).map (·.2) else []
      let l := l0.zipIdx.map (fun x => fragErr (met x.2) x.1)
      let b : Build := { b with parts := mput b.parts q (.sized l short) }
      let bytes := (l.map fragBytes).flatten
      let off := regionOff b q
      let did := bumpN (evbCnt q 2) l.length (setBuild n { b with parts := mput b.parts q (.done l short) } s)
      let wrote := if b.posts = [] then did else bumpN (evbCnt q 3) bytes.length (hostPut b off bytes did)
      (¬ ported → exec (.evbRegionDone q ⟨n, errs⟩) s = .next wrote)
      ∧ (ported → (b.prof.ports.getD q none = none ∨ bytes = []) → exec (.evbRegionDone q ⟨n, errs⟩) s = .next wrote)
      ∧ (ported → ∀ e, sendRegion b q off bytes wrote = some e → exec (.evbRegionDone q ⟨n, errs⟩) s = .next e)
      ∧ (ported → sendRegion b q off bytes wrote = none → exec (.evbRegionDone q ⟨n, errs⟩) s = .next s))
    ∧ (regionsDone b = false → exec (.recordDelivery n) s = .next s)
    ∧ (regionsDone b = true →
      let closed (e : State) : State :=
        let e := bump (evbCnt col 1) e
        let e := if b.truncated = true then bump (evbCnt col 8) e else e
        let e := delBuild n (freeStaged b (if recPartial b then bump (evbCnt col 9) e else e))
        match b.rcl with
        | some r => finishRecall r (if b.drained then .aborted else .ok) (recPartial b) (liveFrags b).length (recordLen (allFrags b)) e
        | none => e
      let head := headBytes b (deviceNum s)
      (¬ ported → b.posts ≠ [] → ∀ e, deliverHost col b s = some e → exec (.recordDelivery n) s = .next (closed e))
      ∧ (¬ ported → b.posts ≠ [] → deliverHost col b s = none → exec (.recordDelivery n) s = .next s)
      ∧ (ported → b.posts = [] → ∀ e, sendRegion b col 0 head s = some e → exec (.recordDelivery n) s = .next (closed e))
      ∧ (ported → sendRegion b col 0 head s = none → exec (.recordDelivery n) s = .next s)
      ∧ (ported → b.posts ≠ [] → ∀ e g, sendRegion b col 0 head s = some e → deliverHost col b e = some g →
        exec (.recordDelivery n) s = .next (closed g))))
  ∧ (∀ (n k : Nat) (b : Build) (s : State), buildOf n s = some b → b.stage = .held k → centralUp s = true →
    let asleep : Prop := fnAwake b.prof.func s = false ∧ quotaRoom b.prof.func (recordLen (allFrags b)) s = true
    (k + 625 * b.prof.hold ≤ s.ticks → ¬ asleep → exec (.recordHoldTimeout n) s = .next (applyPolicy n b s))
    ∧ (s.ticks < k + 625 * b.prof.hold ∨ asleep → exec (.recordHoldTimeout n) s = .next s))
  ∧ (∀ (q : Fin 4) (s : State),
    let l := mget [] s.evt.attach q
    let keep := l.filter (fun a => decide (s.ticks < a.since + 625 * reg (evbBase q + 8) s))
    exec (.attachHoldExpire q) s = .next ((l.filter (fun a => decide (a.since + 625 * reg (evbBase q + 8) s ≤ s.ticks))).foldl
      (fun e a => freeBuf a.buf e) { s with evt := { s.evt with attach := mput s.evt.attach q keep } }))

/-! ### The host's rings and interrupts (11_host_rings.md) -/

/-- R45, R48, R345–R347, R351, R354–R358, R363, R365–R371: the host link and functions asleep, doorbells read, rings turned on, off and resumed, free
entries, interrupts late and unmasked, failed reads, and FLR. Choices of the model in it: notes/assumptions/9, 24, 101, 103, 110, 113, 119, 122,
129, 137. -/
def Obligations.HostRings : Prop :=
  (∀ (gen width : Nat) (flit cxl cacheEn : Bool) (ats msix : BitVec 8) (s : State),
    hostUp 0 s = true → 3 ≤ gen → gen ≤ 6 → width ∈ [1, 2, 4, 8, 16] → (flit = true ∨ gen ≠ 6) →
    exec (.hostLinkUp gen width flit cxl cacheEn ats msix) s = .next ((List.range 8).foldl (fun a f =>
        setFn f (fun x => { x with ats := ats.getLsbD f, msixEn := msix.getLsbD f }) a)
      { s with host := { s.host with linkUp := true, gen := gen, width := width, flit := flit, cxl := cxl, cxlCache := cxl && cacheEn } }))
  ∧ (∀ (f : Fin 8) (s : State),
    (hostUp f s = true →
      let linked (b : Bool) : State := { s with host := { s.host with l12 := b } }
      let woken (g : Nat) (a : State) : State := (List.range 256).foldl (fun a v => sendPending g a v) (setFn g (fun x => { x with wake := false }) a)
      let back := woken f (setFn f (fun x => { x with d3hot := false }) (linked false))
      exec (.functionD3hotEntry f false) s = .next (setFn f (fun x => { x with d3hot := true }) s)
      -- L1.2 is a state of the link of all functions
      ∧ exec (.functionD3hotEntry f true) s = .next (linked true)
      ∧ (s.host.l12 = false → exec (.functionD0Entry f) s = .next back)
      ∧ (s.host.l12 = true → exec (.functionD0Entry f) s = .next ((List.range 8).foldl (fun a g =>
          if g = f.val ∨ (fn g a).d3hot = true then a else woken g a) back)))
    ∧ (hostUp f s = false → (∀ b, exec (.functionD3hotEntry f b) s = .next s) ∧ exec (.functionD0Entry f) s = .next s)
    ∧ (∀ v : Fin 256, writesOk (.fn f) (msixBase f + 16 * v + 12) 0 s = true →
      let a := putReg (msixBase f + 16 * v + 12) 0 s
      let pends : Prop := bit (reg (pbaBase f + 4 * (v / 32)) s) (v % 32) = true ∧ vecUsable f v s = true ∧ fnAwake f s = true
      (pends → exec (.msixUnmask f v) s = .next (emit (.msix f v) (setPba f v false a)))
      ∧ (¬ pends → exec (.msixUnmask f v) s = .next a))
    ∧ (hostUp f s = true → s.host.linkUp = true → exec (.flr f) s = .next (resetRequest ⟨2, f + 1, 5, .minimum⟩ s)))
  ∧ (∀ (f : Fin 8) (slot : Fin 193) (w : BitVec 64) (s : State),
    let dev : Int := (ring f slot s).dev
    let apart : Nat := if slot.val < 64 ∨ (128 ≤ slot.val ∧ slot.val < 192) then wrapN 64 ((w.toNat : Int) - dev) else wrapN 64 (dev - w.toNat)
    let every := pollNs f s * max 100000000 (pollDemand s) / 100000000
    let polled := setFn f (fun x => { x with polled := some s.ticks }) (if 100000000 < pollDemand s then setFld 0x20008 31 31 1 s else s)
    let reads (i : Instr) (a : State) : Prop :=
      (ringRuns f slot s = true → apart ≤ ringSize f slot s →
        exec i s = .next (flushFn f (setRing f slot (fun r => { r with host := w.toNat }) a)))
      ∧ (ringRuns f slot s = true → ringSize f slot s < apart →
        exec i s = .next (flushFn f (stopRing f slot .range (setRing f slot (fun r => { r with seen := some w.toNat }) a))))
      -- a stopped ring keeps the index to be judged at resume
      ∧ ((ring f slot s).en = true → (ring f slot s).stopped ≠ none →
        exec i s = .next (flushFn f (setRing f slot (fun r => { r with seen := some w.toNat }) a)))
      ∧ ((ring f slot s).en = false → exec i s = .next (flushFn f a))
    canPoll f s = true →
    reads (.nudge f [(slot, w)]) polled
    ∧ ((∀ k, (fn f s).polled = some k → k + nsTicks every ≤ s.ticks) → reads (.doorbellPoll f [(slot, w)]) polled)
    ∧ (∀ line : Fin 25, slot.val / 8 = line.val → usesCxl f s = true → reads (.doorbellInvalidate f line [(slot, w)]) s)
    ∧ (∀ line : Fin 25, usesCxl f s = false → exec (.doorbellInvalidate f line [(slot, w)]) s = .next s))
  ∧ (∀ (f : Fin 8) (slot : Fin 193) (s : State),
    let a := ringBase f slot + 8
    let on : Prop := bit (reg a s) 31 = true
    (∀ who v, writesOk who a v s = true →
      let t := putReg a v s
      (¬ on → (ring f slot s).en = false → v.getLsbD 31 = true → exec (.ringEnable who f slot v) s =
        .next (flushFn f (showRing f slot 1 (emit (.shadow f slot (shadowAddr f slot t) 0)
          (setRing f slot (fun r => { en := true, code := r.code }) t)))))
      ∧ (¬ on → v.getLsbD 31 = false → exec (.ringDisable who f slot v) s = .next t)
      ∧ (on → v.getLsbD 31 = false →
        let off := showRing f slot 0 (setRing f slot (fun r => { shown := r.shown, code := r.code }) t)
        exec (.ringDisable who f slot v) s = .next (
          if slot.val < 64 then fencesDrop f slot off
          else if slot.val < 128 then flushFn f (setFn f (fun x => { x with cqWait := x.cqWait.filter (fun e => e.1 != slot.val - 64) }) off)
          else if slot.val < 160 then rewaitBuilds f (some (slot.val - 128)) off
          else if slot.val = 192 then flushFn f off
          else off))
      ∧ (on → (ring f slot s).en = true → v.getLsbD 31 = true → v.getLsbD 30 = true → ∀ word : BitVec 64,
        let dev : Int := (ring f slot s).dev
        let apart : Nat := if slot.val < 64 ∨ (128 ≤ slot.val ∧ slot.val < 192) then wrapN 64 ((word.toNat : Int) - dev)
          else wrapN 64 (dev - word.toNat)
        ((ring f slot s).stopped = none → exec (.ringResume who f slot ⟨v, word⟩) s = .next t)
        -- the host index is judged again
        ∧ ((ring f slot s).stopped ≠ none → apart ≤ ringSize f slot t → exec (.ringResume who f slot ⟨v, word⟩) s = .next (flushFn f
          (showRing f slot 1 (setRing f slot (fun r => { r with stopped := none, seen := none, host := word.toNat }) t))))
        ∧ ((ring f slot s).stopped ≠ none → ringSize f slot t < apart → exec (.ringResume who f slot ⟨v, word⟩) s = .next (flushFn f
          (stopRing f slot .range (setRing f slot (fun r => { r with stopped := none, seen := some word.toNat }) t))))))
    ∧ (hostUp f s = true → ∀ k, (ring f slot s).oldest = some k →
      let late : Prop := k + nsTicks (250 * rfld (ringBase f slot + 12) 15 0 s) ≤ s.ticks
      (late → exec (.coalTimeout f slot) s = .next (sendVec f (rfld a 18 11 s) (setRing f slot (fun r => { r with cnt := 0, oldest := none }) s)))
      ∧ (¬ late → exec (.coalTimeout f slot) s = .next s))
    ∧ (hostUp f s = true → (ring f slot s).oldest = none → exec (.coalTimeout f slot) s = .next s)
    ∧ (hostUp f s = true → exec (.dmaReadFault f [slot]) s = .next (if ringRuns f slot s = true then stopRing f slot .fault s else s)))
  ∧ (∀ (f : Fin 8) (r : Fin 32) (e : BitVec 128) (s : State),
    let slot := 160 + r.val
    let cq := cqOf f slot s
    hostUp f s = true → (fn f s).d3hot = false → ringRuns f slot s = true → (ring f slot s).dev < (ring f slot s).host →
    (cqHolds f cq s = true → exec (.freeEntry f r e) s = .next (showRing f slot 3 s))
    ∧ (cqHolds f cq s = false →
      let key := bits e.toNat 23 0
      let gen := bits e.toNat 43 32
      let ix := (ring f slot s).dev
      let shown := showRing f slot 1 s
      let next := emit (.shadow f slot (shadowAddr f slot s) (ix + 1)) (setRing f slot (fun x => { x with dev := x.dev + 1 }) shown)
      let wantsEntry : Prop := bit (reg (ringBase f slot + 8) s) 10 = true
      let entry (st : Status) : State → State := writeCompl f cq { kind := .free, status := st, opcode := 0, ring := r.val, index := ix % 65536
                                                                   cookie := BitVec.ofNat 64 (e.toNat >>> 64), jseq := 0, result := gen <<< 24 ||| key }
      let plain : Prop := bits e.toNat 31 24 = 0 ∧ bits e.toNat 63 44 = 0
      let pool : Prop := 1 ≤ hPool key ∧ hPool key ≤ 4
      let live : Prop := (buf key s).owner ≠ 0 ∧ (buf key s).gen = gen
      let mine : Prop := (buf key s).owner = 0x3000 + f.val
      let refused (st : Status) : Prop :=
        exec (.freeEntry f r e) s = .next (entry st (bump (fnCnt f 7) (refuseRelease st key gen (0x3000 + f.val) next)))
      (¬ plain → exec (.freeEntry f r e) s = .next (entry .rsvdField (bump (fnCnt f 7) next)))
      ∧ (plain → ¬ pool → refused .range) ∧ (plain → pool → ¬ live → refused .stale) ∧ (plain → pool → live → ¬ mine → refused .notOwner)
      ∧ (plain → pool → live → mine → ¬ wantsEntry → exec (.freeEntry f r e) s = .next (releaseBy f key next))
      ∧ (plain → pool → live → mine → wantsEntry → exec (.freeEntry f r e) s = .next (entry .ok (releaseBy f key next)))))

/-! ### Basic commands and fences (11_host_rings.md, 12_commands_journal.md) -/

/-- R376, R377, R383, R394, R396, R400, R404: NOP, ECHO, JRNL_SYNC, STATS_SNAP and COUNTER_READ, the four fences and how each ends, and an opcode of no
command. Choices of the model in it: notes/assumptions/27, 113, 128, 130, 131. -/
def Obligations.BasicCommands : Prop :=
  (∀ (d : Desc) (s : State),
    let c (op : Nat) (fields : List (Nat × Nat × Nat)) : CmdSpec := { op := op, fields := fields }
    (passes (c 0 []) d s = true → serves (.nop d) (c 0 []) d (fun src a => complete src .ok 0 a) s)
    ∧ (passes (c 1 [(16, 63, 0)]) d s = true →
      serves (.echo d) (c 1 [(16, 63, 0)]) d (fun src a => complete src .ok (bf d 16 63 0) a) s)
    ∧ (passes (c 3 []) d s = true →
      serves (.jrnlSync d) (c 3 []) d (fun src a => complete src .ok (if a.jrnl.head ≤ 960 then 1 else a.jrnl.head - 959) a) s)
    ∧ (∀ op : BitVec 8, op.toNat ∉ opcodes → canServe d s = true →
      refuses (.reservedOpcode op d) (c op.toNat []) d .badOpcode id s)
    -- a descriptor that the device may not read now stays; a held ring shows it, and remembers an ORDERED one
    ∧ (canServe d s = false →
      let left := if canReach d s = true ∧ ringHeld d s = true then
          showRing d.func d.ring 3 (if bit d.flags.toNat 23 = true then setRing d.func d.ring (fun r => { r with ordered := true }) s else s)
        else s
      exec (.nop d) s = .next left ∧ exec (.echo d) s = .next left ∧ exec (.jrnlSync d) s = .next left
        ∧ ∀ op : BitVec 8, op.toNat ∉ opcodes → exec (.reservedOpcode op d) s = .next left))
  ∧ (∀ (d : Desc) (words : List (Fin 193 × BitVec 64)) (i : Instr) (s : State),
    let m := bf d 16 3 0
    let b := bf d 16 6 4
    let t := bf d 24 63 0
    let f := d.func.val
    let c : CmdSpec := { op := 0x02, fields := [(16, 6, 0), (24, 63, 0)], wait := .fence m [] b t }
    let far : Prop := bit m 3 = true ∧ tbNs b s + 2147483647 < t
    passes c d s = true →
    (i = .fenceExec d words ∧ (bit m 0 = true ∨ m = 0) ∨ i = .fenceFunc d words ∧ bit m 1 = true
      ∨ i = .fenceData d words ∧ bit m 2 = true ∨ i = .fenceTime d words ∧ bit m 3 = true) →
    (m = 0 → refuses i c d .range id s)
    ∧ (m ≠ 0 → far → refuses i c d .tooFar (stopRing f d.ring .tooFar) s)
    ∧ (m ≠ 0 → ¬ far → serves i c d (fun src a =>
      -- F_FUNC reads the doorbell page anew and waits for what it shows
      let e := if bit m 1 = true then takeWords f (words.filter (fun w => decide (w.1.val < 64))) a else a
      let heads := if bit m 1 = true then ((List.range 64).filter (fun r => (ring f r e).en && r != d.ring.val)).map (fun r => (r, (ring f r e).host)) else []
      fences { e with jrnl := { e.jrnl with inflight := e.jrnl.inflight.map (fun p =>
        if p.src.jseq = src.jseq then { p with wait := .fence m heads b t } else p) } }) s))
  ∧ (∀ (p : Pend) (m b t : Nat) (s : State), s.jrnl.inflight = [p] → p.wait = .fence m [] b t →
    let done := completeOnly p.src .ok 0 0 false false s
    (bit m 3 = false ∨ t ≤ tbNs b s → exec .fenceTimeReached s = .next done)
    ∧ (bit m 3 = true → tbNs b s < t → exec .fenceTimeReached s = .next s))
  ∧ (∀ (x p : Pend) (b t : Nat) (s : State), s.jrnl.inflight = [x, p] → p.wait = .fence 1 [] b t →
    (∀ m up b t, x.wait ≠ .fence m up b t) → x.src.func = p.src.func → x.src.ring = p.src.ring → x.src.reg = false →
    x.src.jseq < p.src.jseq → exec .fenceTimeReached s = .next s)
  ∧ (∀ (d : Desc) (span : Fin 100001) (s : State),
    let blocks := bf d 16 7 0
    let size := 64 + 8 * (snapAddrs blocks).length
    let c : CmdSpec := { op := 0x04, fields := [(16, 7, 0), (24, 31, 0), (32, 63, 0)] }
    passes c d s = true →
    (bf d 24 31 0 < size ∨ bf d 32 5 0 ≠ 0 → refuses (.statsSnap d span) c d .range id s)
    ∧ (size ≤ bf d 24 31 0 → bf d 32 5 0 = 0 → serves (.statsSnap d span) c d (fun src a =>
      complete src .ok size (emit (.hostWrite d.func (bf d 32 63 0) (snapBytes blocks span a)) a)) s))
  ∧ (∀ (d : Desc) (s : State),
    let obj := bf d 16 19 0
    let f := d.func.val
    let c : CmdSpec := { op := 0x05, fields := [(16, 31, 28), (16, 19, 0), (32, 63, 0)], badEnc := decide (2 ≤ bf d 16 31 28) }
    let gives (l : List Nat) : Src → State → State := fun src a =>
      complete src .ok 0 (emit (.hostWrite d.func (bf d 32 63 0) ((l.map (leBytes 8)).flatten)) a)
    passes c d s = true →
    (bf d 16 31 28 = 0 →
      (bf d 32 5 0 ≠ 0 ∨ streamAny obj s = none → refuses (.counterReadStream d) c d .range id s)
      ∧ (∀ k x, bf d 32 5 0 = 0 → streamAny obj s = some k → stream k s = some x →
        (f ≠ 0 → ownerOf ⟨2, obj⟩ s ≠ some f → refuses (.counterReadStream d) c d .notOwner id s)
        ∧ (f = 0 ∨ ownerOf ⟨2, obj⟩ s = some f → serves (.counterReadStream d) c d (gives
          ([x.framesTaken, x.batches, x.gated, x.silences, x.shed] ++ (List.range 8).map (fun i => mget 0 x.skipped i) ++ [0, 0, 0])) s)))
    ∧ (bf d 16 31 28 = 1 →
      (bf d 32 5 0 ≠ 0 ∨ 8 ≤ obj → refuses (.counterReadFunction d) c d .range id s)
      ∧ (bf d 32 5 0 = 0 → obj < 8 → f ≠ 0 → obj ≠ f → refuses (.counterReadFunction d) c d .notOwner id s)
      ∧ (bf d 32 5 0 = 0 → obj < 8 → f = 0 ∨ obj = f → serves (.counterReadFunction d) c d (fun src a =>
        gives ((List.range 8).map (fun i => cnt (fnCnt obj i) a) ++ List.replicate 8 0) src a) s)))

/-- R404: JRNL_SYNC is journaled like any command; its sequence number is the journal's head at its acceptance, and its result is the oldest
sequence number that the window of the latest 960 entries (R403) then holds. -/
def Obligations.JournalSync : Prop :=
  ∀ (d : Desc) (s : State),
    let c : CmdSpec := { op := 3, fields := [] }
    let head := s.jrnl.head + 1
    let oldest := if head ≤ 960 then 1 else head - 959
    canServe d s = true → judge c d (fun _ => .ok) s = .ok →
      ∃ t, exec (.jrnlSync d) s = .next t ∧ consumed d s t ∧ entered c d .ok s t ∧ (srcOf 3 d s).jseq = head ∧ t.jrnl.head = head
        ∧ answered c d .ok oldest s t ∧ versioned [] s t ∧ settledTo s t
        ∧ oldest ≤ head ∧ head < oldest + 960 ∧ (1 < oldest → head + 1 = oldest + 960)

/-! ### Spares and repair (14_spares_repair.md) -/

/-- R428, R430–R434, R436–R441, R443, R444, R448, R450: wear readings, CASTLE of each kind and castlings that start of themselves, the steps of a
castling and its commit to the repair map, REPAIR_COMMIT, and the power-loss warning. Choices of the model in it: notes/assumptions/27, 28, 36, 38,
72, 73, 83, 84, 85, 86, 87, 88, 92. -/
def Obligations.Castlings : Prop :=
  (∀ (d : Desc) (s : State),
    let unit := bf d 16 15 0
    let sp := bf d 16 23 16
    let now : Prop := bf d 16 27 27 = 1
    let c (q : Nat) : CmdSpec := specCastle q d
    (bf d 16 31 28 = 0 → passes (c (unit / 48)) d s = true →
      let q := unit / 48
      let named := 48 + sp % 4
      let k := engOf unit s % 64
      let i : Instr := .castleEngine d
      let bad : Prop := 192 ≤ unit ∨ (sp ≠ 255 ∧ (sp / 4 ≠ q ∨ named ∉ freeSpares q s))
      let free : Prop := freeSpares q s ≠ []
      (bad → refuses i (c q) d .range id s)
      ∧ (¬ bad → s.mode.current = .safe ∨ engFrozen (ekey q k) s = true → refuses i (c q) d .mode id s)
      ∧ (¬ bad → s.mode.current ≠ .safe → engFrozen (ekey q k) s = false →
        (¬ free → refuses i (c q) d .noResource id s)
        ∧ (free → (castleOf 0 q s).isSome = true → refuses i (c q) d .busy id s)
        ∧ (free → castleOf 0 q s = none → serves i (c q) d (fun src a =>
          let n := if sp = 255 then (freeSpares q s).headD 48 else named
          putCastle { kind := 0, quadrant := q, unit := unit, old := k, spare := n, orig := k, step := 1, since := a.ticks, src := some src }
            (setEng (ekey q n) (fun _ => { powered := true }) a)) s)))
    ∧ (bf d 16 31 28 = 1 → passes (c 0) d s = true →
      let i : Instr := .castleSteward d
      -- the spare serves already, or a failed verify has retired it
      let used : Prop := bit (reg 0x60400 s) 31 = true ∨ bit (reg (engWear 209) s) 29 = true
      (sp ≠ 255 → refuses i (c 0) d .range id s)
      ∧ (sp = 255 → s.mode.current = .safe → refuses i (c 0) d .mode id s)
      ∧ (sp = 255 → s.mode.current ≠ .safe → used → refuses i (c 0) d .noResource id s)
      ∧ (sp = 255 → s.mode.current ≠ .safe → ¬ used → (castleOf 1 0 s).isSome = true → refuses i (c 0) d .busy id s)
      ∧ (sp = 255 → s.mode.current ≠ .safe → ¬ used → castleOf 1 0 s = none → serves i (c 0) d (fun src a =>
        putCastle { kind := 1, quadrant := 0, unit := 0, old := 0, spare := 1, orig := 0, step := 1, since := a.ticks, src := some src } a) s))
    ∧ (bf d 16 31 28 = 2 → passes (c (bits unit 8 2 / 32)) d s = true →
      let p := bits unit 8 2
      let q := p / 32
      let g := p % 32 / 4
      let pos := bits unit 3 0
      let i : Instr := .castleSlice d
      let shifted := (List.range 4).filterMap (fun j => if pos / 4 ≤ j then some (32 * q + 4 * g + j) else none)
      let calm : Prop := s.mode.current = .calibrate ∧ ∀ x ∈ shifted, s.mode.calSet.getLsbD x = true
      let may : Prop := s.mode.current ≠ .safe ∧ (now ∨ calm)
      (sp ≠ 255 → refuses i (c q) d .range id s) ∧ (sp = 255 → ¬ may → refuses i (c q) d .mode id s)
      ∧ (sp = 255 → may → sliceUsed q g s = true → refuses i (c q) d .noResource id s)
      ∧ (sp = 255 → may → sliceUsed q g s = false → (castleOf 2 q s).isSome = true → refuses i (c q) d .busy id s)
      ∧ (sp = 255 → may → sliceUsed q g s = false → castleOf 2 q s = none → serves i (c q) d (fun src a =>
        let x : Castle := {
          kind := 2, quadrant := q, unit := unit, old := pos, spare := g, orig := pos, step := 3, since := a.ticks, src := some src }
        sliceCommit x (shifted.foldl (fun e y => portRetrain y 2 e) (putCastle x a))) s))
    ∧ (bf d 16 31 28 = 3 → passes (c (bits unit 7 6)) d s = true →
      let st := bits unit 7 6
      let ch := bits unit 4 0
      let i : Instr := .castlePch d
      let bad : Prop := sp ≠ 255 ∧ (sp / 2 ≠ st ∨ sp % 2 ∉ freePchs st s)
      let free : Prop := freePchs st s ≠ []
      (bad → refuses i (c st) d .range id s) ∧ (¬ bad → s.mode.current = .safe → refuses i (c st) d .mode id s)
      ∧ (¬ bad → s.mode.current ≠ .safe →
        (¬ free → refuses i (c st) d .noResource id s)
        ∧ (free → (castleOf 3 st s).isSome = true → refuses i (c st) d .busy id s)
        ∧ (free → castleOf 3 st s = none → serves i (c st) d (fun src a => putCastle {
          kind := 3, quadrant := st, unit := st * 64 + ch, old := ch, spare := if sp = 255 then (freePchs st s).headD 0 else sp % 2
          orig := ch, step := 2, since := a.ticks, src := some src, suspended := ! hbmMode s } a) s))))
  ∧ (∀ (i : Nat) (s : State), centralUp s = true → s.mode.current ≠ .bringup → s.mode.current ≠ .safe →
    -- an engine slot and a bank that wear out, and the first castling that was abandoned
    (∀ q k e n r, i = 52 * q + k → k < 52 → q < 4 → bit (reg 0x60000 s) 31 = true → bit (reg (engWear i) s) 30 = true →
      bit (reg (engWear i) s) 29 = false → (eng (ekey q k) s).logical = some e → engOf e s % 64 = k → castleOf 0 q s = none →
      castleRuns q k s = true → freeSpares q s = n :: r →
      exec (.castleAutoStart false 0 i) s = .next (startEngine e k n k none (fed 0 q e (castleJournal 0 e s))))
    -- the steward that serves
    ∧ (i = 208 + rfld 0x60400 31 31 s → bit (reg 0x60000 s) 30 = true → bit (reg (engWear i) s) 30 = true → bit (reg 0x60400 s) 31 = false →
      bit (reg (engWear 209) s) 29 = false → castleOf 1 0 s = none →
      exec (.castleAutoStart false 1 i) s = .next (startSteward 1 none (fed 1 0 0 (castleJournal 1 0 s))))
    ∧ (∀ k : Fin 5, bit (reg 0x60000 s) (31 - k.val) = false → exec (.castleAutoStart false k i) s = .next s)
    ∧ (∀ k : Fin 5, wearUnit k i s = none → exec (.castleAutoStart false k i) s = .next s)
    ∧ (∀ (k : Fin 5) a, bit (reg 0x60000 s) (31 - k.val) = true → wearUnit k i s = some a →
      exec (.castleAutoStart false k i) s = .next (match autoStart a s with | some t => t | none => s))
    ∧ (∀ (k : Fin 5) a t, s.repair.again[i]? = some a → autoStart a s = some t → (castleOf a.kind a.quadrant t).isSome = true →
      exec (.castleAutoStart true k i) s = .next { t with repair := { t.repair with again := t.repair.again.eraseIdx i } })
    ∧ (∀ k : Fin 5, s.repair.again[i]? = none → exec (.castleAutoStart true k i) s = .next s))
  ∧ (∀ (q : Fin 4) (c : Castle) (s : State), castleOf 0 q s = some c →
    let u : Fin 5 := q.castSucc
    let a := ekey q c.old
    let b := ekey q c.spare
    (∀ passes dirty, c.step < 3 → (eng a s).halted = false → castleRuns q c.old s = true →
      let frozen (k : Nat) (e : State) : State := setEng (ekey q k) (fun x => { x with castleFreeze := true }) e
      let x : Castle := { c with step := 3, since := s.ticks }
      exec (.engineCastleFreeze u passes dirty) s = .next (showAct x passes dirty (putCastle x
        (holdMarks q (frozen c.spare (frozen c.old (markBack a s)))))))
    ∧ (∀ passes dirty, 3 ≤ c.step ∨ (eng a s).halted = true → exec (.engineCastleFreeze u passes dirty) s = .next s)
    ∧ (3 ≤ c.step → c.step < 7 →
      let old := eng a s
      let moved := setEng a (fun x => { x with castleFreeze := false, running := none, tasks := [], tpq := [], logical := none })
        (setEng b (fun _ => { old with castleFreeze := false, powered := true, logical := none }) s)
      let served := resumeMarks q (serveOn c.unit c.spare (copyWindow q c.old c.spare moved))
      let loaned := setRepair (fun r => { r with overLoans := b :: r.overLoans.filter (· ≠ b) }) served
      exec (.engineCastleResume u) s = .next (stopWaitingCancels b (bump (repairCnt 0) (putCastle { c with step := 7, since := s.ticks, l4 := false }
        (if c.l4 = true then engWipe c.unit b loaned else loaned)))))
    ∧ (c.step < 3 ∨ 7 ≤ c.step → exec (.engineCastleResume u) s = .next s)
    ∧ (∀ good, c.step ≠ 7 ∨ s.ticks < c.since + 6250000 → exec (.castleVerifyDone u good) s = .next s)
    ∧ (c.step = 7 → c.since + 6250000 ≤ s.ticks →
      (c.spare ≠ c.orig → exec (.castleVerifyDone u true) s = .next (putCastle { c with step := 8, since := s.ticks } s))
      ∧ (c.spare = c.orig → exec (.castleVerifyDone u true) s = .next (answerCastle c.src .ok (dropCastle c s)))
      ∧ (let failed := setFld (engWear (52 * q + c.spare)) 29 29 1 (bump (repairCnt 6) (answerCastle c.src .fault (dropCastle c s)))
        let next := match freeSpares q failed with | n :: _ => n | [] => c.orig
        c.kind = 0 → c.quadrant = q.val →
          (next ≠ c.spare → exec (.castleVerifyDone u false) s = .next (startEngine c.unit c.spare next c.orig none (castleJournal 0 c.unit failed)))
          ∧ (next = c.spare → exec (.castleVerifyDone u false) s = .next failed))))
  ∧ (∀ (c : Castle) (s : State), castleOf 1 0 s = some c →
    let x (n : Nat) : Castle := { c with step := n, since := s.ticks }
    (∀ passes dirty, c.step < 3 → exec (.engineCastleFreeze 4 passes dirty) s = .next
      (showAct (x 3) passes dirty (putCastle (x 3) { s with repair := { s.repair with paused := true } })))
    ∧ (3 ≤ c.step → c.step < 7 → exec (.engineCastleResume 4) s = .next (bump (repairCnt 0) (putCastle (x 7) (setFld 0x60400 31 31 c.spare
      { s with repair := { s.repair with paused := false }, rst := { s.rst with wdogFrom := s.ticks } }))))
    ∧ (c.step = 7 → c.since + 6250000 ≤ s.ticks →
      (c.spare ≠ c.orig → exec (.castleVerifyDone 4 true) s = .next (putCastle (x 8) s))
      ∧ (c.spare = c.orig → exec (.castleVerifyDone 4 true) s = .next (answerCastle c.src .ok (dropCastle c s)))
      -- a steward that fails its verify is retired, and the one it came from serves again
      ∧ (let failed := setFld (engWear (208 + c.spare)) 29 29 1 (bump (repairCnt 6) (answerCastle c.src .fault (dropCastle c s)))
        (c.orig ≠ c.spare → exec (.castleVerifyDone 4 false) s = .next (startSteward c.orig none (castleJournal 1 0 failed)))
        ∧ (c.orig = c.spare → exec (.castleVerifyDone 4 false) s = .next failed))))
  ∧ (∀ (k : Fin 6) (q : Fin 4) (good : Bool) (c : Castle) (s : State), castleOf k q s = some c →
    let ready : Prop := (k = 2 → sliceUp c s = true) ∧ (k = 3 → c.step = 3) ∧ (k ≠ 2 → k ≠ 3 → c.step = 8)
    let i : Instr := .repairMapCommit k q good
    let e := castleEntry c
    let dst : Nat := if s.repair.copy = some 0 then 1 else 0
    let seq := (s.repair.seq + 1) % 2 ^ 32
    let list := s.repair.entries ++ [e]
    let wrote := writeRecord (mapAt dst) (mapBytes seq list) s
    let counted (t : State) : State := if k = 2 then bump (repairCnt 1) t else t
    -- a castling whose commit fails stays in force, though no record holds it
    let stays (st : Status) (t : State) : State := answerCastle c.src st (bump (repairCnt 9) (dropCastle c (showEntry e.toNat
      { t with repair := { t.repair with live := t.repair.live ++ [e] } })))
    (¬ ready ∨ s.repair.warned.isSome = true ∨ centralUp s = false → exec i s = .next s)
    ∧ (ready → s.repair.warned = none → centralUp s = true →
      (512 ≤ s.repair.entries.length → exec i s = .next (stays .noResource s))
      ∧ (s.repair.entries.length < 512 → good = false →
        exec i s = .next (stays .fault (flErase 0 (mapAt dst) 4096 wrote)))
      ∧ (s.repair.entries.length < 512 → good = true →
        exec i s = .next (answerCastle c.src .ok (dropCastle c (counted (showEntry e.toNat (setFld 0x60004 19 10 list.length (setReg 0x60008 seq
          (setRepair (fun r => { r with copy := some dst, seq := seq, entries := list, map := (applyEntry (r.map, 0) e).1 }) wrote))))))))))
  ∧ (∀ (q : Fin 4) (s : State),
    (∀ c, castleOf 3 q s = some c → c.step = 2 → c.suspended = false →
      exec (.pchEvacDone q) s = .next (bump (repairCnt 2) (putCastle { c with step := 3, since := s.ticks } s)))
    ∧ (∀ c, castleOf 3 q s = some c → c.suspended = true → exec (.pchEvacDone q) s = .next s)
    ∧ (∀ c, castleOf 4 q s = some c → c.step = 1 →
      exec (.bankCastleDone q) s = .next (bump (repairCnt 3) (putCastle { c with step := 8, since := s.ticks } s))))
  ∧ (∀ (q : Fin 4) (link : BitVec 20) (w : Fin 32) (s : State), s.mode.current ≠ .bringup → s.mode.current ≠ .safe →
    let unit := link.toNat * 256 + w.val
    let used : Prop := (∃ e ∈ s.repair.map ++ s.repair.live, bits e.toNat 31 28 = 6 ∧ bits e.toNat 27 8 = link.toNat ∧ bits e.toNat 4 0 = w.val)
      ∨ ∃ c ∈ s.repair.castles, c.kind = 5 ∧ c.unit = unit
    (used → exec (.wireCastle q link w) s = .next { s with repair := { s.repair with
      stopped := (q.val, link.toNat) :: s.repair.stopped.filter (· ≠ (q.val, link.toNat)) } })
    ∧ (¬ used → (castleOf 5 q s).isSome = true → exec (.wireCastle q link w) s = .next s)
    ∧ (¬ used → castleOf 5 q s = none → exec (.wireCastle q link w) s = .next (bump (repairCnt 4) (setReg 0x60600 unit
      (putCastle ⟨5, q, unit, w, 0, w, 8, s.ticks, none, false, false⟩ (castleJournal 5 unit s))))))
  ∧ (∀ (d : Desc) (s : State),
    let n := bf d 16 8 0
    let c : CmdSpec := { op := 0x62, group := some 5, objs := [⟨12, 0⟩], fields := [(16, 8, 0)] }
    passes c d s = true →
    (s.repair.entries.length ≤ n → refuses (.repairCommit d) c d .range id s)
    ∧ (n < s.repair.entries.length → 64 ≤ s.fuses.repair.length → refuses (.repairCommit d) c d .noResource id s)
    ∧ (∀ e, s.repair.entries[n]? = some e → s.fuses.repair.length < 64 → serves (.repairCommit d) c d (fun src a => complete src .ok 0
      (setFld 0x60004 26 20 (a.fuses.repair.length + 1) { a with fuses := { a.fuses with repair := a.fuses.repair ++ [e] } })) s))
  ∧ (∀ s : State, centralUp s = true →
    (s.repair.warned = none → exec .powerWarning s = .next
      (attnRaise 4 (setFld 0x60004 27 27 1 { s with repair := { s.repair with warned := some s.ticks } })))
    ∧ (∀ k, s.repair.warned = some k → exec .powerWarning s = .next s
      ∧ (s.ticks ≤ k + 6250000 → exec .powerWarningClear s = .next (flashBegin { s with repair := { s.repair with warned := none } }))
      ∧ (k + 6250000 < s.ticks → exec .powerWarningClear s = .next s))
    ∧ (s.repair.warned = none → exec .powerWarningClear s = .next s))
  ∧ (∀ (i : Nat) (v : Nat) (rep : Bool) (s : State), centralUp s = true →
    let warns (t : State) : State := attnRaise 3 (setFld 0x60004 28 28 1 t)
    let put (a : Nat) (v : Nat) (w sch : Prop) [Decidable w] [Decidable sch] : State :=
      let t := setFld a 15 0 v s
      let t := if w then warns (setFld a 31 31 1 t) else t
      if sch then setFld a 30 30 1 t else t
    exec (.wearAverage []) s = .next s
    ∧ (i < 210 → slotMeasures i s = true → exec (.wearAverage [.slot i v]) s = .next
      (put (engWear i) v (rfld 0x60010 31 16 s < v) (rfld 0x60010 15 0 s < v)))
    ∧ (i < 208 → slotMeasures i s = true → exec (.wearAverage [.store i v rep]) s = .next
      (if 500 < v ∨ rep = true then setFld (engWear i) 30 30 1 s else s))
    ∧ (i < 306 → 272 ≤ i ∨ quadGated (i / 68) s = false → exec (.wearAverage [.bank i v rep]) s = .next
      (put (bankWear i) (min 65535 v) (rfld 0x6001C 31 16 s < v) (rfld 0x6001C 15 0 s < v ∨ rep = true)))
    ∧ (80 < v → exec (.wearAverage [.wire v]) s = .next (warns s)) ∧ (v ≤ 80 → exec (.wearAverage [.wire v]) s = .next s)
    ∧ (∀ i : Fin 544, quadGated (i.val / 136) s = false →
      let t := setFld (laneWear i) 7 0 v s
      let t := if v < rfld 0x60014 31 16 s then warns (setFld (laneWear i) 31 31 1 t) else t
      exec (.laneEyeMeasure i v) s = .next (if v < rfld 0x60014 15 0 s then setFld (laneWear i) 30 30 1 t else t)))

/-! ### Rails, flash and firmware (13_fabric_pace.md, 16_serial_port.md) -/

/-- R37, R417–R421: a period of the pace controller, the voltage that its loop asks for next, its start, and a rail set by hand. Choices of the model in it:
notes/assumptions/78, 79, 80, 81. -/
def Obligations.PaceLoop : Prop :=
  (∀ (low : BitVec 5) (bus : List TwTry) (s : State),
    let due : Prop := paceEn s = true ∧ s.pace.last + 625 * rfld 0x50000 15 0 s ≤ s.ticks ∧ s.mode.current ≠ .bringup
    let a : State := { s with pace := { s.pace with last := s.ticks } }
    (¬ due → exec (.pacePeriod low bus) s = .next s)
    ∧ (due → exec (.pacePeriod low bus) s = .next ((List.range 3).foldl monPeriod
      (((List.range 5).filter (fun r => decide (railAddr r s ≠ 0))).foldl (railPeriod (fun r => low.getLsbD r)) (bus, a))).2))
  ∧ (∀ (v quiet b hi lo : Nat) (skip : Bool),
    railDecide v quiet b hi lo true skip = (v + 40, 0, some 3) ∧ railDecide v quiet b hi lo false true = (v + 40, 0, some 2)
    ∧ (hi * 1000 < b → railDecide v quiet b hi lo false false = (v + 20, 0, some 0))
    ∧ (b ≤ hi * 1000 → b < lo * 1000 → 3 ≤ quiet → railDecide v quiet b hi lo false false = (v - 10, 0, some 1))
    ∧ (b ≤ hi * 1000 → b < lo * 1000 → quiet < 3 → railDecide v quiet b hi lo false false = (v, quiet + 1, none))
    ∧ (b ≤ hi * 1000 → lo * 1000 ≤ b → railDecide v quiet b hi lo false false = (v, 0, none)))
  ∧ (∀ (s : State) (r : Nat), s.mode.current ≠ .vigil →
    (railBounds r s).2 = railVmax r s ∧ (r < 4 → (railBounds r s).1 = max (railVmin r s) (if bit (reg 0x50000 s) 30 = true then 700 else 600)))
  -- VCOREC while a fast condition is enabled, in the loop and in what it asks for again (R37)
  ∧ (∀ (s : State) (v : Nat), anyFast s = true → railFloor 4 v s = max v 700
    ∧ (s.mode.vigilQ < 4 → 700 ≤ (railBounds 4 s).1))
  -- what a mode makes of a rail under the loop: Safe holds it at 700 mV or more, Vigil a gated quadrant's at its least (R420)
  ∧ (∀ (s : State) (r : Nat),
    let looped : Prop := bit (reg 0x50000 s) 31 = true ∧ railAddr r s ≠ 0 ∧ railAuto r s = true ∧ (rail r s).exp.isSome = true ∧ (rail r s).lost = false
    let gated : Prop := s.mode.current = .vigil ∧ r < 4 ∧ r ≠ s.mode.vigilQ
    (¬ looped → railMode s r = s)
    ∧ (s.mode.current ≠ .safe → ¬ gated → railMode s r = s)
    ∧ (looped → s.mode.current = .safe → railMode s r = if railCur r s < 700 then railForce r 700 s else s)
    ∧ (looped → gated → railMode s r = if railCur r s ≠ railVmin r s then railForce r (railVmin r s) s else s))
  ∧ (∀ who (v : Word) (bus : List TwTry) (s : State),
    let put (a : Nat) : State := let t := putReg a v s; { t with flash := { t.flash with dirty := some s.ticks } }
    (writesOk who 0x50000 v s = true → v.getLsbD 31 = true →
      (bit (reg 0x50000 s) 31 = false → exec (.paceEnable who v bus) s = .next ((List.range 5).foldl railMode (paceStart bus (put 0x50000))))
      ∧ (bit (reg 0x50000 s) 31 = true → exec (.paceEnable who v bus) s = .next (put 0x50000)))
    ∧ (∀ r : Fin 5, writesOk who (railBase r + 8) v s = true →
      let t := put (railBase r + 8)
      let least := if r = 4 ∧ anyFast t = true then max (railVmin r t) 700 else railVmin r t
      let mv := max least (min (railVmax r t) (v.toNat % 1024))
      ((rail r s).exp = none → exec (.railSet who r v bus) s = .next t)
      ∧ (∀ e, (rail r s).exp = some e →
        (∀ k b u, railTrans r 0x21 (some (linOf e mv)) bus t = (some k, b, u) → exec (.railSet who r v bus) s = .next (setFld (railBase r + 0xC) 25 16 mv u))
        ∧ (∀ b u, railTrans r 0x21 (some (linOf e mv)) bus t = (none, b, u) → exec (.railSet who r v bus) s = .next u))))

/-- R389, R394, R450, R474, R475, R478, R492–R494, R496–R498: writes, erases, images and switches of firmware, the steps of the flash as they end well,
badly or late, and the configuration record. Choices of the model in it: notes/assumptions/27, 28, 72, 73, 74, 75, 76, 98, 104. -/
def Obligations.FlashAndFirmware : Prop :=
  (∀ (d : Desc) (l : List Byte) (s : State),
    let cs := bf d 16 1 0
    let off := bf d 20 31 0
    let n := bf d 24 31 0
    let crc := crc32c (l.map (·.toNat))
    let c : CmdSpec := {
      op := 0x63, group := some 5, objs := [⟨13, cs⟩], dataCrc := crc, wait := .flash
      fields := [(16, 1, 0), (20, 31, 0), (24, 31, 0), (32, 63, 0)] }
    let fits : Prop := 1 ≤ n ∧ n ≤ 2 ^ 24 ∧ off + n ≤ 2 ^ rfld 0x40104 31 24 s ∧ (cs = 0 → 0x01100000 ≤ off)
    let busy : Prop := s.repair.warned.isSome = true ∨ s.flash.jobs ≠ []
    passes c d s = true →
    (¬ fits → refuses (.flashWrite d (some l)) c d .range id s) ∧ (fits → busy → refuses (.flashWrite d (some l)) c d .busy id s)
    ∧ (fits → ¬ busy → serves (.flashWrite d (some l)) c d (fun src a =>
      flashAdd ⟨.write, pageSteps cs (2 ^ rfld 0x40104 23 16 s) n off ((l.map (·.toNat)).take n), some src⟩ a) s))
  ∧ (∀ (d : Desc) (s : State),
    let cs := bf d 16 1 0
    let off := bf d 20 31 0
    let size := bf d 16 9 8
    let n : Nat := if size = 0 then 4096 else if size = 1 then 32768 else 65536
    let op (a : State) : Nat := if size = 0 then rfld 0x40108 31 24 a else if size = 1 then rfld 0x40108 23 16 a else rfld 0x40108 15 8 a
    let c : CmdSpec := {
      op := 0x64, group := some 5, objs := [⟨13, cs⟩], badEnc := decide (size = 3), wait := .flash
      fields := [(16, 9, 8), (16, 1, 0), (20, 31, 0)] }
    let fits : Prop := off % n = 0 ∧ off + n ≤ 2 ^ rfld 0x40104 31 24 s ∧ (cs = 0 → 0x01100000 ≤ off)
    let busy : Prop := s.repair.warned.isSome = true ∨ s.flash.jobs ≠ []
    passes c d s = true →
    (¬ fits → refuses (.flashErase d) c d .range id s) ∧ (fits → busy → refuses (.flashErase d) c d .busy id s)
    ∧ (fits → ¬ busy → serves (.flashErase d) c d (fun src a =>
      if op a = 0 then complete src .fault 0 a else flashAdd ⟨.erase, [.erase cs off n], some src⟩ a) s))
  ∧ (∀ (d : Desc) (l : List Byte) (s : State),
    let n := bf d 24 31 0
    let c : CmdSpec := {
      op := 0x65, group := some 5, objs := [⟨14, 0⟩], dataCrc := crc32c (l.map (·.toNat)), wait := .flash, fields := [(24, 31, 0), (32, 63, 0)] }
    let staging : Prop := ∃ j ∈ s.flash.jobs, ∃ slot k, j.work = .stage slot k
    passes c d s = true →
    (n < 576 ∨ 6291968 < n → refuses (.fwStage d (some l)) c d .range id s)
    ∧ (576 ≤ n → n ≤ 6291968 → staging → refuses (.fwStage d (some l)) c d .busy id s)
    ∧ (576 ≤ n → n ≤ 6291968 → ¬ staging → serves (.fwStage d (some l)) c d (fun src a =>
      let slot := 1 - a.rst.bootSlot
      flashAdd ⟨.stage slot n, eraseSteps 0 (slot * 0x800000) n
        ++ pageSteps 0 (2 ^ rfld 0x40104 23 16 s) n (slot * 0x800000) ((l.map (·.toNat)).take n), some src⟩
        { a with flash := { a.flash with staged := none } }) s))
  ∧ (∀ (d : Desc) (s : State), passes specFwSwitch d s = true →
    -- the record's new copy passes its check, or does not
    ∀ good : Bool,
    let i : Instr := if bf d 16 0 0 = 0 then .fwSwitchNextBoot ⟨d, good⟩ else .fwSwitchLive ⟨d, good⟩
    let ends (a : State) : Status := if good = true ∧ 25 ≤ rfld 0x40104 31 24 a then .ok else .fault
    (s.flash.staged = none → refuses i specFwSwitch d .range id s)
    ∧ (∀ slot, s.flash.staged = some slot →
      (bf d 16 0 0 = 0 → serves i specFwSwitch d (fun src a => complete src (ends a) 0 (recordWrite a.flash.epoch slot good a)) s)
      ∧ (bf d 16 0 0 = 1 → serves i specFwSwitch d (fun src a =>
        let b := recordWrite a.flash.epoch slot good a
        complete src (ends a) 0 (setReg 0x4 (leNat (flRead 0 (slot * 0x800000 + 8) 4 a)) { b with rst := { b.rst with wdogFrom := a.ticks } })) s)))
  ∧ (∀ (j : FlashJob) (st : FlashStep) (rest : List FlashJob) (more : List FlashStep) (s : State),
    s.flash.jobs = j :: rest → j.steps = st :: more →
    let issued (cs op off : Nat) (l : List Nat) : State := flashShow (emit (.flash cs op (some off) l) (emit (.flash cs 0x06 none [])
      { s with flash := { s.flash with wip := some s.ticks, polled := s.ticks } }))
    (∀ cs off l, st = .program cs off l → s.flash.wip = none → (spi 0 s).xfer = none → s.repair.warned = none → centralUp s = true →
      exec .flashPageFlush s = .next (issued cs (rfld 0x40100 7 0 s) off l))
    ∧ (∀ cs off l, st = .program cs off l → s.flash.wip = none → s.repair.warned.isSome = true → exec .flashPageFlush s = .next s)
    -- an erase begins at once: Write Enable, then the opcode of its size
    ∧ (∀ cs off n, st = .erase cs off n → s.flash.wip = none → (spi 0 s).xfer = none → s.repair.warned = none → flashBegin s =
      issued cs (if n = 4096 then rfld 0x40108 31 24 s else if n = 32768 then rfld 0x40108 23 16 s else rfld 0x40108 15 8 s) off [])
    -- a raw transfer and the window's operations wait for each other
    ∧ ((spi 0 s).xfer.isSome = true → exec .flashPageFlush s = .next s ∧ flashBegin s = flashShow s)
    ∧ ((spi 0 s).waits = none → flashFree s = flashBegin s)
    ∧ (∀ cmd, (spi 0 s).waits = some cmd → flashFree s = flashShow (spiGo 0 cmd (setSpi 0 (fun x => { x with waits := none }) s)))
    ∧ (s.flash.wip.isSome = true → exec .flashPageFlush s = .next s)
    ∧ (s.flash.wip = none ∨ s.ticks < s.flash.polled + 625 * rfld 0x40110 9 0 s → ∀ busy, exec (.flashStatusPoll busy) s = .next s)
    ∧ (s.flash.wip.isSome = true → s.flash.polled + 625 * rfld 0x40110 9 0 s ≤ s.ticks → centralUp s = true →
      let cs := match st with | .erase cs _ _ => cs | .program cs _ _ => cs
      let asked : State := emit (.flash cs 0x05 none []) { s with flash := { s.flash with polled := s.ticks } }
      let did := match st with | .erase cs off n => flErase cs off n asked | .program cs off l => flProgram cs off l asked
      exec (.flashStatusPoll true) s = .next asked
      ∧ (more ≠ [] → exec (.flashStatusPoll false) s = .next (flashFree { did with flash := { did.flash with
          wip := none, jobs := { j with steps := more } :: rest } }))
      ∧ (more = [] →
        let ended : State := { did with flash := { did.flash with wip := none, jobs := rest } }
        (∀ src, j.src = some src → (j.work = .write ∨ j.work = .erase) → exec (.flashStatusPoll false) s = .next (flashFree (complete src .ok 0 ended)))
        -- an erase that SPI0_ERASE started answers nobody
        ∧ (j.src = none → j.work = .erase → exec (.flashStatusPoll false) s = .next (flashFree ended))
        ∧ (∀ src slot k, j.src = some src → j.work = .stage slot k →
          exec (.flashStatusPoll false) s = .next (flashFree (if imageVerify slot ended = true
            then complete src .ok 0 { ended with flash := { ended.flash with staged := some slot } }
            else complete src .fault 0 { ended with flash := { ended.flash with staged := none } })))))
    ∧ (∀ k, s.flash.wip = some k →
      let ms := match st with | .program _ _ _ => rfld 0x4010C 31 20 s | .erase _ _ _ => rfld 0x4010C 19 4 s
      let hit := match st with | .erase cs off n => flScramble cs off n s | .program cs off l => flScramble cs off l.length s
      let t : State := { hit with flash := { hit.flash with wip := none, jobs := rest } }
      (s.ticks < k + 625000 * ms → exec .flashOpTimeout s = .next s)
      ∧ (k + 625000 * ms ≤ s.ticks → exec .flashOpTimeout s = .next (flashFree (setFld 0x40114 29 29 1
        (match j.src with | some src => complete src .fault 0 t | none => t))))))
  ∧ (∀ (good : Bool) (s : State),
    let area : Prop := 25 ≤ rfld 0x40104 31 24 s
    let dst : Nat := if s.flash.copy = some 0 then 1 else 0
    let seq := (s.flash.seq + 1) % 2 ^ 32
    let record (epoch : Nat) : State :=
      let t := writeRecord (configAt dst) (configBytes seq epoch s.flash.pref s) s
      { t with flash := { t.flash with copy := some dst, seq := seq, epoch := epoch, dirty := none } }
    let failed := flErase 0 (configAt dst) 4096 (writeRecord (configAt dst) (configBytes seq (if s.flash.epochWait = true then s.jrnl.epoch
      else s.flash.epoch) s.flash.pref s) s)
    let waits (t : State) : State := { t with flash := { t.flash with epochWait := false } }
    (s.repair.warned.isSome = true ∨ centralUp s = false → exec (.configRecordRewrite good) s = .next s)
    ∧ (s.repair.warned = none → centralUp s = true →
      (∀ k, s.flash.epochWait = false → s.flash.dirty = some k → k + 6250000000 ≤ s.ticks → area →
        exec (.configRecordRewrite true) s = .next (record s.flash.epoch) ∧ exec (.configRecordRewrite false) s = .next failed)
      ∧ (∀ k, s.flash.epochWait = false → s.flash.dirty = some k → s.ticks < k + 6250000000 → exec (.configRecordRewrite good) s = .next s)
      ∧ (s.flash.epochWait = false → s.flash.dirty = none → exec (.configRecordRewrite good) s = .next s)
      ∧ (s.flash.epochWait = true → area →
        exec (.configRecordRewrite true) s = .next (waits (record s.jrnl.epoch))
        ∧ exec (.configRecordRewrite false) s = .next (setFld 0x40114 27 27 1 (waits failed)))
      ∧ (s.flash.epochWait = true → ¬ area → exec (.configRecordRewrite good) s = .next (setFld 0x40114 27 27 1 (waits s)))))

/-! ### Resets and bring-up (15_reset_bringup.md) -/

/-- R456, R459–R467, R469, R471: the sources of a reset and what each asks for, how a request meets a running reset, what L0 and L1 clear and keep, the
end of what holds a reset, and the release of its domains one by one. Choices of the model in it: notes/assumptions/2, 24, 28, 82, 93, 94, 96, 97,
99, 102. -/
def Obligations.ResetsAndBringUp : Prop :=
  (∀ (s : State),
    let req (i : Instr) (level cause : Nat) (h : HoldBy) (a : State) : Prop := exec i s = .next (resetRequest ⟨level, 0, cause, h⟩ a)
    let filter := filterUs s
    let sysLow : State := { s with rst := { s.rst with sysrstLow := true } }
    let perstLow : State := { s with rst := { s.rst with perstLow := true } }
    let off : State := { s with rst := { s.rst with powered := false } }
    (s.rst.powered = true →
      req .brownOut 0 1 .power off ∧ req .powerFail 0 0 .power off ∧ req .jtagDevrst (mapLevel 1 0 false s) 8 .minimum s
      ∧ (s.host.linkUp = true → req .hotReset (mapLevel 2 3 false s) 4 .minimum s)
      ∧ (∀ us, filter ≤ us → req (.sysrstAssert us) (mapLevel 1 5 false s) 2 .sysrst sysLow
        ∧ req (.perstAssert us) (mapLevel 2 4 false s) 3 .perst perstLow)
      ∧ (∀ us, us + 1 < filter → exec (.sysrstAssert us) s = .next (bump (rstCnt 7) s) ∧ exec (.perstAssert us) s = .next (bump (rstCnt 7) s))
      -- a pulse between the filter's two bounds asserts the reset or does not: a free value
      ∧ (∀ us, us + 1 = filter →
        let f := takeFree s
        (f.1.getLsbD 0 = true → exec (.sysrstAssert us) s = .next (resetRequest ⟨mapLevel 1 5 false s, 0, 2, .sysrst⟩
          { f.2 with rst := { f.2.rst with sysrstLow := true } }))
        ∧ (f.1.getLsbD 0 = false → exec (.sysrstAssert us) s = .next (bump (rstCnt 7) f.2)))
      ∧ (∀ temp : Int, (Config.tripTemp : Int) ≤ temp → req (.thermalTrip temp) (mapLevel 1 1 true s) 7 .thermal
        { s with mode := { s.mode with hottest := temp } }))
    ∧ (s.rst.powered = false → exec .brownOut s = .next s ∧ exec .powerFail s = .next s ∧ exec .jtagDevrst s = .next s ∧ exec .hotReset s = .next s
      ∧ ∀ us, exec (.sysrstAssert us) s = .next s ∧ exec (.perstAssert us) s = .next s)
    ∧ (
      let expired : Prop := s.rst.wdogOn = true ∧ s.rst.wdogFrom + 625000000 ≤ s.ticks ∧ ¬ ∃ c ∈ s.repair.castles, c.kind = 1 ∧ 3 ≤ c.step ∧ c.step ≤ 5
      (expired → req .watchdogExpire (mapLevel 1 2 true s) 6 .minimum s) ∧ (¬ expired → exec .watchdogExpire s = .next s))
    ∧ (∀ who,
      let asks (i : Instr) (level t v : Nat) : Prop := writesOk who 0x1008 (BitVec.ofNat 32 v) s = true →
        exec i s = .next (resetRequest ⟨level, t, 10, .minimum⟩ (putReg 0x1008 (BitVec.ofNat 32 v) s))
      asks (.rstSwL1 who) 1 0 0x10000000 ∧ asks (.rstSwL2 who) 2 0 0x20000000
      ∧ ∀ t : BitVec 8, asks (.rstSwL3 who t) 3 (t.toNat + 1) (0x30000000 + t.toNat) ∧ asks (.rstSwL4 who t) 4 (t.toNat + 1) (0x40000000 + t.toNat)))
  ∧ (∀ (r : ResetReq) (s : State), r.level ≤ 4 →
    let noted : State := { s with rst := { s.rst with
      cause := s.rst.cause ||| 2 ^ r.cause
      flr := if r.cause = 5 then s.rst.flr ||| 2 ^ (r.target - 1) else s.rst.flr
      l3 := if r.level = 3 then s.rst.l3 ||| 2 ^ (r.target - 1) else s.rst.l3 } }
    let asserted (h : HoldBy) (a : State) : State :=
      let b := rstClear r.level r.target r.cause a
      { b with rst := { b.rst with
        cause := if r.level = 0 then 2 ^ r.cause else b.rst.cause
        cur := some ⟨r.level, r.target, r.cause, some h, domains r.level r.target, b.ticks, b.ticks⟩
        level := r.level, wdogOn := b.rst.wdogOn && decide (2 ≤ r.level) } }
    (s.rst.cur = none → resetRequest r s = asserted r.hold noted)
    ∧ (∀ c : Reset, s.rst.cur = some c →
      let above : Prop := r.level < c.level ∨ (r.level = c.level ∧ r.target = c.target)
      (¬ above → resetRequest r s = { noted with rst := { noted.rst with held := noted.rst.held ++ [r] } })
      ∧ (above → (r.level = c.level ∨ contained c.level c.target r.level r.target = true) →
        resetRequest r s = bump (rstCnt 6) (asserted (joinHold r.hold c.hold) noted))
      ∧ (r.level < c.level → contained c.level c.target r.level r.target = false → resetRequest r s = bump (rstCnt 6)
        (asserted (joinHold r.hold c.hold) { noted with rst := { noted.rst with
          held := ⟨c.level, c.target, c.cause, .minimum⟩ :: noted.rst.held } }))))
  ∧ (∀ (level cause : Nat) (s : State), level ≤ 1 →
    let t := rstClear level 0 cause s
    t.mode.current = .bringup ∧ t.engines = [] ∧ t.ports = [] ∧ t.streams = [] ∧ t.bufs = [] ∧ t.msgs = [] ∧ t.gapLog = []
    ∧ t.jrnl.inflight = [] ∧ t.jrnl.entries = [] ∧ t.spis = [] ∧ t.fuses = s.fuses ∧ t.pending = s.pending ∧ t.ticks = s.ticks
    ∧ t.flash.jobs = [] ∧ (∀ f < 8, (fn f t).rings = [] ∧ (fn f t).epoch = (fn f s).epoch + 1)
    ∧ (level = 1 → t.repair.map = s.repair.map ∧ t.repair.entries = s.repair.entries ∧ t.mode.cause = s.mode.cause ∧ t.mode.calSet = s.mode.calSet)
    ∧ (level = 0 → t.regs = [] ∧ t.repair.map = []))
  -- a quadrant's reset, and one engine's
  ∧ (∀ (q : Fin 4) (cause : Nat) (s : State),
    let t := rstClear 3 (q + 1) cause s
    (∀ x ∈ t.streams, x.1 / 16384 ≠ q.val) ∧ (∀ x ∈ t.engines, x.1 / 64 ≠ q.val) ∧ (∀ x ∈ t.ports, x.1 / 32 ≠ q.val)
      ∧ (∀ x ∈ t.bufs, hQuad x.1 ≠ q.val) ∧ (∀ x ∈ t.trig.taQueue, x.left ≠ [] ∧ q.val ∉ x.left)
      ∧ (∀ l < 32, (ptp (32 * q + l) t).state = .initializing))
  ∧ (∀ (e : Fin 192) (cause : Nat) (s : State),
    let t := rstClear 4 (e + 1) cause s
    let k := engOf e s
    let base := engBase (k / 64) (k % 64)
    (castleOf 0 (e / 48) s = none →
      (eng k t).tasks = [] ∧ (eng k t).running = none ∧ (eng k t).halted = false ∧ (∀ v ∈ (eng k t).vec, v.1 < 128)
      ∧ (∀ a, base ≤ a → a < base + 0x400 → reg a t = reg a State.reset ∧ cnt a t = 0) ∧ (∀ i < 16, objVer ⟨4, 16 * e + i⟩ t = 0))
    -- while a castling holds the engine it waits for the resume
    ∧ (∀ c, castleOf 0 (e / 48) s = some c → c.unit = e.val → 3 ≤ c.step → c.step ≤ 6 → t = putCastle { c with l4 := true } s))
  ∧ (∀ (c : Reset) (s : State), s.rst.cur = some c →
    -- what still holds the reset once its condition has ended (R465)
    let next : Option HoldBy :=
      if s.rst.sysrstLow = true ∧ c.level ≤ mapLevel 1 5 false s then some .sysrst
      else if s.rst.perstLow = true ∧ c.level ≤ mapLevel 2 4 false s then some .perst else none
    let ends (a : State) (h : Option HoldBy) : State := { a with rst := { a.rst with cur := some { c with hold := h, since := s.ticks, began := s.ticks } } }
    (c.hold = some .power → exec .powerOnReset s = .next (ends { s with rst := { s.rst with powered := true, cause := s.rst.cause ||| 2 ^ c.cause } } next))
    ∧ (c.hold ≠ some .power → exec .powerOnReset s = .next s)
    ∧ (∀ us, us < filterUs s → exec (.sysrstRelease us) s = .next s ∧ exec (.perstRelease us) s = .next s)
    ∧ (∀ us, filterUs s ≤ us →
      let high : State := { s with rst := { s.rst with sysrstLow := false } }
      let high2 : State := { s with rst := { s.rst with perstLow := false } }
      (c.hold = some .sysrst → exec (.sysrstRelease us) s = .next (ends high
        (if s.rst.perstLow = true ∧ c.level ≤ mapLevel 2 4 false s then some .perst else none)))
      ∧ (c.hold ≠ some .sysrst → exec (.sysrstRelease us) s = .next high)
      ∧ (c.hold = some .perst → exec (.perstRelease us) s = .next (ends high2
        (if s.rst.sysrstLow = true ∧ c.level ≤ mapLevel 1 5 false s then some .sysrst else none)))
      ∧ (c.hold ≠ some .perst → exec (.perstRelease us) s = .next high2))
    ∧ (∀ temp : Int,
      let cool : State := { s with mode := { s.mode with hottest := temp } }
      ((Config.tripTemp : Int) - 10 < temp → exec (.thermalTripRelease temp) s = .next s)
      ∧ (temp ≤ (Config.tripTemp : Int) - 10 → c.hold ≠ some .thermal → exec (.thermalTripRelease temp) s = .next cool)
      ∧ (temp ≤ (Config.tripTemp : Int) - 10 → c.hold = some .thermal → exec (.thermalTripRelease temp) s = .next (ends cool next)))
    ∧ (∀ (sfdp : Option Sfdp) (bus : List TwTry),
      let i : Instr := .bringupReleaseStep sfdp bus
      (c.hold = some .minimum → c.since + 6250 ≤ s.ticks → exec i s = .next (ends s next))
      ∧ (c.hold = some .minimum → s.ticks < c.since + 6250 → exec i s = .next s)
      ∧ (∀ h, c.hold = some h → h ≠ .minimum → exec i s = .next s)
      ∧ (c.hold = none → s.rst.bootFail = true → c.level ≤ 1 → 2 ∉ c.todo → exec i s = .next s)
      ∧ (c.hold = none → (s.rst.bootFail = true → c.level ≤ 1 → 2 ∈ c.todo) →
        (c.todo = [] → exec i s = .next (serveHeld c (bringupEnd c bus s)))
        ∧ (∀ d rest, c.todo = d :: rest →
          let first : Prop := c.todo.length = (domains c.level c.target).length
          let gap := 625 * (if s.fuses.rstTiming / 256 % 4096 = 0 then 100 else s.fuses.rstTiming / 256 % 4096)
          let out := release c d sfdp { s with rst := { s.rst with cur := some { c with todo := rest, since := s.ticks } } }
          (¬ first → s.ticks < c.since + gap → exec i s = .next s)
          ∧ (first ∨ c.since + gap ≤ s.ticks → rest ≠ [] → exec i s = .next out)
          ∧ (first ∨ c.since + gap ≤ s.ticks → rest = [] → exec i s = .next (serveHeld c (bringupEnd c bus out)))))))
  -- what holds the pins until their blocks configure them, and what a PCIe configuration request meets (R45, R476, R479)
  ∧ (∀ s : State,
    (configRetry s = true ↔ s.mode.current = .bringup)
    ∧ (s.rst.powered = false ∨ s.rst.sysrstLow = true ∨ domHeld 2 s = true → pinState (.spi 0) s = .pulledUp)
    ∧ (bit (reg (spiBase 1) s) 31 = false → pinState (.spi 1) s = .pulledUp)
    ∧ (∀ k : Fin 8, bit (reg 0x44004 s) (8 + k.val) = false → pinState (.tmr k) s = .pulledUp)
    ∧ (∀ k : Fin 8, bit (reg (trigOutBase k) s) 31 = false → pinState (.trigout k) s = .zeroDiff)
    ∧ (∀ k : Fin 4, bit (reg (synBase k) s) 31 = false → pinState (.refout k) s = .zeroDiff)
    ∧ (bit (reg 0x12400 s) 31 = false → pinState .ppsout s = .pulledUp)
    ∧ (s.rst.powered = false ∨ domHeld 11 s = true → pinState .clkreq s = .released)
    ∧ (∀ k : Fin 128, portsUp (k.val / 32) s = false → pinState (.serdes k) s = .idle))

/-! ### Serial ports (16_serial_port.md) -/

/-- R486, R487, R500–R503, R517, R538: transfers of a controller with what the FIFOs allow, pushes, pops, flushes and the end of a port; a target's
words, selects and busy bytes, and the management frames that the steward reads from it. Choices of the model in it: notes/assumptions/2, 28, 70,
71, 133, 135, 140. -/
def Obligations.SerialPorts : Prop :=
  (∀ (who : Requester) (n : Fin 2) (v : Word) (s : State),
    let base := spiBase n
    let p := spi n s
    let dly := reg (base + 0xC) s
    let len := rfld (base + 8) 12 0 s
    (writesOk who (base + 0x10) v s = true →
      let a := putReg (base + 0x10) v s
      let cs := bits v.toNat 25 24
      let half := (if p.sel = some cs then 0 else bits dly 23 16) + 2 * (len / spiLines n s) + bits dly 15 8
      (v.getLsbD 31 = false → exec (.spiTransfer who n v) s = .next s)
      ∧ (v.getLsbD 31 = true → (spiEn n s = false ∨ spiTarget n s = true) → exec (.spiTransfer who n v) s = .next a)
      -- a transfer on the flash's port waits for the operation in progress there
      ∧ (v.getLsbD 31 = true → spiEn n s = true → spiTarget n s = false → n = 0 → s.flash.wip.isSome = true →
        exec (.spiTransfer who n v) s = .next (setSpi 0 (fun x => { x with waits := some v.toNat }) a))
      ∧ (v.getLsbD 31 = true → spiEn n s = true → spiTarget n s = false → (n = 0 → s.flash.wip = none) →
        exec (.spiTransfer who n v) s = .next (setSpi n (fun x => { x with
          sel := some cs
          xfer := some ⟨cs, len, v.getLsbD 30, v.getLsbD 29, v.getLsbD 28, max s.ticks p.gapEnd + sckTicks n half s⟩ }) a)))
    ∧ (writesOk who (base + 0x18) v s = true → exec (.spiTxPush who n v) s = .next (
      let a := putReg (base + 0x18) v s
      if p.tx.length < 64 then setSpi n (fun x => { x with tx := x.tx ++ [v.toNat] }) a else a))
    ∧ (writesOk who base v s = true →
      let a := putReg base v s
      let off : Prop := spiEn n s = true ∧ v.getLsbD 31 = false
      let stopped := setSpi n (fun x => { x with
        tx := [], rx := [], flushed := true, frame := [], xfer := none, sel := none, selected := false, waits := none }) a
      let b := if spiEn n s = true ∧ v.getLsbD 31 = false then (if n = 0 then flashBegin stopped else stopped) else a
      let c := if v.getLsbD 26 = true then setSpi n (fun x => { x with rx := [], flushed := true, frame := [] }) b else b
      let d := if v.getLsbD 25 = true then setSpi n (fun x => { x with tx := [] }) c else c
      exec (.spiTxFlush who n v) s = .next (if v.getLsbD 25 = true then d else s)
      ∧ exec (.spiRxFlush who n v) s = .next (if v.getLsbD 26 = true then d else s)
      ∧ exec (.spiDisable who n v) s = .next (if v.getLsbD 31 = true then s else d)
      ∧ (off → (spi n d).tx = [] ∧ (spi n d).rx = [] ∧ (spi n d).xfer = none ∧ (spi n d).sel = none))
    ∧ (ofsFor who (base + 0x1C) ≠ none → who ≠ .tw0 → reaches who s = true → blockHeld (base + 0x1C) s = false →
      mfind s.rdLatch (latchAt who (base + 0x1C)) = none →
      let answer (x : Nat) (t : State) : State := emit (.readData who (base + 0x1C) (BitVec.ofNat 32 x)) t
      let info (x : Nat) (t : State) : State := setReg (base + 0x20) x t
      (∀ w r, p.flushed = false → p.rx = w :: r → exec (.spiRxPop who n) s = .next (answer w.word (info
        (2 ^ 31 + b1 w.part * 2 ^ 29 + b1 w.selEnd * 2 ^ 28 + w.count % 64 * 2 ^ 22) (setSpi n (fun x => { x with rx := r }) s))))
      -- nothing to return: the value read is free
      ∧ ((p.flushed = true ∨ p.rx = []) →
        let f := takeFree s
        exec (.spiRxPop who n) s = .next (answer f.1.toNat (info (if p.flushed then 2 ^ 30 else 0) (setSpi n (fun x => { x with flushed := false }) f.2)))))
    ∧ (p.xfer = none → ∀ input, exec (.spiTransferDone n input) s = .next s ∧ exec (.spiFifoResume n input) s = .next s)
    ∧ (∀ x input, p.xfer = some x →
      let words := (x.left + 31) / 32
      let can := min words (min (if x.txEn then p.tx.length else words) (if x.rxEn then 64 - p.rx.length else words))
      let sizes := wordSizes can x.left
      let total := sizes.sum
      -- bit by bit, first bit highest: the words of the transmit FIFO, or ones
      let sent := sizes.zipIdx.foldl (fun v e => v * 2 ^ e.1 + (if x.txEn then p.tx.getD e.2 0 % 2 ^ e.1 else 2 ^ e.1 - 1)) 0
      let clocked (y : SpiSt) : SpiSt := { y with
        tx := if x.txEn then p.tx.drop can else p.tx
        rx := if x.rxEn then p.rx ++ rxWords sizes total input else p.rx }
      let out (t : State) : State := emit (.spi n x.cs sent total) t
      let past (t : State) : State := if n = 0 then flashBegin t else t
      (can = 0 → exec (.spiFifoResume n input) s = .next s)
      ∧ (0 < can → exec (.spiFifoResume n input) s = .next (out (setSpi n (fun y => { clocked y with xfer := some { x with left := x.left - total } }) s)))
      ∧ (can = words → s.ticks < x.stop → exec (.spiTransferDone n input) s = .next s)
      ∧ (can < words → exec (.spiTransferDone n input) s = .next s)
      ∧ (can = words → x.stop ≤ s.ticks → exec (.spiTransferDone n input) s = .next (past (out (setSpi n (fun y => { clocked y with
          xfer := none
          sel := if x.hold then some x.cs else none
          gapEnd := if x.hold then p.gapEnd else s.ticks + sckTicks n (bits dly 7 0) s }) s))))
      ∧ (can = words → total = x.left)))
  ∧ (∀ (s : State),
    let base := spiBase 1
    let p := spi 1 s
    let on : Prop := tgtOn s = true
    let len := rfld (base + 8) 12 0 s
    let busy (k : Nat) (t : State) : State :=
      let u := emit (.spi 1 0 (beNat (List.replicate k 0xA5)) (8 * k)) t
      if centralUp t then setReg (base + 0x24) ((reg (base + 0x24) t + k) % 2 ^ 32) u else u
    let deliver (w : SpiWord) (t : State) : State :=
      if 64 ≤ (spi 1 t).rx.length then setFld (base + 0x14) 28 28 1 t else setSpi 1 (fun x => { x with rx := x.rx ++ [w] }) t
    (∀ high reads,
      (on → exec (.spiTargetSelect high reads) s = .next (frameRead reads (setSpi 1 (fun x => { x with selected := true, mode3 := high }) s)))
      ∧ (¬ on → exec (.spiTargetSelect high reads) s = .next s))
    ∧ (∀ word reads,
      (tgtBoot s = true → exec (.spiTargetWord word reads) s = .next (busy (max 1 (len / 8)) s))
      ∧ (tgtBoot s = false → on → p.selected = true →
        let sent := match p.tx with
          | w :: r => emit (.spi 1 0 (w % 2 ^ len) len) (setSpi 1 (fun x => { x with tx := r }) s)
          | [] => setFld (base + 0x14) 29 29 1 (busy (len / 8) s)
        exec (.spiTargetWord word reads) s = .next (frameRead reads (deliver ⟨word.toNat % 2 ^ len, false, false, len⟩ sent)))
      ∧ (tgtBoot s = false → (¬ on ∨ p.selected = false) → exec (.spiTargetWord word reads) s = .next s))
    ∧ (∀ (n : Fin 32) word reads,
      let k := n.val % len
      let up := setSpi 1 (fun x => { x with selected := false }) s
      let cut := setFld (base + 0x14) 27 27 1 up
      ((¬ on ∨ p.selected = false) → exec (.spiTargetDeselect n word reads) s = .next s)
      ∧ (on → p.selected = true → k ≠ 0 →
        let gone := match p.tx with
          | _ :: r => setSpi 1 (fun x => { x with tx := r }) cut
          | [] => setFld (base + 0x14) 29 29 1 (busy ((k + 7) / 8) cut)
        exec (.spiTargetDeselect n word reads) s = .next (frameRead reads (deliver ⟨word.toNat % 2 ^ k, true, true, k⟩ gone)))
      ∧ (on → p.selected = true → k = 0 → ∀ w l, p.rx = l ++ [w] →
        exec (.spiTargetDeselect n word reads) s = .next (frameRead reads (setSpi 1 (fun x => { x with rx := l ++ [{ w with selEnd := true }] }) up)))
      ∧ (on → p.selected = true → k = 0 → p.rx = [] →
        exec (.spiTargetDeselect n word reads) s = .next (frameRead reads (frameEnd up)))))
  ∧ (∀ (s : State),
    -- what the steward reads, and what it answers
    let frame (l : List Nat) (t : State) : State := setSpi 1 (fun x => { x with frame := l }) t
    frameRead 0 s = s
    ∧ (∀ k, (spi 1 s).rx = [] → frameRead k s = s)
    ∧ (∀ k w r, (spi 1 s).rx = w :: r →
      let t := (beBytes (w.count / 8) (w.word >>> (w.count % 8))).foldl frameByte (setSpi 1 (fun x => { x with rx := r }) s)
      frameRead (k + 1) s = frameRead k (if w.selEnd then frameEnd t else t))
    ∧ (∀ b,
      let l := (spi 1 s).frame ++ [b]
      let whole : Prop := 2 ≤ l.length ∧ l.length = l.getD 1 0 + 3
      (l = [0] → frameByte s b = s)
      ∧ (l ≠ [0] → ¬ whole → frameByte s b = frame l s)
      ∧ (whole → frameByte s b = frameRun l (frame [] s)))
    ∧ ((spi 1 s).frame = [] → frameEnd s = s)
    ∧ (∀ code r, (spi 1 s).frame = code :: r → code ≠ 0x10 → code ≠ 0x11 → code ≠ 0x15 → frameEnd s = frameReply .fault [] (frame [] s))
    ∧ (∀ code r, (spi 1 s).frame = code :: r → code = 0x10 ∨ code = 0x11 ∨ code = 0x15 →
      frameEnd s = frameReply .fault [] (mgmtResult code .fault (frame [] s)))
    ∧ (∀ code data p,
      let n := data.length
      let head := code :: n :: data
      let run := frameRun (head ++ [p]) s
      let writes : Prop := code = 0x10 ∨ code = 0x11 ∨ code = 0x15
      (p ≠ pec head → ¬ writes → run = frameReply .fault [] s)
      ∧ (p ≠ pec head → writes → run = frameReply .fault [] (mgmtResult code .fault s))
      ∧ (p = pec head →
        (code ∉ mgmtCodes → run = frameReply .badOpcode [] (mgmtResult code .badOpcode s))
        ∧ (writes → n ≠ 4 → run = frameReply .range [] (mgmtResult code .range s))
        ∧ (writes → n = 4 → run = frameReply (mgmtWrite code (leNat data) s).1 [] (mgmtWrite code (leNat data) s).2)
        ∧ (code = 0x20 → n ≠ 4 → run = frameReply .range [] s)
        ∧ (code = 0x20 → n = 4 → run =
          let r := mgmtRegRead (leNat data) s
          frameReply r.1 (leBytes 4 r.2.1) r.2.2)
        ∧ (code ∈ [0x01, 0x02, 0x03, 0x04, 0x0F] → n ≠ 0 → run = frameReply .range [] s)
        ∧ (code ∈ [0x01, 0x02, 0x03, 0x04, 0x0F] → n = 0 → run = frameReply .ok (mgmtRead code s) s)))
    -- an answer is its status, its count, its data and a PEC, byte by byte where words are bytes
    ∧ (∀ st data, rfld (spiBase 1 + 8) 12 0 s = 8 → (spi 1 s).tx.length + data.length + 3 ≤ 64 →
      let l := statusCode st :: data.length :: data
      frameReply st data s = setSpi 1 (fun x => { x with tx := x.tx ++ l ++ [pec l] }) s))

/-! ### Two-wire blocks (17_two_wire.md) -/

/-- R507, R509–R516, R518, R519, R522: the addresses that TW0 answers, its sleep and stretches, the answers of its management commands, the writes with
and without PEC, what makes a transfer invalid, attention requests and their causes, and stuck lines of both blocks. Choices of the model in it:
notes/assumptions/17, 28, 89, 115, 133, 134. -/
def Obligations.TwoWire : Prop :=
  (∀ (s : State),
    let boot : Prop := s.mode.current = .bringup
    let stopped (t : State) : State := { t with tw := { t.tw with active := false, stretch := none, idle := t.ticks } }
    let most := 625 * rfld 0x42010 14 0 s
    let passed (t : State) : State := stopped (setFld 0x4201C 29 29 1 (bump (tw0Cnt 4) t))
    -- addresses (R507, R508, R511)
    (∀ a : Nat, (a < 8 ∨ 0x78 ≤ a → tw0Matches a s = false)
      ∧ (8 ≤ a → a < 0x78 → boot →
        let f := rfld 0x3050 6 0 s
        (tw0Matches a s = true ↔ a = if f < 8 ∨ 0x78 ≤ f then 0x4C else f))
      ∧ (8 ≤ a → a < 0x78 → ¬ boot →
        let d := reg 0x42004 s
        let m := rfld 0x42008 6 0 s
        (tw0Matches a s = true ↔ bit (reg 0x42000 s) 31 = true ∧ ((bit (reg 0x42008 s) 31 = true ∧ a &&& m = bits d 6 0 &&& m)
          ∨ (bit (reg 0x42008 s) 31 = false ∧ ∃ i < 4, bit d (8 * i + 7) = true ∧ bits d (8 * i + 6) (8 * i) = a)))))
    ∧ (∀ a : BitVec 7,
      let hit : Prop := s.rst.powered = true ∧ domHeld 1 s = false ∧ (s.tw.stuck0 = true → s.tw.idle + 62500 ≤ s.ticks)
        ∧ tw0Matches a.toNat s = true ∧ s.tw.stretch = none
      let b := bump (tw0Cnt 0) s
      let woken (t : State) : State := { t with tw := { t.tw with
        stuck0 := false, addr := a.toNat, awake := true, active := false, stretch := some (s.ticks, true) } }
      (¬ hit → exec (.tw0AddressMatch a) s = .next s)
      ∧ (hit → ¬ boot → s.tw.awake = true → exec (.tw0AddressMatch a) s = .next { b with tw := { b.tw with
          stuck0 := false, addr := a.toNat, active := true } })
      ∧ (hit → boot → s.tw.awake = true → exec (.tw0AddressMatch a) s = .next (woken b))
      ∧ (hit → s.tw.awake = false → exec (.tw0AddressMatch a) s = .next (woken (bump (tw0Cnt 1) b))))
    ∧ (
      let rests : Prop := bit (reg 0x42000 s) 30 = true ∧ s.tw.awake = true ∧ s.tw.active = false ∧ s.tw.stretch = none
        ∧ s.tw.idle + 625000 ≤ s.ticks ∧ ¬ boot
      (rests → exec .tw0Sleep s = .next { s with tw := { s.tw with awake := false } }) ∧ (¬ rests → exec .tw0Sleep s = .next s))
    -- stretches (R510–R512)
    ∧ (∀ k x e, s.tw.stretch = some (k, x) →
      (k + most ≤ s.ticks → exec (.tw0StretchExpire e) s = .next (emit .tw0Nack (passed s)))
      ∧ (s.ticks < k + most → exec (.tw0StretchExpire e) s = .next s))
    ∧ (s.tw.stretch = none → s.tw.active = true →
      exec (.tw0StretchExpire false) s = .next (emit .tw0Nack (passed s)) ∧ exec (.tw0StretchExpire true) s = .next (emit (.tw0 [0xFF]) (passed s)))
    ∧ (s.tw.stretch = none → s.tw.active = false → ∀ e, exec (.tw0StretchExpire e) s = .next s)
    -- commands (R513–R516)
    ∧ (
      let ready : Prop := ¬ boot ∧ centralUp s = true
        ∧ (s.tw.active = true ∨ ∃ k, s.tw.stretch = some (k, true) ∧ s.ticks < k + most)
      let a := s.tw.addr
      let mode := rfld 0x42000 29 28 s
      let answer (asked ans : List Nat) (t : State) : State := emit (.tw0 (ans ++ if mode = 0 then [] else [pec (asked ++ ans)])) (stopped t)
      let nack (t : State) : State := emit .tw0Nack t
      let block (i : Instr) (code : Nat) (data : List Nat) : Prop :=
        (ready → exec i s = .next (answer [2 * a, code, 2 * a + 1] ((data.length + 1) :: 0 :: data) s)) ∧ (¬ ready → exec i s = .next s)
      let result (code : Nat) (st : Status) (t : State) : State := setFld 0x4201C 19 12 (statusCode st) (setFld 0x4201C 27 20 code t)
      let invalid (code : Nat) (st : Status) : State := nack (stopped (result code st (bump (tw0Cnt 2) s)))
      block .tw0Id 0x01 (mgmtRead 0x01 s) ∧ block .tw0Status 0x02 (mgmtRead 0x02 s) ∧ block .tw0Temp 0x03 (mgmtRead 0x03 s)
      ∧ block .tw0Rails 0x04 (mgmtRead 0x04 s) ∧ block .tw0Result 0x0F (mgmtRead 0x0F s)
      ∧ (mgmtRead 0x01 s).length = 9 ∧ (mgmtRead 0x02 s).length = 8 ∧ (mgmtRead 0x03 s).length = 6
      ∧ (mgmtRead 0x04 s).length = 20 ∧ (mgmtRead 0x0F s).length = 2
      ∧ (∀ o : Word,
        let r := mgmtRegRead o.toNat s
        (ready → exec (.tw0RegRead o) s = .next (answer ([2 * a, 0x20, 4] ++ leBytes 4 o.toNat ++ [2 * a + 1])
          ([5, statusCode r.1] ++ leBytes 4 r.2.1) r.2.2))
        ∧ (¬ ready → exec (.tw0RegRead o) s = .next s))
      ∧ (∀ (code : Nat) (w : Word) (i : Option Byte → Instr), (code, i) ∈ [(0x10, (.tw0Reset w ·)), (0x11, (.tw0Safe w ·)), (0x15, (.tw0AttnClr w ·))] →
        let done := (mgmtWrite code w.toNat (stopped s)).2
        let good := pec ([2 * a, code] ++ leBytes 4 w.toNat)
        (∀ p, ¬ ready → exec (i p) s = .next s)
        ∧ (ready → mode ≠ 2 → exec (i none) s = .next done)
        ∧ (ready → mode = 2 → exec (i none) s = .next (result code .fault (stopped s)))
        ∧ (∀ p : Byte, ready → mode = 0 → exec (i (some p)) s = .next (invalid code .range))
        ∧ (∀ p : Byte, ready → mode ≠ 0 → p.toNat = good → exec (i (some p)) s = .next done)
        ∧ (∀ p : Byte, ready → mode ≠ 0 → p.toNat ≠ good →
          exec (i (some p)) s = .next (nack (setFld 0x4201C 28 28 1 (bump (tw0Cnt 3) (result code .fault (stopped s)))))))
      ∧ (∀ (code : Byte) (bad : Bool),
        let i : Instr := .tw0InvalidTransfer code bad
        let c := code.toNat
        (¬ ready → exec i s = .next s)
        ∧ (ready → c ∉ mgmtCodes → exec i s = .next (invalid c .badOpcode))
        ∧ (ready → c ∈ mgmtCodes → bad = true → exec i s = .next (invalid c .range))
        ∧ (ready → bad = false → c = 0x10 ∨ c = 0x11 ∨ c = 0x15 → exec i s = .next (invalid c .busy))
        ∧ (ready → bad = false → c ∈ [0x01, 0x02, 0x03, 0x04, 0x0F, 0x20] → exec i s = .next s)))
    -- the writes (R513–R515, R518): what each does, and what RESULT then shows
    ∧ (∀ w : Nat, w < 2 ^ 32 →
      let reset (level t : Nat) : Prop := mgmtWrite 0x10 w s = (.ok, resetRequest ⟨level, t, 9, .minimum⟩ (mgmtResult 0x10 .ok s))
      (w = 0x3CC30001 → reset 1 0) ∧ (∀ q < 4, w = 0x3CC30003 + 256 * q → reset 3 (q + 1))
      ∧ (w ≠ 0x3CC30001 → (¬ ∃ q < 4, w = 0x3CC30003 + 256 * q) → mgmtWrite 0x10 w s = (.range, mgmtResult 0x10 .range s))
      ∧ (w ≠ 0x45464153 → mgmtWrite 0x11 w s = (.range, mgmtResult 0x11 .range s))
      ∧ (w = 0x45464153 →
        let st := modeCheck 5 s
        let j := journalReg 0x60 st { pairDesc 0 [] with body := 5 } [⟨10, 0⟩] s
        mgmtWrite 0x11 w s = (st, mgmtResult 0x11 st (if st = .ok then modeRequest 5 (regSrc 0x60 s) j else j)))
      ∧ (256 ≤ w → mgmtWrite 0x15 w s = (.range, mgmtResult 0x15 .range s))
      ∧ (w < 256 → ∃ st, mgmtWrite 0x15 w s = (st, mgmtResult 0x15 st (attnClear w s))
        ∧ (st = .range ↔ ∃ b < 8, bit w b = true ∧ attnHolds b s = true) ∧ (st = .ok ∨ st = .range)))
    -- attention (R518, R519)
    ∧ (∀ (who : Requester) (v : Word), writesOk who 0x42018 v s = true →
      let m := v.toNat % 65536
      let t := attnClear m s
      exec (.attnCauseClear who v) s = .next t ∧ t = { s with regs := t.regs } ∧ (∀ x, x ≠ 0x42018 → reg x t = reg x s)
        ∧ ∀ b < 16, bit (reg 0x42018 t) b = (bit (reg 0x42018 s) b && ! (decide (b < 8) && bit m b && ! attnHolds b s)))
    ∧ (
      let on : Prop := bit (reg 0x42014 s) 31 = true ∧ ¬ boot ∧ reg 0x42018 s &&& rfld 0x42014 15 0 s ≠ 0
      let free : Prop := on ∧ s.tw.attnWant = true ∧ s.tw.active = false ∧ s.tw.stretch = none ∧ s.tw.idle + 62500 ≤ s.ticks
      let n := rfld 0x42014 23 16 s
      let again : Prop := on ∧ n ≠ 0 ∧ s.tw.attnWant = false ∧ s.tw.attnAt + 62500000 * n ≤ s.ticks
      let sent := bump (tw0Cnt 5) s
      let cut := bump (tw0Cnt 6) s
      (free → exec (.attnRequest false) s = .next (emit .attn { sent with tw := { s.tw with attnWant := false, attnAt := s.ticks } })
        ∧ exec (.attnRequest true) s = .next { cut with tw := { s.tw with idle := s.ticks } })
      ∧ (¬ free → ∀ b, exec (.attnRequest b) s = .next s)
      ∧ (again → exec .attnRepeat s = .next { s with tw := { s.tw with attnWant := true } }) ∧ (¬ again → exec .attnRepeat s = .next s)
      ∧ (∀ b < 16,
        let t := attnRaise b s
        reg 0x42018 t = reg 0x42018 s ||| 2 ^ b
        ∧ (t.tw.attnWant = true ↔ s.tw.attnWant = true ∨ (bit (reg 0x42018 s) b = false ∧ bit (reg 0x42014 s) 31 = true ∧ bit (reg 0x42014 s) b = true))))
    -- stuck lines (R522)
    ∧ (
      let stuck (code : Option Byte) (freed : Option (Fin 9)) (t : State) : Prop := exec (.twStuck false false code freed) s = .next
          { stopped (setFld 0x4201C 30 30 1 (bump (tw0Cnt 7) t)) with tw := { (stopped t).tw with stuck0 := true } }
      (centralUp s = false → ∀ x y code freed, exec (.twStuck x y code freed) s = .next s)
      ∧ (centralUp s = true →
        (∀ code freed, (s.tw.active = false ∨ code = none → stuck code freed s)
          ∧ (∀ c : Byte, s.tw.active = true → code = some c → stuck code freed (mgmtResult c.toNat .fault s))
          ∧ exec (.twStuck false true code freed) s = exec (.twStuck false false code freed) s
          ∧ exec (.twStuck true true code freed) s = .next (setFld 0x43008 29 29 1 (bump (tw1Cnt 5) s)))
        ∧ (∀ code,
          let low := setFld 0x43008 30 30 1 (bump (tw1Cnt 5) s)
          exec (.twStuck true false code none) s = .next (setFld 0x43008 28 28 1 (emit (.busClear 9) low))
          ∧ ∀ k : Fin 9, exec (.twStuck true false code (some k)) s = .next (bump (tw1Cnt 4) (emit (.busClear (k.val + 1)) low))))))

/-! ### Timers (18_timers_fifos.md) -/

/-- R526–R535: the prescaler, plain counting, flags and pins; the enabling of a timer, its matches, reloads, captures and time compares, the pins
written by hand, and the commits of the reload buffer and the compare preload. Choices of the model in it: notes/assumptions/9, 28, 67, 68, 69, 125. -/
def Obligations.Timers : Prop :=
  -- the prescaler, edge by edge (R527)
  (∀ acc presc k : Nat, 0x10000 ≤ presc → acc < presc →
    let r := prescale acc presc k
    prescale acc presc 0 = (0, acc) ∧ r.2 < presc
    ∧ prescale acc presc (k + 1) = if presc ≤ r.2 + 0x10000 then (r.1 + 1, r.2 + 0x10000 - presc) else (r.1, r.2 + 0x10000))
  -- ticks that only count down; the next waits for its match or reload (R529)
  ∧ (∀ t : TmrSt,
    let u := takePlain t
    u = { t with count := u.count, due := u.due } ∧ u.count ≤ t.count ∧ t.count - u.count = t.due - u.due ∧ u.due ≤ t.due
      ∧ (0 < u.due → u.count = 0 ∨ u.count - 1 = u.cmp) ∧ (t.cmp < t.count → t.cmp < u.count))
  ∧ (∀ (n : Fin 16) (s : State),
    let base := tmrBase n
    let t := tmr n s
    let ctl := reg base s
    let mode := bits ctl 30 29
    let put (x : TmrSt) (a : State) : State := setTmr n (fun _ => x) a
    let stop (a : State) : State := setFld base 31 31 0 a
    let note (b : Nat) (a : State) : State := setFld (base + 0x28) b b 1 a
    let awake : Prop := s.tmr.slept = none
    -- flags and pins (R531, R532)
    (∀ b < 32,
      (bit (reg (base + 0x28) s) b = true → tmrFlag n b s = s)
      ∧ (bit (reg (base + 0x28) s) b = false → bit ctl 19 = false → tmrFlag n b s = note b s)
      ∧ (bit (reg (base + 0x28) s) b = false → bit ctl 19 = true → tmrFlag n b s = sendVec 0 (rfld 0x44000 7 0 s) (note b s)))
    ∧ (∀ act < 4,
      let p := bits ctl 18 16
      let old := bit (reg 0x44004 s) p
      let new := match act with | 1 => true | 2 => false | 3 => ! old | _ => old
      let drives : Prop := bit ctl 15 = true ∧ bit (reg 0x44004 s) (8 + p) = true ∧ new ≠ old
      (drives → tmrPinDo n (pinAct act) s = emit (.tmrPin p new) (setFld 0x44004 p p (b1 new) s)) ∧ (¬ drives → tmrPinDo n (pinAct act) s = s))
    -- source edges (R526, R527)
    ∧ (∀ k, (k = 0 ∨ bit ctl 31 = false ∨ mode = 2 ∨ reg (base + 4) s = 0 → tmrEdges n k s = s)
      ∧ (k ≠ 0 → bit ctl 31 = true → mode ≠ 2 → reg (base + 4) s ≠ 0 →
        let r := prescale t.acc (reg (base + 4) s) k
        tmrEdges n k s = put (takePlain { t with acc := r.2, due := t.due + r.1, dueAt := if t.due = 0 then s.ticks else t.dueAt }) s))
    -- en going from 0 to 1 (R529, R534)
    ∧ (∀ (who : Requester) (v : Word), writesOk who base v s = true →
      let i : Instr := .timerEnable who n v
      let b := bits v.toNat 23 21
      let a := put { t with acc := 0, due := 0, cmp := reg (base + 0x10) s + rfld (base + 0x14) 15 0 s * 2 ^ 32, armed := false } (putReg base v s)
      let left := sdiff (reg (base + 0x10) s) (tbNs b s % 2 ^ 32)
      let off (c : State) : State := put { tmr n a with armed := false } c
      ((v.getLsbD 31 = false ∨ bit ctl 31 = true) → exec i s = .next s)
      ∧ (v.getLsbD 31 = true → bit ctl 31 = false →
        (bits v.toNat 30 29 < 2 → exec i s = .next a)
        ∧ (bits v.toNat 30 29 = 2 → ¬ awake → exec i s = .next (put { tmr n a with armed := true } a))
        ∧ (bits v.toNat 30 29 = 2 → awake → left = -2147483648 → exec i s = .next (note 24 (stop (off a))))
        ∧ (bits v.toNat 30 29 = 2 → awake → left ≠ -2147483648 → (left ≤ 0 ∨ (tb b s).valid = false) →
          exec i s = .next (tmrFlag n 26 (tmrPinDo n (pinAct (bits v.toNat 14 13)) (note 25 (stop (off a))))))
        ∧ (bits v.toNat 30 29 = 2 → awake → 0 < left → (tb b s).valid = true → exec i s = .next (put { tmr n a with armed := true } a))))
    -- a tick that matches, and one at count 0 (R528, R529)
    ∧ (
      -- no other timer of the same pin has an earlier tick to take, nor one of the same edge and a lower number (R531)
      let rival (m : Nat) : Prop := m ≠ n.val ∧ bit ctl 15 = true ∧ bit (reg (tmrBase m) s) 15 = true
        ∧ bits ctl 18 16 = bits (reg (tmrBase m) s) 18 16 ∧ tmrDue m s = true
      let first : Prop := ∀ m < 16, rival m → t.dueAt < (tmr m s).dueAt ∨ (t.dueAt = (tmr m s).dueAt ∧ n.val < m)
      let counts : Prop := bit ctl 31 = true ∧ mode < 2 ∧ 0 < t.due ∧ awake ∧ first
      let due := t.due - 1
      let matches_ : Prop := counts ∧ 0 < t.count ∧ t.count - 1 = t.cmp
      let reloads : Prop := counts ∧ t.count = 0
      (matches_ → exec (.timerMatch n) s = .next (tmrFlag n 30 (tmrPinDo n (pinAct (bits ctl 14 13))
        (put (takePlain { t with count := t.count - 1, due := due }) s))))
      ∧ (¬ matches_ → exec (.timerMatch n) s = .next s)
      ∧ (reloads → mode = 0 → exec (.timerReload n) s = .next (tmrFlag n 29 (tmrPinDo n (pinAct (bits ctl 12 11)) (put (takePlain { t with
          count := reg (base + 8) s + rfld (base + 0xC) 15 0 s * 2 ^ 32
          cmp := reg (base + 0x10) s + rfld (base + 0x14) 15 0 s * 2 ^ 32
          due := due }) s))))
      ∧ (reloads → mode = 1 → exec (.timerReload n) s = .next (tmrFlag n 29 (tmrPinDo n (pinAct (bits ctl 12 11))
        (stop (put { t with count := 0, due := 0 } s)))))
      ∧ (¬ reloads → exec (.timerReload n) s = .next s))
    -- capture (R533)
    ∧ (∀ (p : Fin 8) (rising : Bool),
      let takes : Prop := bits ctl 10 7 = p.val + 1 ∧ (bits ctl 6 5 = 2 ∨ (bits ctl 6 5 = 0 ∧ rising = true) ∨ (bits ctl 6 5 = 1 ∧ rising = false))
      let c := if mode = 2 then 0 else t.count
      let a := setReg (base + 0x24) (c / 2 ^ 32) (setReg (base + 0x20) (c % 2 ^ 32) s)
      let each (s : State) : State := (List.range 16).foldl (tmrCapture p rising) s
      (¬ takes → tmrCapture p rising s n = s)
      ∧ (takes → bit (reg (base + 0x28) s) 28 = true → tmrCapture p rising s n = note 27 a)
      ∧ (takes → bit (reg (base + 0x28) s) 28 = false → tmrCapture p rising s n = tmrFlag n 28 a)
      ∧ ((¬ awake ∨ centralUp s = false) → exec (.timerCapture p rising) s = .next s)
      ∧ (awake → centralUp s = true → rising = false → exec (.timerCapture p rising) s = .next (each s))
      ∧ (awake → centralUp s = true → rising = true → exec (.timerCapture p rising) s = .next
        ((List.range 16).foldl (fun s k => if rfld (tmrBase k) 28 24 s = 12 + p.val then tmrEdges k 1 s else s) (each s))))
    -- the time compare (R534)
    ∧ (
      let fires : Prop := t.armed = true ∧ bit ctl 31 = true ∧ sdiff (reg (base + 0x10) s) (tbNs (bits ctl 23 21) s % 2 ^ 32) ≤ 0 ∧ awake
      (fires → exec (.timerTimeFire n) s = .next (tmrFlag n 26 (tmrPinDo n (pinAct (bits ctl 14 13)) (stop (put { t with armed := false } s)))))
      ∧ (¬ fires → exec (.timerTimeFire n) s = .next s))
    -- buffers (R530, R545)
    ∧ (∀ (who : Requester) (lo : Word) (o : Nat), o = 8 ∨ o = 0x10 →
      let at_ := base + o
      let i (hi : Option Word) : Instr := if o = 8 then .timerReloadCommit who n hi lo else .timerCmpCommit who n hi lo
      let stored (h : Nat) : State := setReg (at_ + 4) h (setReg at_ lo.toNat { s with wrLatch := mdel s.wrLatch (latchAt who (at_ + 4)) })
      (∀ h, writesOk who at_ lo s = true → heldHi who at_ s = some h → exec (i none) s = .next (stored h))
      ∧ (writesOk who at_ lo s = true → heldHi who at_ s = none → exec (i none) s = .next (stored (peek (at_ + 4) s)))
      ∧ (∀ h : Word, writesOk who (at_ + 4) h s = true → writesOk who at_ lo (holdHi who (at_ + 4) h.toNat s) = true →
        exec (i (some h)) s = .next (stored h.toNat))))
  -- pins by hand (R531)
  ∧ (∀ (who : Requester) (v : Word) (s : State), writesOk who 0x44004 v s = true →
    let old := reg 0x44004 s
    let now (p : Nat) : Bool := v.getLsbD (8 + p) && (! bit old (8 + p) || (bit old p != v.getLsbD p))
    exec (.timerPinLevel who v) s = .next { putReg 0x44004 v s with
      out := s.out ++ ((List.range 8).filter now).map (fun p => .tmrPin p (v.getLsbD p)) })
  -- sleep (R535)
  ∧ (∀ s : State, s.tmr.slept = none →
    let sleeps : Prop := bit (reg 0x44000 s) 31 = true ∧ s.mode.current = .vigil
    (sleeps → tmrSleepUpdate s = { s with tmr := { s.tmr with slept := some s.ticks, refAway := 0 } }) ∧ (¬ sleeps → tmrSleepUpdate s = s))

/-- R532: each event sets its flag in TMRn_STATUS (match, reload, capture and, in TIME mode, fired); only a flag that rises with irq_en 1 sends the
physical function's vector TMR_GLB.vec, and TMR_STATUS_ALL shows the timers that have a flag set. -/
def Obligations.TimerFlags : Prop :=
  ∀ (n : Fin 16) (s : State),
    let base := tmrBase n
    let ctl := reg base s
    let x := tmr n s
    let counts : Prop := bit ctl 31 = true ∧ bits ctl 30 29 < 2 ∧ 0 < x.due ∧ s.tmr.slept = none ∧ tmrTurn n s = true
    let flag (b : Nat) (t : State) : Bool := bit (reg (base + 0x28) t) b
    let v := rfld 0x44000 7 0 s
    let ready : Prop := vecUsable 0 v s = true ∧ fnAwake 0 s = true ∧ bit (reg (msixBase 0 + 16 * v + 12) s) 0 = false
    let sent (t : State) : Prop := ∀ w, .msix 0 w ∉ outSince s t
    -- the event sets the flag; the vector goes out when the flag rises and may, and not otherwise
    let event (b : Nat) (t : State) : Prop := flag b t = true
      ∧ (flag b s = false → bit ctl 19 = true → ready → .msix 0 v ∈ outSince s t)
      ∧ ((flag b s = true ∨ bit ctl 19 = false) → sent t)
    (counts → 0 < x.count → x.count - 1 = x.cmp → ∃ t, exec (.timerMatch n) s = .next t ∧ event 30 t)
    ∧ (counts → x.count = 0 → ∃ t, exec (.timerReload n) s = .next t ∧ event 29 t)
    ∧ (∀ (p : Fin 8) (rising : Bool), bits ctl 10 7 = p.val + 1 → (bits ctl 6 5 = 2 ∨ (bits ctl 6 5 = 0 ∧ rising = true) ∨ (bits ctl 6 5 = 1 ∧ rising = false)) →
      event 28 (tmrCapture p rising s n)
      ∧ (s.tmr.slept = none → centralUp s = true → ∃ t, exec (.timerCapture p rising) s = .next t ∧ flag 28 t = true
        ∧ (flag 28 s = false → bit ctl 19 = true → ready → .msix 0 v ∈ outSince s t)))
    ∧ (x.armed = true → bit ctl 31 = true → sdiff (reg (base + 0x10) s) (tbNs (bits ctl 23 21) s % 2 ^ 32) ≤ 0 → s.tmr.slept = none →
      ∃ t, exec (.timerTimeFire n) s = .next t ∧ event 26 t)
    ∧ (bit (peek 0x44008 s) n = true ↔ ∃ b, 23 ≤ b ∧ b ≤ 30 ∧ flag b s = true)

/-! ### Register requests (19_register_map.md, R185, R186) -/

/-- R13, R14, R45, R185, R186, R348, R540, R542–R548: which requests reach a register, what an accepted write stores and a refused one logs, the holding
latches of 64-bit pairs, reads and their latches, REGACC, the fault record, and the debug registers of an engine. Choices of the model in it:
notes/assumptions/7, 24, 35, 36, 37, 38, 105, 107, 108, 114, 118, 120, 123, 125, 140. -/
def Obligations.RegisterRequests : Prop :=
  (∀ (who : Requester) (bar2 : Bool) (ofs : BitVec 24) (shape : WriteShape) (bus : List TwTry) (s : State),
    let i : Instr := .registerWrite who bar2 ofs shape bus
    let o := ofs.toNat / 4 * 4
    let does (t : State) : Prop := exec i s = .next t
    let up : Prop := who ≠ .tw0 ∧ ∀ f, who = .fn f → hostUp f s = true
    -- the bytes that the enables of a part of a DW name; a longer request's first DW
    let part (en : BitVec 4) (v : Word) : Nat := ((List.range 4).map (fun b => if en.getLsbD b then bits v.toNat (8 * b + 7) (8 * b) * 256 ^ b else 0)).sum
    let sized (v : Nat) : Prop := (∃ en w, shape = .dw en w ∧ en ≠ 15 ∧ v = part en w) ∨ ∃ w, shape = .long w ∧ v = w.toNat
    (who = .tw0 → does s)
    ∧ (∀ f, who = .fn f → hostUp f s = false → does (emit (.ur f) s))
    ∧ ((who = .regacc ∨ who = .steward) → bar2 = true → does s)
    ∧ (∀ f, who = .fn f → hostUp f s = true → bar2 = true →
      let inWindow : Prop := f.val = 0 ∧ 0x1000 ≤ o ∧ o < 0x10000
      let passed (v : Nat) : Prop := sized v ∨ ∃ lo hi, shape = .pair lo hi ∧ v = lo.toNat
      (∀ v, shape = .dw 15 v → (o = 0 → does s) ∧ (o ≠ 0 → inWindow → does (logRefusal who true o v.toNat 4 s))
        ∧ (o ≠ 0 → ¬ inWindow → does (logRefusal who true o v.toNat 5 s)))
      ∧ (∀ v, passed v → (o = 0 → does (logRefusal who true o v 6 s)) ∧ (o ≠ 0 → inWindow → does (logRefusal who true o v 4 s))
        ∧ (o ≠ 0 → ¬ inWindow → does (logRefusal who true o v 5 s))))
    ∧ (up → bar2 = false → placeOf who o = none → ∀ v,
      (sized v ∨ shape = .dw 15 (BitVec.ofNat 32 v) ∧ v < 2 ^ 32 ∨ ∃ lo hi, shape = .pair lo hi ∧ v = lo.toNat) → does (logRefusal who false o v 5 s))
    ∧ (∀ a, up → bar2 = false → placeOf who o = some a →
      (∀ v, shape = .dw 15 v →
        (∀ n, lowest (reasonsDw who a v.toNat s) = some n → does (refuseWrite who o a v.toNat n (a, v.toNat) s))
        ∧ (lowest (reasonsDw who a v.toNat s) = none → does (acceptDw who a v.toNat bus s)))
      ∧ (∀ v, sized v → does (refuseWrite who o a v ((lowest (placeReasons who a s ++ [6])).getD 6) (a, v) s))
      ∧ (∀ r ix (lo hi : Word), shape = .pair lo hi → regAt a = some (r, ix) → pairLo r.reg = true →
        let held := holdHi who (a + 4) hi.toNat s
        (∀ n, lowest (reasonsDw who (a + 4) hi.toNat s) = some n → does (refuseWrite who (o + 4) (a + 4) hi.toNat n (a, lo.toNat) s))
        ∧ (∀ n, lowest (reasonsDw who (a + 4) hi.toNat s) = none → lowest (reasonsDw who a lo.toNat held) = some n →
          does (refuseWrite who o a lo.toNat n (a, lo.toNat) held))
        ∧ (lowest (reasonsDw who (a + 4) hi.toNat s) = none → lowest (reasonsDw who a lo.toNat held) = none → does (acceptDw who a lo.toNat bus held)))
      ∧ (∀ r ix (lo hi : Word), shape = .pair lo hi → regAt a = some (r, ix) → pairLo r.reg = false →
        (pairAt r = false → does (refuseWrite who o a lo.toNat ((lowest (placeReasons who a s ++ [6])).getD 6) (a, lo.toNat) s))
        ∧ (pairAt r = true → lowest (reasonsDw who (a + 4) hi.toNat s) = none → lowest (reasonsDw who a lo.toNat s) = none →
          does (acceptDw who a lo.toNat bus (acceptDw who (a + 4) hi.toNat bus s))))))
  -- reasons and their record (R14, R547, R548)
  ∧ (∀ (l : List Nat) (n : Nat), (lowest l = some n ↔ n ∈ l ∧ ∀ m ∈ l, n ≤ m) ∧ (lowest l = none ↔ l = []))
  ∧ (∀ (r : RegRow) (v : Nat),
    (1 ∈ rowReasons r v ↔ ∃ f ∈ r.fields, f.acc = .rsv ∧ bits v f.hi f.lo ≠ 0)
    ∧ (2 ∈ rowReasons r v ↔ ∃ f ∈ r.fields, (f.acc = .rw ∨ f.acc = .wo ∨ f.acc = .w1s) ∧ ∃ ok, f.legal = .enum ok ∧ ∀ x ∈ ok, ¬ (x.1 ≤ bits v f.hi f.lo ∧ bits v f.hi f.lo ≤ x.2))
    ∧ (3 ∈ rowReasons r v ↔ ∃ f ∈ r.fields, (f.acc = .rw ∨ f.acc = .wo ∨ f.acc = .w1s) ∧ ∃ ok, f.legal = .range ok ∧ ∀ x ∈ ok, ¬ (x.1 ≤ bits v f.hi f.lo ∧ bits v f.hi f.lo ≤ x.2)))
  ∧ (∀ (who : Requester) (bar2 : Bool) (o v reason : Nat) (s : State), o < 2 ^ 24 → reason < 8 →
    let old := reg 0x20 s
    let record (src : Nat) : State := bump faultCnt (setReg 0x24 v (setReg 0x20
      (2 ^ 31 + b1 (bit old 31 || bit old 30) * 2 ^ 30 + b1 bar2 * 2 ^ 29 + src * 2 ^ 27 + reason * 2 ^ 24 + o) s))
    (who = .fn 0 → logRefusal who bar2 o v reason s = record 0)
    ∧ (who = .regacc → logRefusal who bar2 o v reason s = record 1)
    ∧ (who = .steward → logRefusal who bar2 o v reason s = record 2)
    ∧ (∀ f : Fin 8, f.val ≠ 0 → who = .fn f → logRefusal who bar2 o v reason s = setReg (fnBase f + 0x28) v (setReg (fnBase f + 0x24) o s)))
  ∧ (∀ (who : Requester) (v : Word) (s : State), writesOk who 0x20 v s = true → ∃ t, exec (.setupFaultClear who v) s = .next t
    ∧ t = { s with regs := t.regs } ∧ (∀ a, a ≠ 0x20 → reg a t = reg a s)
    ∧ (∀ b < 32, bit (reg 0x20 t) b = (bit (reg 0x20 s) b && ! (decide (30 ≤ b) && v.getLsbD b))))
  -- accepted values (R13, R14, R545)
  ∧ (∀ (a : Nat) (r : RegRow) (ix : List Nat) (old v : Nat), regAt a = some (r, ix) → ∀ f ∈ r.fields,
    let was := bits old f.hi f.lo
    let now := bits (stored r old v) f.hi f.lo
    (f.acc = .rw → now = bits v f.hi f.lo) ∧ (f.acc = .w1c → now = was - (was &&& bits v f.hi f.lo)) ∧ (f.acc ≠ .rw → f.acc ≠ .w1c → now = was))
  ∧ (∀ (who : Requester) (a v : Nat) (bus : List TwTry) (s : State) (r : RegRow) (ix : List Nat), regAt a = some (r, ix) →
    let emptied : State := { s with wrLatch := mdel s.wrLatch (latchAt who (a + 4)) }
    let plain : Prop := r.reg ∉ [.modeStatus, .portCfg, .tbCtl, .tbStatus, .timeRefStatus, .timePpsCtl, .synCtl, .ptpCtl, .engDbgCtl, .qcuCtl, .ccuCtl,
      .trigInCtl, .trigFastCtl, .trigOutCtl, .ccuSysArb, .ccuSysPrimary, .ringCtl, .msixCtl, .paceCtl, .paceRailCfg, .paceRailSet, .paceStatus,
      .rstCause, .rstFlr, .rstL3, .rstL4, .rstSw, .spiCtl, .spiCmd, .spiTx, .tmrGlb, .tmrPin, .tmrCtl, .tw0AttnCause]
    let saved (t : State) : State := if (0x84000 ≤ a ∧ a < 0x8C000) ∨ (0x50000 ≤ a ∧ a < 0x51000)
      then { t with flash := { t.flash with dirty := some t.ticks } } else t
    (pairHi r.reg = true → acceptDw who a v bus s = { s with wrLatch := mput s.wrLatch (latchAt who a) (BitVec.ofNat 32 v) })
    ∧ (pairLo r.reg = true → journaled a = none → r.reg ≠ .engDbgDataLo → r.reg ≠ .tmrCountLo →
      acceptDw who a v bus s = saved (setReg (a + 4) ((heldHi who a s).getD (peek (a + 4) s)) (setReg a v emptied)))
    ∧ (pairLo r.reg = false → pairHi r.reg = false → journaled a = none → plain → writable r = true → roReg r ix = false →
      acceptDw who a v bus s = saved (setReg a (stored r (reg a s) v) s))
    -- a register of a journaled block that ignores writes: journaled with OK all the same
    ∧ (pairLo r.reg = false → pairHi r.reg = false → journaled a ≠ none → writable r = false →
      acceptDw who a v bus s = journalWrite .ok [(a, v)] s))
  ∧ (∀ (who : Requester) (o a v reason : Nat) (first : Nat × Nat) (s : State), journaled first.1 = none →
    let logged := logRefusal who false o v reason s
    ((∀ r ix, regAt a = some (r, ix) → pairLo r.reg = false ∧ pairHi r.reg = false) → refuseWrite who o a v reason first s = logged)
    ∧ (∀ r ix, regAt a = some (r, ix) → pairLo r.reg = true →
      refuseWrite who o a v reason first s = { logged with wrLatch := mdel logged.wrLatch (latchAt who (a + 4)) })
    ∧ (∀ r ix, regAt a = some (r, ix) → pairHi r.reg = true →
      refuseWrite who o a v reason first s = { logged with wrLatch := mdel logged.wrLatch (latchAt who a) }))
  -- reads (R13, R515, R540, R542–R545)
  ∧ (∀ (who : Requester) (bar2 : Bool) (ofs : BitVec 24) (n : Fin 1025) (s : State),
    let i : Instr := .loReadLatch who bar2 ofs n
    let run := readRun who bar2 n (ofs.toNat / 4 * 4) s
    (∀ f, who = .fn f → hostUp f s = false → exec i s = .next (emit (.ur f) s))
    ∧ (∀ f, who = .fn f → hostUp f s = true → exec i s = .next run)
    ∧ ((∀ f, who ≠ .fn f) → bar2 = true → exec i s = .next s)
    ∧ ((∀ f, who ≠ .fn f) → bar2 = false → exec i s = .next run))
  ∧ (∀ (who : Requester) (bar2 : Bool) (k o : Nat) (s : State),
    let r := readDw who bar2 o s
    readRun who bar2 0 o s = s
    ∧ readRun who bar2 (k + 1) o s = readRun who bar2 k (o + 4) (emit (.readData who o (BitVec.ofNat 32 r.1)) r.2)
    ∧ (bar2 = true → who = .fn 0 → r = (peek2 o s, s)) ∧ (bar2 = true → who ≠ .fn 0 → r = (0, s))
    ∧ (bar2 = false → placeOf who o = none → r = (0, s))
    ∧ (∀ a, bar2 = false → placeOf who o = some a →
      let kept : Option Word := mfind s.rdLatch (latchAt who a)
      let latch (d : Nat) (t : State) : State := { t with rdLatch := mput t.rdLatch (latchAt who (a + d)) (BitVec.ofNat 32 (peek (a + d) s)) }
      (who = .regacc → blockHeld a s = true → r = (0, s))
      ∧ ((who ≠ .regacc ∨ blockHeld a s = false) →
        (∀ w x, kept = some w → regAt a = some x → r = (w.toNat, s))
        ∧ (regAt a = none → gapLogAt a = false → r = (0, s))
        ∧ (kept = none → gapLogAt a = true → r = (peek a s, s))
        ∧ (∀ x ix, kept = none → gapLogAt a = false → regAt a = some (x, ix) → x.reg ∉ [.spiRx, .trigInFifoLo, .engDbgDataLo] →
          (latchesOf x.reg = [] → r = (peek a s, s)) ∧ (latchesOf x.reg = [4] → r = (peek a s, latch 4 s))
          ∧ (latchesOf x.reg = [4, 8] → r = (peek a s, latch 8 (latch 4 s))))
        -- a debug read corrects a single-bit error of a store
        ∧ (∀ x ix, kept = none → gapLogAt a = false → regAt a = some (x, ix) → x.reg = .engDbgDataLo →
          let key := ekey (ix.getD 0 0) (ix.getD 1 0)
          let at_ := dbgAddr key s
          let k := badKey at_.1 (if at_.1 = 1 then at_.2.2 / 128 else at_.2.2)
          let soft : Prop := (eng key s).halted = true ∧ at_.1 < 3 ∧ k ∈ (eng key s).soft
          (¬ soft → r = (peek a s, latch 4 s))
          ∧ (soft → r = (peek a s, latch 4 (bump (engCnt key 4) (setEng key (fun e => { e with
              bad := mdel e.bad k, soft := e.soft.filter (fun y => y != k) }) s)))))
        ∧ (∀ x ix, kept = none → gapLogAt a = false → who = .tw0 → regAt a = some (x, ix) → x.reg = .spiRx ∨ x.reg = .trigInFifoLo → r = (0, s)))))
  ∧ (∀ (ofs : BitVec 24) (v : Word) (s : State),
    let r := readDw .regacc false (ofs.toNat / 4 * 4) s
    exec (.jtagRegacc ofs (some v)) s = exec (.registerWrite .regacc false ofs (.dw 15 v) []) s
    ∧ exec (.jtagRegacc ofs none) s = .next (emit (.regacc (BitVec.ofNat 32 r.1)) r.2))
  -- the debugger of an engine (R185, R186)
  ∧ (∀ (who : Requester) (q : Fin 4) (k : Fin 52) (v : Word) (s : State), writesOk who (dbgCtl (ekey q k)) v s = true →
    let key := ekey q k
    let a := putReg (dbgCtl key) v s
    let halted (h : Bool) (t : State) : State := setEng key (fun e => { e with halted := h }) t
    let freed := halted false a
    let step := v.getLsbD 31 && v.getLsbD 30
    let stops : State := if (eng key s).halted then a else setEng key (fun e => { e with halted := true, haltAt := none }) (markBack key a)
    (v.getLsbD 31 = false → (eng key s).halted = true → exec (.debugResume who q k v) s = .next (stopWaitingCancels key freed))
    ∧ (v.getLsbD 31 = false → (eng key s).halted = false → exec (.debugResume who q k v) s = .next a)
    ∧ (v.getLsbD 31 = true → exec (.debugResume who q k v) s = .next s)
    ∧ (v.getLsbD 31 = true → step = false → exec (.debugHalt who q k v) s = .next stops)
    ∧ ((v.getLsbD 31 = false ∨ step = true) → exec (.debugHalt who q k v) s = .next s)
    ∧ (step = false → exec (.debugStep who q k v) s = .next s)
    ∧ (step = true → (eng key s).halted = false → exec (.debugStep who q k v) s = .next stops)
    ∧ (step = true → (eng key s).halted = true →
      let i : Instr := .debugStep who q k v
      (boundary key freed = none → exec i s = .next a)
      ∧ (∀ n, boundary key freed = some n →
        let waits : Prop := engStopped key freed = true ∨ ((task key n freed).tpWait = true ∧ 32 ≤ (eng key freed).tpq.length)
        (waits → exec i s = .next a)
        ∧ (¬ waits → exec i s = .next (halted true (markBack key (issue key n (setTask key n (fun t => { t with tpWait := false }) (switchTo key n freed)))))))))
  ∧ (∀ (who : Requester) (q : Fin 4) (k : Fin 52) (hi : Option Word) (lo : Word) (s : State),
    let key := ekey q k
    let a := engBase q k + 0x24
    let emptied : State := { s with wrLatch := mdel s.wrLatch (latchAt who (a + 4)) }
    let h : Nat := match hi with | some w => w.toNat | none => (heldHi who a s).getD (peek (a + 4) s)
    let v := lo.toNat + h * 2 ^ 32
    let w : EWord := BitVec.ofNat 40 v
    let at_ := dbgAddr key s
    let ok : Prop := match hi with
      | none => writesOk who a lo s = true
      | some w => writesOk who (a + 4) w s = true ∧ writesOk who a lo (holdHi who (a + 4) w.toNat s) = true
    let good (space : Nat) (e : EngSt) : EngSt := { e with
      bad := mdel e.bad (badKey space at_.2.2), soft := e.soft.filter (fun y => y != badKey space at_.2.2) }
    let does (t : State) : Prop := exec (.debugWrite who q k hi lo) s = .next t
    ok → (eng key s).halted = true ∧ does (dbgWrite key v emptied)
      ∧ (at_.1 = 0 → does (setEng key (fun e => good 0 { e with data := stPut emptyWord e.data at_.2.2 w }) emptied))
      ∧ (at_.1 = 2 → does (setEng key (fun e => good 2 { e with prog := stPut 0 e.prog at_.2.2 (v % 65536) }) emptied))
      ∧ (at_.1 = 3 → ∃ t, does t ∧ fromBottom (task key at_.2.1 t).sStk at_.2.2 = some w
        ∧ (task key at_.2.1 t).sStk.length = (task key at_.2.1 s).sStk.length
        ∧ ∀ j, j ≠ at_.2.2 → fromBottom (task key at_.2.1 t).sStk j = fromBottom (task key at_.2.1 s).sStk j)
      ∧ (at_.1 = 4 → ∃ t, does t ∧ fromBottom (task key at_.2.1 t).mStk at_.2.2 = some w
        ∧ (task key at_.2.1 t).mStk.length = (task key at_.2.1 s).mStk.length
        ∧ ∀ j, j ≠ at_.2.2 → fromBottom (task key at_.2.1 t).mStk j = fromBottom (task key at_.2.1 s).mStk j))

/-- R542: what no register holds is undecoded: every address outside the spans of the table of R541, 0x500000 to 0xFFFFFF, and the gaps inside a
span. An undecoded address reads 0, and a write to one is refused with reason UNDECODED (5); a REGACC write to a block held in reset has the lower
reason STATE (4) of R540. -/
def Obligations.UndecodedAddresses : Prop :=
  (∀ a : Nat,
    let q := a % 0x100000
    let central := [(0, 0x1000), (0x1000, 0x1000), (0x2000, 0x1000), (0x3000, 0x1000), (0x10000, 0x6000), (0x20000, 0x10000), (0x30000, 0x1000),
      (0x40000, 0x1000), (0x41000, 0x1000), (0x42000, 0x1000), (0x43000, 0x1000), (0x44000, 0x1000), (0x50000, 0x1000), (0x60000, 0x4000),
      (0x70000, 0x1000), (0x80000, 0xC000)]
    let quad := [(0, 0x10000), (0x10000, 0x10000), (0x40000, 0x40000), (0x80000, 0xD000), (0xC0000, 0x1000), (0xD0000, 0x1000), (0xE0000, 0x1000)]
    let inside (l : List (Nat × Nat)) (a : Nat) : Bool := l.any (fun e => decide (e.1 ≤ a ∧ a < e.1 + e.2))
    (inside central a = false → (a < 0x100000 ∨ 0x500000 ≤ a ∨ inside quad q = false) → regAt a = none ∧ gapLogAt a = false)
    ∧ (0x500000 ≤ a → regAt a = none ∧ gapLogAt a = false))
  ∧ (∀ (who : Requester) (ofs : BitVec 24) (a : Nat) (s : State), who ≠ .tw0 → reaches who s = true →
    placeOf who (ofs.toNat / 4 * 4) = some a → regAt a = none → gapLogAt a = false →
    let o := ofs.toNat / 4 * 4
    exec (.loReadLatch who false ofs 1) s = .next (emit (.readData who o 0) s)
    ∧ (∀ (v : Word) (bus : List TwTry),
      let w (reason : Nat) : Prop := exec (.registerWrite who false ofs (.dw 15 v) bus) s = .next (logRefusal who false o v.toNat reason s)
      (¬ (who = .regacc ∧ blockHeld a s = true) → w 5) ∧ ((who = .regacc ∧ blockHeld a s = true) → w 4)))

/-! ### The block as a whole -/

/-- Commands are taken first in, first out: with a command at the front of the queue, a step is that command's execution on the
rest of the queue; with none waiting it is one tick of the 625 MHz clock (the model's choice, notes/assumptions/3.md). -/
def Obligations.FrontCommandRuns : Prop :=
  (∀ (c : Instr) (q : List Instr) (s : State), s.pending = c :: q → step s = exec c { s with pending := q })
  ∧ ∀ s : State, s.pending = [] → step s = .next (blockTick s)

/-- R41, R456, R463, R469: after power-on the block is in BRINGUP with every reset domain held by an L0 reset that waits for power, nothing waiting and
nothing driven; every register reads its reset value (the values named in the log where the spec gives none), every counter 0. Choices of the model
in it: notes/assumptions/28, 77. -/
def Obligations.ResetState : Prop :=
  let s := State.reset
  s.mode.current = .bringup ∧ s.pending = [] ∧ s.out = [] ∧ s.ticks = 0
  ∧ s.rst.cur = some ⟨0, 0, 0, some .power, [1, 2, 3, 4, 5, 6, 7, 8, 9, 10, 11], 0, 0⟩ ∧ s.rst.held = []
  ∧ centralUp s = false
  ∧ (∀ a, reg a s = resetOf a) ∧ (∀ a, cnt a s = 0)
  ∧ regsWf s = true ∧ cntsWf s = true
  ∧ s.jrnl.head = 0 ∧ s.jrnl.entries = [] ∧ s.jrnl.inflight = [] ∧ (∀ o, objVer o s = 0 ∧ ownerOf o s = none)
  ∧ (∀ f r, (ring f r s).en = false) ∧ (∀ k, stream k s = none) ∧ (∀ p, (port p s).linkUp = false)
  ∧ (∀ key slot, (task key slot s).state = .free) ∧ (∀ b, hostUp b s = false)

/-- Every step of the block keeps its stores in form: registers and counters stay sorted by place, no register's entry equals its reset value,
every counter stays below 2^64; and it undoes nothing: what was driven stays driven, free values are not used twice, a command leaves the rest
of the queue and the clock as they are, and the idle block's clock moves by one tick. -/
def Obligations.EveryStepKeeps : Prop :=
  ∀ s t : State, step s = .next t →
    (regsWf s = true → regsWf t = true) ∧ (cntsWf s = true → cntsWf t = true)
    ∧ s.out <+: t.out ∧ s.freeIdx ≤ t.freeIdx
    ∧ (∀ c q, s.pending = c :: q → t.pending = q ∧ t.ticks = s.ticks)
    ∧ (s.pending = [] → t.pending = [] ∧ t.ticks = s.ticks + 1)

/-- R350, R355, R358, R359, R382, R383, R386, R387, R394, R398, R402: what becomes of any descriptor: it is no event while the device may not read its ring, a
held ring shows HELD, a failed parameter block stops the ring; else it is consumed and journaled, and accepted (versions advance, a configuring
command takes its free objects, the command is in flight until it completes with its one entry) or rejected and completed. Choices of the model in
it: notes/assumptions/27, 103, 113. -/
def Obligations.DescriptorLife : Prop :=
  ∀ (c : CmdSpec) (d : Desc) (own : State → Status) (run : Src → State → State) (rej : Status → State → State) (s : State),
    let src := srcOf c.op d s
    let a := accept c d src s
    (canReach d s = false → serve c d own run s rej = s)
    -- a held ring shows it, and remembers an ORDERED descriptor; another ring's turn comes first (R359)
    ∧ (canReach d s = true → ringHeld d s = true → serve c d own run s rej = showRing d.func d.ring 3
      (if bit d.flags.toNat 23 = true then setRing d.func d.ring (fun r => { r with ordered := true }) s else s))
    ∧ (ringHeld d s = false → ringTurn d.func d.ring s = false → serve c d own run s rej = s)
    ∧ (canServe d s = true →
      (c.pb = none → serve c d own run s rej = stopRing d.func d.ring .fault s)
      ∧ (c.pb ≠ none → judge c d own s = .ok →
        serve c d own run s rej = run src a
        ∧ consumed d s a ∧ entered c d .ok s a ∧ settledTo s a
        ∧ (((c.objs.filter (fun o => decide (o.type ≠ 0))).map objKey).Nodup → versioned (if c.quiet then [] else c.objs) s a)
        ∧ (c.config = true → ∀ o ∈ c.objs, ownable o = true → ownerOf o a = some ((ownerOf o s).getD d.func))
        ∧ a.jrnl.inflight = s.jrnl.inflight ++ [⟨src, c.wait⟩]
        ∧ (∀ (st : Status) (result : Nat),
          answered c d st result s (complete src st result a) ∧ settledTo s (complete src st result a)
          ∧ src ∉ (complete src st result a).jrnl.inflight.map (·.src)))
      ∧ (c.pb ≠ none → ∀ st, judge c d own s = st → st ≠ .ok →
        let x := reject c d st src s
        serve c d own run s rej = rej st x
        ∧ consumed d s x ∧ entered c d st s x ∧ answered c d st 0 s x ∧ versioned [] s x ∧ settledTo s x))
end

