-- ==== Sys2Proof/Laws/State.lean ====
section
/-! SUPPORT. What each update of the state leaves in each of its fields: one lemma per field per update, so that no proof unfolds
a record update. -/

namespace Sys2Proof.Machine

variable (s : State)

/-! ### setReg -/

@[simp] theorem setReg_pending (a v : Nat) : (setReg a v s).pending = s.pending := rfl
@[simp] theorem setReg_freeIdx (a v : Nat) : (setReg a v s).freeIdx = s.freeIdx := rfl
@[simp] theorem setReg_ticks (a v : Nat) : (setReg a v s).ticks = s.ticks := rfl
@[simp] theorem setReg_out (a v : Nat) : (setReg a v s).out = s.out := rfl
@[simp] theorem setReg_regs (a v : Nat) : (setReg a v s).regs = if v % 2 ^ 32 = resetOf a then mdel s.regs a else mput s.regs a (BitVec.ofNat 32 v) := rfl
@[simp] theorem setReg_cnts (a v : Nat) : (setReg a v s).cnts = s.cnts := rfl
@[simp] theorem setReg_rdLatch (a v : Nat) : (setReg a v s).rdLatch = s.rdLatch := rfl
@[simp] theorem setReg_wrLatch (a v : Nat) : (setReg a v s).wrLatch = s.wrLatch := rfl
@[simp] theorem setReg_mode (a v : Nat) : (setReg a v s).mode = s.mode := rfl
@[simp] theorem setReg_rst (a v : Nat) : (setReg a v s).rst = s.rst := rfl
@[simp] theorem setReg_fuses (a v : Nat) : (setReg a v s).fuses = s.fuses := rfl
@[simp] theorem setReg_time (a v : Nat) : (setReg a v s).time = s.time := rfl
@[simp] theorem setReg_host (a v : Nat) : (setReg a v s).host = s.host := rfl
@[simp] theorem setReg_jrnl (a v : Nat) : (setReg a v s).jrnl = s.jrnl := rfl
@[simp] theorem setReg_ports (a v : Nat) : (setReg a v s).ports = s.ports := rfl
@[simp] theorem setReg_streams (a v : Nat) : (setReg a v s).streams = s.streams := rfl
@[simp] theorem setReg_gapLog (a v : Nat) : (setReg a v s).gapLog = s.gapLog := rfl
@[simp] theorem setReg_gapHead (a v : Nat) : (setReg a v s).gapHead = s.gapHead := rfl
@[simp] theorem setReg_engines (a v : Nat) : (setReg a v s).engines = s.engines := rfl
@[simp] theorem setReg_engMap (a v : Nat) : (setReg a v s).engMap = s.engMap := rfl
@[simp] theorem setReg_bufs (a v : Nat) : (setReg a v s).bufs = s.bufs := rfl
@[simp] theorem setReg_msgs (a v : Nat) : (setReg a v s).msgs = s.msgs := rfl
@[simp] theorem setReg_evt (a v : Nat) : (setReg a v s).evt = s.evt := rfl
@[simp] theorem setReg_trig (a v : Nat) : (setReg a v s).trig = s.trig := rfl
@[simp] theorem setReg_sys (a v : Nat) : (setReg a v s).sys = s.sys := rfl
@[simp] theorem setReg_pace (a v : Nat) : (setReg a v s).pace = s.pace := rfl
@[simp] theorem setReg_repair (a v : Nat) : (setReg a v s).repair = s.repair := rfl
@[simp] theorem setReg_flash (a v : Nat) : (setReg a v s).flash = s.flash := rfl
@[simp] theorem setReg_spis (a v : Nat) : (setReg a v s).spis = s.spis := rfl
@[simp] theorem setReg_tw (a v : Nat) : (setReg a v s).tw = s.tw := rfl
@[simp] theorem setReg_tmr (a v : Nat) : (setReg a v s).tmr = s.tmr := rfl

/-! ### setFld -/

@[simp] theorem setFld_pending (a hi lo x : Nat) : (setFld a hi lo x s).pending = s.pending := rfl
@[simp] theorem setFld_freeIdx (a hi lo x : Nat) : (setFld a hi lo x s).freeIdx = s.freeIdx := rfl
@[simp] theorem setFld_ticks (a hi lo x : Nat) : (setFld a hi lo x s).ticks = s.ticks := rfl
@[simp] theorem setFld_out (a hi lo x : Nat) : (setFld a hi lo x s).out = s.out := rfl
@[simp] theorem setFld_regs (a hi lo x : Nat) : (setFld a hi lo x s).regs = (setReg a (putBits (reg a s) hi lo x) s).regs := rfl
@[simp] theorem setFld_cnts (a hi lo x : Nat) : (setFld a hi lo x s).cnts = s.cnts := rfl
@[simp] theorem setFld_rdLatch (a hi lo x : Nat) : (setFld a hi lo x s).rdLatch = s.rdLatch := rfl
@[simp] theorem setFld_wrLatch (a hi lo x : Nat) : (setFld a hi lo x s).wrLatch = s.wrLatch := rfl
@[simp] theorem setFld_mode (a hi lo x : Nat) : (setFld a hi lo x s).mode = s.mode := rfl
@[simp] theorem setFld_rst (a hi lo x : Nat) : (setFld a hi lo x s).rst = s.rst := rfl
@[simp] theorem setFld_fuses (a hi lo x : Nat) : (setFld a hi lo x s).fuses = s.fuses := rfl
@[simp] theorem setFld_time (a hi lo x : Nat) : (setFld a hi lo x s).time = s.time := rfl
@[simp] theorem setFld_host (a hi lo x : Nat) : (setFld a hi lo x s).host = s.host := rfl
@[simp] theorem setFld_jrnl (a hi lo x : Nat) : (setFld a hi lo x s).jrnl = s.jrnl := rfl
@[simp] theorem setFld_ports (a hi lo x : Nat) : (setFld a hi lo x s).ports = s.ports := rfl
@[simp] theorem setFld_streams (a hi lo x : Nat) : (setFld a hi lo x s).streams = s.streams := rfl
@[simp] theorem setFld_gapLog (a hi lo x : Nat) : (setFld a hi lo x s).gapLog = s.gapLog := rfl
@[simp] theorem setFld_gapHead (a hi lo x : Nat) : (setFld a hi lo x s).gapHead = s.gapHead := rfl
@[simp] theorem setFld_engines (a hi lo x : Nat) : (setFld a hi lo x s).engines = s.engines := rfl
@[simp] theorem setFld_engMap (a hi lo x : Nat) : (setFld a hi lo x s).engMap = s.engMap := rfl
@[simp] theorem setFld_bufs (a hi lo x : Nat) : (setFld a hi lo x s).bufs = s.bufs := rfl
@[simp] theorem setFld_msgs (a hi lo x : Nat) : (setFld a hi lo x s).msgs = s.msgs := rfl
@[simp] theorem setFld_evt (a hi lo x : Nat) : (setFld a hi lo x s).evt = s.evt := rfl
@[simp] theorem setFld_trig (a hi lo x : Nat) : (setFld a hi lo x s).trig = s.trig := rfl
@[simp] theorem setFld_sys (a hi lo x : Nat) : (setFld a hi lo x s).sys = s.sys := rfl
@[simp] theorem setFld_pace (a hi lo x : Nat) : (setFld a hi lo x s).pace = s.pace := rfl
@[simp] theorem setFld_repair (a hi lo x : Nat) : (setFld a hi lo x s).repair = s.repair := rfl
@[simp] theorem setFld_flash (a hi lo x : Nat) : (setFld a hi lo x s).flash = s.flash := rfl
@[simp] theorem setFld_spis (a hi lo x : Nat) : (setFld a hi lo x s).spis = s.spis := rfl
@[simp] theorem setFld_tw (a hi lo x : Nat) : (setFld a hi lo x s).tw = s.tw := rfl
@[simp] theorem setFld_tmr (a hi lo x : Nat) : (setFld a hi lo x s).tmr = s.tmr := rfl

/-! ### bumpN -/

@[simp] theorem bumpN_pending (a n : Nat) : (bumpN a n s).pending = s.pending := rfl
@[simp] theorem bumpN_freeIdx (a n : Nat) : (bumpN a n s).freeIdx = s.freeIdx := rfl
@[simp] theorem bumpN_ticks (a n : Nat) : (bumpN a n s).ticks = s.ticks := rfl
@[simp] theorem bumpN_out (a n : Nat) : (bumpN a n s).out = s.out := rfl
@[simp] theorem bumpN_regs (a n : Nat) : (bumpN a n s).regs = s.regs := rfl
@[simp] theorem bumpN_cnts (a n : Nat) : (bumpN a n s).cnts = mput s.cnts a ((mget 0 s.cnts a + n) % 2 ^ 64) := rfl
@[simp] theorem bumpN_rdLatch (a n : Nat) : (bumpN a n s).rdLatch = s.rdLatch := rfl
@[simp] theorem bumpN_wrLatch (a n : Nat) : (bumpN a n s).wrLatch = s.wrLatch := rfl
@[simp] theorem bumpN_mode (a n : Nat) : (bumpN a n s).mode = s.mode := rfl
@[simp] theorem bumpN_rst (a n : Nat) : (bumpN a n s).rst = s.rst := rfl
@[simp] theorem bumpN_fuses (a n : Nat) : (bumpN a n s).fuses = s.fuses := rfl
@[simp] theorem bumpN_time (a n : Nat) : (bumpN a n s).time = s.time := rfl
@[simp] theorem bumpN_host (a n : Nat) : (bumpN a n s).host = s.host := rfl
@[simp] theorem bumpN_jrnl (a n : Nat) : (bumpN a n s).jrnl = s.jrnl := rfl
@[simp] theorem bumpN_ports (a n : Nat) : (bumpN a n s).ports = s.ports := rfl
@[simp] theorem bumpN_streams (a n : Nat) : (bumpN a n s).streams = s.streams := rfl
@[simp] theorem bumpN_gapLog (a n : Nat) : (bumpN a n s).gapLog = s.gapLog := rfl
@[simp] theorem bumpN_gapHead (a n : Nat) : (bumpN a n s).gapHead = s.gapHead := rfl
@[simp] theorem bumpN_engines (a n : Nat) : (bumpN a n s).engines = s.engines := rfl
@[simp] theorem bumpN_engMap (a n : Nat) : (bumpN a n s).engMap = s.engMap := rfl
@[simp] theorem bumpN_bufs (a n : Nat) : (bumpN a n s).bufs = s.bufs := rfl
@[simp] theorem bumpN_msgs (a n : Nat) : (bumpN a n s).msgs = s.msgs := rfl
@[simp] theorem bumpN_evt (a n : Nat) : (bumpN a n s).evt = s.evt := rfl
@[simp] theorem bumpN_trig (a n : Nat) : (bumpN a n s).trig = s.trig := rfl
@[simp] theorem bumpN_sys (a n : Nat) : (bumpN a n s).sys = s.sys := rfl
@[simp] theorem bumpN_pace (a n : Nat) : (bumpN a n s).pace = s.pace := rfl
@[simp] theorem bumpN_repair (a n : Nat) : (bumpN a n s).repair = s.repair := rfl
@[simp] theorem bumpN_flash (a n : Nat) : (bumpN a n s).flash = s.flash := rfl
@[simp] theorem bumpN_spis (a n : Nat) : (bumpN a n s).spis = s.spis := rfl
@[simp] theorem bumpN_tw (a n : Nat) : (bumpN a n s).tw = s.tw := rfl
@[simp] theorem bumpN_tmr (a n : Nat) : (bumpN a n s).tmr = s.tmr := rfl

/-! ### bump -/

@[simp] theorem bump_pending (a : Nat) : (bump a s).pending = s.pending := rfl
@[simp] theorem bump_freeIdx (a : Nat) : (bump a s).freeIdx = s.freeIdx := rfl
@[simp] theorem bump_ticks (a : Nat) : (bump a s).ticks = s.ticks := rfl
@[simp] theorem bump_out (a : Nat) : (bump a s).out = s.out := rfl
@[simp] theorem bump_regs (a : Nat) : (bump a s).regs = s.regs := rfl
@[simp] theorem bump_cnts (a : Nat) : (bump a s).cnts = mput s.cnts a ((mget 0 s.cnts a + 1) % 2 ^ 64) := rfl
@[simp] theorem bump_rdLatch (a : Nat) : (bump a s).rdLatch = s.rdLatch := rfl
@[simp] theorem bump_wrLatch (a : Nat) : (bump a s).wrLatch = s.wrLatch := rfl
@[simp] theorem bump_mode (a : Nat) : (bump a s).mode = s.mode := rfl
@[simp] theorem bump_rst (a : Nat) : (bump a s).rst = s.rst := rfl
@[simp] theorem bump_fuses (a : Nat) : (bump a s).fuses = s.fuses := rfl
@[simp] theorem bump_time (a : Nat) : (bump a s).time = s.time := rfl
@[simp] theorem bump_host (a : Nat) : (bump a s).host = s.host := rfl
@[simp] theorem bump_jrnl (a : Nat) : (bump a s).jrnl = s.jrnl := rfl
@[simp] theorem bump_ports (a : Nat) : (bump a s).ports = s.ports := rfl
@[simp] theorem bump_streams (a : Nat) : (bump a s).streams = s.streams := rfl
@[simp] theorem bump_gapLog (a : Nat) : (bump a s).gapLog = s.gapLog := rfl
@[simp] theorem bump_gapHead (a : Nat) : (bump a s).gapHead = s.gapHead := rfl
@[simp] theorem bump_engines (a : Nat) : (bump a s).engines = s.engines := rfl
@[simp] theorem bump_engMap (a : Nat) : (bump a s).engMap = s.engMap := rfl
@[simp] theorem bump_bufs (a : Nat) : (bump a s).bufs = s.bufs := rfl
@[simp] theorem bump_msgs (a : Nat) : (bump a s).msgs = s.msgs := rfl
@[simp] theorem bump_evt (a : Nat) : (bump a s).evt = s.evt := rfl
@[simp] theorem bump_trig (a : Nat) : (bump a s).trig = s.trig := rfl
@[simp] theorem bump_sys (a : Nat) : (bump a s).sys = s.sys := rfl
@[simp] theorem bump_pace (a : Nat) : (bump a s).pace = s.pace := rfl
@[simp] theorem bump_repair (a : Nat) : (bump a s).repair = s.repair := rfl
@[simp] theorem bump_flash (a : Nat) : (bump a s).flash = s.flash := rfl
@[simp] theorem bump_spis (a : Nat) : (bump a s).spis = s.spis := rfl
@[simp] theorem bump_tw (a : Nat) : (bump a s).tw = s.tw := rfl
@[simp] theorem bump_tmr (a : Nat) : (bump a s).tmr = s.tmr := rfl

/-! ### emit -/

@[simp] theorem emit_pending (o : Output) : (emit o s).pending = s.pending := rfl
@[simp] theorem emit_freeIdx (o : Output) : (emit o s).freeIdx = s.freeIdx := rfl
@[simp] theorem emit_ticks (o : Output) : (emit o s).ticks = s.ticks := rfl
@[simp] theorem emit_out (o : Output) : (emit o s).out = s.out ++ [o] := rfl
@[simp] theorem emit_regs (o : Output) : (emit o s).regs = s.regs := rfl
@[simp] theorem emit_cnts (o : Output) : (emit o s).cnts = s.cnts := rfl
@[simp] theorem emit_rdLatch (o : Output) : (emit o s).rdLatch = s.rdLatch := rfl
@[simp] theorem emit_wrLatch (o : Output) : (emit o s).wrLatch = s.wrLatch := rfl
@[simp] theorem emit_mode (o : Output) : (emit o s).mode = s.mode := rfl
@[simp] theorem emit_rst (o : Output) : (emit o s).rst = s.rst := rfl
@[simp] theorem emit_fuses (o : Output) : (emit o s).fuses = s.fuses := rfl
@[simp] theorem emit_time (o : Output) : (emit o s).time = s.time := rfl
@[simp] theorem emit_host (o : Output) : (emit o s).host = s.host := rfl
@[simp] theorem emit_jrnl (o : Output) : (emit o s).jrnl = s.jrnl := rfl
@[simp] theorem emit_ports (o : Output) : (emit o s).ports = s.ports := rfl
@[simp] theorem emit_streams (o : Output) : (emit o s).streams = s.streams := rfl
@[simp] theorem emit_gapLog (o : Output) : (emit o s).gapLog = s.gapLog := rfl
@[simp] theorem emit_gapHead (o : Output) : (emit o s).gapHead = s.gapHead := rfl
@[simp] theorem emit_engines (o : Output) : (emit o s).engines = s.engines := rfl
@[simp] theorem emit_engMap (o : Output) : (emit o s).engMap = s.engMap := rfl
@[simp] theorem emit_bufs (o : Output) : (emit o s).bufs = s.bufs := rfl
@[simp] theorem emit_msgs (o : Output) : (emit o s).msgs = s.msgs := rfl
@[simp] theorem emit_evt (o : Output) : (emit o s).evt = s.evt := rfl
@[simp] theorem emit_trig (o : Output) : (emit o s).trig = s.trig := rfl
@[simp] theorem emit_sys (o : Output) : (emit o s).sys = s.sys := rfl
@[simp] theorem emit_pace (o : Output) : (emit o s).pace = s.pace := rfl
@[simp] theorem emit_repair (o : Output) : (emit o s).repair = s.repair := rfl
@[simp] theorem emit_flash (o : Output) : (emit o s).flash = s.flash := rfl
@[simp] theorem emit_spis (o : Output) : (emit o s).spis = s.spis := rfl
@[simp] theorem emit_tw (o : Output) : (emit o s).tw = s.tw := rfl
@[simp] theorem emit_tmr (o : Output) : (emit o s).tmr = s.tmr := rfl

/-! ### setFn -/

@[simp] theorem setFn_pending (i : Nat) (f : FnSt → FnSt) : (setFn i f s).pending = s.pending := rfl
@[simp] theorem setFn_freeIdx (i : Nat) (f : FnSt → FnSt) : (setFn i f s).freeIdx = s.freeIdx := rfl
@[simp] theorem setFn_ticks (i : Nat) (f : FnSt → FnSt) : (setFn i f s).ticks = s.ticks := rfl
@[simp] theorem setFn_out (i : Nat) (f : FnSt → FnSt) : (setFn i f s).out = s.out := rfl
@[simp] theorem setFn_regs (i : Nat) (f : FnSt → FnSt) : (setFn i f s).regs = s.regs := rfl
@[simp] theorem setFn_cnts (i : Nat) (f : FnSt → FnSt) : (setFn i f s).cnts = s.cnts := rfl
@[simp] theorem setFn_rdLatch (i : Nat) (f : FnSt → FnSt) : (setFn i f s).rdLatch = s.rdLatch := rfl
@[simp] theorem setFn_wrLatch (i : Nat) (f : FnSt → FnSt) : (setFn i f s).wrLatch = s.wrLatch := rfl
@[simp] theorem setFn_mode (i : Nat) (f : FnSt → FnSt) : (setFn i f s).mode = s.mode := rfl
@[simp] theorem setFn_rst (i : Nat) (f : FnSt → FnSt) : (setFn i f s).rst = s.rst := rfl
@[simp] theorem setFn_fuses (i : Nat) (f : FnSt → FnSt) : (setFn i f s).fuses = s.fuses := rfl
@[simp] theorem setFn_time (i : Nat) (f : FnSt → FnSt) : (setFn i f s).time = s.time := rfl
@[simp] theorem setFn_host (i : Nat) (f : FnSt → FnSt) : (setFn i f s).host = { s.host with fns := mmod {} s.host.fns i f } := rfl
@[simp] theorem setFn_jrnl (i : Nat) (f : FnSt → FnSt) : (setFn i f s).jrnl = s.jrnl := rfl
@[simp] theorem setFn_ports (i : Nat) (f : FnSt → FnSt) : (setFn i f s).ports = s.ports := rfl
@[simp] theorem setFn_streams (i : Nat) (f : FnSt → FnSt) : (setFn i f s).streams = s.streams := rfl
@[simp] theorem setFn_gapLog (i : Nat) (f : FnSt → FnSt) : (setFn i f s).gapLog = s.gapLog := rfl
@[simp] theorem setFn_gapHead (i : Nat) (f : FnSt → FnSt) : (setFn i f s).gapHead = s.gapHead := rfl
@[simp] theorem setFn_engines (i : Nat) (f : FnSt → FnSt) : (setFn i f s).engines = s.engines := rfl
@[simp] theorem setFn_engMap (i : Nat) (f : FnSt → FnSt) : (setFn i f s).engMap = s.engMap := rfl
@[simp] theorem setFn_bufs (i : Nat) (f : FnSt → FnSt) : (setFn i f s).bufs = s.bufs := rfl
@[simp] theorem setFn_msgs (i : Nat) (f : FnSt → FnSt) : (setFn i f s).msgs = s.msgs := rfl
@[simp] theorem setFn_evt (i : Nat) (f : FnSt → FnSt) : (setFn i f s).evt = s.evt := rfl
@[simp] theorem setFn_trig (i : Nat) (f : FnSt → FnSt) : (setFn i f s).trig = s.trig := rfl
@[simp] theorem setFn_sys (i : Nat) (f : FnSt → FnSt) : (setFn i f s).sys = s.sys := rfl
@[simp] theorem setFn_pace (i : Nat) (f : FnSt → FnSt) : (setFn i f s).pace = s.pace := rfl
@[simp] theorem setFn_repair (i : Nat) (f : FnSt → FnSt) : (setFn i f s).repair = s.repair := rfl
@[simp] theorem setFn_flash (i : Nat) (f : FnSt → FnSt) : (setFn i f s).flash = s.flash := rfl
@[simp] theorem setFn_spis (i : Nat) (f : FnSt → FnSt) : (setFn i f s).spis = s.spis := rfl
@[simp] theorem setFn_tw (i : Nat) (f : FnSt → FnSt) : (setFn i f s).tw = s.tw := rfl
@[simp] theorem setFn_tmr (i : Nat) (f : FnSt → FnSt) : (setFn i f s).tmr = s.tmr := rfl

/-! ### setRing -/

@[simp] theorem setRing_pending (i k : Nat) (f : RingSt → RingSt) : (setRing i k f s).pending = s.pending := rfl
@[simp] theorem setRing_freeIdx (i k : Nat) (f : RingSt → RingSt) : (setRing i k f s).freeIdx = s.freeIdx := rfl
@[simp] theorem setRing_ticks (i k : Nat) (f : RingSt → RingSt) : (setRing i k f s).ticks = s.ticks := rfl
@[simp] theorem setRing_out (i k : Nat) (f : RingSt → RingSt) : (setRing i k f s).out = s.out := rfl
@[simp] theorem setRing_regs (i k : Nat) (f : RingSt → RingSt) : (setRing i k f s).regs = s.regs := rfl
@[simp] theorem setRing_cnts (i k : Nat) (f : RingSt → RingSt) : (setRing i k f s).cnts = s.cnts := rfl
@[simp] theorem setRing_rdLatch (i k : Nat) (f : RingSt → RingSt) : (setRing i k f s).rdLatch = s.rdLatch := rfl
@[simp] theorem setRing_wrLatch (i k : Nat) (f : RingSt → RingSt) : (setRing i k f s).wrLatch = s.wrLatch := rfl
@[simp] theorem setRing_mode (i k : Nat) (f : RingSt → RingSt) : (setRing i k f s).mode = s.mode := rfl
@[simp] theorem setRing_rst (i k : Nat) (f : RingSt → RingSt) : (setRing i k f s).rst = s.rst := rfl
@[simp] theorem setRing_fuses (i k : Nat) (f : RingSt → RingSt) : (setRing i k f s).fuses = s.fuses := rfl
@[simp] theorem setRing_time (i k : Nat) (f : RingSt → RingSt) : (setRing i k f s).time = s.time := rfl
@[simp] theorem setRing_host (i k : Nat) (f : RingSt → RingSt) : (setRing i k f s).host = { s.host with fns := mmod {} s.host.fns i (fun x => { x with rings := mmod {} x.rings k f }) } := rfl
@[simp] theorem setRing_jrnl (i k : Nat) (f : RingSt → RingSt) : (setRing i k f s).jrnl = s.jrnl := rfl
@[simp] theorem setRing_ports (i k : Nat) (f : RingSt → RingSt) : (setRing i k f s).ports = s.ports := rfl
@[simp] theorem setRing_streams (i k : Nat) (f : RingSt → RingSt) : (setRing i k f s).streams = s.streams := rfl
@[simp] theorem setRing_gapLog (i k : Nat) (f : RingSt → RingSt) : (setRing i k f s).gapLog = s.gapLog := rfl
@[simp] theorem setRing_gapHead (i k : Nat) (f : RingSt → RingSt) : (setRing i k f s).gapHead = s.gapHead := rfl
@[simp] theorem setRing_engines (i k : Nat) (f : RingSt → RingSt) : (setRing i k f s).engines = s.engines := rfl
@[simp] theorem setRing_engMap (i k : Nat) (f : RingSt → RingSt) : (setRing i k f s).engMap = s.engMap := rfl
@[simp] theorem setRing_bufs (i k : Nat) (f : RingSt → RingSt) : (setRing i k f s).bufs = s.bufs := rfl
@[simp] theorem setRing_msgs (i k : Nat) (f : RingSt → RingSt) : (setRing i k f s).msgs = s.msgs := rfl
@[simp] theorem setRing_evt (i k : Nat) (f : RingSt → RingSt) : (setRing i k f s).evt = s.evt := rfl
@[simp] theorem setRing_trig (i k : Nat) (f : RingSt → RingSt) : (setRing i k f s).trig = s.trig := rfl
@[simp] theorem setRing_sys (i k : Nat) (f : RingSt → RingSt) : (setRing i k f s).sys = s.sys := rfl
@[simp] theorem setRing_pace (i k : Nat) (f : RingSt → RingSt) : (setRing i k f s).pace = s.pace := rfl
@[simp] theorem setRing_repair (i k : Nat) (f : RingSt → RingSt) : (setRing i k f s).repair = s.repair := rfl
@[simp] theorem setRing_flash (i k : Nat) (f : RingSt → RingSt) : (setRing i k f s).flash = s.flash := rfl
@[simp] theorem setRing_spis (i k : Nat) (f : RingSt → RingSt) : (setRing i k f s).spis = s.spis := rfl
@[simp] theorem setRing_tw (i k : Nat) (f : RingSt → RingSt) : (setRing i k f s).tw = s.tw := rfl
@[simp] theorem setRing_tmr (i k : Nat) (f : RingSt → RingSt) : (setRing i k f s).tmr = s.tmr := rfl

/-! ### setTb -/

@[simp] theorem setTb_pending (i : Nat) (f : TbSt → TbSt) : (setTb i f s).pending = s.pending := rfl
@[simp] theorem setTb_freeIdx (i : Nat) (f : TbSt → TbSt) : (setTb i f s).freeIdx = s.freeIdx := rfl
@[simp] theorem setTb_ticks (i : Nat) (f : TbSt → TbSt) : (setTb i f s).ticks = s.ticks := rfl
@[simp] theorem setTb_out (i : Nat) (f : TbSt → TbSt) : (setTb i f s).out = s.out := rfl
@[simp] theorem setTb_regs (i : Nat) (f : TbSt → TbSt) : (setTb i f s).regs = s.regs := rfl
@[simp] theorem setTb_cnts (i : Nat) (f : TbSt → TbSt) : (setTb i f s).cnts = s.cnts := rfl
@[simp] theorem setTb_rdLatch (i : Nat) (f : TbSt → TbSt) : (setTb i f s).rdLatch = s.rdLatch := rfl
@[simp] theorem setTb_wrLatch (i : Nat) (f : TbSt → TbSt) : (setTb i f s).wrLatch = s.wrLatch := rfl
@[simp] theorem setTb_mode (i : Nat) (f : TbSt → TbSt) : (setTb i f s).mode = s.mode := rfl
@[simp] theorem setTb_rst (i : Nat) (f : TbSt → TbSt) : (setTb i f s).rst = s.rst := rfl
@[simp] theorem setTb_fuses (i : Nat) (f : TbSt → TbSt) : (setTb i f s).fuses = s.fuses := rfl
@[simp] theorem setTb_time (i : Nat) (f : TbSt → TbSt) : (setTb i f s).time = { s.time with tbs := mmod {} s.time.tbs i f } := rfl
@[simp] theorem setTb_host (i : Nat) (f : TbSt → TbSt) : (setTb i f s).host = s.host := rfl
@[simp] theorem setTb_jrnl (i : Nat) (f : TbSt → TbSt) : (setTb i f s).jrnl = s.jrnl := rfl
@[simp] theorem setTb_ports (i : Nat) (f : TbSt → TbSt) : (setTb i f s).ports = s.ports := rfl
@[simp] theorem setTb_streams (i : Nat) (f : TbSt → TbSt) : (setTb i f s).streams = s.streams := rfl
@[simp] theorem setTb_gapLog (i : Nat) (f : TbSt → TbSt) : (setTb i f s).gapLog = s.gapLog := rfl
@[simp] theorem setTb_gapHead (i : Nat) (f : TbSt → TbSt) : (setTb i f s).gapHead = s.gapHead := rfl
@[simp] theorem setTb_engines (i : Nat) (f : TbSt → TbSt) : (setTb i f s).engines = s.engines := rfl
@[simp] theorem setTb_engMap (i : Nat) (f : TbSt → TbSt) : (setTb i f s).engMap = s.engMap := rfl
@[simp] theorem setTb_bufs (i : Nat) (f : TbSt → TbSt) : (setTb i f s).bufs = s.bufs := rfl
@[simp] theorem setTb_msgs (i : Nat) (f : TbSt → TbSt) : (setTb i f s).msgs = s.msgs := rfl
@[simp] theorem setTb_evt (i : Nat) (f : TbSt → TbSt) : (setTb i f s).evt = s.evt := rfl
@[simp] theorem setTb_trig (i : Nat) (f : TbSt → TbSt) : (setTb i f s).trig = s.trig := rfl
@[simp] theorem setTb_sys (i : Nat) (f : TbSt → TbSt) : (setTb i f s).sys = s.sys := rfl
@[simp] theorem setTb_pace (i : Nat) (f : TbSt → TbSt) : (setTb i f s).pace = s.pace := rfl
@[simp] theorem setTb_repair (i : Nat) (f : TbSt → TbSt) : (setTb i f s).repair = s.repair := rfl
@[simp] theorem setTb_flash (i : Nat) (f : TbSt → TbSt) : (setTb i f s).flash = s.flash := rfl
@[simp] theorem setTb_spis (i : Nat) (f : TbSt → TbSt) : (setTb i f s).spis = s.spis := rfl
@[simp] theorem setTb_tw (i : Nat) (f : TbSt → TbSt) : (setTb i f s).tw = s.tw := rfl
@[simp] theorem setTb_tmr (i : Nat) (f : TbSt → TbSt) : (setTb i f s).tmr = s.tmr := rfl

/-! ### setPort -/

@[simp] theorem setPort_pending (i : Nat) (f : PortSt → PortSt) : (setPort i f s).pending = s.pending := rfl
@[simp] theorem setPort_freeIdx (i : Nat) (f : PortSt → PortSt) : (setPort i f s).freeIdx = s.freeIdx := rfl
@[simp] theorem setPort_ticks (i : Nat) (f : PortSt → PortSt) : (setPort i f s).ticks = s.ticks := rfl
@[simp] theorem setPort_out (i : Nat) (f : PortSt → PortSt) : (setPort i f s).out = s.out := rfl
@[simp] theorem setPort_regs (i : Nat) (f : PortSt → PortSt) : (setPort i f s).regs = s.regs := rfl
@[simp] theorem setPort_cnts (i : Nat) (f : PortSt → PortSt) : (setPort i f s).cnts = s.cnts := rfl
@[simp] theorem setPort_rdLatch (i : Nat) (f : PortSt → PortSt) : (setPort i f s).rdLatch = s.rdLatch := rfl
@[simp] theorem setPort_wrLatch (i : Nat) (f : PortSt → PortSt) : (setPort i f s).wrLatch = s.wrLatch := rfl
@[simp] theorem setPort_mode (i : Nat) (f : PortSt → PortSt) : (setPort i f s).mode = s.mode := rfl
@[simp] theorem setPort_rst (i : Nat) (f : PortSt → PortSt) : (setPort i f s).rst = s.rst := rfl
@[simp] theorem setPort_fuses (i : Nat) (f : PortSt → PortSt) : (setPort i f s).fuses = s.fuses := rfl
@[simp] theorem setPort_time (i : Nat) (f : PortSt → PortSt) : (setPort i f s).time = s.time := rfl
@[simp] theorem setPort_host (i : Nat) (f : PortSt → PortSt) : (setPort i f s).host = s.host := rfl
@[simp] theorem setPort_jrnl (i : Nat) (f : PortSt → PortSt) : (setPort i f s).jrnl = s.jrnl := rfl
@[simp] theorem setPort_ports (i : Nat) (f : PortSt → PortSt) : (setPort i f s).ports = mmod {} s.ports i f := rfl
@[simp] theorem setPort_streams (i : Nat) (f : PortSt → PortSt) : (setPort i f s).streams = s.streams := rfl
@[simp] theorem setPort_gapLog (i : Nat) (f : PortSt → PortSt) : (setPort i f s).gapLog = s.gapLog := rfl
@[simp] theorem setPort_gapHead (i : Nat) (f : PortSt → PortSt) : (setPort i f s).gapHead = s.gapHead := rfl
@[simp] theorem setPort_engines (i : Nat) (f : PortSt → PortSt) : (setPort i f s).engines = s.engines := rfl
@[simp] theorem setPort_engMap (i : Nat) (f : PortSt → PortSt) : (setPort i f s).engMap = s.engMap := rfl
@[simp] theorem setPort_bufs (i : Nat) (f : PortSt → PortSt) : (setPort i f s).bufs = s.bufs := rfl
@[simp] theorem setPort_msgs (i : Nat) (f : PortSt → PortSt) : (setPort i f s).msgs = s.msgs := rfl
@[simp] theorem setPort_evt (i : Nat) (f : PortSt → PortSt) : (setPort i f s).evt = s.evt := rfl
@[simp] theorem setPort_trig (i : Nat) (f : PortSt → PortSt) : (setPort i f s).trig = s.trig := rfl
@[simp] theorem setPort_sys (i : Nat) (f : PortSt → PortSt) : (setPort i f s).sys = s.sys := rfl
@[simp] theorem setPort_pace (i : Nat) (f : PortSt → PortSt) : (setPort i f s).pace = s.pace := rfl
@[simp] theorem setPort_repair (i : Nat) (f : PortSt → PortSt) : (setPort i f s).repair = s.repair := rfl
@[simp] theorem setPort_flash (i : Nat) (f : PortSt → PortSt) : (setPort i f s).flash = s.flash := rfl
@[simp] theorem setPort_spis (i : Nat) (f : PortSt → PortSt) : (setPort i f s).spis = s.spis := rfl
@[simp] theorem setPort_tw (i : Nat) (f : PortSt → PortSt) : (setPort i f s).tw = s.tw := rfl
@[simp] theorem setPort_tmr (i : Nat) (f : PortSt → PortSt) : (setPort i f s).tmr = s.tmr := rfl

/-! ### setJrnl -/

@[simp] theorem setJrnl_pending (f : JrnlSt → JrnlSt) : (setJrnl f s).pending = s.pending := rfl
@[simp] theorem setJrnl_freeIdx (f : JrnlSt → JrnlSt) : (setJrnl f s).freeIdx = s.freeIdx := rfl
@[simp] theorem setJrnl_ticks (f : JrnlSt → JrnlSt) : (setJrnl f s).ticks = s.ticks := rfl
@[simp] theorem setJrnl_out (f : JrnlSt → JrnlSt) : (setJrnl f s).out = s.out := rfl
@[simp] theorem setJrnl_regs (f : JrnlSt → JrnlSt) : (setJrnl f s).regs = s.regs := rfl
@[simp] theorem setJrnl_cnts (f : JrnlSt → JrnlSt) : (setJrnl f s).cnts = s.cnts := rfl
@[simp] theorem setJrnl_rdLatch (f : JrnlSt → JrnlSt) : (setJrnl f s).rdLatch = s.rdLatch := rfl
@[simp] theorem setJrnl_wrLatch (f : JrnlSt → JrnlSt) : (setJrnl f s).wrLatch = s.wrLatch := rfl
@[simp] theorem setJrnl_mode (f : JrnlSt → JrnlSt) : (setJrnl f s).mode = s.mode := rfl
@[simp] theorem setJrnl_rst (f : JrnlSt → JrnlSt) : (setJrnl f s).rst = s.rst := rfl
@[simp] theorem setJrnl_fuses (f : JrnlSt → JrnlSt) : (setJrnl f s).fuses = s.fuses := rfl
@[simp] theorem setJrnl_time (f : JrnlSt → JrnlSt) : (setJrnl f s).time = s.time := rfl
@[simp] theorem setJrnl_host (f : JrnlSt → JrnlSt) : (setJrnl f s).host = s.host := rfl
@[simp] theorem setJrnl_jrnl (f : JrnlSt → JrnlSt) : (setJrnl f s).jrnl = f s.jrnl := rfl
@[simp] theorem setJrnl_ports (f : JrnlSt → JrnlSt) : (setJrnl f s).ports = s.ports := rfl
@[simp] theorem setJrnl_streams (f : JrnlSt → JrnlSt) : (setJrnl f s).streams = s.streams := rfl
@[simp] theorem setJrnl_gapLog (f : JrnlSt → JrnlSt) : (setJrnl f s).gapLog = s.gapLog := rfl
@[simp] theorem setJrnl_gapHead (f : JrnlSt → JrnlSt) : (setJrnl f s).gapHead = s.gapHead := rfl
@[simp] theorem setJrnl_engines (f : JrnlSt → JrnlSt) : (setJrnl f s).engines = s.engines := rfl
@[simp] theorem setJrnl_engMap (f : JrnlSt → JrnlSt) : (setJrnl f s).engMap = s.engMap := rfl
@[simp] theorem setJrnl_bufs (f : JrnlSt → JrnlSt) : (setJrnl f s).bufs = s.bufs := rfl
@[simp] theorem setJrnl_msgs (f : JrnlSt → JrnlSt) : (setJrnl f s).msgs = s.msgs := rfl
@[simp] theorem setJrnl_evt (f : JrnlSt → JrnlSt) : (setJrnl f s).evt = s.evt := rfl
@[simp] theorem setJrnl_trig (f : JrnlSt → JrnlSt) : (setJrnl f s).trig = s.trig := rfl
@[simp] theorem setJrnl_sys (f : JrnlSt → JrnlSt) : (setJrnl f s).sys = s.sys := rfl
@[simp] theorem setJrnl_pace (f : JrnlSt → JrnlSt) : (setJrnl f s).pace = s.pace := rfl
@[simp] theorem setJrnl_repair (f : JrnlSt → JrnlSt) : (setJrnl f s).repair = s.repair := rfl
@[simp] theorem setJrnl_flash (f : JrnlSt → JrnlSt) : (setJrnl f s).flash = s.flash := rfl
@[simp] theorem setJrnl_spis (f : JrnlSt → JrnlSt) : (setJrnl f s).spis = s.spis := rfl
@[simp] theorem setJrnl_tw (f : JrnlSt → JrnlSt) : (setJrnl f s).tw = s.tw := rfl
@[simp] theorem setJrnl_tmr (f : JrnlSt → JrnlSt) : (setJrnl f s).tmr = s.tmr := rfl

/-! ### setMode -/

@[simp] theorem setMode_pending (f : ModeSt → ModeSt) : (setMode f s).pending = s.pending := rfl
@[simp] theorem setMode_freeIdx (f : ModeSt → ModeSt) : (setMode f s).freeIdx = s.freeIdx := rfl
@[simp] theorem setMode_ticks (f : ModeSt → ModeSt) : (setMode f s).ticks = s.ticks := rfl
@[simp] theorem setMode_out (f : ModeSt → ModeSt) : (setMode f s).out = s.out := rfl
@[simp] theorem setMode_regs (f : ModeSt → ModeSt) : (setMode f s).regs = s.regs := rfl
@[simp] theorem setMode_cnts (f : ModeSt → ModeSt) : (setMode f s).cnts = s.cnts := rfl
@[simp] theorem setMode_rdLatch (f : ModeSt → ModeSt) : (setMode f s).rdLatch = s.rdLatch := rfl
@[simp] theorem setMode_wrLatch (f : ModeSt → ModeSt) : (setMode f s).wrLatch = s.wrLatch := rfl
@[simp] theorem setMode_mode (f : ModeSt → ModeSt) : (setMode f s).mode = f s.mode := rfl
@[simp] theorem setMode_rst (f : ModeSt → ModeSt) : (setMode f s).rst = s.rst := rfl
@[simp] theorem setMode_fuses (f : ModeSt → ModeSt) : (setMode f s).fuses = s.fuses := rfl
@[simp] theorem setMode_time (f : ModeSt → ModeSt) : (setMode f s).time = s.time := rfl
@[simp] theorem setMode_host (f : ModeSt → ModeSt) : (setMode f s).host = s.host := rfl
@[simp] theorem setMode_jrnl (f : ModeSt → ModeSt) : (setMode f s).jrnl = s.jrnl := rfl
@[simp] theorem setMode_ports (f : ModeSt → ModeSt) : (setMode f s).ports = s.ports := rfl
@[simp] theorem setMode_streams (f : ModeSt → ModeSt) : (setMode f s).streams = s.streams := rfl
@[simp] theorem setMode_gapLog (f : ModeSt → ModeSt) : (setMode f s).gapLog = s.gapLog := rfl
@[simp] theorem setMode_gapHead (f : ModeSt → ModeSt) : (setMode f s).gapHead = s.gapHead := rfl
@[simp] theorem setMode_engines (f : ModeSt → ModeSt) : (setMode f s).engines = s.engines := rfl
@[simp] theorem setMode_engMap (f : ModeSt → ModeSt) : (setMode f s).engMap = s.engMap := rfl
@[simp] theorem setMode_bufs (f : ModeSt → ModeSt) : (setMode f s).bufs = s.bufs := rfl
@[simp] theorem setMode_msgs (f : ModeSt → ModeSt) : (setMode f s).msgs = s.msgs := rfl
@[simp] theorem setMode_evt (f : ModeSt → ModeSt) : (setMode f s).evt = s.evt := rfl
@[simp] theorem setMode_trig (f : ModeSt → ModeSt) : (setMode f s).trig = s.trig := rfl
@[simp] theorem setMode_sys (f : ModeSt → ModeSt) : (setMode f s).sys = s.sys := rfl
@[simp] theorem setMode_pace (f : ModeSt → ModeSt) : (setMode f s).pace = s.pace := rfl
@[simp] theorem setMode_repair (f : ModeSt → ModeSt) : (setMode f s).repair = s.repair := rfl
@[simp] theorem setMode_flash (f : ModeSt → ModeSt) : (setMode f s).flash = s.flash := rfl
@[simp] theorem setMode_spis (f : ModeSt → ModeSt) : (setMode f s).spis = s.spis := rfl
@[simp] theorem setMode_tw (f : ModeSt → ModeSt) : (setMode f s).tw = s.tw := rfl
@[simp] theorem setMode_tmr (f : ModeSt → ModeSt) : (setMode f s).tmr = s.tmr := rfl

/-! ### setRst -/

@[simp] theorem setRst_pending (f : RstSt → RstSt) : (setRst f s).pending = s.pending := rfl
@[simp] theorem setRst_freeIdx (f : RstSt → RstSt) : (setRst f s).freeIdx = s.freeIdx := rfl
@[simp] theorem setRst_ticks (f : RstSt → RstSt) : (setRst f s).ticks = s.ticks := rfl
@[simp] theorem setRst_out (f : RstSt → RstSt) : (setRst f s).out = s.out := rfl
@[simp] theorem setRst_regs (f : RstSt → RstSt) : (setRst f s).regs = s.regs := rfl
@[simp] theorem setRst_cnts (f : RstSt → RstSt) : (setRst f s).cnts = s.cnts := rfl
@[simp] theorem setRst_rdLatch (f : RstSt → RstSt) : (setRst f s).rdLatch = s.rdLatch := rfl
@[simp] theorem setRst_wrLatch (f : RstSt → RstSt) : (setRst f s).wrLatch = s.wrLatch := rfl
@[simp] theorem setRst_mode (f : RstSt → RstSt) : (setRst f s).mode = s.mode := rfl
@[simp] theorem setRst_rst (f : RstSt → RstSt) : (setRst f s).rst = f s.rst := rfl
@[simp] theorem setRst_fuses (f : RstSt → RstSt) : (setRst f s).fuses = s.fuses := rfl
@[simp] theorem setRst_time (f : RstSt → RstSt) : (setRst f s).time = s.time := rfl
@[simp] theorem setRst_host (f : RstSt → RstSt) : (setRst f s).host = s.host := rfl
@[simp] theorem setRst_jrnl (f : RstSt → RstSt) : (setRst f s).jrnl = s.jrnl := rfl
@[simp] theorem setRst_ports (f : RstSt → RstSt) : (setRst f s).ports = s.ports := rfl
@[simp] theorem setRst_streams (f : RstSt → RstSt) : (setRst f s).streams = s.streams := rfl
@[simp] theorem setRst_gapLog (f : RstSt → RstSt) : (setRst f s).gapLog = s.gapLog := rfl
@[simp] theorem setRst_gapHead (f : RstSt → RstSt) : (setRst f s).gapHead = s.gapHead := rfl
@[simp] theorem setRst_engines (f : RstSt → RstSt) : (setRst f s).engines = s.engines := rfl
@[simp] theorem setRst_engMap (f : RstSt → RstSt) : (setRst f s).engMap = s.engMap := rfl
@[simp] theorem setRst_bufs (f : RstSt → RstSt) : (setRst f s).bufs = s.bufs := rfl
@[simp] theorem setRst_msgs (f : RstSt → RstSt) : (setRst f s).msgs = s.msgs := rfl
@[simp] theorem setRst_evt (f : RstSt → RstSt) : (setRst f s).evt = s.evt := rfl
@[simp] theorem setRst_trig (f : RstSt → RstSt) : (setRst f s).trig = s.trig := rfl
@[simp] theorem setRst_sys (f : RstSt → RstSt) : (setRst f s).sys = s.sys := rfl
@[simp] theorem setRst_pace (f : RstSt → RstSt) : (setRst f s).pace = s.pace := rfl
@[simp] theorem setRst_repair (f : RstSt → RstSt) : (setRst f s).repair = s.repair := rfl
@[simp] theorem setRst_flash (f : RstSt → RstSt) : (setRst f s).flash = s.flash := rfl
@[simp] theorem setRst_spis (f : RstSt → RstSt) : (setRst f s).spis = s.spis := rfl
@[simp] theorem setRst_tw (f : RstSt → RstSt) : (setRst f s).tw = s.tw := rfl
@[simp] theorem setRst_tmr (f : RstSt → RstSt) : (setRst f s).tmr = s.tmr := rfl

/-! ### setTime -/

@[simp] theorem setTime_pending (f : TimeSt → TimeSt) : (setTime f s).pending = s.pending := rfl
@[simp] theorem setTime_freeIdx (f : TimeSt → TimeSt) : (setTime f s).freeIdx = s.freeIdx := rfl
@[simp] theorem setTime_ticks (f : TimeSt → TimeSt) : (setTime f s).ticks = s.ticks := rfl
@[simp] theorem setTime_out (f : TimeSt → TimeSt) : (setTime f s).out = s.out := rfl
@[simp] theorem setTime_regs (f : TimeSt → TimeSt) : (setTime f s).regs = s.regs := rfl
@[simp] theorem setTime_cnts (f : TimeSt → TimeSt) : (setTime f s).cnts = s.cnts := rfl
@[simp] theorem setTime_rdLatch (f : TimeSt → TimeSt) : (setTime f s).rdLatch = s.rdLatch := rfl
@[simp] theorem setTime_wrLatch (f : TimeSt → TimeSt) : (setTime f s).wrLatch = s.wrLatch := rfl
@[simp] theorem setTime_mode (f : TimeSt → TimeSt) : (setTime f s).mode = s.mode := rfl
@[simp] theorem setTime_rst (f : TimeSt → TimeSt) : (setTime f s).rst = s.rst := rfl
@[simp] theorem setTime_fuses (f : TimeSt → TimeSt) : (setTime f s).fuses = s.fuses := rfl
@[simp] theorem setTime_time (f : TimeSt → TimeSt) : (setTime f s).time = f s.time := rfl
@[simp] theorem setTime_host (f : TimeSt → TimeSt) : (setTime f s).host = s.host := rfl
@[simp] theorem setTime_jrnl (f : TimeSt → TimeSt) : (setTime f s).jrnl = s.jrnl := rfl
@[simp] theorem setTime_ports (f : TimeSt → TimeSt) : (setTime f s).ports = s.ports := rfl
@[simp] theorem setTime_streams (f : TimeSt → TimeSt) : (setTime f s).streams = s.streams := rfl
@[simp] theorem setTime_gapLog (f : TimeSt → TimeSt) : (setTime f s).gapLog = s.gapLog := rfl
@[simp] theorem setTime_gapHead (f : TimeSt → TimeSt) : (setTime f s).gapHead = s.gapHead := rfl
@[simp] theorem setTime_engines (f : TimeSt → TimeSt) : (setTime f s).engines = s.engines := rfl
@[simp] theorem setTime_engMap (f : TimeSt → TimeSt) : (setTime f s).engMap = s.engMap := rfl
@[simp] theorem setTime_bufs (f : TimeSt → TimeSt) : (setTime f s).bufs = s.bufs := rfl
@[simp] theorem setTime_msgs (f : TimeSt → TimeSt) : (setTime f s).msgs = s.msgs := rfl
@[simp] theorem setTime_evt (f : TimeSt → TimeSt) : (setTime f s).evt = s.evt := rfl
@[simp] theorem setTime_trig (f : TimeSt → TimeSt) : (setTime f s).trig = s.trig := rfl
@[simp] theorem setTime_sys (f : TimeSt → TimeSt) : (setTime f s).sys = s.sys := rfl
@[simp] theorem setTime_pace (f : TimeSt → TimeSt) : (setTime f s).pace = s.pace := rfl
@[simp] theorem setTime_repair (f : TimeSt → TimeSt) : (setTime f s).repair = s.repair := rfl
@[simp] theorem setTime_flash (f : TimeSt → TimeSt) : (setTime f s).flash = s.flash := rfl
@[simp] theorem setTime_spis (f : TimeSt → TimeSt) : (setTime f s).spis = s.spis := rfl
@[simp] theorem setTime_tw (f : TimeSt → TimeSt) : (setTime f s).tw = s.tw := rfl
@[simp] theorem setTime_tmr (f : TimeSt → TimeSt) : (setTime f s).tmr = s.tmr := rfl

/-! ### setEng -/

@[simp] theorem setEng_pending (i : Nat) (f : EngSt → EngSt) : (setEng i f s).pending = s.pending := rfl
@[simp] theorem setEng_freeIdx (i : Nat) (f : EngSt → EngSt) : (setEng i f s).freeIdx = s.freeIdx := rfl
@[simp] theorem setEng_ticks (i : Nat) (f : EngSt → EngSt) : (setEng i f s).ticks = s.ticks := rfl
@[simp] theorem setEng_out (i : Nat) (f : EngSt → EngSt) : (setEng i f s).out = s.out := rfl
@[simp] theorem setEng_regs (i : Nat) (f : EngSt → EngSt) : (setEng i f s).regs = s.regs := rfl
@[simp] theorem setEng_cnts (i : Nat) (f : EngSt → EngSt) : (setEng i f s).cnts = s.cnts := rfl
@[simp] theorem setEng_rdLatch (i : Nat) (f : EngSt → EngSt) : (setEng i f s).rdLatch = s.rdLatch := rfl
@[simp] theorem setEng_wrLatch (i : Nat) (f : EngSt → EngSt) : (setEng i f s).wrLatch = s.wrLatch := rfl
@[simp] theorem setEng_mode (i : Nat) (f : EngSt → EngSt) : (setEng i f s).mode = s.mode := rfl
@[simp] theorem setEng_rst (i : Nat) (f : EngSt → EngSt) : (setEng i f s).rst = s.rst := rfl
@[simp] theorem setEng_fuses (i : Nat) (f : EngSt → EngSt) : (setEng i f s).fuses = s.fuses := rfl
@[simp] theorem setEng_time (i : Nat) (f : EngSt → EngSt) : (setEng i f s).time = s.time := rfl
@[simp] theorem setEng_host (i : Nat) (f : EngSt → EngSt) : (setEng i f s).host = s.host := rfl
@[simp] theorem setEng_jrnl (i : Nat) (f : EngSt → EngSt) : (setEng i f s).jrnl = s.jrnl := rfl
@[simp] theorem setEng_ports (i : Nat) (f : EngSt → EngSt) : (setEng i f s).ports = s.ports := rfl
@[simp] theorem setEng_streams (i : Nat) (f : EngSt → EngSt) : (setEng i f s).streams = s.streams := rfl
@[simp] theorem setEng_gapLog (i : Nat) (f : EngSt → EngSt) : (setEng i f s).gapLog = s.gapLog := rfl
@[simp] theorem setEng_gapHead (i : Nat) (f : EngSt → EngSt) : (setEng i f s).gapHead = s.gapHead := rfl
@[simp] theorem setEng_engines (i : Nat) (f : EngSt → EngSt) : (setEng i f s).engines = mmod (engInit i) s.engines i f := rfl
@[simp] theorem setEng_engMap (i : Nat) (f : EngSt → EngSt) : (setEng i f s).engMap = s.engMap := rfl
@[simp] theorem setEng_bufs (i : Nat) (f : EngSt → EngSt) : (setEng i f s).bufs = s.bufs := rfl
@[simp] theorem setEng_msgs (i : Nat) (f : EngSt → EngSt) : (setEng i f s).msgs = s.msgs := rfl
@[simp] theorem setEng_evt (i : Nat) (f : EngSt → EngSt) : (setEng i f s).evt = s.evt := rfl
@[simp] theorem setEng_trig (i : Nat) (f : EngSt → EngSt) : (setEng i f s).trig = s.trig := rfl
@[simp] theorem setEng_sys (i : Nat) (f : EngSt → EngSt) : (setEng i f s).sys = s.sys := rfl
@[simp] theorem setEng_pace (i : Nat) (f : EngSt → EngSt) : (setEng i f s).pace = s.pace := rfl
@[simp] theorem setEng_repair (i : Nat) (f : EngSt → EngSt) : (setEng i f s).repair = s.repair := rfl
@[simp] theorem setEng_flash (i : Nat) (f : EngSt → EngSt) : (setEng i f s).flash = s.flash := rfl
@[simp] theorem setEng_spis (i : Nat) (f : EngSt → EngSt) : (setEng i f s).spis = s.spis := rfl
@[simp] theorem setEng_tw (i : Nat) (f : EngSt → EngSt) : (setEng i f s).tw = s.tw := rfl
@[simp] theorem setEng_tmr (i : Nat) (f : EngSt → EngSt) : (setEng i f s).tmr = s.tmr := rfl

/-! ### setTask -/

@[simp] theorem setTask_pending (i k : Nat) (f : Task → Task) : (setTask i k f s).pending = s.pending := rfl
@[simp] theorem setTask_freeIdx (i k : Nat) (f : Task → Task) : (setTask i k f s).freeIdx = s.freeIdx := rfl
@[simp] theorem setTask_ticks (i k : Nat) (f : Task → Task) : (setTask i k f s).ticks = s.ticks := rfl
@[simp] theorem setTask_out (i k : Nat) (f : Task → Task) : (setTask i k f s).out = s.out := rfl
@[simp] theorem setTask_regs (i k : Nat) (f : Task → Task) : (setTask i k f s).regs = s.regs := rfl
@[simp] theorem setTask_cnts (i k : Nat) (f : Task → Task) : (setTask i k f s).cnts = s.cnts := rfl
@[simp] theorem setTask_rdLatch (i k : Nat) (f : Task → Task) : (setTask i k f s).rdLatch = s.rdLatch := rfl
@[simp] theorem setTask_wrLatch (i k : Nat) (f : Task → Task) : (setTask i k f s).wrLatch = s.wrLatch := rfl
@[simp] theorem setTask_mode (i k : Nat) (f : Task → Task) : (setTask i k f s).mode = s.mode := rfl
@[simp] theorem setTask_rst (i k : Nat) (f : Task → Task) : (setTask i k f s).rst = s.rst := rfl
@[simp] theorem setTask_fuses (i k : Nat) (f : Task → Task) : (setTask i k f s).fuses = s.fuses := rfl
@[simp] theorem setTask_time (i k : Nat) (f : Task → Task) : (setTask i k f s).time = s.time := rfl
@[simp] theorem setTask_host (i k : Nat) (f : Task → Task) : (setTask i k f s).host = s.host := rfl
@[simp] theorem setTask_jrnl (i k : Nat) (f : Task → Task) : (setTask i k f s).jrnl = s.jrnl := rfl
@[simp] theorem setTask_ports (i k : Nat) (f : Task → Task) : (setTask i k f s).ports = s.ports := rfl
@[simp] theorem setTask_streams (i k : Nat) (f : Task → Task) : (setTask i k f s).streams = s.streams := rfl
@[simp] theorem setTask_gapLog (i k : Nat) (f : Task → Task) : (setTask i k f s).gapLog = s.gapLog := rfl
@[simp] theorem setTask_gapHead (i k : Nat) (f : Task → Task) : (setTask i k f s).gapHead = s.gapHead := rfl
@[simp] theorem setTask_engines (i k : Nat) (f : Task → Task) : (setTask i k f s).engines = mmod (engInit i) s.engines i (fun e => { e with tasks := mmod {} e.tasks k f }) := rfl
@[simp] theorem setTask_engMap (i k : Nat) (f : Task → Task) : (setTask i k f s).engMap = s.engMap := rfl
@[simp] theorem setTask_bufs (i k : Nat) (f : Task → Task) : (setTask i k f s).bufs = s.bufs := rfl
@[simp] theorem setTask_msgs (i k : Nat) (f : Task → Task) : (setTask i k f s).msgs = s.msgs := rfl
@[simp] theorem setTask_evt (i k : Nat) (f : Task → Task) : (setTask i k f s).evt = s.evt := rfl
@[simp] theorem setTask_trig (i k : Nat) (f : Task → Task) : (setTask i k f s).trig = s.trig := rfl
@[simp] theorem setTask_sys (i k : Nat) (f : Task → Task) : (setTask i k f s).sys = s.sys := rfl
@[simp] theorem setTask_pace (i k : Nat) (f : Task → Task) : (setTask i k f s).pace = s.pace := rfl
@[simp] theorem setTask_repair (i k : Nat) (f : Task → Task) : (setTask i k f s).repair = s.repair := rfl
@[simp] theorem setTask_flash (i k : Nat) (f : Task → Task) : (setTask i k f s).flash = s.flash := rfl
@[simp] theorem setTask_spis (i k : Nat) (f : Task → Task) : (setTask i k f s).spis = s.spis := rfl
@[simp] theorem setTask_tw (i k : Nat) (f : Task → Task) : (setTask i k f s).tw = s.tw := rfl
@[simp] theorem setTask_tmr (i k : Nat) (f : Task → Task) : (setTask i k f s).tmr = s.tmr := rfl

/-! ### setBuf -/

@[simp] theorem setBuf_pending (i : Nat) (f : Buf → Buf) : (setBuf i f s).pending = s.pending := rfl
@[simp] theorem setBuf_freeIdx (i : Nat) (f : Buf → Buf) : (setBuf i f s).freeIdx = s.freeIdx := rfl
@[simp] theorem setBuf_ticks (i : Nat) (f : Buf → Buf) : (setBuf i f s).ticks = s.ticks := rfl
@[simp] theorem setBuf_out (i : Nat) (f : Buf → Buf) : (setBuf i f s).out = s.out := rfl
@[simp] theorem setBuf_regs (i : Nat) (f : Buf → Buf) : (setBuf i f s).regs = s.regs := rfl
@[simp] theorem setBuf_cnts (i : Nat) (f : Buf → Buf) : (setBuf i f s).cnts = s.cnts := rfl
@[simp] theorem setBuf_rdLatch (i : Nat) (f : Buf → Buf) : (setBuf i f s).rdLatch = s.rdLatch := rfl
@[simp] theorem setBuf_wrLatch (i : Nat) (f : Buf → Buf) : (setBuf i f s).wrLatch = s.wrLatch := rfl
@[simp] theorem setBuf_mode (i : Nat) (f : Buf → Buf) : (setBuf i f s).mode = s.mode := rfl
@[simp] theorem setBuf_rst (i : Nat) (f : Buf → Buf) : (setBuf i f s).rst = s.rst := rfl
@[simp] theorem setBuf_fuses (i : Nat) (f : Buf → Buf) : (setBuf i f s).fuses = s.fuses := rfl
@[simp] theorem setBuf_time (i : Nat) (f : Buf → Buf) : (setBuf i f s).time = s.time := rfl
@[simp] theorem setBuf_host (i : Nat) (f : Buf → Buf) : (setBuf i f s).host = s.host := rfl
@[simp] theorem setBuf_jrnl (i : Nat) (f : Buf → Buf) : (setBuf i f s).jrnl = s.jrnl := rfl
@[simp] theorem setBuf_ports (i : Nat) (f : Buf → Buf) : (setBuf i f s).ports = s.ports := rfl
@[simp] theorem setBuf_streams (i : Nat) (f : Buf → Buf) : (setBuf i f s).streams = s.streams := rfl
@[simp] theorem setBuf_gapLog (i : Nat) (f : Buf → Buf) : (setBuf i f s).gapLog = s.gapLog := rfl
@[simp] theorem setBuf_gapHead (i : Nat) (f : Buf → Buf) : (setBuf i f s).gapHead = s.gapHead := rfl
@[simp] theorem setBuf_engines (i : Nat) (f : Buf → Buf) : (setBuf i f s).engines = s.engines := rfl
@[simp] theorem setBuf_engMap (i : Nat) (f : Buf → Buf) : (setBuf i f s).engMap = s.engMap := rfl
@[simp] theorem setBuf_bufs (i : Nat) (f : Buf → Buf) : (setBuf i f s).bufs = mmod {} s.bufs i f := rfl
@[simp] theorem setBuf_msgs (i : Nat) (f : Buf → Buf) : (setBuf i f s).msgs = s.msgs := rfl
@[simp] theorem setBuf_evt (i : Nat) (f : Buf → Buf) : (setBuf i f s).evt = s.evt := rfl
@[simp] theorem setBuf_trig (i : Nat) (f : Buf → Buf) : (setBuf i f s).trig = s.trig := rfl
@[simp] theorem setBuf_sys (i : Nat) (f : Buf → Buf) : (setBuf i f s).sys = s.sys := rfl
@[simp] theorem setBuf_pace (i : Nat) (f : Buf → Buf) : (setBuf i f s).pace = s.pace := rfl
@[simp] theorem setBuf_repair (i : Nat) (f : Buf → Buf) : (setBuf i f s).repair = s.repair := rfl
@[simp] theorem setBuf_flash (i : Nat) (f : Buf → Buf) : (setBuf i f s).flash = s.flash := rfl
@[simp] theorem setBuf_spis (i : Nat) (f : Buf → Buf) : (setBuf i f s).spis = s.spis := rfl
@[simp] theorem setBuf_tw (i : Nat) (f : Buf → Buf) : (setBuf i f s).tw = s.tw := rfl
@[simp] theorem setBuf_tmr (i : Nat) (f : Buf → Buf) : (setBuf i f s).tmr = s.tmr := rfl

/-! ### setEvt -/

@[simp] theorem setEvt_pending (f : EvtSt → EvtSt) : (setEvt f s).pending = s.pending := rfl
@[simp] theorem setEvt_freeIdx (f : EvtSt → EvtSt) : (setEvt f s).freeIdx = s.freeIdx := rfl
@[simp] theorem setEvt_ticks (f : EvtSt → EvtSt) : (setEvt f s).ticks = s.ticks := rfl
@[simp] theorem setEvt_out (f : EvtSt → EvtSt) : (setEvt f s).out = s.out := rfl
@[simp] theorem setEvt_regs (f : EvtSt → EvtSt) : (setEvt f s).regs = s.regs := rfl
@[simp] theorem setEvt_cnts (f : EvtSt → EvtSt) : (setEvt f s).cnts = s.cnts := rfl
@[simp] theorem setEvt_rdLatch (f : EvtSt → EvtSt) : (setEvt f s).rdLatch = s.rdLatch := rfl
@[simp] theorem setEvt_wrLatch (f : EvtSt → EvtSt) : (setEvt f s).wrLatch = s.wrLatch := rfl
@[simp] theorem setEvt_mode (f : EvtSt → EvtSt) : (setEvt f s).mode = s.mode := rfl
@[simp] theorem setEvt_rst (f : EvtSt → EvtSt) : (setEvt f s).rst = s.rst := rfl
@[simp] theorem setEvt_fuses (f : EvtSt → EvtSt) : (setEvt f s).fuses = s.fuses := rfl
@[simp] theorem setEvt_time (f : EvtSt → EvtSt) : (setEvt f s).time = s.time := rfl
@[simp] theorem setEvt_host (f : EvtSt → EvtSt) : (setEvt f s).host = s.host := rfl
@[simp] theorem setEvt_jrnl (f : EvtSt → EvtSt) : (setEvt f s).jrnl = s.jrnl := rfl
@[simp] theorem setEvt_ports (f : EvtSt → EvtSt) : (setEvt f s).ports = s.ports := rfl
@[simp] theorem setEvt_streams (f : EvtSt → EvtSt) : (setEvt f s).streams = s.streams := rfl
@[simp] theorem setEvt_gapLog (f : EvtSt → EvtSt) : (setEvt f s).gapLog = s.gapLog := rfl
@[simp] theorem setEvt_gapHead (f : EvtSt → EvtSt) : (setEvt f s).gapHead = s.gapHead := rfl
@[simp] theorem setEvt_engines (f : EvtSt → EvtSt) : (setEvt f s).engines = s.engines := rfl
@[simp] theorem setEvt_engMap (f : EvtSt → EvtSt) : (setEvt f s).engMap = s.engMap := rfl
@[simp] theorem setEvt_bufs (f : EvtSt → EvtSt) : (setEvt f s).bufs = s.bufs := rfl
@[simp] theorem setEvt_msgs (f : EvtSt → EvtSt) : (setEvt f s).msgs = s.msgs := rfl
@[simp] theorem setEvt_evt (f : EvtSt → EvtSt) : (setEvt f s).evt = f s.evt := rfl
@[simp] theorem setEvt_trig (f : EvtSt → EvtSt) : (setEvt f s).trig = s.trig := rfl
@[simp] theorem setEvt_sys (f : EvtSt → EvtSt) : (setEvt f s).sys = s.sys := rfl
@[simp] theorem setEvt_pace (f : EvtSt → EvtSt) : (setEvt f s).pace = s.pace := rfl
@[simp] theorem setEvt_repair (f : EvtSt → EvtSt) : (setEvt f s).repair = s.repair := rfl
@[simp] theorem setEvt_flash (f : EvtSt → EvtSt) : (setEvt f s).flash = s.flash := rfl
@[simp] theorem setEvt_spis (f : EvtSt → EvtSt) : (setEvt f s).spis = s.spis := rfl
@[simp] theorem setEvt_tw (f : EvtSt → EvtSt) : (setEvt f s).tw = s.tw := rfl
@[simp] theorem setEvt_tmr (f : EvtSt → EvtSt) : (setEvt f s).tmr = s.tmr := rfl

/-! ### setTrig -/

@[simp] theorem setTrig_pending (f : TrigSt → TrigSt) : (setTrig f s).pending = s.pending := rfl
@[simp] theorem setTrig_freeIdx (f : TrigSt → TrigSt) : (setTrig f s).freeIdx = s.freeIdx := rfl
@[simp] theorem setTrig_ticks (f : TrigSt → TrigSt) : (setTrig f s).ticks = s.ticks := rfl
@[simp] theorem setTrig_out (f : TrigSt → TrigSt) : (setTrig f s).out = s.out := rfl
@[simp] theorem setTrig_regs (f : TrigSt → TrigSt) : (setTrig f s).regs = s.regs := rfl
@[simp] theorem setTrig_cnts (f : TrigSt → TrigSt) : (setTrig f s).cnts = s.cnts := rfl
@[simp] theorem setTrig_rdLatch (f : TrigSt → TrigSt) : (setTrig f s).rdLatch = s.rdLatch := rfl
@[simp] theorem setTrig_wrLatch (f : TrigSt → TrigSt) : (setTrig f s).wrLatch = s.wrLatch := rfl
@[simp] theorem setTrig_mode (f : TrigSt → TrigSt) : (setTrig f s).mode = s.mode := rfl
@[simp] theorem setTrig_rst (f : TrigSt → TrigSt) : (setTrig f s).rst = s.rst := rfl
@[simp] theorem setTrig_fuses (f : TrigSt → TrigSt) : (setTrig f s).fuses = s.fuses := rfl
@[simp] theorem setTrig_time (f : TrigSt → TrigSt) : (setTrig f s).time = s.time := rfl
@[simp] theorem setTrig_host (f : TrigSt → TrigSt) : (setTrig f s).host = s.host := rfl
@[simp] theorem setTrig_jrnl (f : TrigSt → TrigSt) : (setTrig f s).jrnl = s.jrnl := rfl
@[simp] theorem setTrig_ports (f : TrigSt → TrigSt) : (setTrig f s).ports = s.ports := rfl
@[simp] theorem setTrig_streams (f : TrigSt → TrigSt) : (setTrig f s).streams = s.streams := rfl
@[simp] theorem setTrig_gapLog (f : TrigSt → TrigSt) : (setTrig f s).gapLog = s.gapLog := rfl
@[simp] theorem setTrig_gapHead (f : TrigSt → TrigSt) : (setTrig f s).gapHead = s.gapHead := rfl
@[simp] theorem setTrig_engines (f : TrigSt → TrigSt) : (setTrig f s).engines = s.engines := rfl
@[simp] theorem setTrig_engMap (f : TrigSt → TrigSt) : (setTrig f s).engMap = s.engMap := rfl
@[simp] theorem setTrig_bufs (f : TrigSt → TrigSt) : (setTrig f s).bufs = s.bufs := rfl
@[simp] theorem setTrig_msgs (f : TrigSt → TrigSt) : (setTrig f s).msgs = s.msgs := rfl
@[simp] theorem setTrig_evt (f : TrigSt → TrigSt) : (setTrig f s).evt = s.evt := rfl
@[simp] theorem setTrig_trig (f : TrigSt → TrigSt) : (setTrig f s).trig = f s.trig := rfl
@[simp] theorem setTrig_sys (f : TrigSt → TrigSt) : (setTrig f s).sys = s.sys := rfl
@[simp] theorem setTrig_pace (f : TrigSt → TrigSt) : (setTrig f s).pace = s.pace := rfl
@[simp] theorem setTrig_repair (f : TrigSt → TrigSt) : (setTrig f s).repair = s.repair := rfl
@[simp] theorem setTrig_flash (f : TrigSt → TrigSt) : (setTrig f s).flash = s.flash := rfl
@[simp] theorem setTrig_spis (f : TrigSt → TrigSt) : (setTrig f s).spis = s.spis := rfl
@[simp] theorem setTrig_tw (f : TrigSt → TrigSt) : (setTrig f s).tw = s.tw := rfl
@[simp] theorem setTrig_tmr (f : TrigSt → TrigSt) : (setTrig f s).tmr = s.tmr := rfl

/-! ### setSys -/

@[simp] theorem setSys_pending (f : SysSt → SysSt) : (setSys f s).pending = s.pending := rfl
@[simp] theorem setSys_freeIdx (f : SysSt → SysSt) : (setSys f s).freeIdx = s.freeIdx := rfl
@[simp] theorem setSys_ticks (f : SysSt → SysSt) : (setSys f s).ticks = s.ticks := rfl
@[simp] theorem setSys_out (f : SysSt → SysSt) : (setSys f s).out = s.out := rfl
@[simp] theorem setSys_regs (f : SysSt → SysSt) : (setSys f s).regs = s.regs := rfl
@[simp] theorem setSys_cnts (f : SysSt → SysSt) : (setSys f s).cnts = s.cnts := rfl
@[simp] theorem setSys_rdLatch (f : SysSt → SysSt) : (setSys f s).rdLatch = s.rdLatch := rfl
@[simp] theorem setSys_wrLatch (f : SysSt → SysSt) : (setSys f s).wrLatch = s.wrLatch := rfl
@[simp] theorem setSys_mode (f : SysSt → SysSt) : (setSys f s).mode = s.mode := rfl
@[simp] theorem setSys_rst (f : SysSt → SysSt) : (setSys f s).rst = s.rst := rfl
@[simp] theorem setSys_fuses (f : SysSt → SysSt) : (setSys f s).fuses = s.fuses := rfl
@[simp] theorem setSys_time (f : SysSt → SysSt) : (setSys f s).time = s.time := rfl
@[simp] theorem setSys_host (f : SysSt → SysSt) : (setSys f s).host = s.host := rfl
@[simp] theorem setSys_jrnl (f : SysSt → SysSt) : (setSys f s).jrnl = s.jrnl := rfl
@[simp] theorem setSys_ports (f : SysSt → SysSt) : (setSys f s).ports = s.ports := rfl
@[simp] theorem setSys_streams (f : SysSt → SysSt) : (setSys f s).streams = s.streams := rfl
@[simp] theorem setSys_gapLog (f : SysSt → SysSt) : (setSys f s).gapLog = s.gapLog := rfl
@[simp] theorem setSys_gapHead (f : SysSt → SysSt) : (setSys f s).gapHead = s.gapHead := rfl
@[simp] theorem setSys_engines (f : SysSt → SysSt) : (setSys f s).engines = s.engines := rfl
@[simp] theorem setSys_engMap (f : SysSt → SysSt) : (setSys f s).engMap = s.engMap := rfl
@[simp] theorem setSys_bufs (f : SysSt → SysSt) : (setSys f s).bufs = s.bufs := rfl
@[simp] theorem setSys_msgs (f : SysSt → SysSt) : (setSys f s).msgs = s.msgs := rfl
@[simp] theorem setSys_evt (f : SysSt → SysSt) : (setSys f s).evt = s.evt := rfl
@[simp] theorem setSys_trig (f : SysSt → SysSt) : (setSys f s).trig = s.trig := rfl
@[simp] theorem setSys_sys (f : SysSt → SysSt) : (setSys f s).sys = f s.sys := rfl
@[simp] theorem setSys_pace (f : SysSt → SysSt) : (setSys f s).pace = s.pace := rfl
@[simp] theorem setSys_repair (f : SysSt → SysSt) : (setSys f s).repair = s.repair := rfl
@[simp] theorem setSys_flash (f : SysSt → SysSt) : (setSys f s).flash = s.flash := rfl
@[simp] theorem setSys_spis (f : SysSt → SysSt) : (setSys f s).spis = s.spis := rfl
@[simp] theorem setSys_tw (f : SysSt → SysSt) : (setSys f s).tw = s.tw := rfl
@[simp] theorem setSys_tmr (f : SysSt → SysSt) : (setSys f s).tmr = s.tmr := rfl

/-! ### setPace -/

@[simp] theorem setPace_pending (f : PaceSt → PaceSt) : (setPace f s).pending = s.pending := rfl
@[simp] theorem setPace_freeIdx (f : PaceSt → PaceSt) : (setPace f s).freeIdx = s.freeIdx := rfl
@[simp] theorem setPace_ticks (f : PaceSt → PaceSt) : (setPace f s).ticks = s.ticks := rfl
@[simp] theorem setPace_out (f : PaceSt → PaceSt) : (setPace f s).out = s.out := rfl
@[simp] theorem setPace_regs (f : PaceSt → PaceSt) : (setPace f s).regs = s.regs := rfl
@[simp] theorem setPace_cnts (f : PaceSt → PaceSt) : (setPace f s).cnts = s.cnts := rfl
@[simp] theorem setPace_rdLatch (f : PaceSt → PaceSt) : (setPace f s).rdLatch = s.rdLatch := rfl
@[simp] theorem setPace_wrLatch (f : PaceSt → PaceSt) : (setPace f s).wrLatch = s.wrLatch := rfl
@[simp] theorem setPace_mode (f : PaceSt → PaceSt) : (setPace f s).mode = s.mode := rfl
@[simp] theorem setPace_rst (f : PaceSt → PaceSt) : (setPace f s).rst = s.rst := rfl
@[simp] theorem setPace_fuses (f : PaceSt → PaceSt) : (setPace f s).fuses = s.fuses := rfl
@[simp] theorem setPace_time (f : PaceSt → PaceSt) : (setPace f s).time = s.time := rfl
@[simp] theorem setPace_host (f : PaceSt → PaceSt) : (setPace f s).host = s.host := rfl
@[simp] theorem setPace_jrnl (f : PaceSt → PaceSt) : (setPace f s).jrnl = s.jrnl := rfl
@[simp] theorem setPace_ports (f : PaceSt → PaceSt) : (setPace f s).ports = s.ports := rfl
@[simp] theorem setPace_streams (f : PaceSt → PaceSt) : (setPace f s).streams = s.streams := rfl
@[simp] theorem setPace_gapLog (f : PaceSt → PaceSt) : (setPace f s).gapLog = s.gapLog := rfl
@[simp] theorem setPace_gapHead (f : PaceSt → PaceSt) : (setPace f s).gapHead = s.gapHead := rfl
@[simp] theorem setPace_engines (f : PaceSt → PaceSt) : (setPace f s).engines = s.engines := rfl
@[simp] theorem setPace_engMap (f : PaceSt → PaceSt) : (setPace f s).engMap = s.engMap := rfl
@[simp] theorem setPace_bufs (f : PaceSt → PaceSt) : (setPace f s).bufs = s.bufs := rfl
@[simp] theorem setPace_msgs (f : PaceSt → PaceSt) : (setPace f s).msgs = s.msgs := rfl
@[simp] theorem setPace_evt (f : PaceSt → PaceSt) : (setPace f s).evt = s.evt := rfl
@[simp] theorem setPace_trig (f : PaceSt → PaceSt) : (setPace f s).trig = s.trig := rfl
@[simp] theorem setPace_sys (f : PaceSt → PaceSt) : (setPace f s).sys = s.sys := rfl
@[simp] theorem setPace_pace (f : PaceSt → PaceSt) : (setPace f s).pace = f s.pace := rfl
@[simp] theorem setPace_repair (f : PaceSt → PaceSt) : (setPace f s).repair = s.repair := rfl
@[simp] theorem setPace_flash (f : PaceSt → PaceSt) : (setPace f s).flash = s.flash := rfl
@[simp] theorem setPace_spis (f : PaceSt → PaceSt) : (setPace f s).spis = s.spis := rfl
@[simp] theorem setPace_tw (f : PaceSt → PaceSt) : (setPace f s).tw = s.tw := rfl
@[simp] theorem setPace_tmr (f : PaceSt → PaceSt) : (setPace f s).tmr = s.tmr := rfl

/-! ### setRepair -/

@[simp] theorem setRepair_pending (f : RepairSt → RepairSt) : (setRepair f s).pending = s.pending := rfl
@[simp] theorem setRepair_freeIdx (f : RepairSt → RepairSt) : (setRepair f s).freeIdx = s.freeIdx := rfl
@[simp] theorem setRepair_ticks (f : RepairSt → RepairSt) : (setRepair f s).ticks = s.ticks := rfl
@[simp] theorem setRepair_out (f : RepairSt → RepairSt) : (setRepair f s).out = s.out := rfl
@[simp] theorem setRepair_regs (f : RepairSt → RepairSt) : (setRepair f s).regs = s.regs := rfl
@[simp] theorem setRepair_cnts (f : RepairSt → RepairSt) : (setRepair f s).cnts = s.cnts := rfl
@[simp] theorem setRepair_rdLatch (f : RepairSt → RepairSt) : (setRepair f s).rdLatch = s.rdLatch := rfl
@[simp] theorem setRepair_wrLatch (f : RepairSt → RepairSt) : (setRepair f s).wrLatch = s.wrLatch := rfl
@[simp] theorem setRepair_mode (f : RepairSt → RepairSt) : (setRepair f s).mode = s.mode := rfl
@[simp] theorem setRepair_rst (f : RepairSt → RepairSt) : (setRepair f s).rst = s.rst := rfl
@[simp] theorem setRepair_fuses (f : RepairSt → RepairSt) : (setRepair f s).fuses = s.fuses := rfl
@[simp] theorem setRepair_time (f : RepairSt → RepairSt) : (setRepair f s).time = s.time := rfl
@[simp] theorem setRepair_host (f : RepairSt → RepairSt) : (setRepair f s).host = s.host := rfl
@[simp] theorem setRepair_jrnl (f : RepairSt → RepairSt) : (setRepair f s).jrnl = s.jrnl := rfl
@[simp] theorem setRepair_ports (f : RepairSt → RepairSt) : (setRepair f s).ports = s.ports := rfl
@[simp] theorem setRepair_streams (f : RepairSt → RepairSt) : (setRepair f s).streams = s.streams := rfl
@[simp] theorem setRepair_gapLog (f : RepairSt → RepairSt) : (setRepair f s).gapLog = s.gapLog := rfl
@[simp] theorem setRepair_gapHead (f : RepairSt → RepairSt) : (setRepair f s).gapHead = s.gapHead := rfl
@[simp] theorem setRepair_engines (f : RepairSt → RepairSt) : (setRepair f s).engines = s.engines := rfl
@[simp] theorem setRepair_engMap (f : RepairSt → RepairSt) : (setRepair f s).engMap = s.engMap := rfl
@[simp] theorem setRepair_bufs (f : RepairSt → RepairSt) : (setRepair f s).bufs = s.bufs := rfl
@[simp] theorem setRepair_msgs (f : RepairSt → RepairSt) : (setRepair f s).msgs = s.msgs := rfl
@[simp] theorem setRepair_evt (f : RepairSt → RepairSt) : (setRepair f s).evt = s.evt := rfl
@[simp] theorem setRepair_trig (f : RepairSt → RepairSt) : (setRepair f s).trig = s.trig := rfl
@[simp] theorem setRepair_sys (f : RepairSt → RepairSt) : (setRepair f s).sys = s.sys := rfl
@[simp] theorem setRepair_pace (f : RepairSt → RepairSt) : (setRepair f s).pace = s.pace := rfl
@[simp] theorem setRepair_repair (f : RepairSt → RepairSt) : (setRepair f s).repair = f s.repair := rfl
@[simp] theorem setRepair_flash (f : RepairSt → RepairSt) : (setRepair f s).flash = s.flash := rfl
@[simp] theorem setRepair_spis (f : RepairSt → RepairSt) : (setRepair f s).spis = s.spis := rfl
@[simp] theorem setRepair_tw (f : RepairSt → RepairSt) : (setRepair f s).tw = s.tw := rfl
@[simp] theorem setRepair_tmr (f : RepairSt → RepairSt) : (setRepair f s).tmr = s.tmr := rfl

/-! ### setFlash -/

@[simp] theorem setFlash_pending (f : FlashSt → FlashSt) : (setFlash f s).pending = s.pending := rfl
@[simp] theorem setFlash_freeIdx (f : FlashSt → FlashSt) : (setFlash f s).freeIdx = s.freeIdx := rfl
@[simp] theorem setFlash_ticks (f : FlashSt → FlashSt) : (setFlash f s).ticks = s.ticks := rfl
@[simp] theorem setFlash_out (f : FlashSt → FlashSt) : (setFlash f s).out = s.out := rfl
@[simp] theorem setFlash_regs (f : FlashSt → FlashSt) : (setFlash f s).regs = s.regs := rfl
@[simp] theorem setFlash_cnts (f : FlashSt → FlashSt) : (setFlash f s).cnts = s.cnts := rfl
@[simp] theorem setFlash_rdLatch (f : FlashSt → FlashSt) : (setFlash f s).rdLatch = s.rdLatch := rfl
@[simp] theorem setFlash_wrLatch (f : FlashSt → FlashSt) : (setFlash f s).wrLatch = s.wrLatch := rfl
@[simp] theorem setFlash_mode (f : FlashSt → FlashSt) : (setFlash f s).mode = s.mode := rfl
@[simp] theorem setFlash_rst (f : FlashSt → FlashSt) : (setFlash f s).rst = s.rst := rfl
@[simp] theorem setFlash_fuses (f : FlashSt → FlashSt) : (setFlash f s).fuses = s.fuses := rfl
@[simp] theorem setFlash_time (f : FlashSt → FlashSt) : (setFlash f s).time = s.time := rfl
@[simp] theorem setFlash_host (f : FlashSt → FlashSt) : (setFlash f s).host = s.host := rfl
@[simp] theorem setFlash_jrnl (f : FlashSt → FlashSt) : (setFlash f s).jrnl = s.jrnl := rfl
@[simp] theorem setFlash_ports (f : FlashSt → FlashSt) : (setFlash f s).ports = s.ports := rfl
@[simp] theorem setFlash_streams (f : FlashSt → FlashSt) : (setFlash f s).streams = s.streams := rfl
@[simp] theorem setFlash_gapLog (f : FlashSt → FlashSt) : (setFlash f s).gapLog = s.gapLog := rfl
@[simp] theorem setFlash_gapHead (f : FlashSt → FlashSt) : (setFlash f s).gapHead = s.gapHead := rfl
@[simp] theorem setFlash_engines (f : FlashSt → FlashSt) : (setFlash f s).engines = s.engines := rfl
@[simp] theorem setFlash_engMap (f : FlashSt → FlashSt) : (setFlash f s).engMap = s.engMap := rfl
@[simp] theorem setFlash_bufs (f : FlashSt → FlashSt) : (setFlash f s).bufs = s.bufs := rfl
@[simp] theorem setFlash_msgs (f : FlashSt → FlashSt) : (setFlash f s).msgs = s.msgs := rfl
@[simp] theorem setFlash_evt (f : FlashSt → FlashSt) : (setFlash f s).evt = s.evt := rfl
@[simp] theorem setFlash_trig (f : FlashSt → FlashSt) : (setFlash f s).trig = s.trig := rfl
@[simp] theorem setFlash_sys (f : FlashSt → FlashSt) : (setFlash f s).sys = s.sys := rfl
@[simp] theorem setFlash_pace (f : FlashSt → FlashSt) : (setFlash f s).pace = s.pace := rfl
@[simp] theorem setFlash_repair (f : FlashSt → FlashSt) : (setFlash f s).repair = s.repair := rfl
@[simp] theorem setFlash_flash (f : FlashSt → FlashSt) : (setFlash f s).flash = f s.flash := rfl
@[simp] theorem setFlash_spis (f : FlashSt → FlashSt) : (setFlash f s).spis = s.spis := rfl
@[simp] theorem setFlash_tw (f : FlashSt → FlashSt) : (setFlash f s).tw = s.tw := rfl
@[simp] theorem setFlash_tmr (f : FlashSt → FlashSt) : (setFlash f s).tmr = s.tmr := rfl

/-! ### setSpi -/

@[simp] theorem setSpi_pending (i : Nat) (f : SpiSt → SpiSt) : (setSpi i f s).pending = s.pending := rfl
@[simp] theorem setSpi_freeIdx (i : Nat) (f : SpiSt → SpiSt) : (setSpi i f s).freeIdx = s.freeIdx := rfl
@[simp] theorem setSpi_ticks (i : Nat) (f : SpiSt → SpiSt) : (setSpi i f s).ticks = s.ticks := rfl
@[simp] theorem setSpi_out (i : Nat) (f : SpiSt → SpiSt) : (setSpi i f s).out = s.out := rfl
@[simp] theorem setSpi_regs (i : Nat) (f : SpiSt → SpiSt) : (setSpi i f s).regs = s.regs := rfl
@[simp] theorem setSpi_cnts (i : Nat) (f : SpiSt → SpiSt) : (setSpi i f s).cnts = s.cnts := rfl
@[simp] theorem setSpi_rdLatch (i : Nat) (f : SpiSt → SpiSt) : (setSpi i f s).rdLatch = s.rdLatch := rfl
@[simp] theorem setSpi_wrLatch (i : Nat) (f : SpiSt → SpiSt) : (setSpi i f s).wrLatch = s.wrLatch := rfl
@[simp] theorem setSpi_mode (i : Nat) (f : SpiSt → SpiSt) : (setSpi i f s).mode = s.mode := rfl
@[simp] theorem setSpi_rst (i : Nat) (f : SpiSt → SpiSt) : (setSpi i f s).rst = s.rst := rfl
@[simp] theorem setSpi_fuses (i : Nat) (f : SpiSt → SpiSt) : (setSpi i f s).fuses = s.fuses := rfl
@[simp] theorem setSpi_time (i : Nat) (f : SpiSt → SpiSt) : (setSpi i f s).time = s.time := rfl
@[simp] theorem setSpi_host (i : Nat) (f : SpiSt → SpiSt) : (setSpi i f s).host = s.host := rfl
@[simp] theorem setSpi_jrnl (i : Nat) (f : SpiSt → SpiSt) : (setSpi i f s).jrnl = s.jrnl := rfl
@[simp] theorem setSpi_ports (i : Nat) (f : SpiSt → SpiSt) : (setSpi i f s).ports = s.ports := rfl
@[simp] theorem setSpi_streams (i : Nat) (f : SpiSt → SpiSt) : (setSpi i f s).streams = s.streams := rfl
@[simp] theorem setSpi_gapLog (i : Nat) (f : SpiSt → SpiSt) : (setSpi i f s).gapLog = s.gapLog := rfl
@[simp] theorem setSpi_gapHead (i : Nat) (f : SpiSt → SpiSt) : (setSpi i f s).gapHead = s.gapHead := rfl
@[simp] theorem setSpi_engines (i : Nat) (f : SpiSt → SpiSt) : (setSpi i f s).engines = s.engines := rfl
@[simp] theorem setSpi_engMap (i : Nat) (f : SpiSt → SpiSt) : (setSpi i f s).engMap = s.engMap := rfl
@[simp] theorem setSpi_bufs (i : Nat) (f : SpiSt → SpiSt) : (setSpi i f s).bufs = s.bufs := rfl
@[simp] theorem setSpi_msgs (i : Nat) (f : SpiSt → SpiSt) : (setSpi i f s).msgs = s.msgs := rfl
@[simp] theorem setSpi_evt (i : Nat) (f : SpiSt → SpiSt) : (setSpi i f s).evt = s.evt := rfl
@[simp] theorem setSpi_trig (i : Nat) (f : SpiSt → SpiSt) : (setSpi i f s).trig = s.trig := rfl
@[simp] theorem setSpi_sys (i : Nat) (f : SpiSt → SpiSt) : (setSpi i f s).sys = s.sys := rfl
@[simp] theorem setSpi_pace (i : Nat) (f : SpiSt → SpiSt) : (setSpi i f s).pace = s.pace := rfl
@[simp] theorem setSpi_repair (i : Nat) (f : SpiSt → SpiSt) : (setSpi i f s).repair = s.repair := rfl
@[simp] theorem setSpi_flash (i : Nat) (f : SpiSt → SpiSt) : (setSpi i f s).flash = s.flash := rfl
@[simp] theorem setSpi_spis (i : Nat) (f : SpiSt → SpiSt) : (setSpi i f s).spis = mmod {} s.spis i f := rfl
@[simp] theorem setSpi_tw (i : Nat) (f : SpiSt → SpiSt) : (setSpi i f s).tw = s.tw := rfl
@[simp] theorem setSpi_tmr (i : Nat) (f : SpiSt → SpiSt) : (setSpi i f s).tmr = s.tmr := rfl

/-! ### setTw -/

@[simp] theorem setTw_pending (f : TwSt → TwSt) : (setTw f s).pending = s.pending := rfl
@[simp] theorem setTw_freeIdx (f : TwSt → TwSt) : (setTw f s).freeIdx = s.freeIdx := rfl
@[simp] theorem setTw_ticks (f : TwSt → TwSt) : (setTw f s).ticks = s.ticks := rfl
@[simp] theorem setTw_out (f : TwSt → TwSt) : (setTw f s).out = s.out := rfl
@[simp] theorem setTw_regs (f : TwSt → TwSt) : (setTw f s).regs = s.regs := rfl
@[simp] theorem setTw_cnts (f : TwSt → TwSt) : (setTw f s).cnts = s.cnts := rfl
@[simp] theorem setTw_rdLatch (f : TwSt → TwSt) : (setTw f s).rdLatch = s.rdLatch := rfl
@[simp] theorem setTw_wrLatch (f : TwSt → TwSt) : (setTw f s).wrLatch = s.wrLatch := rfl
@[simp] theorem setTw_mode (f : TwSt → TwSt) : (setTw f s).mode = s.mode := rfl
@[simp] theorem setTw_rst (f : TwSt → TwSt) : (setTw f s).rst = s.rst := rfl
@[simp] theorem setTw_fuses (f : TwSt → TwSt) : (setTw f s).fuses = s.fuses := rfl
@[simp] theorem setTw_time (f : TwSt → TwSt) : (setTw f s).time = s.time := rfl
@[simp] theorem setTw_host (f : TwSt → TwSt) : (setTw f s).host = s.host := rfl
@[simp] theorem setTw_jrnl (f : TwSt → TwSt) : (setTw f s).jrnl = s.jrnl := rfl
@[simp] theorem setTw_ports (f : TwSt → TwSt) : (setTw f s).ports = s.ports := rfl
@[simp] theorem setTw_streams (f : TwSt → TwSt) : (setTw f s).streams = s.streams := rfl
@[simp] theorem setTw_gapLog (f : TwSt → TwSt) : (setTw f s).gapLog = s.gapLog := rfl
@[simp] theorem setTw_gapHead (f : TwSt → TwSt) : (setTw f s).gapHead = s.gapHead := rfl
@[simp] theorem setTw_engines (f : TwSt → TwSt) : (setTw f s).engines = s.engines := rfl
@[simp] theorem setTw_engMap (f : TwSt → TwSt) : (setTw f s).engMap = s.engMap := rfl
@[simp] theorem setTw_bufs (f : TwSt → TwSt) : (setTw f s).bufs = s.bufs := rfl
@[simp] theorem setTw_msgs (f : TwSt → TwSt) : (setTw f s).msgs = s.msgs := rfl
@[simp] theorem setTw_evt (f : TwSt → TwSt) : (setTw f s).evt = s.evt := rfl
@[simp] theorem setTw_trig (f : TwSt → TwSt) : (setTw f s).trig = s.trig := rfl
@[simp] theorem setTw_sys (f : TwSt → TwSt) : (setTw f s).sys = s.sys := rfl
@[simp] theorem setTw_pace (f : TwSt → TwSt) : (setTw f s).pace = s.pace := rfl
@[simp] theorem setTw_repair (f : TwSt → TwSt) : (setTw f s).repair = s.repair := rfl
@[simp] theorem setTw_flash (f : TwSt → TwSt) : (setTw f s).flash = s.flash := rfl
@[simp] theorem setTw_spis (f : TwSt → TwSt) : (setTw f s).spis = s.spis := rfl
@[simp] theorem setTw_tw (f : TwSt → TwSt) : (setTw f s).tw = f s.tw := rfl
@[simp] theorem setTw_tmr (f : TwSt → TwSt) : (setTw f s).tmr = s.tmr := rfl

/-! ### setTmr -/

@[simp] theorem setTmr_pending (i : Nat) (f : TmrSt → TmrSt) : (setTmr i f s).pending = s.pending := rfl
@[simp] theorem setTmr_freeIdx (i : Nat) (f : TmrSt → TmrSt) : (setTmr i f s).freeIdx = s.freeIdx := rfl
@[simp] theorem setTmr_ticks (i : Nat) (f : TmrSt → TmrSt) : (setTmr i f s).ticks = s.ticks := rfl
@[simp] theorem setTmr_out (i : Nat) (f : TmrSt → TmrSt) : (setTmr i f s).out = s.out := rfl
@[simp] theorem setTmr_regs (i : Nat) (f : TmrSt → TmrSt) : (setTmr i f s).regs = s.regs := rfl
@[simp] theorem setTmr_cnts (i : Nat) (f : TmrSt → TmrSt) : (setTmr i f s).cnts = s.cnts := rfl
@[simp] theorem setTmr_rdLatch (i : Nat) (f : TmrSt → TmrSt) : (setTmr i f s).rdLatch = s.rdLatch := rfl
@[simp] theorem setTmr_wrLatch (i : Nat) (f : TmrSt → TmrSt) : (setTmr i f s).wrLatch = s.wrLatch := rfl
@[simp] theorem setTmr_mode (i : Nat) (f : TmrSt → TmrSt) : (setTmr i f s).mode = s.mode := rfl
@[simp] theorem setTmr_rst (i : Nat) (f : TmrSt → TmrSt) : (setTmr i f s).rst = s.rst := rfl
@[simp] theorem setTmr_fuses (i : Nat) (f : TmrSt → TmrSt) : (setTmr i f s).fuses = s.fuses := rfl
@[simp] theorem setTmr_time (i : Nat) (f : TmrSt → TmrSt) : (setTmr i f s).time = s.time := rfl
@[simp] theorem setTmr_host (i : Nat) (f : TmrSt → TmrSt) : (setTmr i f s).host = s.host := rfl
@[simp] theorem setTmr_jrnl (i : Nat) (f : TmrSt → TmrSt) : (setTmr i f s).jrnl = s.jrnl := rfl
@[simp] theorem setTmr_ports (i : Nat) (f : TmrSt → TmrSt) : (setTmr i f s).ports = s.ports := rfl
@[simp] theorem setTmr_streams (i : Nat) (f : TmrSt → TmrSt) : (setTmr i f s).streams = s.streams := rfl
@[simp] theorem setTmr_gapLog (i : Nat) (f : TmrSt → TmrSt) : (setTmr i f s).gapLog = s.gapLog := rfl
@[simp] theorem setTmr_gapHead (i : Nat) (f : TmrSt → TmrSt) : (setTmr i f s).gapHead = s.gapHead := rfl
@[simp] theorem setTmr_engines (i : Nat) (f : TmrSt → TmrSt) : (setTmr i f s).engines = s.engines := rfl
@[simp] theorem setTmr_engMap (i : Nat) (f : TmrSt → TmrSt) : (setTmr i f s).engMap = s.engMap := rfl
@[simp] theorem setTmr_bufs (i : Nat) (f : TmrSt → TmrSt) : (setTmr i f s).bufs = s.bufs := rfl
@[simp] theorem setTmr_msgs (i : Nat) (f : TmrSt → TmrSt) : (setTmr i f s).msgs = s.msgs := rfl
@[simp] theorem setTmr_evt (i : Nat) (f : TmrSt → TmrSt) : (setTmr i f s).evt = s.evt := rfl
@[simp] theorem setTmr_trig (i : Nat) (f : TmrSt → TmrSt) : (setTmr i f s).trig = s.trig := rfl
@[simp] theorem setTmr_sys (i : Nat) (f : TmrSt → TmrSt) : (setTmr i f s).sys = s.sys := rfl
@[simp] theorem setTmr_pace (i : Nat) (f : TmrSt → TmrSt) : (setTmr i f s).pace = s.pace := rfl
@[simp] theorem setTmr_repair (i : Nat) (f : TmrSt → TmrSt) : (setTmr i f s).repair = s.repair := rfl
@[simp] theorem setTmr_flash (i : Nat) (f : TmrSt → TmrSt) : (setTmr i f s).flash = s.flash := rfl
@[simp] theorem setTmr_spis (i : Nat) (f : TmrSt → TmrSt) : (setTmr i f s).spis = s.spis := rfl
@[simp] theorem setTmr_tw (i : Nat) (f : TmrSt → TmrSt) : (setTmr i f s).tw = s.tw := rfl
@[simp] theorem setTmr_tmr (i : Nat) (f : TmrSt → TmrSt) : (setTmr i f s).tmr = { s.tmr with tmrs := mmod {} s.tmr.tmrs i f } := rfl

/-! ### setPtp -/

@[simp] theorem setPtp_pending (i : Nat) (f : PtpSt → PtpSt) : (setPtp i f s).pending = s.pending := rfl
@[simp] theorem setPtp_freeIdx (i : Nat) (f : PtpSt → PtpSt) : (setPtp i f s).freeIdx = s.freeIdx := rfl
@[simp] theorem setPtp_ticks (i : Nat) (f : PtpSt → PtpSt) : (setPtp i f s).ticks = s.ticks := rfl
@[simp] theorem setPtp_out (i : Nat) (f : PtpSt → PtpSt) : (setPtp i f s).out = s.out := rfl
@[simp] theorem setPtp_regs (i : Nat) (f : PtpSt → PtpSt) : (setPtp i f s).regs = s.regs := rfl
@[simp] theorem setPtp_cnts (i : Nat) (f : PtpSt → PtpSt) : (setPtp i f s).cnts = s.cnts := rfl
@[simp] theorem setPtp_rdLatch (i : Nat) (f : PtpSt → PtpSt) : (setPtp i f s).rdLatch = s.rdLatch := rfl
@[simp] theorem setPtp_wrLatch (i : Nat) (f : PtpSt → PtpSt) : (setPtp i f s).wrLatch = s.wrLatch := rfl
@[simp] theorem setPtp_mode (i : Nat) (f : PtpSt → PtpSt) : (setPtp i f s).mode = s.mode := rfl
@[simp] theorem setPtp_rst (i : Nat) (f : PtpSt → PtpSt) : (setPtp i f s).rst = s.rst := rfl
@[simp] theorem setPtp_fuses (i : Nat) (f : PtpSt → PtpSt) : (setPtp i f s).fuses = s.fuses := rfl
@[simp] theorem setPtp_time (i : Nat) (f : PtpSt → PtpSt) : (setPtp i f s).time = { s.time with ptps := mmod {} s.time.ptps i f } := rfl
@[simp] theorem setPtp_host (i : Nat) (f : PtpSt → PtpSt) : (setPtp i f s).host = s.host := rfl
@[simp] theorem setPtp_jrnl (i : Nat) (f : PtpSt → PtpSt) : (setPtp i f s).jrnl = s.jrnl := rfl
@[simp] theorem setPtp_ports (i : Nat) (f : PtpSt → PtpSt) : (setPtp i f s).ports = s.ports := rfl
@[simp] theorem setPtp_streams (i : Nat) (f : PtpSt → PtpSt) : (setPtp i f s).streams = s.streams := rfl
@[simp] theorem setPtp_gapLog (i : Nat) (f : PtpSt → PtpSt) : (setPtp i f s).gapLog = s.gapLog := rfl
@[simp] theorem setPtp_gapHead (i : Nat) (f : PtpSt → PtpSt) : (setPtp i f s).gapHead = s.gapHead := rfl
@[simp] theorem setPtp_engines (i : Nat) (f : PtpSt → PtpSt) : (setPtp i f s).engines = s.engines := rfl
@[simp] theorem setPtp_engMap (i : Nat) (f : PtpSt → PtpSt) : (setPtp i f s).engMap = s.engMap := rfl
@[simp] theorem setPtp_bufs (i : Nat) (f : PtpSt → PtpSt) : (setPtp i f s).bufs = s.bufs := rfl
@[simp] theorem setPtp_msgs (i : Nat) (f : PtpSt → PtpSt) : (setPtp i f s).msgs = s.msgs := rfl
@[simp] theorem setPtp_evt (i : Nat) (f : PtpSt → PtpSt) : (setPtp i f s).evt = s.evt := rfl
@[simp] theorem setPtp_trig (i : Nat) (f : PtpSt → PtpSt) : (setPtp i f s).trig = s.trig := rfl
@[simp] theorem setPtp_sys (i : Nat) (f : PtpSt → PtpSt) : (setPtp i f s).sys = s.sys := rfl
@[simp] theorem setPtp_pace (i : Nat) (f : PtpSt → PtpSt) : (setPtp i f s).pace = s.pace := rfl
@[simp] theorem setPtp_repair (i : Nat) (f : PtpSt → PtpSt) : (setPtp i f s).repair = s.repair := rfl
@[simp] theorem setPtp_flash (i : Nat) (f : PtpSt → PtpSt) : (setPtp i f s).flash = s.flash := rfl
@[simp] theorem setPtp_spis (i : Nat) (f : PtpSt → PtpSt) : (setPtp i f s).spis = s.spis := rfl
@[simp] theorem setPtp_tw (i : Nat) (f : PtpSt → PtpSt) : (setPtp i f s).tw = s.tw := rfl
@[simp] theorem setPtp_tmr (i : Nat) (f : PtpSt → PtpSt) : (setPtp i f s).tmr = s.tmr := rfl

/-! ### setSyn -/

@[simp] theorem setSyn_pending (i : Nat) (f : SynSt → SynSt) : (setSyn i f s).pending = s.pending := rfl
@[simp] theorem setSyn_freeIdx (i : Nat) (f : SynSt → SynSt) : (setSyn i f s).freeIdx = s.freeIdx := rfl
@[simp] theorem setSyn_ticks (i : Nat) (f : SynSt → SynSt) : (setSyn i f s).ticks = s.ticks := rfl
@[simp] theorem setSyn_out (i : Nat) (f : SynSt → SynSt) : (setSyn i f s).out = s.out := rfl
@[simp] theorem setSyn_regs (i : Nat) (f : SynSt → SynSt) : (setSyn i f s).regs = s.regs := rfl
@[simp] theorem setSyn_cnts (i : Nat) (f : SynSt → SynSt) : (setSyn i f s).cnts = s.cnts := rfl
@[simp] theorem setSyn_rdLatch (i : Nat) (f : SynSt → SynSt) : (setSyn i f s).rdLatch = s.rdLatch := rfl
@[simp] theorem setSyn_wrLatch (i : Nat) (f : SynSt → SynSt) : (setSyn i f s).wrLatch = s.wrLatch := rfl
@[simp] theorem setSyn_mode (i : Nat) (f : SynSt → SynSt) : (setSyn i f s).mode = s.mode := rfl
@[simp] theorem setSyn_rst (i : Nat) (f : SynSt → SynSt) : (setSyn i f s).rst = s.rst := rfl
@[simp] theorem setSyn_fuses (i : Nat) (f : SynSt → SynSt) : (setSyn i f s).fuses = s.fuses := rfl
@[simp] theorem setSyn_time (i : Nat) (f : SynSt → SynSt) : (setSyn i f s).time = { s.time with syns := mmod {} s.time.syns i f } := rfl
@[simp] theorem setSyn_host (i : Nat) (f : SynSt → SynSt) : (setSyn i f s).host = s.host := rfl
@[simp] theorem setSyn_jrnl (i : Nat) (f : SynSt → SynSt) : (setSyn i f s).jrnl = s.jrnl := rfl
@[simp] theorem setSyn_ports (i : Nat) (f : SynSt → SynSt) : (setSyn i f s).ports = s.ports := rfl
@[simp] theorem setSyn_streams (i : Nat) (f : SynSt → SynSt) : (setSyn i f s).streams = s.streams := rfl
@[simp] theorem setSyn_gapLog (i : Nat) (f : SynSt → SynSt) : (setSyn i f s).gapLog = s.gapLog := rfl
@[simp] theorem setSyn_gapHead (i : Nat) (f : SynSt → SynSt) : (setSyn i f s).gapHead = s.gapHead := rfl
@[simp] theorem setSyn_engines (i : Nat) (f : SynSt → SynSt) : (setSyn i f s).engines = s.engines := rfl
@[simp] theorem setSyn_engMap (i : Nat) (f : SynSt → SynSt) : (setSyn i f s).engMap = s.engMap := rfl
@[simp] theorem setSyn_bufs (i : Nat) (f : SynSt → SynSt) : (setSyn i f s).bufs = s.bufs := rfl
@[simp] theorem setSyn_msgs (i : Nat) (f : SynSt → SynSt) : (setSyn i f s).msgs = s.msgs := rfl
@[simp] theorem setSyn_evt (i : Nat) (f : SynSt → SynSt) : (setSyn i f s).evt = s.evt := rfl
@[simp] theorem setSyn_trig (i : Nat) (f : SynSt → SynSt) : (setSyn i f s).trig = s.trig := rfl
@[simp] theorem setSyn_sys (i : Nat) (f : SynSt → SynSt) : (setSyn i f s).sys = s.sys := rfl
@[simp] theorem setSyn_pace (i : Nat) (f : SynSt → SynSt) : (setSyn i f s).pace = s.pace := rfl
@[simp] theorem setSyn_repair (i : Nat) (f : SynSt → SynSt) : (setSyn i f s).repair = s.repair := rfl
@[simp] theorem setSyn_flash (i : Nat) (f : SynSt → SynSt) : (setSyn i f s).flash = s.flash := rfl
@[simp] theorem setSyn_spis (i : Nat) (f : SynSt → SynSt) : (setSyn i f s).spis = s.spis := rfl
@[simp] theorem setSyn_tw (i : Nat) (f : SynSt → SynSt) : (setSyn i f s).tw = s.tw := rfl
@[simp] theorem setSyn_tmr (i : Nat) (f : SynSt → SynSt) : (setSyn i f s).tmr = s.tmr := rfl

/-! ### setLink -/

@[simp] theorem setLink_pending (i : Nat) (f : LinkSt → LinkSt) : (setLink i f s).pending = s.pending := rfl
@[simp] theorem setLink_freeIdx (i : Nat) (f : LinkSt → LinkSt) : (setLink i f s).freeIdx = s.freeIdx := rfl
@[simp] theorem setLink_ticks (i : Nat) (f : LinkSt → LinkSt) : (setLink i f s).ticks = s.ticks := rfl
@[simp] theorem setLink_out (i : Nat) (f : LinkSt → LinkSt) : (setLink i f s).out = s.out := rfl
@[simp] theorem setLink_regs (i : Nat) (f : LinkSt → LinkSt) : (setLink i f s).regs = s.regs := rfl
@[simp] theorem setLink_cnts (i : Nat) (f : LinkSt → LinkSt) : (setLink i f s).cnts = s.cnts := rfl
@[simp] theorem setLink_rdLatch (i : Nat) (f : LinkSt → LinkSt) : (setLink i f s).rdLatch = s.rdLatch := rfl
@[simp] theorem setLink_wrLatch (i : Nat) (f : LinkSt → LinkSt) : (setLink i f s).wrLatch = s.wrLatch := rfl
@[simp] theorem setLink_mode (i : Nat) (f : LinkSt → LinkSt) : (setLink i f s).mode = s.mode := rfl
@[simp] theorem setLink_rst (i : Nat) (f : LinkSt → LinkSt) : (setLink i f s).rst = s.rst := rfl
@[simp] theorem setLink_fuses (i : Nat) (f : LinkSt → LinkSt) : (setLink i f s).fuses = s.fuses := rfl
@[simp] theorem setLink_time (i : Nat) (f : LinkSt → LinkSt) : (setLink i f s).time = s.time := rfl
@[simp] theorem setLink_host (i : Nat) (f : LinkSt → LinkSt) : (setLink i f s).host = s.host := rfl
@[simp] theorem setLink_jrnl (i : Nat) (f : LinkSt → LinkSt) : (setLink i f s).jrnl = s.jrnl := rfl
@[simp] theorem setLink_ports (i : Nat) (f : LinkSt → LinkSt) : (setLink i f s).ports = s.ports := rfl
@[simp] theorem setLink_streams (i : Nat) (f : LinkSt → LinkSt) : (setLink i f s).streams = s.streams := rfl
@[simp] theorem setLink_gapLog (i : Nat) (f : LinkSt → LinkSt) : (setLink i f s).gapLog = s.gapLog := rfl
@[simp] theorem setLink_gapHead (i : Nat) (f : LinkSt → LinkSt) : (setLink i f s).gapHead = s.gapHead := rfl
@[simp] theorem setLink_engines (i : Nat) (f : LinkSt → LinkSt) : (setLink i f s).engines = s.engines := rfl
@[simp] theorem setLink_engMap (i : Nat) (f : LinkSt → LinkSt) : (setLink i f s).engMap = s.engMap := rfl
@[simp] theorem setLink_bufs (i : Nat) (f : LinkSt → LinkSt) : (setLink i f s).bufs = s.bufs := rfl
@[simp] theorem setLink_msgs (i : Nat) (f : LinkSt → LinkSt) : (setLink i f s).msgs = s.msgs := rfl
@[simp] theorem setLink_evt (i : Nat) (f : LinkSt → LinkSt) : (setLink i f s).evt = s.evt := rfl
@[simp] theorem setLink_trig (i : Nat) (f : LinkSt → LinkSt) : (setLink i f s).trig = s.trig := rfl
@[simp] theorem setLink_sys (i : Nat) (f : LinkSt → LinkSt) : (setLink i f s).sys = { s.sys with links := mmod {} s.sys.links i f } := rfl
@[simp] theorem setLink_pace (i : Nat) (f : LinkSt → LinkSt) : (setLink i f s).pace = s.pace := rfl
@[simp] theorem setLink_repair (i : Nat) (f : LinkSt → LinkSt) : (setLink i f s).repair = s.repair := rfl
@[simp] theorem setLink_flash (i : Nat) (f : LinkSt → LinkSt) : (setLink i f s).flash = s.flash := rfl
@[simp] theorem setLink_spis (i : Nat) (f : LinkSt → LinkSt) : (setLink i f s).spis = s.spis := rfl
@[simp] theorem setLink_tw (i : Nat) (f : LinkSt → LinkSt) : (setLink i f s).tw = s.tw := rfl
@[simp] theorem setLink_tmr (i : Nat) (f : LinkSt → LinkSt) : (setLink i f s).tmr = s.tmr := rfl

/-! ### setHist -/

@[simp] theorem setHist_pending (i : Nat) (f : HistSt → HistSt) : (setHist i f s).pending = s.pending := rfl
@[simp] theorem setHist_freeIdx (i : Nat) (f : HistSt → HistSt) : (setHist i f s).freeIdx = s.freeIdx := rfl
@[simp] theorem setHist_ticks (i : Nat) (f : HistSt → HistSt) : (setHist i f s).ticks = s.ticks := rfl
@[simp] theorem setHist_out (i : Nat) (f : HistSt → HistSt) : (setHist i f s).out = s.out := rfl
@[simp] theorem setHist_regs (i : Nat) (f : HistSt → HistSt) : (setHist i f s).regs = s.regs := rfl
@[simp] theorem setHist_cnts (i : Nat) (f : HistSt → HistSt) : (setHist i f s).cnts = s.cnts := rfl
@[simp] theorem setHist_rdLatch (i : Nat) (f : HistSt → HistSt) : (setHist i f s).rdLatch = s.rdLatch := rfl
@[simp] theorem setHist_wrLatch (i : Nat) (f : HistSt → HistSt) : (setHist i f s).wrLatch = s.wrLatch := rfl
@[simp] theorem setHist_mode (i : Nat) (f : HistSt → HistSt) : (setHist i f s).mode = s.mode := rfl
@[simp] theorem setHist_rst (i : Nat) (f : HistSt → HistSt) : (setHist i f s).rst = s.rst := rfl
@[simp] theorem setHist_fuses (i : Nat) (f : HistSt → HistSt) : (setHist i f s).fuses = s.fuses := rfl
@[simp] theorem setHist_time (i : Nat) (f : HistSt → HistSt) : (setHist i f s).time = s.time := rfl
@[simp] theorem setHist_host (i : Nat) (f : HistSt → HistSt) : (setHist i f s).host = s.host := rfl
@[simp] theorem setHist_jrnl (i : Nat) (f : HistSt → HistSt) : (setHist i f s).jrnl = s.jrnl := rfl
@[simp] theorem setHist_ports (i : Nat) (f : HistSt → HistSt) : (setHist i f s).ports = s.ports := rfl
@[simp] theorem setHist_streams (i : Nat) (f : HistSt → HistSt) : (setHist i f s).streams = s.streams := rfl
@[simp] theorem setHist_gapLog (i : Nat) (f : HistSt → HistSt) : (setHist i f s).gapLog = s.gapLog := rfl
@[simp] theorem setHist_gapHead (i : Nat) (f : HistSt → HistSt) : (setHist i f s).gapHead = s.gapHead := rfl
@[simp] theorem setHist_engines (i : Nat) (f : HistSt → HistSt) : (setHist i f s).engines = s.engines := rfl
@[simp] theorem setHist_engMap (i : Nat) (f : HistSt → HistSt) : (setHist i f s).engMap = s.engMap := rfl
@[simp] theorem setHist_bufs (i : Nat) (f : HistSt → HistSt) : (setHist i f s).bufs = s.bufs := rfl
@[simp] theorem setHist_msgs (i : Nat) (f : HistSt → HistSt) : (setHist i f s).msgs = s.msgs := rfl
@[simp] theorem setHist_evt (i : Nat) (f : HistSt → HistSt) : (setHist i f s).evt = { s.evt with hist := mmod {} s.evt.hist i f } := rfl
@[simp] theorem setHist_trig (i : Nat) (f : HistSt → HistSt) : (setHist i f s).trig = s.trig := rfl
@[simp] theorem setHist_sys (i : Nat) (f : HistSt → HistSt) : (setHist i f s).sys = s.sys := rfl
@[simp] theorem setHist_pace (i : Nat) (f : HistSt → HistSt) : (setHist i f s).pace = s.pace := rfl
@[simp] theorem setHist_repair (i : Nat) (f : HistSt → HistSt) : (setHist i f s).repair = s.repair := rfl
@[simp] theorem setHist_flash (i : Nat) (f : HistSt → HistSt) : (setHist i f s).flash = s.flash := rfl
@[simp] theorem setHist_spis (i : Nat) (f : HistSt → HistSt) : (setHist i f s).spis = s.spis := rfl
@[simp] theorem setHist_tw (i : Nat) (f : HistSt → HistSt) : (setHist i f s).tw = s.tw := rfl
@[simp] theorem setHist_tmr (i : Nat) (f : HistSt → HistSt) : (setHist i f s).tmr = s.tmr := rfl

/-! ### setTrigIn -/

@[simp] theorem setTrigIn_pending (i : Nat) (f : TrigIn → TrigIn) : (setTrigIn i f s).pending = s.pending := rfl
@[simp] theorem setTrigIn_freeIdx (i : Nat) (f : TrigIn → TrigIn) : (setTrigIn i f s).freeIdx = s.freeIdx := rfl
@[simp] theorem setTrigIn_ticks (i : Nat) (f : TrigIn → TrigIn) : (setTrigIn i f s).ticks = s.ticks := rfl
@[simp] theorem setTrigIn_out (i : Nat) (f : TrigIn → TrigIn) : (setTrigIn i f s).out = s.out := rfl
@[simp] theorem setTrigIn_regs (i : Nat) (f : TrigIn → TrigIn) : (setTrigIn i f s).regs = s.regs := rfl
@[simp] theorem setTrigIn_cnts (i : Nat) (f : TrigIn → TrigIn) : (setTrigIn i f s).cnts = s.cnts := rfl
@[simp] theorem setTrigIn_rdLatch (i : Nat) (f : TrigIn → TrigIn) : (setTrigIn i f s).rdLatch = s.rdLatch := rfl
@[simp] theorem setTrigIn_wrLatch (i : Nat) (f : TrigIn → TrigIn) : (setTrigIn i f s).wrLatch = s.wrLatch := rfl
@[simp] theorem setTrigIn_mode (i : Nat) (f : TrigIn → TrigIn) : (setTrigIn i f s).mode = s.mode := rfl
@[simp] theorem setTrigIn_rst (i : Nat) (f : TrigIn → TrigIn) : (setTrigIn i f s).rst = s.rst := rfl
@[simp] theorem setTrigIn_fuses (i : Nat) (f : TrigIn → TrigIn) : (setTrigIn i f s).fuses = s.fuses := rfl
@[simp] theorem setTrigIn_time (i : Nat) (f : TrigIn → TrigIn) : (setTrigIn i f s).time = s.time := rfl
@[simp] theorem setTrigIn_host (i : Nat) (f : TrigIn → TrigIn) : (setTrigIn i f s).host = s.host := rfl
@[simp] theorem setTrigIn_jrnl (i : Nat) (f : TrigIn → TrigIn) : (setTrigIn i f s).jrnl = s.jrnl := rfl
@[simp] theorem setTrigIn_ports (i : Nat) (f : TrigIn → TrigIn) : (setTrigIn i f s).ports = s.ports := rfl
@[simp] theorem setTrigIn_streams (i : Nat) (f : TrigIn → TrigIn) : (setTrigIn i f s).streams = s.streams := rfl
@[simp] theorem setTrigIn_gapLog (i : Nat) (f : TrigIn → TrigIn) : (setTrigIn i f s).gapLog = s.gapLog := rfl
@[simp] theorem setTrigIn_gapHead (i : Nat) (f : TrigIn → TrigIn) : (setTrigIn i f s).gapHead = s.gapHead := rfl
@[simp] theorem setTrigIn_engines (i : Nat) (f : TrigIn → TrigIn) : (setTrigIn i f s).engines = s.engines := rfl
@[simp] theorem setTrigIn_engMap (i : Nat) (f : TrigIn → TrigIn) : (setTrigIn i f s).engMap = s.engMap := rfl
@[simp] theorem setTrigIn_bufs (i : Nat) (f : TrigIn → TrigIn) : (setTrigIn i f s).bufs = s.bufs := rfl
@[simp] theorem setTrigIn_msgs (i : Nat) (f : TrigIn → TrigIn) : (setTrigIn i f s).msgs = s.msgs := rfl
@[simp] theorem setTrigIn_evt (i : Nat) (f : TrigIn → TrigIn) : (setTrigIn i f s).evt = s.evt := rfl
@[simp] theorem setTrigIn_trig (i : Nat) (f : TrigIn → TrigIn) : (setTrigIn i f s).trig = { s.trig with ins := mmod {} s.trig.ins i f } := rfl
@[simp] theorem setTrigIn_sys (i : Nat) (f : TrigIn → TrigIn) : (setTrigIn i f s).sys = s.sys := rfl
@[simp] theorem setTrigIn_pace (i : Nat) (f : TrigIn → TrigIn) : (setTrigIn i f s).pace = s.pace := rfl
@[simp] theorem setTrigIn_repair (i : Nat) (f : TrigIn → TrigIn) : (setTrigIn i f s).repair = s.repair := rfl
@[simp] theorem setTrigIn_flash (i : Nat) (f : TrigIn → TrigIn) : (setTrigIn i f s).flash = s.flash := rfl
@[simp] theorem setTrigIn_spis (i : Nat) (f : TrigIn → TrigIn) : (setTrigIn i f s).spis = s.spis := rfl
@[simp] theorem setTrigIn_tw (i : Nat) (f : TrigIn → TrigIn) : (setTrigIn i f s).tw = s.tw := rfl
@[simp] theorem setTrigIn_tmr (i : Nat) (f : TrigIn → TrigIn) : (setTrigIn i f s).tmr = s.tmr := rfl

/-! ### setLatch -/

@[simp] theorem setLatch_pending (who : Requester) (a v : Nat) : (setLatch who a v s).pending = s.pending := rfl
@[simp] theorem setLatch_freeIdx (who : Requester) (a v : Nat) : (setLatch who a v s).freeIdx = s.freeIdx := rfl
@[simp] theorem setLatch_ticks (who : Requester) (a v : Nat) : (setLatch who a v s).ticks = s.ticks := rfl
@[simp] theorem setLatch_out (who : Requester) (a v : Nat) : (setLatch who a v s).out = s.out := rfl
@[simp] theorem setLatch_regs (who : Requester) (a v : Nat) : (setLatch who a v s).regs = s.regs := rfl
@[simp] theorem setLatch_cnts (who : Requester) (a v : Nat) : (setLatch who a v s).cnts = s.cnts := rfl
@[simp] theorem setLatch_rdLatch (who : Requester) (a v : Nat) : (setLatch who a v s).rdLatch = mput s.rdLatch (latchAt who a) (BitVec.ofNat 32 v) := rfl
@[simp] theorem setLatch_wrLatch (who : Requester) (a v : Nat) : (setLatch who a v s).wrLatch = s.wrLatch := rfl
@[simp] theorem setLatch_mode (who : Requester) (a v : Nat) : (setLatch who a v s).mode = s.mode := rfl
@[simp] theorem setLatch_rst (who : Requester) (a v : Nat) : (setLatch who a v s).rst = s.rst := rfl
@[simp] theorem setLatch_fuses (who : Requester) (a v : Nat) : (setLatch who a v s).fuses = s.fuses := rfl
@[simp] theorem setLatch_time (who : Requester) (a v : Nat) : (setLatch who a v s).time = s.time := rfl
@[simp] theorem setLatch_host (who : Requester) (a v : Nat) : (setLatch who a v s).host = s.host := rfl
@[simp] theorem setLatch_jrnl (who : Requester) (a v : Nat) : (setLatch who a v s).jrnl = s.jrnl := rfl
@[simp] theorem setLatch_ports (who : Requester) (a v : Nat) : (setLatch who a v s).ports = s.ports := rfl
@[simp] theorem setLatch_streams (who : Requester) (a v : Nat) : (setLatch who a v s).streams = s.streams := rfl
@[simp] theorem setLatch_gapLog (who : Requester) (a v : Nat) : (setLatch who a v s).gapLog = s.gapLog := rfl
@[simp] theorem setLatch_gapHead (who : Requester) (a v : Nat) : (setLatch who a v s).gapHead = s.gapHead := rfl
@[simp] theorem setLatch_engines (who : Requester) (a v : Nat) : (setLatch who a v s).engines = s.engines := rfl
@[simp] theorem setLatch_engMap (who : Requester) (a v : Nat) : (setLatch who a v s).engMap = s.engMap := rfl
@[simp] theorem setLatch_bufs (who : Requester) (a v : Nat) : (setLatch who a v s).bufs = s.bufs := rfl
@[simp] theorem setLatch_msgs (who : Requester) (a v : Nat) : (setLatch who a v s).msgs = s.msgs := rfl
@[simp] theorem setLatch_evt (who : Requester) (a v : Nat) : (setLatch who a v s).evt = s.evt := rfl
@[simp] theorem setLatch_trig (who : Requester) (a v : Nat) : (setLatch who a v s).trig = s.trig := rfl
@[simp] theorem setLatch_sys (who : Requester) (a v : Nat) : (setLatch who a v s).sys = s.sys := rfl
@[simp] theorem setLatch_pace (who : Requester) (a v : Nat) : (setLatch who a v s).pace = s.pace := rfl
@[simp] theorem setLatch_repair (who : Requester) (a v : Nat) : (setLatch who a v s).repair = s.repair := rfl
@[simp] theorem setLatch_flash (who : Requester) (a v : Nat) : (setLatch who a v s).flash = s.flash := rfl
@[simp] theorem setLatch_spis (who : Requester) (a v : Nat) : (setLatch who a v s).spis = s.spis := rfl
@[simp] theorem setLatch_tw (who : Requester) (a v : Nat) : (setLatch who a v s).tw = s.tw := rfl
@[simp] theorem setLatch_tmr (who : Requester) (a v : Nat) : (setLatch who a v s).tmr = s.tmr := rfl

end Sys2Proof.Machine
end

