-- ==== Sys2Proof/Laws/Maps.lean ====
section
/-! SUPPORT. The laws of the finite maps and stores that every table of the block is kept in: a read after a write, and that every
operation keeps the keys rising. -/

namespace Sys2Proof.Machine

variable {α : Type}

/-! ### Reading after writing -/

@[simp] theorem mfind_nil (k : Nat) : mfind ([] : FMap α) k = none := rfl

theorem mfind_mins_same (m : FMap α) (k : Nat) (v : α) (h : mfind m k = none) : mfind (mins m k v) k = some v := by
  induction m with
  | nil => simp [mins, mfind]
  | cons e m ih =>
    obtain ⟨j, w⟩ := e
    simp only [mfind] at h
    split at h
    · cases h
    · rename_i hj
      unfold mins
      split <;> simp [mfind, hj, ih h]

theorem mfind_mins_ne (m : FMap α) {k j : Nat} (v : α) (h : j ≠ k) : mfind (mins m k v) j = mfind m j := by
  induction m with
  | nil => simp [mins, mfind, Ne.symm h]
  | cons e m ih =>
    obtain ⟨i, w⟩ := e
    unfold mins
    split
    · simp [mfind, Ne.symm h]
    · simp only [mfind, ih]

@[simp] theorem mfind_mdel_same (m : FMap α) (k : Nat) : mfind (mdel m k) k = none := by
  induction m with
  | nil => rfl
  | cons e m ih =>
    obtain ⟨i, w⟩ := e
    unfold mdel
    split
    · exact ih
    · rename_i h; simp [mfind, h, ih]

theorem mfind_mdel_ne (m : FMap α) {k j : Nat} (h : j ≠ k) : mfind (mdel m k) j = mfind m j := by
  induction m with
  | nil => rfl
  | cons e m ih =>
    obtain ⟨i, w⟩ := e
    unfold mdel
    split
    · rename_i e; subst e; simp [mfind, Ne.symm h, ih]
    · simp only [mfind, ih]

@[simp] theorem mfind_mput_same (m : FMap α) (k : Nat) (v : α) : mfind (mput m k v) k = some v :=
  mfind_mins_same _ _ _ (mfind_mdel_same _ _)

theorem mfind_mput_ne (m : FMap α) {k j : Nat} (v : α) (h : j ≠ k) : mfind (mput m k v) j = mfind m j := by
  rw [mput, mfind_mins_ne _ _ h, mfind_mdel_ne _ h]

@[simp] theorem mget_nil (d : α) (k : Nat) : mget d ([] : FMap α) k = d := rfl

@[simp] theorem mget_mput_same (d : α) (m : FMap α) (k : Nat) (v : α) : mget d (mput m k v) k = v := by simp [mget]

theorem mget_mput_ne (d : α) (m : FMap α) {k j : Nat} (v : α) (h : j ≠ k) : mget d (mput m k v) j = mget d m j := by
  simp [mget, mfind_mput_ne _ _ h]

@[simp] theorem mget_mdel_same (d : α) (m : FMap α) (k : Nat) : mget d (mdel m k) k = d := by simp [mget]

theorem mget_mdel_ne (d : α) (m : FMap α) {k j : Nat} (h : j ≠ k) : mget d (mdel m k) j = mget d m j := by
  simp [mget, mfind_mdel_ne _ h]

@[simp] theorem mget_mmod_same (d : α) (m : FMap α) (k : Nat) (f : α → α) : mget d (mmod d m k f) k = f (mget d m k) := by
  simp [mmod]

theorem mget_mmod_ne (d e : α) (m : FMap α) {k j : Nat} (f : α → α) (h : j ≠ k) : mget d (mmod e m k f) j = mget d m j := by
  simp [mmod, mget_mput_ne _ _ _ h]

/-- What a store reads after a write of one cell. -/
theorem mget_stPut [DecidableEq α] (d : α) (m : FMap α) (k j : Nat) (v : α) :
    mget d (stPut d m k v) j = if j = k then v else mget d m j := by
  unfold stPut
  by_cases h : j = k
  · subst h; split <;> simp_all
  · split <;> simp [h, mget_mdel_ne, mget_mput_ne]

/-! ### The canonical form -/

/-- Every key of a map lies above a bound. -/
def mabove (b : Nat) (m : FMap α) : Prop := ∀ e ∈ m, b < e.1

theorem mwf_cons (k : Nat) (v : α) (m : FMap α) : mwf ((k, v) :: m) = true ↔ mabove k m ∧ mwf m = true := by
  induction m generalizing k v with
  | nil => simp [mwf, mabove]
  | cons e m ih =>
    obtain ⟨j, w⟩ := e
    rw [mwf]
    simp only [Bool.and_eq_true, decide_eq_true_eq]
    constructor
    · rintro ⟨h, hw⟩
      refine ⟨fun e he => ?_, hw⟩
      rcases List.mem_cons.1 he with rfl | he
      · exact h
      · exact Nat.lt_trans h (((ih j w).1 hw).1 e he)
    · rintro ⟨h, hw⟩
      exact ⟨h (j, w) (by simp), hw⟩

theorem mem_mdel {e : Nat × α} {m : FMap α} {k : Nat} (h : e ∈ mdel m k) : e ∈ m := by
  induction m with
  | nil => exact h
  | cons x m ih =>
    obtain ⟨j, w⟩ := x
    unfold mdel at h
    split at h
    · exact List.mem_cons_of_mem _ (ih h)
    · rcases List.mem_cons.1 h with rfl | h
      · simp
      · exact List.mem_cons_of_mem _ (ih h)

theorem mem_mins {e : Nat × α} {m : FMap α} {k : Nat} {v : α} (h : e ∈ mins m k v) : e = (k, v) ∨ e ∈ m := by
  induction m with
  | nil => simpa [mins] using h
  | cons x m ih =>
    obtain ⟨j, w⟩ := x
    unfold mins at h
    split at h
    · simpa using h
    · rcases List.mem_cons.1 h with rfl | h
      · simp
      · rcases ih h with h | h <;> simp [h]

theorem mem_mput {e : Nat × α} {m : FMap α} {k : Nat} {v : α} (h : e ∈ mput m k v) : e = (k, v) ∨ e ∈ m :=
  (mem_mins h).imp id mem_mdel

theorem mwf_mdel {m : FMap α} (h : mwf m = true) (k : Nat) : mwf (mdel m k) = true := by
  induction m with
  | nil => rfl
  | cons x m ih =>
    obtain ⟨j, w⟩ := x
    have h' := (mwf_cons _ _ _).1 h
    unfold mdel
    split
    · exact ih h'.2
    · exact (mwf_cons _ _ _).2 ⟨fun e he => h'.1 e (mem_mdel he), ih h'.2⟩

theorem mwf_mins {m : FMap α} (h : mwf m = true) {k : Nat} (v : α) (hk : mfind m k = none) : mwf (mins m k v) = true := by
  induction m with
  | nil => rfl
  | cons x m ih =>
    obtain ⟨j, w⟩ := x
    have h' := (mwf_cons _ _ _).1 h
    simp only [mfind] at hk
    split at hk
    · cases hk
    rename_i hj
    unfold mins
    split
    · rename_i hlt
      refine (mwf_cons _ _ _).2 ⟨fun e he => ?_, h⟩
      rcases List.mem_cons.1 he with rfl | he
      · exact hlt
      · exact Nat.lt_trans hlt (h'.1 e he)
    · refine (mwf_cons _ _ _).2 ⟨fun e he => ?_, ih h'.2 hk⟩
      rcases mem_mins he with rfl | he
      · show j < k; omega
      · exact h'.1 e he

theorem mwf_mput {m : FMap α} (h : mwf m = true) (k : Nat) (v : α) : mwf (mput m k v) = true :=
  mwf_mins (mwf_mdel h k) v (mfind_mdel_same _ _)

theorem mwf_mmod {m : FMap α} (h : mwf m = true) (d : α) (k : Nat) (f : α → α) : mwf (mmod d m k f) = true := mwf_mput h _ _

theorem mwf_stPut [DecidableEq α] {m : FMap α} (h : mwf m = true) (d : α) (k : Nat) (v : α) : mwf (stPut d m k v) = true := by
  unfold stPut; split
  · exact mwf_mdel h k
  · exact mwf_mput h k v

theorem mwf_filter {m : FMap α} (h : mwf m = true) (p : Nat × α → Bool) : mwf (m.filter p) = true := by
  induction m with
  | nil => rfl
  | cons x m ih =>
    obtain ⟨j, w⟩ := x
    have h' := (mwf_cons _ _ _).1 h
    rw [List.filter_cons]
    split
    · exact (mwf_cons _ _ _).2 ⟨fun e he => h'.1 e (List.mem_filter.1 he).1, ih h'.2⟩
    · exact ih h'.2

/-- A store that a write leaves canonical lists no cell at the value an unlisted one reads as. -/
theorem stPut_ne_default [DecidableEq α] {d : α} {m : FMap α} (h : ∀ e ∈ m, e.2 ≠ d) (k : Nat) (v : α) :
    ∀ e ∈ stPut d m k v, e.2 ≠ d := by
  intro e he
  unfold stPut at he
  split at he
  · exact h e (mem_mdel he)
  · rename_i hv
    rcases mem_mput he with rfl | he
    · exact hv
    · exact h e he

/-! ### Registers and counters -/

theorem reg_setReg_same (a v : Nat) (s : State) : reg a (setReg a v s) = v % 2 ^ 32 := by
  unfold reg
  simp only [setReg_regs]
  split
  · rename_i h
    split at h
    · rw [mfind_mdel_same] at h; cases h
    · rw [mfind_mput_same] at h; cases h; simp
  · rename_i h
    split at h
    · rename_i hv; exact hv.symm
    · rw [mfind_mput_same] at h; cases h

theorem reg_setReg_ne {a b : Nat} (v : Nat) (s : State) (h : b ≠ a) : reg b (setReg a v s) = reg b s := by
  unfold reg
  simp only [setReg_regs]
  by_cases hv : v % 2 ^ 32 = resetOf a <;> simp only [hv, if_true, if_false, mfind_mdel_ne _ h, mfind_mput_ne _ _ h]

theorem reg_setFld_ne {a b : Nat} (hi lo x : Nat) (s : State) (h : b ≠ a) : reg b (setFld a hi lo x s) = reg b s :=
  reg_setReg_ne _ _ h

theorem reg_lt (a : Nat) (s : State) (h : resetOf a < 2 ^ 32) : reg a s < 2 ^ 32 := by
  unfold reg; split
  · exact BitVec.isLt _
  · exact h

@[simp] theorem cnt_bumpN_same (a n : Nat) (s : State) : cnt a (bumpN a n s) = (cnt a s + n) % 2 ^ 64 := by simp [cnt]

theorem cnt_bumpN_ne {a b : Nat} (n : Nat) (s : State) (h : b ≠ a) : cnt b (bumpN a n s) = cnt b s := by
  simp [cnt, mget_mput_ne _ _ _ h]

@[simp] theorem cnt_bump_same (a : Nat) (s : State) : cnt a (bump a s) = (cnt a s + 1) % 2 ^ 64 := cnt_bumpN_same a 1 s

theorem cnt_bump_ne {a b : Nat} (s : State) (h : b ≠ a) : cnt b (bump a s) = cnt b s := cnt_bumpN_ne 1 s h

end Sys2Proof.Machine
end

