-- ==== Sys2Proof/Laws/Chord.lean ====
section
/-! SUPPORT. What a chord of one syllable does, string by string: the lemmas the statements about single operations rest on. -/

namespace Sys2Proof.Machine

/-! ### Updates of one engine compose -/

theorem mdel_mins {α : Type} (m : FMap α) (k : Nat) (v : α) (h : mfind m k = none) : mdel (mins m k v) k = m := by
  induction m with
  | nil => simp [mins, mdel]
  | cons e m ih =>
    obtain ⟨j, w⟩ := e
    have hj : j ≠ k := by rintro rfl; simp [mfind] at h
    have h' : mfind m k = none := by simpa [mfind, hj] using h
    have hd : mdel m k = m := by
      clear ih h
      induction m with
      | nil => rfl
      | cons e m ih =>
        obtain ⟨i, x⟩ := e
        have hi : i ≠ k := by rintro rfl; simp [mfind] at h'
        simp only [mfind, hi, if_false] at h'
        simp [mdel, hi, ih h']
    unfold mins
    split
    · simp [mdel, hj, hd]
    · simp [mdel, hj, ih h']

@[simp] theorem mput_mput {α : Type} (m : FMap α) (k : Nat) (v w : α) : mput (mput m k v) k w = mput m k w := by
  unfold mput
  rw [mdel_mins _ _ _ (mfind_mdel_same _ _)]

@[simp] theorem eng_setEng_same (key : Nat) (f : EngSt → EngSt) (s : State) : eng key (setEng key f s) = f (eng key s) := by
  simp [eng]

theorem eng_setEng_ne {key j : Nat} (f : EngSt → EngSt) (s : State) (h : j ≠ key) : eng j (setEng key f s) = eng j s := by
  simp [eng, mget_mmod_ne _ _ _ _ h]

@[simp] theorem setEng_setEng (key : Nat) (f g : EngSt → EngSt) (s : State) :
    setEng key g (setEng key f s) = setEng key (fun e => g (f e)) s := by
  simp [setEng, mmod]

theorem setEng_congr {key : Nat} {f g : EngSt → EngSt} {s : State} (h : f (eng key s) = g (eng key s)) :
    setEng key f s = setEng key g s := by
  simp only [setEng, mmod]; rw [show mget (engInit key) s.engines key = eng key s from rfl, h]

@[simp] theorem task_setTask_same (key n : Nat) (f : Task → Task) (s : State) :
    task key n (setTask key n f s) = f (task key n s) := by simp [task, setTask]

@[simp] theorem setTask_setTask (key n : Nat) (f g : Task → Task) (s : State) :
    setTask key n g (setTask key n f s) = setTask key n (fun t => g (f t)) s := by
  simp [setTask, mmod]

theorem setTask_congr {key n : Nat} {f g : Task → Task} {s : State} (h : f (task key n s) = g (task key n s)) :
    setTask key n f s = setTask key n g s := by
  simp only [setTask]
  refine setEng_congr ?_
  simp only [mmod]; rw [show mget {} (eng key s).tasks n = task key n s from rfl, h]

@[simp] theorem eng_bump (a key : Nat) (s : State) : eng key (bump a s) = eng key s := rfl
@[simp] theorem task_bump (a key n : Nat) (s : State) : task key n (bump a s) = task key n s := rfl
@[simp] theorem eng_bumpN (a i key : Nat) (s : State) : eng key (bumpN a i s) = eng key s := rfl
@[simp] theorem task_bumpN (a i key n : Nat) (s : State) : task key n (bumpN a i s) = task key n s := rfl

/-! ### The context of a chord -/

variable (q : Fin 4) (k : Fin 52) (n : Nat) (s : State)
@[simp] theorem chordCtx_s : (chordCtx q k n s).s = s := rfl
@[simp] theorem chordCtx_key : (chordCtx q k n s).key = ekey q k := rfl
@[simp] theorem chordCtx_slot : (chordCtx q k n s).slot = n := rfl
@[simp] theorem chordCtx_pc : (chordCtx q k n s).pc = (task (ekey q k) n s).pc := rfl
@[simp] theorem chordCtx_sStk : (chordCtx q k n s).t.sStk = sStk q k n s := rfl
@[simp] theorem chordCtx_vStk : (chordCtx q k n s).t.vStk = vStk q k n s := rfl
@[simp] theorem chordCtx_mStk : (chordCtx q k n s).t.mStk = mStk q k n s := rfl
@[simp] theorem chordCtx_loops : (chordCtx q k n s).t.loops = (task (ekey q k) n s).loops := rfl

/-! ### A boundary with one syllable -/

/-- The syllable of a chord of one. -/
theorem isLone_cases {str op lit len : Nat} {d : Dec} (h : isLone str op lit len d = true) :
    ∃ y, d = .ok [y] len ∧ y.str = str ∧ y.op = op ∧ y.lit = lit := by
  unfold isLone at h
  split at h
  · rename_i y l
    simp only [decide_eq_true_eq] at h
    obtain ⟨h1, h2, h3, rfl⟩ := h
    exact ⟨y, rfl, h1, h2, h3⟩
  · cases h

/-- Where no location holds a single-bit error, a fetch runs the chord as it stands. -/
theorem fetchRun_hard {key n : Nat} {s : State} (h : (eng key s).soft = []) :
    fetchRun key n s = runDecoded key n (nextChord key n s) s := by
  simp [fetchRun, fixFetch, h, fixReads]

/-- An operation's row at its boundary runs the chord of the slot. -/
theorem chordRow_next {str op lit len lo hi : Nat} {q : Fin 4} {k : Fin 52} {n : Nat} {s : State}
    (h : nextAt str op lit len q k n s = true) (hlo : lo ≤ op) (hhi : op ≤ hi)
    (hw : ∀ y : Syl, y.str = str → y.op = op → y.lit = lit →
      (task (ekey q k) n (runDecoded (ekey q k) n (.ok [y] len) s)).tpWait = false) :
    ∃ y : Syl, y.str = str ∧ y.op = op ∧ y.lit = lit ∧
      chordRow str lo hi q k s = runDecoded (ekey q k) n (.ok [y] len) s := by
  simp only [nextAt, atBoundary, Bool.and_eq_true, decide_eq_true_eq, Bool.not_eq_true', Option.isNone_iff_eq_none,
    List.isEmpty_iff] at h
  obtain ⟨⟨⟨⟨⟨⟨⟨⟨⟨⟨⟨⟨⟨hl, hg⟩, hsel⟩, hrun⟩, hst⟩, hheld⟩, hwait⟩, htp⟩, hmr⟩, hbp⟩, hhalt⟩, hbad⟩, hsoft⟩, hlone⟩ := h
  obtain ⟨y, hy, h1, h2, h3⟩ := isLone_cases hlone
  refine ⟨y, h1, h2, h3, ?_⟩
  have hmrs : ∀ d, mrResumes (task (ekey q k) n s) d = false := by simp [mrResumes, hmr]
  have hsw : switchTo (ekey q k) n s = s := by simp [switchTo, hrun]
  have hop : hasOp str lo hi (nextChord (ekey q k) n s) = true := by
    simp [hy, hasOp, h1, h2, hlo, hhi]
  have hw' := hw y h1 h2 h3
  simp only [chordRow, boundary, hl, if_true, hsel, hg, hop, hmrs, htp, hsw, Bool.not_false, and_self]
  simp only [issue, hheld, hbp, Bool.false_eq_true, false_and, if_false, clearHalt, hhalt, Option.isNone_none, if_true, hwait,
    fetchRun_hard hsoft, hy, hw']

/-! ### Parts of a chord -/

theorem latchBad_clean {c : ECtx} (h : c.e.bad = []) (l : List Nat) : latchBad c l = .ok () := by
  have : l.find? (fun k => (mfind c.e.bad k).isSome) = none := by
    rw [h]; exact List.find?_eq_none.2 (fun x _ => by simp)
  unfold latchBad
  rw [this]

theorem vBad_clean {c : ECtx} (h : c.e.bad = []) (l : List Nat) : vBad c l = .ok () := by
  have : l.find? (fun k => (mfind c.e.bad k).isSome) = none := by
    rw [h]; exact List.find?_eq_none.2 (fun x _ => by simp)
  unfold vBad
  rw [this]

theorem wakeSlot_running {key n : Nat} {s : State} (h : (task key n s).state = .running) : wakeSlot key n s = s := by
  simp [wakeSlot, h]

/-- The C string of a chord without a C syllable, at a place where the chord may end. -/
theorem evalC_none {c : ECtx} {l : List Syl} {next : Nat} (h : sylOf 0 l = none) (hb : c.e.bad = []) (hn : next ≤ 65535) :
    evalC c l next = .ok (cNone c next) := by
  have hl : lastOk (cNone c next) = .ok () := by
    simp [lastOk, cNone]; omega
  simp [evalC, h, hl, latchBad_clean hb, bind, Except.bind, pure, Except.pure]

/-- The facts a boundary gives. -/
theorem atBoundary_facts {q : Fin 4} {k : Fin 52} {n : Nat} {s : State} (h : atBoundary q k n s = true) :
    (eng (ekey q k) s).haltAt = none ∧ (eng (ekey q k) s).bad = [] ∧ (task (ekey q k) n s).state = .running
      ∧ (task (ekey q k) n s).mrActive = false ∧ (task (ekey q k) n s).tpWait = false ∧ (eng (ekey q k) s).running = some n := by
  simp only [atBoundary, Bool.and_eq_true, decide_eq_true_eq, Bool.not_eq_true', Option.isNone_iff_eq_none,
    List.isEmpty_iff] at h
  obtain ⟨⟨⟨⟨⟨⟨⟨⟨⟨⟨⟨⟨_, _⟩, _⟩, h4⟩, h5⟩, _⟩, _⟩, h8⟩, h9⟩, _⟩, h11⟩, h12⟩, _⟩ := h
  exact ⟨h11, h12, h5, h9, h8, h4⟩

/-- A boundary with a chord of one syllable has these facts. -/
theorem nextAt_facts {str op lit len : Nat} {q : Fin 4} {k : Fin 52} {n : Nat} {s : State} (h : nextAt str op lit len q k n s = true) :
    atBoundary q k n s = true := by
  simp only [nextAt, Bool.and_eq_true] at h
  exact h.1

theorem nextIs_facts {str op lit len : Nat} {q : Fin 4} {k : Fin 52} {n : Nat} {s : State} (h : nextIs str op lit len q k n s = true) :
    nextAt str op lit len q k n s = true ∧ atBoundary q k n s = true ∧ (task (ekey q k) n s).pc + len ≤ 65535 := by
  simp only [nextIs, Bool.and_eq_true, decide_eq_true_eq] at h
  exact ⟨h.1, nextAt_facts h.1, h.2⟩

/-- Where the effects of a chord that falls through start: the slot past it, the stacks taken over. -/
def newStacks (r : ChordRes) (t : Task) : Task :=
  { t with sStk := (r.s.map (·.stk)).getD t.sStk, vStk := (r.v.map (·.stk)).getD t.vStk, mStk := (r.m.map (·.stk)).getD t.mStk }

/-- The commit of a chord that falls through, ends no task, and holds no fence. -/
theorem commitChord_fall {q : Fin 4} {k : Fin 52} {n len : Nat} {s : State} {l : List Syl} {r : ChordRes}
    (hb : atBoundary q k n s = true) (ha : r.act = cNone (chordCtx q k n s) ((task (ekey q k) n s).pc + len))
    (hm : (sylOf 3 l).any (fun y => decide (y.op = 0x600)) = false) :
    commitChord (ekey q k) n (task (ekey q k) n s).pc ((task (ekey q k) n s).pc + len) l r s
      = wakeSlot (ekey q k) n (bump (engCnt (ekey q k) 0) (countLanes (ekey q k) l
          (optFx r.m (optFx r.v (optFx r.s (setTask (ekey q k) n (pastChord len (newStacks r)) s)))))) := by
  obtain ⟨hhalt, hbad, hst, hmr, htp, hrun⟩ := atBoundary_facts hb
  have he : eng (ekey q k) (setTask (ekey q k) n (pastChord len (newStacks r)) s)
      = { eng (ekey q k) s with tasks := mmod {} (eng (ekey q k) s).tasks n (pastChord len (newStacks r)) } := by
    simp [setTask]
  have hf : r.act.fin = .none := by rw [ha]; rfl
  have h1 : ∀ f : Task → Task, f (task (ekey q k) n s) = pastChord len (newStacks r) (task (ekey q k) n s) →
      setTask (ekey q k) n f s = setTask (ekey q k) n (pastChord len (newStacks r)) s := fun f h => setTask_congr h
  simp only [commitChord]
  rw [h1]
  · simp only [hm, hf, clearHalt, he, hhalt, hbad, List.isEmpty_nil, Option.isNone_none, if_true]
    simp only [reduceCtorEq, Bool.false_eq_true, or_self, if_false, finishChord]
  · rw [ha]
    simp [cNone, CAct.place, chordCtx, ECtx.t, pastChord, newStacks, hmr, htp]

/-- A chord of one S, V or M syllable that does not trap, and is no micro-routine, M.TP or M.FENCE. -/
theorem runDecoded_lone {q : Fin 4} {k : Fin 52} {n len : Nat} {s : State} {y : Syl} {r : ChordRes}
    (hb : atBoundary q k n s = true) (hm : isMicro y = false)
    (htp : y.str = 3 → y.op ≠ 0x500 ∨ (eng (ekey q k) s).tpq.length < 32)
    (hf : y.str = 3 → y.op ≠ 0x600)
    (he : evalChord (chordCtx q k n s) [y] ((task (ekey q k) n s).pc + len) = .ok r)
    (ha : r.act = cNone (chordCtx q k n s) ((task (ekey q k) n s).pc + len)) :
    runDecoded (ekey q k) n (.ok [y] len) s
      = wakeSlot (ekey q k) n (bump (engCnt (ekey q k) 0) (countLanes (ekey q k) [y]
          (optFx r.m (optFx r.v (optFx r.s (setTask (ekey q k) n (pastChord len (newStacks r)) s)))))) := by
  have hc : ({ key := ekey q k, slot := n, pc := (task (ekey q k) n s).pc, s := s } : ECtx) = chordCtx q k n s := rfl
  have h1 : ¬ ([y].any (fun y => decide (y.str = 3 ∧ y.op = 0x500)) = true ∧ 32 ≤ (eng (ekey q k) s).tpq.length) := by
    rintro ⟨h1, h2⟩
    simp at h1
    rcases htp h1.1 with h | h
    · exact h h1.2
    · omega
  have h2 : (sylOf 3 [y]).any (fun y => decide (y.op = 0x600)) = false := by
    by_cases h : y.str = 3
    · simp [sylOf, h, hf h]
    · simp [sylOf, h]
  have hn : r.act.nested = false := by rw [ha]; rfl
  simp only [runDecoded, hm, Bool.false_eq_true, if_false, runDecoded.runPlain, hc]
  rw [if_neg h1, he]
  simp only [hn, Bool.false_eq_true, if_false]
  exact commitChord_fall hb ha h2

/-- Evaluating one S syllable. -/
theorem evalChord_s {q : Fin 4} {k : Fin 52} {n next : Nat} {s : State} {y : Syl} {e : Eff EWord}
    (hb : atBoundary q k n s = true) (hn : next ≤ 65535) (hy : y.str = 1) (he : sEval (chordCtx q k n s) y.op y.lit = .ok e) :
    evalChord (chordCtx q k n s) [y] next
      = .ok { act := cNone (chordCtx q k n s) next, s := some e, v := none, m := none } := by
  have hbad : (chordCtx q k n s).e.bad = [] := (atBoundary_facts hb).2.1
  have hc : evalC (chordCtx q k n s) [y] next = .ok (cNone (chordCtx q k n s) next) :=
    evalC_none (by simp [sylOf, hy]) hbad hn
  simp [evalChord, hc, onStr, evalOpt, sylOf, hy, he, latchBad_clean hbad, vBad_clean hbad, cNone, bind, Except.bind, pure, Except.pure]

/-- Evaluating one V syllable. -/
theorem evalChord_v {q : Fin 4} {k : Fin 52} {n next : Nat} {s : State} {y : Syl} {e : Eff Vec}
    (hb : atBoundary q k n s = true) (hn : next ≤ 65535) (hy : y.str = 2) (he : vEval (chordCtx q k n s) y.op = .ok e) :
    evalChord (chordCtx q k n s) [y] next
      = .ok { act := cNone (chordCtx q k n s) next, s := none, v := some e, m := none } := by
  have hbad : (chordCtx q k n s).e.bad = [] := (atBoundary_facts hb).2.1
  have hc : evalC (chordCtx q k n s) [y] next = .ok (cNone (chordCtx q k n s) next) :=
    evalC_none (by simp [sylOf, hy]) hbad hn
  simp [evalChord, hc, onStr, evalOpt, sylOf, hy, he, latchBad_clean hbad, vBad_clean hbad, cNone, bind, Except.bind, pure, Except.pure]

/-- Evaluating one M syllable. -/
theorem evalChord_m {q : Fin 4} {k : Fin 52} {n next : Nat} {s : State} {y : Syl} {e : Eff EWord}
    (hb : atBoundary q k n s = true) (hn : next ≤ 65535) (hy : y.str = 3) (he : mEval (chordCtx q k n s) y.op = .ok e) :
    evalChord (chordCtx q k n s) [y] next
      = .ok { act := cNone (chordCtx q k n s) next, s := none, v := none, m := some e } := by
  have hbad : (chordCtx q k n s).e.bad = [] := (atBoundary_facts hb).2.1
  have hc : evalC (chordCtx q k n s) [y] next = .ok (cNone (chordCtx q k n s) next) :=
    evalC_none (by simp [sylOf, hy]) hbad hn
  simp [evalChord, hc, onStr, evalOpt, sylOf, hy, he, latchBad_clean hbad, cNone, bind, Except.bind, pure, Except.pure]

/-- The row of an S operation that does not trap: the slot past the chord with its new S stack, then what the operation stores. -/
theorem chordRow_s {op lit len lo hi : Nat} {q : Fin 4} {k : Fin 52} {n : Nat} {s : State} {e : Eff EWord}
    (h : nextIs 1 op lit len q k n s = true) (hlo : lo ≤ op) (hhi : op ≤ hi)
    (he : sEval (chordCtx q k n s) op lit = .ok e)
    (hf : (task (ekey q k) n (e.fx (setTask (ekey q k) n (pastChord len (fun t => { t with sStk := e.stk })) s))).state = .running
      ∧ (task (ekey q k) n (e.fx (setTask (ekey q k) n (pastChord len (fun t => { t with sStk := e.stk })) s))).tpWait = false) :
    chordRow 1 lo hi q k s
      = bump (engCnt (ekey q k) 0) (e.fx (setTask (ekey q k) n (pastChord len (fun t => { t with sStk := e.stk })) s)) := by
  obtain ⟨ha, hb, hp⟩ := nextIs_facts h
  have key : ∀ y : Syl, y.str = 1 → y.op = op → y.lit = lit →
      runDecoded (ekey q k) n (.ok [y] len) s
        = bump (engCnt (ekey q k) 0) (e.fx (setTask (ekey q k) n (pastChord len (fun t => { t with sStk := e.stk })) s)) := by
    intro y h1 h2 h3
    rw [runDecoded_lone hb (by simp [isMicro, h1]) (by simp [h1]) (by simp [h1])
      (evalChord_s hb hp h1 (by rw [h2, h3]; exact he)) rfl]
    have hg : newStacks { act := cNone (chordCtx q k n s) ((task (ekey q k) n s).pc + len), s := some e, v := none, m := none }
        = fun t => { t with sStk := e.stk } := rfl
    rw [hg]
    have hcl : ∀ x, countLanes (ekey q k) [y] x = x := by intro x; simp [countLanes, h1]
    simp only [optFx, hcl]
    exact wakeSlot_running hf.1
  obtain ⟨y, h1, h2, h3, h4⟩ := chordRow_next ha hlo hhi (fun y h1 h2 h3 => by rw [key y h1 h2 h3]; exact hf.2)
  rw [h4, key y h1 h2 h3]

/-- The row of an S operation that does not trap and stores nothing. -/
theorem chordRow_s_pure {op lit len lo hi : Nat} {q : Fin 4} {k : Fin 52} {n : Nat} {s : State} {st : List EWord}
    (h : nextIs 1 op lit len q k n s = true) (hlo : lo ≤ op) (hhi : op ≤ hi)
    (he : sEval (chordCtx q k n s) op lit = .ok { stk := st }) :
    chordRow 1 lo hi q k s = sDone q k n len st s := by
  obtain ⟨_, hb, _⟩ := nextIs_facts h
  obtain ⟨_, _, hst, _, htp, _⟩ := atBoundary_facts hb
  exact chordRow_s h hlo hhi he (by simp [pastChord, hst, htp])

/-- A row of the S string from what its operation does to the stack. -/
theorem sRow_of {i : Fin 4 → Fin 52 → Instr} {op lo hi : Nat} {ins : List EWord} {outs : Nat → List EWord}
    (hi' : ∀ q k s, exec (i q k) s = .next (chordRow 1 lo hi q k s)) (hlo : lo ≤ op) (hhi : op ≤ hi)
    (he : ∀ (c : ECtx) lit r, c.t.sStk = ins ++ r → r.length + (outs 0).length ≤ 16 → sEval c op lit = .ok { stk := outs c.pc ++ r }) :
    sRow i op ins outs := by
  intro q k n lit len s r h hs hr
  rw [hi', chordRow_s_pure h hlo hhi (he (chordCtx q k n s) lit r hs hr)]
  rfl

/-! ### The rows of the C, V and M strings -/

/-- The commit of a chord that ends no task and holds no fence, whatever its C string does. -/
theorem commitChord_c {q : Fin 4} {k : Fin 52} {n next : Nat} {s : State} {l : List Syl} {a : CAct}
    (hb : atBoundary q k n s = true) (hm : sylOf 3 l = none) (h2 : l.any (fun y => decide (y.str = 2 ∧ 6 ≤ y.op)) = false)
    (hfe : a.fin ≠ .fence) :
    commitChord (ekey q k) n (task (ekey q k) n s).pc next l { act := a, s := none, v := none, m := none } s
      = finishChord (ekey q k) n a.fin (wakeSlot (ekey q k) n (bump (engCnt (ekey q k) 0) (setTask (ekey q k) n (fun t => { a.upd t with
          sStk := t.sStk, vStk := t.vStk, mStk := t.mStk, tpWait := false, mrActive := false,
          pc := a.place.1, loops := a.place.2, rets := a.rets, mrp := 0, begun := true }) s))) := by
  obtain ⟨hhalt, hbad, hst, hmr, htp, hrun⟩ := atBoundary_facts hb
  have h1 : ∀ f g : Task → Task, f (task (ekey q k) n s) = g (task (ekey q k) n s) →
      setTask (ekey q k) n f s = setTask (ekey q k) n g s := fun f g h => setTask_congr h
  have he : ∀ f : Task → Task, (eng (ekey q k) (setTask (ekey q k) n f s)).bad = [] ∧ (eng (ekey q k) (setTask (ekey q k) n f s)).haltAt = none := by
    simp [setTask, hbad, hhalt]
  simp only [commitChord, hm, clearHalt, he, List.isEmpty_nil, Option.isNone_none, if_true, Option.any_none, optFx, countLanes, h2]
  simp only [hfe, Bool.false_eq_true, or_self, if_false]
  refine congrArg (fun x => finishChord (ekey q k) n a.fin (wakeSlot (ekey q k) n (bump (engCnt (ekey q k) 0) x))) (h1 _ _ ?_)
  simp [hmr]

/-- The row of a C operation that does not trap, ends no task and holds no fence. -/
theorem chordRow_c {op lit len lo hi : Nat} {q : Fin 4} {k : Fin 52} {n : Nat} {s : State} {a : CAct}
    (h : nextAt 0 op lit len q k n s = true) (hlo : lo ≤ op) (hhi : op ≤ hi)
    (he : cEval (chordCtx q k n s) op lit ((task (ekey q k) n s).pc + len) (sStk q k n s).length = .ok a)
    (hn : a.nested = false) (hl : lastOk a = .ok ()) (hfe : a.fin ≠ .fence)
    (hw : (task (ekey q k) n (finishChord (ekey q k) n a.fin (wakeSlot (ekey q k) n (bump (engCnt (ekey q k) 0)
      (setTask (ekey q k) n (fun t => { a.upd t with
          sStk := t.sStk, vStk := t.vStk, mStk := t.mStk, tpWait := false, mrActive := false,
          pc := a.place.1, loops := a.place.2, rets := a.rets, mrp := 0, begun := true }) s))))).tpWait = false) :
    chordRow 0 lo hi q k s
      = finishChord (ekey q k) n a.fin (wakeSlot (ekey q k) n (bump (engCnt (ekey q k) 0) (setTask (ekey q k) n (fun t => { a.upd t with
          sStk := t.sStk, vStk := t.vStk, mStk := t.mStk, tpWait := false, mrActive := false,
          pc := a.place.1, loops := a.place.2, rets := a.rets, mrp := 0, begun := true }) s))) := by
  have hb := nextAt_facts h
  have hbad : (chordCtx q k n s).e.bad = [] := (atBoundary_facts hb).2.1
  have key : ∀ y : Syl, y.str = 0 → y.op = op → y.lit = lit →
      runDecoded (ekey q k) n (.ok [y] len) s
        = finishChord (ekey q k) n a.fin (wakeSlot (ekey q k) n (bump (engCnt (ekey q k) 0) (setTask (ekey q k) n (fun t => { a.upd t with
          sStk := t.sStk, vStk := t.vStk, mStk := t.mStk, tpWait := false, mrActive := false,
          pc := a.place.1, loops := a.place.2, rets := a.rets, mrp := 0, begun := true }) s))) := by
    intro y h1 h2 h3
    have hm : isMicro y = false := by simp [isMicro, h1]
    have hc : ({ key := ekey q k, slot := n, pc := (task (ekey q k) n s).pc, s := s } : ECtx) = chordCtx q k n s := rfl
    have hsa : sAfter (chordCtx q k n s) [y] = (sStk q k n s).length := by simp [sAfter, sylOf, h1]
    have hev : evalChord (chordCtx q k n s) [y] ((task (ekey q k) n s).pc + len)
        = .ok { act := a, s := none, v := none, m := none } := by
      simp [evalChord, evalC, h2, h3, hsa, he, hl, latchBad_clean hbad, onStr, evalOpt, sylOf, h1, bind, Except.bind, pure, Except.pure, hn]
    have h4 : ¬ ([y].any (fun y => decide (y.str = 3 ∧ y.op = 0x500)) = true ∧ 32 ≤ (eng (ekey q k) s).tpq.length) := by
      simp [h1]
    simp only [runDecoded, hm, Bool.false_eq_true, if_false, runDecoded.runPlain, hc]
    rw [if_neg h4, hev]
    simp only [hn, Bool.false_eq_true, if_false]
    exact commitChord_c hb (by simp [sylOf, h1]) (by simp [h1]) hfe
  obtain ⟨y, h1, h2, h3, h4⟩ := chordRow_next h hlo hhi (fun y h1 h2 h3 => by rw [key y h1 h2 h3]; exact hw)
  rw [h4, key y h1 h2 h3]

/-- The row of a C operation that only moves the task. -/
theorem chordRow_go {op lit len lo hi : Nat} {q : Fin 4} {k : Fin 52} {n : Nat} {s : State} {a : CAct}
    (h : nextAt 0 op lit len q k n s = true) (hlo : lo ≤ op) (hhi : op ≤ hi)
    (he : cEval (chordCtx q k n s) op lit ((task (ekey q k) n s).pc + len) (sStk q k n s).length = .ok a)
    (hn : a.nested = false) (hl : lastOk a = .ok ()) (hfin : a.fin = .none) (hu : a.upd = id) :
    chordRow 0 lo hi q k s
      = chordTo q k n (fun t => { t with pc := a.place.1, loops := a.place.2, rets := a.rets }) s := by
  have hb := nextAt_facts h
  obtain ⟨hhalt, hbad, hst, hmr, htp, hrun⟩ := atBoundary_facts hb
  have hE : ∀ x : State, (task (ekey q k) n x).state = .running → wakeSlot (ekey q k) n x = x := fun x hx => wakeSlot_running hx
  rw [chordRow_c h hlo hhi he hn hl (by rw [hfin]; decide) (by
    rw [hfin]; simp only [finishChord]; rw [hE _ (by simp [hu, hst])]; simp)]
  rw [hfin]; simp only [finishChord]
  rw [hE _ (by simp [hu, hst])]
  unfold chordTo
  congr 1
  refine setTask_congr ?_
  simp [hu, hmr, htp]

end Sys2Proof.Machine
end

