-- ==== Sys2Proof/Laws/Keeps1.lean ====
section
/-! SUPPORT. What every operation keeps (part 1 of 7): the base, the shared stores, commands, time, the fast path, the joined system and engines. -/

namespace Sys2Proof.Machine

set_option Elab.async false
set_option linter.all false

/-! ### Base -/

/-- What every command keeps. -/
def keeps (s t : State) : Prop :=
  t.pending = s.pending ∧ t.ticks = s.ticks ∧ s.freeIdx ≤ t.freeIdx ∧ s.out <+: t.out
    ∧ (regsWf s = true → regsWf t = true) ∧ (cntsWf s = true → cntsWf t = true)

theorem keeps.refl {s : State} : keeps s s := ⟨.refl _, .refl _, Nat.le_refl _, List.prefix_refl _, id, id⟩
theorem keeps.upd {s0 x y : State} (h : keeps s0 x) (hp : y.pending = x.pending) (ht : y.ticks = x.ticks) (hf : y.freeIdx = x.freeIdx)
    (ho : y.out = x.out) (hr : y.regs = x.regs) (hc : y.cnts = x.cnts) : keeps s0 y := by
  obtain ⟨a, b, c, d, e, f⟩ := h
  refine ⟨hp.trans a, ht.trans b, hf ▸ c, ho ▸ d, ?_, ?_⟩
  · simpa [regsWf, hr] using e
  · simpa [cntsWf, hc] using f
theorem foldl_keeps {α : Type} {s0 : State} {g : State → α → State} (hg : ∀ s x, keeps s0 s → keeps s0 (g s x)) :
    ∀ (l : List α) {s : State}, keeps s0 s → keeps s0 (l.foldl g s)
  | [], _, h => h
  | x :: l, _, h => foldl_keeps hg l (hg _ x h)
theorem foldl1_keeps {α β : Type} {s0 : State} {g : State × β → α → State × β} (hg : ∀ s x, keeps s0 s.1 → keeps s0 (g s x).1) :
    ∀ (l : List α) {s : State × β}, keeps s0 s.1 → keeps s0 (l.foldl g s).1
  | [], _, h => h
  | x :: l, _, h => foldl1_keeps hg l (hg _ x h)
theorem foldl2_keeps {α β : Type} {s0 : State} {g : β × State → α → β × State} (hg : ∀ s x, keeps s0 s.2 → keeps s0 (g s x).2) :
    ∀ (l : List α) {s : β × State}, keeps s0 s.2 → keeps s0 (l.foldl g s).2
  | [], _, h => h
  | x :: l, _, h => foldl2_keeps hg l (hg _ x h)
theorem some_keeps {s0 s t : State} (e : some s = some t) (h : keeps s0 s) : keeps s0 t := by cases e; exact h
def keepsX (s : State) (o : Host.Outcome State Fault Refusal) : Prop := ∀ t, o = .next t → keeps s t
theorem keepsX.next {s0 s : State} (h : keeps s0 s) : keepsX s0 (.next s) := by intro t e; cases e; exact h

theorem regsWf_put {s : State} (h : regsWf s = true) (a : Nat) (w : Word) (hw : w.toNat ≠ resetOf a) :
    mwf (mput s.regs a w) = true ∧ (mput s.regs a w).all (fun e => e.2.toNat != resetOf e.1) = true := by
  simp only [regsWf, Bool.and_eq_true] at h
  refine ⟨mwf_mput h.1 _ _, List.all_eq_true.2 fun e he => ?_⟩
  rcases mem_mput he with rfl | he
  · simpa using hw
  · exact List.all_eq_true.1 h.2 e he
theorem setReg_keeps {s0 : State} : ∀ {x0 x1 s3}, keeps s0 s3 → keeps s0 (setReg x0 x1 s3) := by
  intro a v s ⟨h1, h2, h3, h4, h5, h6⟩
  refine ⟨h1, h2, h3, h4, fun h => ?_, fun h => h6 h⟩
  have hw := h5 h
  unfold setReg regsWf
  dsimp only
  split
  · simp only [regsWf, Bool.and_eq_true] at hw
    simp only [Bool.and_eq_true]
    exact ⟨mwf_mdel hw.1 _, List.all_eq_true.2 fun e he => List.all_eq_true.1 hw.2 e (mem_mdel he)⟩
  · have := regsWf_put hw a (BitVec.ofNat 32 v) (by simpa using ‹_›)
    simp only [Bool.and_eq_true]; exact this
theorem putCnt_keeps {s0 s : State} (h : keeps s0 s) {k v : Nat} (hv : cntsWf s0 = true → v < 2 ^ 64) : keeps s0 { s with cnts := mput s.cnts k v } := by
  obtain ⟨h1, h2, h3, h4, h5, h6⟩ := h
  refine ⟨h1, h2, h3, h4, h5, fun hc => ?_⟩
  have hw := h6 hc
  simp only [cntsWf, Bool.and_eq_true] at hw ⊢
  refine ⟨mwf_mput hw.1 _ _, List.all_eq_true.2 fun e he => ?_⟩
  rcases mem_mput he with rfl | he
  · simpa using hv hc
  · exact List.all_eq_true.1 hw.2 e he
theorem bumpN_keeps {s0 : State} : ∀ {x0 x1 s3}, keeps s0 s3 → keeps s0 (bumpN x0 x1 s3) := by
  intro a n s h
  exact putCnt_keeps h (fun _ => Nat.mod_lt _ (by decide))
theorem cnt_keeps {s0 s : State} (h : keeps s0 s) {a : Nat} : cntsWf s0 = true → cnt a s < 2 ^ 64 := by
  intro hc
  have hw := h.2.2.2.2.2 hc
  simp only [cntsWf, Bool.and_eq_true] at hw
  simp only [cnt, mget]
  cases hf : mfind s.cnts a with
  | none => simp
  | some v =>
    have : (a, v) ∈ s.cnts := by
      revert hf; generalize s.cnts = m; intro hf
      induction m with
      | nil => simp [mfind] at hf
      | cons e m ih => obtain ⟨k, w⟩ := e; simp only [mfind] at hf; split at hf <;> simp_all
    simpa using List.all_eq_true.1 hw.2 _ this
theorem emit_keeps {s0 : State} : ∀ {x0 s2}, keeps s0 s2 → keeps s0 (emit x0 s2) := by
  intro o s ⟨h1, h2, h3, h4, h5, h6⟩
  exact ⟨h1, h2, h3, h4.trans (List.prefix_append _ _), h5, h6⟩
theorem takeFree_keeps {s0 : State} : ∀ {s1 v t}, takeFree s1 = (v, t) → keeps s0 s1 → keeps s0 t := by
  intro s v t e ⟨h1, h2, h3, h4, h5, h6⟩
  cases e
  exact ⟨h1, h2, Nat.le_succ_of_le h3, h4, h5, h6⟩
theorem filter_keeps {s0 s : State} (h : keeps s0 s) (p : Nat → Bool) : keeps s0 { s with regs := mfilter p s.regs, cnts := mfilter p s.cnts } := by
  obtain ⟨h1, h2, h3, h4, h5, h6⟩ := h
  refine ⟨h1, h2, h3, h4, fun hc => ?_, fun hc => ?_⟩
  · have hw := h5 hc
    simp only [regsWf, Bool.and_eq_true, mfilter] at hw ⊢
    exact ⟨mwf_filter hw.1 _, List.all_eq_true.2 fun e he => List.all_eq_true.1 hw.2 e (List.mem_filter.1 he).1⟩
  · have hw := h6 hc
    simp only [cntsWf, Bool.and_eq_true, mfilter] at hw ⊢
    exact ⟨mwf_filter hw.1 _, List.all_eq_true.2 fun e he => List.all_eq_true.1 hw.2 e (List.mem_filter.1 he).1⟩
theorem keepRegs_keeps {s0 : State} : ∀ {x0 s2}, keeps s0 s2 → keeps s0 (keepRegs x0 s2) := fun h => filter_keeps h _

theorem takeFree_keeps2 {s0 s : State} (h : keeps s0 s) : keeps s0 (takeFree s).2 := takeFree_keeps rfl h

theorem keeps.mk {s0 x : State} {a6 a7 a8 a9 a10 a11 a12 a13 a14 a15 a16 a17 a18 a19 a20 a21 a22 a23 a24 a25 a26 a27 a28 a29 a30} (h : keeps s0 x) : keeps s0 (State.mk x.pending x.freeIdx x.ticks x.out x.regs x.cnts a6 a7 a8 a9 a10 a11 a12 a13 a14 a15 a16 a17 a18 a19 a20 a21 a22 a23 a24 a25 a26 a27 a28 a29 a30) := keeps.upd h (.refl _) (.refl _) (.refl _) (.refl _) (.refl _) (.refl _)

/-- Every success of a computation satisfies a predicate. -/
def okAll {ε α : Type} (P : α → Prop) (r : Except ε α) : Prop := ∀ e, r = .ok e → P e
theorem okAll.err {ε α : Type} {P : α → Prop} {t : ε} : okAll P (.error t : Except ε α) := by intro e h; cases h
theorem okAll.ok {ε α : Type} {P : α → Prop} {x : α} (h : P x) : okAll P (.ok x : Except ε α) := by intro e h'; cases h'; exact h
theorem okAll.pure {ε α : Type} {P : α → Prop} {x : α} (h : P x) : okAll P (pure x : Except ε α) := okAll.ok h
theorem okAll.bind {ε α β : Type} {P : β → Prop} {x : Except ε α} {f : α → Except ε β} (h : ∀ a, okAll P (f a)) : okAll P (x >>= f) := by
  intro e he
  cases x with
  | error t => cases he
  | ok a => exact h a e he
theorem okAll.bindP {ε α β : Type} {Q : α → Prop} {P : β → Prop} {x : Except ε α} {f : α → Except ε β} (hx : okAll Q x) (h : ∀ a, Q a → okAll P (f a)) : okAll P (x >>= f) := by
  intro e he
  cases x with
  | error t => cases he
  | ok a => exact h a (hx a (.refl _)) e he
/-- The effect of a syllable or step keeps what every command keeps. -/
def fxK {α : Type} (r : Eff α) : Prop := ∀ s0 s, keeps s0 s → keeps s0 (r.fx s)
def mrK (r : MrRes) : Prop := ∀ s0 s, keeps s0 s → keeps s0 (r.fx s)
theorem okAll.tagFault {α : Type} {P : α → Prop} {k : TR α} (h : okAll P k) : ∀ l, okAll P (tagFault k l) := by
  intro l
  unfold Sys2Proof.Machine.tagFault
  split
  all_goals first | exact h | exact okAll.err
theorem okAll.consumes {α : Type} {P : α → Prop} {p l} {k : TR α} (h : okAll P k) : okAll P (consumes p l k) := by
  unfold Sys2Proof.Machine.consumes
  refine okAll.tagFault ?_ _
  split
  · exact okAll.err
  · exact h
theorem okAll.wantTag {α : Type} {P : α → Prop} {t w} {k : TR α} (h : okAll P k) : okAll P (wantTag t w k) := okAll.consumes h
theorem okAll.wantNum {α : Type} {P : α → Prop} {w} {k : Int → TR α} (h : ∀ n, okAll P (k n)) : okAll P (wantNum w k) := okAll.consumes (h _)
theorem okAll.trapRange {α : Type} {P : α → Prop} {n} : okAll P (trapRange n : TR α) := okAll.err
theorem okAll.trapUnder {α : Type} {P : α → Prop} : okAll P (trapUnder : TR α) := okAll.err
theorem okAll.trapTag {α : Type} {P : α → Prop} {w} : okAll P (trapTag w : TR α) := okAll.err
theorem okAll.trapMix {α : Type} {P : α → Prop} : okAll P (trapMix : TR α) := okAll.err
theorem okAll.wantAddr {α : Type} {P : α → Prop} {sp b w} {k : Nat → TR α} (h : ∀ n, okAll P (k n)) : okAll P (wantAddr sp b w k) := by
  refine okAll.wantTag ?_
  split
  · exact okAll.err
  · exact h _
theorem okAll.handleUse {α : Type} {P : α → Prop} {c w b} {k : Nat → Buf → TR α} (h : ∀ n b, okAll P (k n b)) : okAll P (handleUse c w b k) := by
  refine okAll.wantTag ?_
  extract_lets
  repeat' (first | exact okAll.err | exact h _ _ | split)

theorem okAll.opnds {α : Type} {P : α → Prop} {e l} {k : List EWord → TR α} (h : ∀ x, okAll P (k x)) : okAll P (opnds e l k) := by
  unfold Sys2Proof.Machine.opnds
  repeat' (first | exact h _ | exact okAll.err | exact okAll.ok (by assumption) | exact okAll.bind (fun _ => okAll.pure (by assumption)) | with_reducible apply okAll.bindP (h _) | with_reducible intro _ | extract_lets | split)
theorem okAll.batchUse {α : Type} {P : α → Prop} {c h'} {k : Nat → Buf → TR α} (h : ∀ n b, okAll P (k n b)) : okAll P (batchUse c h' k) := by
  refine okAll.handleUse fun n b => ?_
  split
  · exact okAll.err
  · exact h _ _
theorem okAll.attachOf {α : Type} {P : α → Prop} {c h'} {k : Option Nat → TR α} (h : ∀ n, okAll P (k n)) : okAll P (attachOf c h' k) := by
  unfold Sys2Proof.Machine.attachOf
  repeat' (first | exact h _ | exact okAll.err | with_reducible apply okAll.bind | with_reducible apply okAll.wantTag | with_reducible apply okAll.consumes | with_reducible apply okAll.handleUse | with_reducible intro _ | extract_lets | split)
theorem okAll.recOff {α : Type} {P : α → Prop} {c w} {k : Nat → Nat → Buf → TR α} (h : ∀ n key b, okAll P (k n key b)) : okAll P (recOff c w k) := by
  unfold Sys2Proof.Machine.recOff
  repeat' (first | exact h _ _ _ | exact okAll.err | with_reducible apply okAll.bind | with_reducible apply okAll.wantTag | with_reducible apply okAll.wantNum | with_reducible apply okAll.handleUse | with_reducible intro _ | extract_lets | split)


/-- A value, if there is one, satisfies a predicate. -/
def optAll {α : Type} (P : α → Prop) (o : Option α) : Prop := ∀ t, o = some t → P t
theorem optAll.none {α : Type} {P : α → Prop} : optAll P none := by intro t h; cases h
theorem optAll.some {α : Type} {P : α → Prop} {x : α} (h : P x) : optAll P (some x) := by intro t e; cases e; exact h
theorem optAll.getD {s0 : State} {o : Option State} {d : State} (ho : optAll (fun t => keeps s0 t) o) (h : keeps s0 d) : keeps s0 (o.getD d) := by
  cases o with
  | none => exact h
  | some t => exact ho t (.refl _)
theorem keeps.free {s0 x : State} {n : Nat} {a6 a7 a8 a9 a10 a11 a12 a13 a14 a15 a16 a17 a18 a19 a20 a21 a22 a23 a24 a25 a26 a27 a28 a29 a30} (h : keeps s0 x) : keeps s0 (State.mk x.pending (x.freeIdx + n) x.ticks x.out x.regs x.cnts a6 a7 a8 a9 a10 a11 a12 a13 a14 a15 a16 a17 a18 a19 a20 a21 a22 a23 a24 a25 a26 a27 a28 a29 a30) :=
  ⟨h.1, h.2.1, Nat.le_add_right_of_le h.2.2.1, h.2.2.2.1, h.2.2.2.2.1, h.2.2.2.2.2⟩
theorem keeps.filt {s0 x : State} {p : Nat → Bool} {a6 a7 a8 a9 a10 a11 a12 a13 a14 a15 a16 a17 a18 a19 a20 a21 a22 a23 a24 a25 a26 a27 a28 a29 a30} (h : keeps s0 x) : keeps s0 (State.mk x.pending x.freeIdx x.ticks x.out (mfilter p x.regs) (mfilter p x.cnts) a6 a7 a8 a9 a10 a11 a12 a13 a14 a15 a16 a17 a18 a19 a20 a21 a22 a23 a24 a25 a26 a27 a28 a29 a30) := keeps.upd (filter_keeps h p) (.refl _) (.refl _) (.refl _) (.refl _) (.refl _) (.refl _)
theorem optAll.bind {α β : Type} {P : α → Prop} {Q : β → Prop} {o : Option α} {f : α → Option β} (ho : optAll P o) (h : ∀ t, P t → optAll Q (f t)) : optAll Q (o.bind f) := by
  cases o with
  | none => exact optAll.none
  | some x => exact h x (ho x (.refl _))
theorem optAll.map {α β : Type} {P : α → Prop} {Q : β → Prop} {o : Option α} {f : α → β} (ho : optAll P o) (h : ∀ t, P t → Q (f t)) : optAll Q (o.map f) := by
  cases o with
  | none => exact optAll.none
  | some x => exact optAll.some (h x (ho x (.refl _)))
theorem optAll.foldl {α β : Type} {P : α → Prop} {g : Option α → β → Option α} (hg : ∀ o x, optAll P o → optAll P (g o x)) : ∀ (l : List β) {o : Option α}, optAll P o → optAll P (l.foldl g o)
  | [], _, h => h
  | x :: l, _, h => optAll.foldl hg l (hg _ x h)
theorem optAll.ite {α : Type} {P : α → Prop} {c : Prop} [Decidable c] {a b : Option α} (ha : optAll P a) (hb : optAll P b) : optAll P (if c then a else b) := by
  split
  · exact ha
  · exact hb
theorem keeps.ite {s0 a b : State} {c : Prop} [Decidable c] (ha : keeps s0 a) (hb : keeps s0 b) : keeps s0 (if c then a else b) := by
  split
  · exact ha
  · exact hb
theorem keepsX.ite {s0 : State} {a b : Host.Outcome State Fault Refusal} {c : Prop} [Decidable c] (ha : keepsX s0 a) (hb : keepsX s0 b) : keepsX s0 (if c then a else b) := by
  split
  · exact ha
  · exact hb
theorem okAll.ite {ε α : Type} {P : α → Prop} {c : Prop} [Decidable c] {a b : Except ε α} (ha : okAll P a) (hb : okAll P b) : okAll P (if c then a else b) := by
  split
  · exact ha
  · exact hb
theorem okAll.trapHandle {α : Type} {P : α → Prop} {st k} : okAll P (trapHandle st k : TR α) := okAll.err
theorem fxK.of {α : Type} {r : Eff α} (h : ∀ s0 s, keeps s0 s → keeps s0 (r.fx s)) : fxK r := h
theorem mrK.of {r : MrRes} (h : ∀ s0 s, keeps s0 s → keeps s0 (r.fx s)) : mrK r := h

/-! ### Ops -/

theorem setFld_keeps {s0 : State} : ∀ {x0 x1 x2 x3 s5}, keeps s0 s5 → keeps s0 (setFld x0 x1 x2 x3 s5) := by
  intro x0 x1 x2 x3 s5  h
  unfold setFld
  repeat' (first | (with_reducible first | assumption | apply setReg_keeps))

theorem bump_keeps {s0 : State} : ∀ {x0 s2}, keeps s0 s2 → keeps s0 (bump x0 s2) := by
  intro x0 s2  h
  unfold bump
  repeat' (first | (with_reducible first | assumption | apply bumpN_keeps))

theorem setTb_keeps {s0 : State} : ∀ {x0 x1 s3}, keeps s0 s3 → keeps s0 (setTb x0 x1 s3) := by
  intro x0 x1 s3  h
  unfold setTb
  repeat' (first | with_reducible assumption | (fail_if_no_progress with_reducible apply keeps.mk))

theorem setFn_keeps {s0 : State} : ∀ {x0 x1 s3}, keeps s0 s3 → keeps s0 (setFn x0 x1 s3) := by
  intro x0 x1 s3  h
  unfold setFn
  repeat' (first | with_reducible assumption | (fail_if_no_progress with_reducible apply keeps.mk))

theorem setRing_keeps {s0 : State} : ∀ {x0 x1 x2 s4}, keeps s0 s4 → keeps s0 (setRing x0 x1 x2 s4) := by
  intro x0 x1 x2 s4  h
  unfold setRing
  repeat' (first | (with_reducible first | assumption | apply setFn_keeps))

theorem setPort_keeps {s0 : State} : ∀ {x0 x1 s3}, keeps s0 s3 → keeps s0 (setPort x0 x1 s3) := by
  intro x0 x1 s3  h
  unfold setPort
  repeat' (first | with_reducible assumption | (fail_if_no_progress with_reducible apply keeps.mk))

theorem setJrnl_keeps {s0 : State} : ∀ {x0 s2}, keeps s0 s2 → keeps s0 (setJrnl x0 s2) := by
  intro x0 s2  h
  unfold setJrnl
  repeat' (first | with_reducible assumption | (fail_if_no_progress with_reducible apply keeps.mk))

theorem setMode_keeps {s0 : State} : ∀ {x0 s2}, keeps s0 s2 → keeps s0 (setMode x0 s2) := by
  intro x0 s2  h
  unfold setMode
  repeat' (first | with_reducible assumption | (fail_if_no_progress with_reducible apply keeps.mk))

theorem setRst_keeps {s0 : State} : ∀ {x0 s2}, keeps s0 s2 → keeps s0 (setRst x0 s2) := by
  intro x0 s2  h
  unfold setRst
  repeat' (first | with_reducible assumption | (fail_if_no_progress with_reducible apply keeps.mk))

theorem setTime_keeps {s0 : State} : ∀ {x0 s2}, keeps s0 s2 → keeps s0 (setTime x0 s2) := by
  intro x0 s2  h
  unfold setTime
  repeat' (first | with_reducible assumption | (fail_if_no_progress with_reducible apply keeps.mk))

theorem setPba_keeps {s0 : State} : ∀ {x0 x1 x2 s4}, keeps s0 s4 → keeps s0 (setPba x0 x1 x2 s4) := by
  intro x0 x1 x2 s4  h
  unfold setPba
  repeat' (first | (with_reducible first | assumption | apply setFld_keeps))

theorem wakeFn_keeps {s0 : State} : ∀ {x0 s2}, keeps s0 s2 → keeps s0 (wakeFn x0 s2) := by
  intro x0 s2  h
  unfold wakeFn
  repeat' (first | (with_reducible first | assumption | apply keeps.ite | apply emit_keeps | apply setFn_keeps))

theorem sendVec_keeps {s0 : State} : ∀ {x0 x1 s3}, keeps s0 s3 → keeps s0 (sendVec x0 x1 s3) := by
  intro x0 x1 s3  h
  unfold sendVec
  repeat' (first | (with_reducible first | assumption | apply keeps.ite | apply setPba_keeps | apply emit_keeps | apply wakeFn_keeps))

theorem errVec_keeps {s0 : State} : ∀ {x0 s2}, keeps s0 s2 → keeps s0 (errVec x0 s2) := by
  intro x0 s2  h
  unfold errVec
  repeat' (first | (with_reducible first | assumption | apply sendVec_keeps))

theorem writeShadow_keeps {s0 : State} : ∀ {x0 x1 x2 s4}, keeps s0 s4 → keeps s0 (writeShadow x0 x1 x2 s4) := by
  intro x0 x1 x2 s4  h
  unfold writeShadow
  repeat' (with_reducible first | assumption | apply emit_keeps)

theorem showRing_keeps {s0 : State} : ∀ {x0 x1 x2 s4}, keeps s0 s4 → keeps s0 (showRing x0 x1 x2 s4) := by
  intro x0 x1 x2 s4  h
  unfold showRing
  repeat' (first | (with_reducible first | assumption | apply keeps.ite | apply emit_keeps | apply setRing_keeps))

theorem stopRing_keeps {s0 : State} : ∀ {x0 x1 x2 s4}, keeps s0 s4 → keeps s0 (stopRing x0 x1 x2 s4) := by
  intro x0 x1 x2 s4  h
  unfold stopRing
  repeat' (first | (with_reducible first | assumption | apply errVec_keeps | apply showRing_keeps | apply setRing_keeps))

theorem coalesce_keeps {s0 : State} : ∀ {x0 x1 s3}, keeps s0 s3 → keeps s0 (coalesce x0 x1 s3) := by
  intro x0 x1 s3  h
  unfold coalesce
  repeat' (first | (with_reducible first | assumption | apply keeps.ite | apply sendVec_keeps | apply setRing_keeps))

theorem produced_keeps {s0 : State} : ∀ {x0 x1 s3}, keeps s0 s3 → keeps s0 (produced x0 x1 s3) := by
  intro x0 x1 s3  h
  unfold produced
  repeat' (first | (with_reducible first | assumption | apply coalesce_keeps | apply writeShadow_keeps | apply setRing_keeps))

theorem writeCompl_keeps {s0 : State} : ∀ {x0 x1 x2 s4}, keeps s0 s4 → keeps s0 (writeCompl x0 x1 x2 s4) := by
  intro x0 x1 x2 s4  h
  unfold writeCompl
  repeat' (first | (with_reducible first | assumption | apply keeps.ite | apply bump_keeps | apply produced_keeps | apply emit_keeps | apply setFn_keeps))

theorem complEntry_keeps {s0 : State} : ∀ {x0 x1 s3}, keeps s0 s3 → keeps s0 (complEntry x0 x1 s3) := by
  intro x0 x1 s3  h
  unfold complEntry
  repeat' (first | (with_reducible first | assumption | apply keeps.ite | apply writeCompl_keeps))

theorem completeOnly_keeps {s0 : State} : ∀ {x0 x1 x2 x3 x4 x5 s7}, keeps s0 s7 → keeps s0 (completeOnly x0 x1 x2 x3 x4 x5 s7) := by
  intro x0 x1 x2 x3 x4 x5 s7  h
  unfold completeOnly
  repeat' (first | (with_reducible first | assumption | apply complEntry_keeps | apply setJrnl_keeps))

theorem fencesRun_keeps {s0 : State} : ∀ {n : Nat} {s : State}, keeps s0 s → keeps s0 (fencesRun n s)
  | 0, _, h => h
  | n + 1, s, h => by
    unfold fencesRun
    split
    · exact fencesRun_keeps (completeOnly_keeps h)
    · exact h

theorem fences_keeps {s0 : State} : ∀ {s1}, keeps s0 s1 → keeps s0 (fences s1) := by
  intro s1  h
  unfold fences
  repeat' (first | (with_reducible first | assumption | apply fencesRun_keeps))

theorem completeWith_keeps {s0 : State} : ∀ {x0 x1 x2 x3 x4 x5 s7}, keeps s0 s7 → keeps s0 (completeWith x0 x1 x2 x3 x4 x5 s7) := by
  intro x0 x1 x2 x3 x4 x5 s7  h
  unfold completeWith
  repeat' (first | (with_reducible first | assumption | apply fences_keeps | apply completeOnly_keeps))

theorem complete_keeps {s0 : State} : ∀ {x0 x1 x2 s4}, keeps s0 s4 → keeps s0 (complete x0 x1 x2 s4) := by
  intro x0 x1 x2 s4  h
  unfold complete
  repeat' (first | (with_reducible first | assumption | apply completeWith_keeps))

theorem bumpVer_keeps {s0 : State} : ∀ {x0 s2}, keeps s0 s2 → keeps s0 (bumpVer x0 s2) := by
  intro x0 s2  h
  unfold bumpVer
  repeat' (first | (with_reducible first | assumption | apply keeps.ite | apply setJrnl_keeps))

theorem claim_keeps {s0 : State} : ∀ {x0 x1 s3}, keeps s0 s3 → keeps s0 (claim x0 x1 s3) := by
  intro x0 x1 s3  h
  unfold claim
  repeat' (first | (with_reducible first | assumption | apply setJrnl_keeps) | split)

theorem disown_keeps {s0 : State} : ∀ {x0 s2}, keeps s0 s2 → keeps s0 (disown x0 s2) := by
  intro x0 s2  h
  unfold disown
  repeat' (first | (with_reducible first | assumption | apply setJrnl_keeps))

theorem showFull_keeps {s0 : State} : ∀ {x0 s2}, keeps s0 s2 → keeps s0 (showFull x0 s2) := by
  intro x0 s2  h
  unfold showFull
  repeat' (with_reducible first | intro _ | assumption | apply keeps.ite | apply showRing_keeps | apply foldl_keeps)

theorem jrnlRingPut_keeps {s0 : State} : ∀ {x0 x1 s3}, keeps s0 s3 → keeps s0 (jrnlRingPut x0 x1 s3) := by
  intro x0 x1 s3  h
  unfold jrnlRingPut
  repeat' (first | (with_reducible first | assumption | apply keeps.ite | apply setRing_keeps | apply produced_keeps | apply emit_keeps | apply errVec_keeps | apply showFull_keeps | apply setFn_keeps))

theorem journal_keeps {s0 : State} : ∀ {x0 x1 x2 x3 x4 x5 x6 x7 x8 x9 x10 s12}, keeps s0 s12 → keeps s0 (journal x0 x1 x2 x3 x4 x5 x6 x7 x8 x9 x10 s12) := by
  intro x0 x1 x2 x3 x4 x5 x6 x7 x8 x9 x10 s12  h
  unfold journal
  repeat' (first | (with_reducible first | assumption | apply jrnlRingPut_keeps | apply setJrnl_keeps))

/-! ### Command -/

theorem meetHeld_keeps {s0 : State} : ∀ {x0 s2}, keeps s0 s2 → keeps s0 (meetHeld x0 s2) := by
  intro x0 s2  h
  unfold meetHeld
  repeat' (with_reducible first | assumption | apply keeps.ite | apply showRing_keeps | apply setRing_keeps)

theorem showHeld_keeps {s0 : State} : ∀ {s1}, keeps s0 s1 → keeps s0 (showHeld s1) := by
  intro s1  h
  unfold showHeld
  repeat' (with_reducible first | intro _ | assumption | apply keeps.ite | apply showRing_keeps | apply foldl_keeps)

theorem nextTurn_keeps {s0 : State} : ∀ {x0 x1 s3}, keeps s0 s3 → keeps s0 (nextTurn x0 x1 s3) := by
  intro x0 x1 s3  h
  unfold nextTurn
  repeat' (first | (with_reducible first | assumption | apply setFn_keeps) | (fail_if_no_progress with_reducible apply keeps.mk))

theorem consume_keeps {s0 : State} : ∀ {x0 s2}, keeps s0 s2 → keeps s0 (consume x0 s2) := by
  intro x0 s2  h
  unfold consume
  repeat' (first | (with_reducible first | assumption | apply bump_keeps | apply writeShadow_keeps | apply setRing_keeps | apply showRing_keeps | apply nextTurn_keeps))

theorem journalDesc_keeps {s0 : State} : ∀ {x0 x1 x2 x3 s5}, keeps s0 s5 → keeps s0 (journalDesc x0 x1 x2 x3 s5) := by
  intro x0 x1 x2 x3 s5  h
  unfold journalDesc
  repeat' (first | (with_reducible first | assumption | apply journal_keeps))

theorem accept_keeps {s0 : State} : ∀ {x0 x1 x2 s4}, keeps s0 s4 → keeps s0 (accept x0 x1 x2 s4) := by
  intro x0 x1 x2 s4  h
  unfold accept
  repeat' (first | (with_reducible first | intro _ | assumption | apply keeps.ite | apply bumpVer_keeps | apply claim_keeps | apply journalDesc_keeps | apply consume_keeps | apply bump_keeps | apply setJrnl_keeps | apply foldl_keeps))

theorem reject_keeps {s0 : State} : ∀ {x0 x1 x2 x3 s5}, keeps s0 s5 → keeps s0 (reject x0 x1 x2 x3 s5) := by
  intro x0 x1 x2 x3 s5  h
  unfold reject
  repeat' (first | (with_reducible first | assumption | apply fences_keeps | apply bump_keeps | apply complEntry_keeps | apply journalDesc_keeps | apply consume_keeps))

theorem serve_keeps {s0 : State} : ∀ {x0 x1 x2 x3 s5 x5}, (∀ y0 y1, keeps s0 y1 → keeps s0 (x3 y0 y1)) → (∀ y0 y1, keeps s0 y1 → keeps s0 (x5 y0 y1)) → keeps s0 s5 → keeps s0 (serve x0 x1 x2 x3 s5 x5) := by
  intro x0 x1 x2 x3 s5 x5 hr0 hr1 h
  unfold serve
  split
  · split
    · exact stopRing_keeps h
    · generalize judge x0 x1 x2 s5 = j
      cases j
      all_goals first | exact hr0 _ _ (accept_keeps h) | exact hr1 _ _ (reject_keeps h)
  · exact meetHeld_keeps h

theorem journalReg_keeps {s0 : State} : ∀ {x0 x1 x2 x3 s5}, keeps s0 s5 → keeps s0 (journalReg x0 x1 x2 x3 s5) := by
  intro x0 x1 x2 x3 s5  h
  unfold journalReg
  repeat' (first | (with_reducible first | intro _ | assumption | apply keeps.ite | apply journal_keeps | apply bumpVer_keeps | apply foldl_keeps))

/-! ### TimeOps -/

theorem timeTick_keeps {s0 : State} : ∀ {s1}, keeps s0 s1 → keeps s0 (timeTick s1) := by
  intro s1  h
  unfold timeTick
  repeat' (first | (with_reducible first | intro _ | assumption | apply keeps.ite | apply setTb_keeps | apply setTime_keeps | apply foldl_keeps))

theorem refuseOffset_keeps {s0 : State} : ∀ {x0 x1 x2 s4}, keeps s0 s4 → keeps s0 (refuseOffset x0 x1 x2 s4) := by
  intro x0 x1 x2 s4  h
  unfold refuseOffset
  repeat' (first | (with_reducible first | assumption | apply bump_keeps | apply setTb_keeps))

theorem offerOffset_keeps {s0 : State} : ∀ {x0 x1 x2 s4}, keeps s0 s4 → keeps s0 (offerOffset x0 x1 x2 s4) := by
  intro x0 x1 x2 s4  h
  unfold offerOffset
  repeat' (first | (with_reducible first | assumption | apply keeps.ite | apply refuseOffset_keeps | apply setTb_keeps))

theorem tbCtlEffect_keeps {s0 : State} : ∀ {x0 x1 x2 s4}, keeps s0 s4 → keeps s0 (tbCtlEffect x0 x1 x2 s4) := by
  intro x0 x1 x2 s4  h
  unfold tbCtlEffect
  repeat' (first | (with_reducible first | assumption | apply keeps.ite | apply setTb_keeps))

theorem l1Update_keeps {s0 : State} : ∀ {x0 s2}, keeps s0 s2 → keeps s0 (l1Update x0 s2) := by
  intro x0 s2  h
  unfold l1Update
  repeat' (first | (fail_if_no_progress extract_lets +onlyGivenNames y) | (with_reducible first | assumption | apply takeFree_keeps2 | apply setTb_keeps) | split)

theorem setSyn_keeps {s0 : State} : ∀ {x0 x1 s3}, keeps s0 s3 → keeps s0 (setSyn x0 x1 s3) := by
  intro x0 x1 s3  h
  unfold setSyn
  repeat' (with_reducible first | assumption | apply setTime_keeps)

theorem synBegin_keeps {s0 : State} : ∀ {x0 s2}, keeps s0 s2 → keeps s0 (synBegin x0 s2) := by
  intro x0 s2  h
  unfold synBegin
  repeat' (with_reducible first | assumption | apply keeps.ite | apply setSyn_keeps)

theorem synRelock_keeps {s0 : State} : ∀ {x0 s2}, keeps s0 s2 → keeps s0 (synRelock x0 s2) := by
  intro x0 s2  h
  unfold synRelock
  repeat' (with_reducible first | assumption | apply keeps.ite | apply setSyn_keeps | apply synBegin_keeps)

theorem synRelockAll_keeps {s0 : State} : ∀ {x0 s2}, keeps s0 s2 → keeps s0 (synRelockAll x0 s2) := by
  intro x0 s2  h
  unfold synRelockAll
  repeat' (first | (with_reducible first | intro _ | assumption | apply keeps.ite | apply synRelock_keeps | apply foldl_keeps))

theorem synCtlEffect_keeps {s0 : State} : ∀ {x0 x1 s3}, keeps s0 s3 → keeps s0 (synCtlEffect x0 x1 s3) := by
  intro x0 x1 s3  h
  unfold synCtlEffect
  repeat' (first | (with_reducible first | assumption | apply keeps.ite | apply synRelock_keeps | apply setSyn_keeps))

theorem synRise_keeps {s0 : State} : ∀ {x0 x1 s3}, keeps s0 s3 → keeps s0 (synRise x0 x1 s3) := by
  intro x0 x1 s3  h
  unfold synRise
  repeat' (with_reducible first | assumption | apply emit_keeps | apply setSyn_keeps)

theorem synFall_keeps {s0 : State} : ∀ {x0 x1 s3}, keeps s0 s3 → keeps s0 (synFall x0 x1 s3) := by
  intro x0 x1 s3  h
  unfold synFall
  repeat' (with_reducible first | assumption | apply emit_keeps | apply setSyn_keeps)

theorem synTick_keeps {s0 : State} : ∀ {s1 x1 s3}, keeps s0 s3 → keeps s0 (synTick s1 x1 s3) := by
  intro s1 x1 s3  h
  unfold synTick
  repeat' (first | with_reducible intro _ | (fail_if_no_progress extract_lets +onlyGivenNames y) | (with_reducible first | assumption | apply synBegin_keeps | apply synFall_keeps | apply synRise_keeps | apply foldl_keeps) | split)

theorem launchDrop_keeps {s0 : State} : ∀ {x0 x1 s3}, keeps s0 s3 → keeps s0 (launchDrop x0 x1 s3) := by
  intro x0 x1 s3  h
  unfold launchDrop
  repeat' (first | (with_reducible first | assumption | apply setPort_keeps))

theorem launchLate_keeps {s0 : State} : ∀ {x0 x1 s3}, keeps s0 s3 → keeps s0 (launchLate x0 x1 s3) := by
  intro x0 x1 s3  h
  unfold launchLate
  repeat' (first | (with_reducible first | assumption | apply keeps.ite | apply setPort_keeps | apply complete_keeps | apply launchDrop_keeps))

theorem launchStep_keeps {s0 : State} : ∀ {x0 x1 s3}, keeps s0 s3 → keeps s0 (launchStep x0 x1 s3) := by
  intro x0 x1 s3  h
  unfold launchStep
  repeat' (first | (with_reducible first | intro _ | assumption | apply keeps.ite | apply launchLate_keeps | apply complete_keeps | apply launchDrop_keeps | apply setPort_keeps | apply foldl_keeps))

theorem sendOut_keeps {s0 : State} : ∀ {x0 x1 x2 s4}, keeps s0 s4 → keeps s0 (sendOut x0 x1 x2 s4) := by
  intro x0 x1 x2 s4  h
  unfold sendOut
  repeat' (with_reducible first | assumption | apply bump_keeps | apply emit_keeps | apply setPort_keeps)

theorem sendFrame_keeps {s0 : State} : ∀ {x0 x1 s3}, keeps s0 s3 → keeps s0 (sendFrame x0 x1 s3) := by
  intro x0 x1 s3  h
  unfold sendFrame
  repeat' (first | (with_reducible first | assumption | apply sendOut_keeps))

theorem setSys_keeps {s0 : State} : ∀ {x0 s2}, keeps s0 s2 → keeps s0 (setSys x0 s2) := by
  intro x0 s2  h
  unfold setSys
  repeat' (first | with_reducible assumption | (fail_if_no_progress with_reducible apply keeps.mk))

theorem setLink_keeps {s0 : State} : ∀ {x0 x1 s3}, keeps s0 s3 → keeps s0 (setLink x0 x1 s3) := by
  intro x0 x1 s3  h
  unfold setLink
  repeat' (first | (with_reducible first | assumption | apply setSys_keeps))

theorem linkJudge_keeps {s0 : State} : ∀ {x0 s2}, keeps s0 s2 → keeps s0 (linkJudge x0 s2) := by
  intro x0 s2  h
  unfold linkJudge
  repeat' (with_reducible first | assumption | apply keeps.ite | apply setFld_keeps)

theorem linkLost_keeps {s0 : State} : ∀ {x0 s2}, keeps s0 s2 → keeps s0 (linkLost x0 s2) := by
  intro x0 s2  h
  unfold linkLost
  repeat' (first | (with_reducible first | assumption | apply setLink_keeps | apply setFld_keeps) | split | (fail_if_no_progress with_reducible apply keeps.mk))

theorem setPtp_keeps {s0 : State} : ∀ {x0 x1 s3}, keeps s0 s3 → keeps s0 (setPtp x0 x1 s3) := by
  intro x0 x1 s3  h
  unfold setPtp
  repeat' (first | (with_reducible first | assumption | apply setTime_keeps))

theorem ptpUnsupported_keeps {s0 : State} : ∀ {x0 s2}, keeps s0 s2 → keeps s0 (ptpUnsupported x0 s2) := by
  intro x0 s2  h
  unfold ptpUnsupported
  repeat' (with_reducible first | assumption | apply setPtp_keeps)

theorem ptpDelaySample_keeps {s0 : State} : ∀ {x0 x1 s3}, keeps s0 s3 → keeps s0 (ptpDelaySample x0 x1 s3) := by
  intro x0 x1 s3  h
  unfold ptpDelaySample
  repeat' (first | (with_reducible first | assumption | apply setPtp_keeps | apply l1Update_keeps))

theorem ptpSteer_keeps {s0 : State} : ∀ {x0 x1 x2 x3 x4 s6}, keeps s0 s6 → keeps s0 (ptpSteer x0 x1 x2 x3 x4 s6) := by
  intro x0 x1 x2 x3 x4 s6  h
  unfold ptpSteer
  repeat' (first | (with_reducible first | assumption | apply keeps.ite | apply offerOffset_keeps))

theorem ptpDecide_keeps {s0 : State} : ∀ {x0 x1 s3}, keeps s0 s3 → keeps s0 (ptpDecide x0 x1 s3) := by
  intro x0 x1 s3  h
  unfold ptpDecide
  repeat' (first | (with_reducible first | intro _ | assumption | apply keeps.ite | apply setPtp_keeps | apply l1Update_keeps | apply foldl_keeps))

theorem takeUtc_keeps {s0 : State} : ∀ {x0 x1 s3}, keeps s0 s3 → keeps s0 (takeUtc x0 x1 s3) := by
  intro x0 x1 s3  h
  unfold takeUtc
  repeat' (first | (with_reducible first | assumption | apply setTb_keeps))

theorem ptpQueue_keeps {s0 : State} : ∀ {x0 x1 s3}, keeps s0 s3 → keeps s0 (ptpQueue x0 x1 s3) := by
  intro x0 x1 s3  h
  unfold ptpQueue
  repeat' (first | (with_reducible first | assumption | apply setPort_keeps))

/-! ### FastOps -/

theorem setTrig_keeps {s0 : State} : ∀ {x0 s2}, keeps s0 s2 → keeps s0 (setTrig x0 s2) := by
  intro x0 s2  h
  unfold setTrig
  repeat' (first | with_reducible assumption | (fail_if_no_progress with_reducible apply keeps.mk))

theorem setTrigIn_keeps {s0 : State} : ∀ {x0 x1 s3}, keeps s0 s3 → keeps s0 (setTrigIn x0 x1 s3) := by
  intro x0 x1 s3  h
  unfold setTrigIn
  repeat' (first | (with_reducible first | assumption | apply setTrig_keeps))

theorem setFast_keeps {s0 : State} : ∀ {x0 x1 s3}, keeps s0 s3 → keeps s0 (setFast x0 x1 s3) := by
  intro x0 x1 s3  h
  unfold setFast
  repeat' (first | (with_reducible first | assumption | apply setTrig_keeps))

theorem setTrigOut_keeps {s0 : State} : ∀ {x0 x1 s3}, keeps s0 s3 → keeps s0 (setTrigOut x0 x1 s3) := by
  intro x0 x1 s3  h
  unfold setTrigOut
  repeat' (first | (with_reducible first | assumption | apply setTrig_keeps))

theorem ccuArrive_keeps {s0 : State} : ∀ {x0 s2}, keeps s0 s2 → keeps s0 (ccuArrive x0 s2) := by
  intro x0 s2  h
  unfold ccuArrive
  repeat' (first | (with_reducible first | assumption | apply setTrig_keeps))

theorem ccuOffer_keeps {s0 : State} : ∀ {x0 x1 x2 s4}, keeps s0 s4 → keeps s0 (ccuOffer x0 x1 x2 s4) := by
  intro x0 x1 x2 s4  h
  unfold ccuOffer
  repeat' (first | (with_reducible first | intro _ | assumption | apply ccuArrive_keeps | apply foldl_keeps))

theorem driveOut_keeps {s0 : State} : ∀ {x0 x1 s3}, keeps s0 s3 → keeps s0 (driveOut x0 x1 s3) := by
  intro x0 x1 s3  h
  unfold driveOut
  repeat' (first | (with_reducible first | assumption | apply keeps.ite | apply emit_keeps))

theorem fastComplete_keeps {s0 : State} : ∀ {x0 x1 s3}, keeps s0 s3 → keeps s0 (fastComplete x0 x1 s3) := by
  intro x0 x1 s3  h
  unfold fastComplete
  repeat' (first | (with_reducible first | intro _ | assumption | apply keeps.ite | apply bump_keeps | apply setFast_keeps | apply ccuOffer_keeps | apply driveOut_keeps | apply foldl_keeps))

theorem fastStart_keeps {s0 : State} : ∀ {x0 x1 x2 s4}, keeps s0 s4 → keeps s0 (fastStart x0 x1 x2 s4) := by
  intro x0 x1 x2 s4  h
  unfold fastStart
  repeat' (first | (with_reducible first | assumption | apply keeps.ite | apply setFast_keeps | apply fastComplete_keeps))

theorem fastAdvance_keeps {s0 : State} : ∀ {x0 s2}, keeps s0 s2 → keeps s0 (fastAdvance x0 s2) := by
  intro x0 s2  h
  unfold fastAdvance
  repeat' (first | (with_reducible first | intro _ | assumption | apply fastStart_keeps | apply setFast_keeps | apply foldl_keeps))

theorem fastLow_keeps {s0 : State} : ∀ {x0 x1 s3}, keeps s0 s3 → keeps s0 (fastLow x0 x1 s3) := by
  intro x0 x1 s3  h
  unfold fastLow
  repeat' (with_reducible first | intro _ | assumption | apply driveOut_keeps | apply setFast_keeps | apply foldl_keeps)

theorem fastExpire_keeps {s0 : State} : ∀ {x0 s2}, keeps s0 s2 → keeps s0 (fastExpire x0 s2) := by
  intro x0 s2  h
  unfold fastExpire
  repeat' (first | ((fail_if_no_progress extract_lets +onlyGivenNames x); refine (fun (hx : keeps s0 x) => ?_) ?_; clear_value x; rotate_left; dsimp only [x]) | (with_reducible first | assumption | apply setFast_keeps | apply fastLow_keeps) | split)

theorem fastEdge_keeps {s0 : State} : ∀ {x0 x1 s3}, keeps s0 s3 → keeps s0 (fastEdge x0 x1 s3) := by
  intro x0 x1 s3  h
  unfold fastEdge
  repeat' (first | (with_reducible first | assumption | apply keeps.ite | apply fastAdvance_keeps | apply setFast_keeps | apply fastStart_keeps))

theorem fastEdges_keeps {s0 : State} : ∀ {x0 s2}, keeps s0 s2 → keeps s0 (fastEdges x0 s2) := by
  intro x0 s2  h
  unfold fastEdges
  repeat' (first | (with_reducible first | intro _ | assumption | apply fastEdge_keeps | apply foldl_keeps))

theorem strobes_keeps {s0 : State} : ∀ {x0 s2}, keeps s0 s2 → keeps s0 (strobes x0 s2) := by
  intro x0 s2  h
  unfold strobes
  repeat' (first | (with_reducible first | intro _ | assumption | apply keeps.ite | apply setTrig_keeps | apply fastEdges_keeps | apply foldl_keeps))

/-! ### SysOps -/

theorem gcmPut_keeps {s0 : State} : ∀ {x0 s2 x2 x3}, keeps s0 s2 → keeps s0 (gcmPut x0 s2 x2 x3) := by
  intro x0 s2 x2 x3  h
  unfold gcmPut
  repeat' (first | (with_reducible first | assumption | apply keeps.ite | apply bump_keeps | apply setPort_keeps))

theorem gcmNew_keeps2 {s0 : State} : ∀ {x0 x1 x2 x3 x4 x5 s7}, keeps s0 s7 → keeps s0 (gcmNew x0 x1 x2 x3 x4 x5 s7).2 := by
  intro x0 x1 x2 x3 x4 x5 s7  h
  unfold gcmNew
  repeat' (first | (with_reducible first | assumption | apply setSys_keeps))
theorem gcmNew_keeps {s0 : State} : ∀ {x0 x1 x2 x3 x4 x5 s7 v t}, gcmNew x0 x1 x2 x3 x4 x5 s7 = (v, t) → keeps s0 s7 → keeps s0 t := by
  intro x0 x1 x2 x3 x4 x5 s7 v t  e h
  have h2 : keeps s0 (gcmNew x0 x1 x2 x3 x4 x5 s7).2 := gcmNew_keeps2  h
  rw [e] at h2
  exact h2

theorem gcmSend_keeps2 {s0 : State} : ∀ {x0 x1 x2 x3 s5}, keeps s0 s5 → keeps s0 (gcmSend x0 x1 x2 x3 s5).1 := by
  intro x0 x1 x2 x3 s5  h
  unfold gcmSend
  repeat' (first | (with_reducible first | intro _ | assumption | apply gcmNew_keeps2 | apply bump_keeps | apply gcmPut_keeps | apply foldl_keeps) | split)
theorem gcmSend_keeps {s0 : State} : ∀ {x0 x1 x2 x3 s5 v t}, gcmSend x0 x1 x2 x3 s5 = (t, v) → keeps s0 s5 → keeps s0 t := by
  intro x0 x1 x2 x3 s5 v t  e h
  have h2 : keeps s0 (gcmSend x0 x1 x2 x3 s5).1 := gcmSend_keeps2  h
  rw [e] at h2
  exact h2

theorem packSend_keeps {s0 : State} : ∀ {x0 s2}, keeps s0 s2 → keeps s0 (packSend x0 s2) := by
  intro x0 s2  h
  unfold packSend
  repeat' (first | (with_reducible first | assumption | apply setSys_keeps | apply gcmSend_keeps2 | apply bumpN_keeps) | split)

theorem exportTp_keeps {s0 : State} : ∀ {x0 s2}, keeps s0 s2 → keeps s0 (exportTp x0 s2) := by
  intro x0 s2  h
  unfold exportTp
  repeat' (first | with_reducible intro _ | (fail_if_no_progress extract_lets +onlyGivenNames y) | (with_reducible first | assumption | apply bump_keeps | apply setSys_keeps | apply packSend_keeps | apply foldl_keeps) | split)

theorem exportTa_keeps {s0 : State} : ∀ {x0 s2}, keeps s0 s2 → keeps s0 (exportTa x0 s2) := by
  intro x0 s2  h
  unfold exportTa
  repeat' (first | (with_reducible first | assumption | apply keeps.ite | apply gcmSend_keeps2))

theorem takeLinkHello_keeps {s0 : State} : ∀ {x0 x1 s3}, keeps s0 s3 → keeps s0 (takeLinkHello x0 x1 s3) := by
  intro x0 x1 s3  h
  unfold takeLinkHello
  repeat' (first | (with_reducible first | assumption | apply keeps.ite | apply setReg_keeps | apply linkJudge_keeps | apply setLink_keeps))

theorem gcmForward_keeps {s0 : State} : ∀ {x0 x1 x2 s4}, keeps s0 s4 → keeps s0 (gcmForward x0 x1 x2 s4) := by
  intro x0 x1 x2 s4  h
  unfold gcmForward
  repeat' (with_reducible first | intro _ | assumption | apply keeps.ite | apply bump_keeps | apply gcmPut_keeps | apply foldl_keeps)

theorem gcmReceive_keeps {s0 : State} : ∀ {x0 x1 x2 x3 x4 s6}, (∀ y0, keeps s0 y0 → keeps s0 (x4 y0)) → keeps s0 s6 → keeps s0 (gcmReceive x0 x1 x2 x3 x4 s6) := by
  intro x0 x1 x2 x3 x4 s6 hr0 h
  unfold gcmReceive
  repeat' (first | (with_reducible first | assumption | apply keeps.ite | apply hr0 | apply bump_keeps | apply takeLinkHello_keeps | apply gcmForward_keeps) | split)

/-! ### EngOps -/

theorem setEng_keeps {s0 : State} : ∀ {x0 x1 s3}, keeps s0 s3 → keeps s0 (setEng x0 x1 s3) := by
  intro x0 x1 s3  h
  unfold setEng
  repeat' (first | with_reducible assumption | (fail_if_no_progress with_reducible apply keeps.mk))

theorem setTask_keeps {s0 : State} : ∀ {x0 x1 x2 s4}, keeps s0 s4 → keeps s0 (setTask x0 x1 x2 s4) := by
  intro x0 x1 x2 s4  h
  unfold setTask
  repeat' (first | (with_reducible first | assumption | apply setEng_keeps))

theorem fixLoc_keeps {s0 : State} : ∀ {x0 x1 s3}, keeps s0 s3 → keeps s0 (fixLoc x0 x1 s3) := by
  intro x0 x1 s3  h
  unfold fixLoc
  repeat' (with_reducible first | assumption | apply bump_keeps | apply setEng_keeps)

theorem dataWr_keeps {s0 : State} : ∀ {x0 x1 x2 s4}, keeps s0 s4 → keeps s0 (dataWr x0 x1 x2 s4) := by
  intro x0 x1 x2 s4  h
  unfold dataWr
  repeat' (first | (with_reducible first | assumption | apply setEng_keeps))

theorem progWr_keeps {s0 : State} : ∀ {x0 x1 x2 s4}, keeps s0 s4 → keeps s0 (progWr x0 x1 x2 s4) := by
  intro x0 x1 x2 s4  h
  unfold progWr
  repeat' (first | (with_reducible first | assumption | apply setEng_keeps))

theorem vecWr_keeps {s0 : State} : ∀ {x0 x1 x2 s4}, keeps s0 s4 → keeps s0 (vecWr x0 x1 x2 s4) := by
  intro x0 x1 x2 s4  h
  unfold vecWr
  repeat' (first | (with_reducible first | assumption | apply setEng_keeps))

theorem setBuf_keeps {s0 : State} : ∀ {x0 x1 s3}, keeps s0 s3 → keeps s0 (setBuf x0 x1 s3) := by
  intro x0 x1 s3  h
  unfold setBuf
  repeat' (first | with_reducible assumption | (fail_if_no_progress with_reducible apply keeps.mk))

theorem allocBuf_keeps {s0 : State} : ∀ {x0 x1 x2 x3 s5 v t}, allocBuf x0 x1 x2 x3 s5 = some (v, t) → keeps s0 s5 → keeps s0 t := by
  intro x0 x1 x2 x3 s5 v t e h
  unfold allocBuf at e
  extract_lets at e
  split at e
  · cases e
  · split at e
    · cases e
    · simp only [Option.some.injEq, Prod.mk.injEq] at e
      obtain ⟨-, rfl⟩ := e
      exact setBuf_keeps h
theorem allocBuf_keepsO {s0 : State} {x0 x1 x2 x3 s5} (h : keeps s0 s5) : optAll (fun t => keeps s0 t.2) (allocBuf x0 x1 x2 x3 s5) :=
  fun t e => allocBuf_keeps (v := t.1) e h

theorem freeBuf_keeps {s0 : State} : ∀ {x0 s2}, keeps s0 s2 → keeps s0 (freeBuf x0 s2) := by
  intro x0 s2  h
  unfold freeBuf
  repeat' (first | (with_reducible first | assumption | apply setBuf_keeps))

theorem refuseRelease_keeps {s0 : State} : ∀ {x0 x1 x2 x3 s5}, keeps s0 s5 → keeps s0 (refuseRelease x0 x1 x2 x3 s5) := by
  intro x0 x1 x2 x3 s5  h
  unfold refuseRelease
  repeat' (first | ((fail_if_no_progress extract_lets +onlyGivenNames x); refine (fun (hx : keeps s0 x) => ?_) ?_; clear_value x; rotate_left; dsimp only [x]) | (fail_if_no_progress extract_lets +onlyGivenNames y) | (with_reducible first | assumption | apply bump_keeps | apply setReg_keeps) | split)

theorem bufWr_keeps {s0 : State} : ∀ {x0 x1 x2 s4}, keeps s0 s4 → keeps s0 (bufWr x0 x1 x2 s4) := by
  intro x0 x1 x2 s4  h
  unfold bufWr
  repeat' (first | (with_reducible first | assumption | apply setBuf_keeps))

end Sys2Proof.Machine
end

