-- ==== Sys2Proof/Laws/Keeps2.lean ====
section
/-! SUPPORT. What every operation keeps (part 2 of 7): coincidence units, history, two-wire, tasks, delivery, pacing, serial ports, flash, repair, timers, triggers. -/

namespace Sys2Proof.Machine

set_option Elab.async false
set_option linter.all false

/-! ### Qcu -/

theorem setQcu_keeps {s0 : State} : ∀ {x0 x1 s3}, keeps s0 s3 → keeps s0 (setQcu x0 x1 s3) := by
  intro x0 x1 s3  h
  unfold setQcu
  repeat' (first | (with_reducible first | assumption | apply setTrig_keeps))

theorem qcuTake_keeps {s0 : State} : ∀ {x0 x1 s3}, keeps s0 s3 → keeps s0 (qcuTake x0 x1 s3) := by
  intro x0 x1 s3  h
  unfold qcuTake
  repeat' (first | (with_reducible first | intro _ | assumption | apply bump_keeps | apply setReg_keeps | apply setFld_keeps | apply setQcu_keeps | apply foldl_keeps) | split | dsimp +zetaDelta only)

theorem sendMarks_keeps {s0 : State} : ∀ {x0 s2}, keeps s0 s2 → keeps s0 (sendMarks x0 s2) := by
  intro x0 s2  h
  unfold sendMarks
  repeat' (first | (with_reducible first | intro _ | assumption | apply keeps.ite | apply setQcu_keeps | apply foldl_keeps))

theorem holdMarks_keeps {s0 : State} : ∀ {x0 s2}, keeps s0 s2 → keeps s0 (holdMarks x0 s2) := by
  intro x0 s2  h
  unfold holdMarks
  repeat' (first | (with_reducible first | assumption | apply keeps.ite | apply setQcu_keeps))

theorem resumeMarks_keeps {s0 : State} : ∀ {x0 s2}, keeps s0 s2 → keeps s0 (resumeMarks x0 s2) := by
  intro x0 s2  h
  unfold resumeMarks
  repeat' (first | (with_reducible first | assumption | apply keeps.ite | apply setQcu_keeps))

theorem qcuStep_keeps {s0 : State} : ∀ {x0 x1 s3}, keeps s0 s3 → keeps s0 (qcuStep x0 x1 s3) := by
  intro x0 x1 s3  h
  unfold qcuStep
  repeat' (first | (with_reducible first | assumption | apply bumpN_keeps | apply setQcu_keeps))

/-! ### Ccu -/

theorem setCond_keeps {s0 : State} : ∀ {x0 x1 s3}, keeps s0 s3 → keeps s0 (setCond x0 x1 s3) := by
  intro x0 x1 s3  h
  unfold setCond
  repeat' (first | (with_reducible first | assumption | apply setTrig_keeps))

theorem taPulse_keeps {s0 : State} : ∀ {x0 s2}, keeps s0 s2 → keeps s0 (taPulse x0 s2) := by
  intro x0 s2  h
  unfold taPulse
  repeat' (first | (with_reducible first | intro _ | assumption | apply keeps.ite | apply setFld_keeps | apply driveOut_keeps | apply setTrigOut_keeps | apply foldl_keeps))

theorem taHold_keeps {s0 : State} : ∀ {x0 x1 s3}, keeps s0 s3 → keeps s0 (taHold x0 x1 s3) := by
  intro x0 x1 s3  h
  unfold taHold
  repeat' (with_reducible first | assumption | apply keeps.ite | apply setTrig_keeps)

theorem setTrigNo_keeps {s0 : State} : ∀ {x0 s2}, keeps s0 s2 → keeps s0 (setTrigNo x0 s2) := by
  intro x0 s2  h
  unfold setTrigNo
  repeat' (first | (with_reducible first | assumption | apply setReg_keeps))

theorem taIssue_keeps {s0 : State} : ∀ {x0 s2}, keeps s0 s2 → keeps s0 (taIssue x0 s2) := by
  intro x0 s2  h
  unfold taIssue
  repeat' (first | (with_reducible first | assumption | apply exportTa_keeps | apply taPulse_keeps | apply taHold_keeps | apply bump_keeps | apply setTrigNo_keeps) | split)

theorem issueReady_keeps {s0 : State} : ∀ {s1}, keeps s0 s1 → keeps s0 (issueReady s1) := by
  intro s1  h
  unfold issueReady
  repeat' (first | (with_reducible first | intro _ | assumption | apply taIssue_keeps | apply setTrig_keeps | apply foldl_keeps) | split)

theorem joinTa_keeps {s0 : State} : ∀ {x0 x1 s3}, keeps s0 s3 → keeps s0 (joinTa x0 x1 s3) := by
  intro x0 x1 s3  h
  unfold joinTa
  repeat' (first | (with_reducible first | assumption | apply setTrig_keeps))

theorem setDef_keeps {s0 : State} : ∀ {x0 x1 x2 s4}, keeps s0 s4 → keeps s0 (setDef x0 x1 x2 s4) := by
  intro x0 x1 x2 s4  h
  unfold setDef
  repeat' (first | (with_reducible first | assumption | apply setCond_keeps))

theorem present_keeps {s0 : State} {c i w : Nat} : ∀ {n : Nat} {s : State}, keeps s0 s → keeps s0 (present c i w n s)
  | 0, _, h => h
  | n + 1, s, h => by
    unfold present
    dsimp only
    repeat' (first | with_reducible assumption | with_reducible apply present_keeps | with_reducible apply bump_keeps | with_reducible apply setDef_keeps | split)

theorem condRun_keeps {s0 : State} : ∀ {s1 x1}, keeps s0 s1 → keeps s0 (condRun s1 x1) := by
  intro s1 x1  h
  unfold condRun
  repeat' (first | (with_reducible first | intro _ | assumption | apply present_keeps | apply setDef_keeps | apply foldl_keeps) | split)

theorem ccuRun_keeps {s0 : State} : ∀ {s1}, keeps s0 s1 → keeps s0 (ccuRun s1) := by
  intro s1  h
  unfold ccuRun
  repeat' (first | (with_reducible first | assumption | apply condRun_keeps | apply foldl_keeps))

theorem ccuTake_keeps {s0 : State} : ∀ {x0 s2}, keeps s0 s2 → keeps s0 (ccuTake x0 s2) := by
  intro x0 s2  h
  unfold ccuTake
  repeat' (first | (with_reducible first | assumption | apply keeps.ite | apply bump_keeps | apply setTrig_keeps | apply issueReady_keeps | apply ccuRun_keeps))

theorem decideOcc_keeps {s0 : State} : ∀ {x0 x1 s3}, keeps s0 s3 → keeps s0 (decideOcc x0 x1 s3) := by
  intro x0 x1 s3  h
  unfold decideOcc
  repeat' (first | (fail_if_no_progress extract_lets +onlyGivenNames y) | (with_reducible first | assumption | apply setDef_keeps | apply bump_keeps | apply joinTa_keeps) | split)

theorem dropOld_keeps {s0 : State} : ∀ {x0 s2}, keeps s0 s2 → keeps s0 (dropOld x0 s2) := by
  intro x0 s2  h
  unfold dropOld
  repeat' (first | (with_reducible first | assumption | apply setCond_keeps))

theorem condReplace_keeps {s0 : State} : ∀ {x0 x1 s3}, keeps s0 s3 → keeps s0 (condReplace x0 x1 s3) := by
  intro x0 x1 s3  h
  unfold condReplace
  repeat' (first | (with_reducible first | assumption | apply condRun_keeps | apply dropOld_keeps | apply setCond_keeps))

theorem trigStep_keeps {s0 : State} : ∀ {x0 s2}, keeps s0 s2 → keeps s0 (trigStep x0 s2) := by
  intro x0 s2  h
  unfold trigStep
  repeat' (first | (with_reducible first | intro _ | assumption | apply qcuStep_keeps | apply dropOld_keeps | apply bumpN_keeps | apply setCond_keeps | apply setTrigIn_keeps | apply issueReady_keeps | apply setTrig_keeps | apply foldl_keeps))

/-! ### HistOps -/

theorem setEvt_keeps {s0 : State} : ∀ {x0 s2}, keeps s0 s2 → keeps s0 (setEvt x0 s2) := by
  intro x0 s2  h
  unfold setEvt
  repeat' (first | with_reducible assumption | (fail_if_no_progress with_reducible apply keeps.mk))

theorem setHist_keeps {s0 : State} : ∀ {x0 x1 s3}, keeps s0 s3 → keeps s0 (setHist x0 x1 s3) := by
  intro x0 x1 s3  h
  unfold setHist
  repeat' (first | (with_reducible first | assumption | apply setEvt_keeps))

theorem ringWrite_keeps {s0 : State} : ∀ {x0 x1 x2 s4}, keeps s0 s4 → keeps s0 (ringWrite x0 x1 x2 s4) := by
  intro x0 x1 x2 s4  h
  unfold ringWrite
  repeat' (first | (with_reducible first | assumption | apply bumpN_keeps | apply setHist_keeps))

theorem addHole_keeps {s0 : State} : ∀ {x0 x1 s3}, keeps s0 s3 → keeps s0 (addHole x0 x1 s3) := by
  intro x0 x1 s3  h
  unfold addHole
  repeat' (first | (with_reducible first | assumption | apply setHist_keeps))

theorem histGap_keeps {s0 : State} : ∀ {x0 x1 x2 x3 s5}, keeps s0 s5 → keeps s0 (histGap x0 x1 x2 x3 s5) := by
  intro x0 x1 x2 x3 s5  h
  unfold histGap
  repeat' (with_reducible first | assumption | apply keeps.ite | apply setHist_keeps)

theorem endHoles_keeps {s0 : State} : ∀ {x0 x1 x2 s4}, keeps s0 s4 → keeps s0 (endHoles x0 x1 x2 s4) := by
  intro x0 x1 x2 s4  h
  unfold endHoles
  repeat' (first | ((fail_if_no_progress extract_lets +onlyGivenNames x); refine (fun (hx : keeps s0 x) => ?_) ?_; clear_value x; rotate_left; dsimp only [x]) | (fail_if_no_progress extract_lets +onlyGivenNames y) | (with_reducible first | assumption | apply setHist_keeps | apply addHole_keeps) | split)

theorem hbmWrite_keeps2 {s0 : State} : ∀ {x0 x1 s3}, keeps s0 s3 → keeps s0 (hbmWrite x0 x1 s3).1 := by
  intro x0 x1 s3  h
  unfold hbmWrite
  repeat' (first | ((fail_if_no_progress extract_lets +onlyGivenNames x); refine (fun (hx : keeps s0 x) => ?_) ?_; clear_value x; rotate_left; dsimp only [x]) | (fail_if_no_progress extract_lets +onlyGivenNames y) | (with_reducible first | assumption | apply endHoles_keeps | apply bumpN_keeps | apply setHist_keeps | apply addHole_keeps | apply bump_keeps) | split)
theorem hbmWrite_keeps {s0 : State} : ∀ {x0 x1 s3 v t}, hbmWrite x0 x1 s3 = (t, v) → keeps s0 s3 → keeps s0 t := by
  intro x0 x1 s3 v t  e h
  have h2 : keeps s0 (hbmWrite x0 x1 s3).1 := hbmWrite_keeps2  h
  rw [e] at h2
  exact h2

theorem hbmParts_keeps {s0 : State} {q : Nat} : ∀ {l : List HBatch} {b : Bool} {s : State}, keeps s0 s → keeps s0 (hbmParts q l b s)
  | [], _, _, h => by
    unfold hbmParts
    split
    · exact bump_keeps h
    · exact h
  | _ :: _, _, _, h => by
    unfold hbmParts
    exact hbmParts_keeps (hbmWrite_keeps2 h)

theorem shedBatch_keeps {s0 : State} : ∀ {x0 x1 x2 s4}, keeps s0 s4 → keeps s0 (shedBatch x0 x1 x2 s4) := by
  intro x0 x1 x2 s4  h
  unfold shedBatch
  repeat' (first | ((fail_if_no_progress extract_lets +onlyGivenNames x); refine (fun (hx : keeps s0 x) => ?_) ?_; clear_value x; rotate_left; dsimp only [x]) | (with_reducible first | assumption | apply bump_keeps | apply addHole_keeps | apply endHoles_keeps | apply setFld_keeps) | split | (fail_if_no_progress with_reducible apply keeps.mk))

theorem histWrite_keeps {s0 : State} : ∀ {x0 x1 x2 s4}, keeps s0 s4 → keeps s0 (histWrite x0 x1 x2 s4) := by
  intro x0 x1 x2 s4  h
  unfold histWrite
  repeat' (first | with_reducible intro _ | ((fail_if_no_progress extract_lets +onlyGivenNames x); refine (fun (hx : keeps s0 x) => ?_) ?_; clear_value x; rotate_left; dsimp only [x]) | (fail_if_no_progress extract_lets +onlyGivenNames y) | (with_reducible first | assumption | apply ringWrite_keeps | apply shedBatch_keeps | apply bump_keeps | apply hbmParts_keeps | apply foldl_keeps) | split | (fail_if_no_progress with_reducible apply keeps.mk))

theorem histTick_keeps {s0 : State} : ∀ {x0 s2}, keeps s0 s2 → keeps s0 (histTick x0 s2) := by
  intro x0 s2  h
  unfold histTick
  repeat' (first | (with_reducible first | assumption | apply keeps.ite | apply setHist_keeps))

theorem releaseBlocks_keeps {s0 : State} : ∀ {x0 x1 x2 s4}, keeps s0 s4 → keeps s0 (releaseBlocks x0 x1 x2 s4) := by
  intro x0 x1 x2 s4  h
  unfold releaseBlocks
  repeat' (first | (with_reducible first | assumption | apply keeps.ite | apply bumpN_keeps | apply setHist_keeps))

theorem streamGone_keeps {s0 : State} : ∀ {x0 x1 s3}, keeps s0 s3 → keeps s0 (streamGone x0 x1 s3) := by
  intro x0 x1 s3  h
  unfold streamGone
  repeat' (first | (with_reducible first | assumption | apply setEvt_keeps | apply setHist_keeps | apply releaseBlocks_keeps))

/-! ### TwOps -/

theorem setTw_keeps {s0 : State} : ∀ {x0 s2}, keeps s0 s2 → keeps s0 (setTw x0 s2) := by
  intro x0 s2  h
  unfold setTw
  repeat' (first | with_reducible assumption | (fail_if_no_progress with_reducible apply keeps.mk))

theorem attnRaise_keeps {s0 : State} : ∀ {x0 s2}, keeps s0 s2 → keeps s0 (attnRaise x0 s2) := by
  intro x0 s2  h
  unfold attnRaise
  repeat' (first | (with_reducible first | assumption | apply keeps.ite | apply setFld_keeps | apply setTw_keeps))

theorem attnClear_keeps {s0 : State} : ∀ {x0 s2}, keeps s0 s2 → keeps s0 (attnClear x0 s2) := by
  intro x0 s2  h
  unfold attnClear
  repeat' (first | (with_reducible first | intro _ | assumption | apply keeps.ite | apply setFld_keeps | apply foldl_keeps))

theorem twTry_keeps {s0 : State} {o : Output} : ∀ {bus : List TwTry} {s : State} {n : Nat} {v w t}, twTry o s n bus = (v, w, t) → keeps s0 s → keeps s0 t
  | [], _, _, _, _, _, e, h => by unfold twTry at e; cases e; exact h
  | x :: bus, s, n, v, w, t, e, h => by
    unfold twTry at e
    dsimp only at e
    have h1 : keeps s0 (bump (tw1Cnt 0) (emit o s)) := bump_keeps (emit_keeps h)
    repeat' split at e
    all_goals first
      | (cases e; assumption)
      | (cases e; exact bump_keeps h1)
      | exact twTry_keeps e (bump_keeps h1)
      | exact twTry_keeps e (bump_keeps (bump_keeps h1))
theorem twTry_keeps2 {s0 : State} {o : Output} {bus : List TwTry} {s : State} {n : Nat} (h : keeps s0 s) : keeps s0 (twTry o s n bus).2.2 :=
  twTry_keeps (show twTry o s n bus = ((twTry o s n bus).1, (twTry o s n bus).2.1, (twTry o s n bus).2.2) from rfl) h

theorem pmTrans_keeps2 {s0 : State} : ∀ {x0 x1 x2 x3 x4 s6}, keeps s0 s6 → keeps s0 (pmTrans x0 x1 x2 x3 x4 s6).2.2 := by
  intro x0 x1 x2 x3 x4 s6  h
  unfold pmTrans
  repeat' (first | (with_reducible first | assumption | refine twTry_keeps (by assumption) ?_ | apply twTry_keeps2) | split | (fail_if_no_progress with_reducible apply keeps.mk))
theorem pmTrans_keeps {s0 : State} : ∀ {x0 x1 x2 x3 x4 s6 v w t}, pmTrans x0 x1 x2 x3 x4 s6 = (v, w, t) → keeps s0 s6 → keeps s0 t := by
  intro x0 x1 x2 x3 x4 s6 v w t  e h
  have h2 : keeps s0 (pmTrans x0 x1 x2 x3 x4 s6).2.2 := pmTrans_keeps2  h
  rw [e] at h2
  exact h2

/-! ### Tasks -/

theorem makeReady_keeps {s0 : State} : ∀ {x0 x1 s3}, keeps s0 s3 → keeps s0 (makeReady x0 x1 s3) := by
  intro x0 x1 s3  h
  unfold makeReady
  repeat' (first | (with_reducible first | assumption | apply setEng_keeps))

theorem wakeSlot_keeps {s0 : State} : ∀ {x0 x1 s3}, keeps s0 s3 → keeps s0 (wakeSlot x0 x1 s3) := by
  intro x0 x1 s3  h
  unfold wakeSlot
  repeat' (first | (with_reducible first | assumption | apply keeps.ite | apply makeReady_keeps | apply setTask_keeps))

theorem timerFire_keeps {s0 : State} : ∀ {x0 x1 x2 s4}, keeps s0 s4 → keeps s0 (timerFire x0 x1 x2 s4) := by
  intro x0 x1 x2 s4  h
  unfold timerFire
  repeat' (with_reducible first | assumption | apply keeps.ite | apply setTask_keeps | apply bump_keeps | apply wakeSlot_keeps)

theorem wakeStep_keeps {s0 : State} : ∀ {x0 s2}, keeps s0 s2 → keeps s0 (wakeStep x0 s2) := by
  intro x0 s2  h
  unfold wakeStep
  repeat' (first | (with_reducible first | intro _ | assumption | apply timerFire_keeps | apply foldl_keeps) | split)

theorem endLoan_keeps {s0 : State} : ∀ {x0 x1 x2 s4}, keeps s0 s4 → keeps s0 (endLoan x0 x1 x2 s4) := by
  intro x0 x1 x2 s4  h
  unfold endLoan
  repeat' (first | (with_reducible first | assumption | apply keeps.ite | apply freeBuf_keeps | apply setBuf_keeps))

theorem endLoans_keeps {s0 : State} : ∀ {x0 x1 s3}, keeps s0 s3 → keeps s0 (endLoans x0 x1 s3) := by
  intro x0 x1 s3  h
  unfold endLoans
  repeat' (first | (with_reducible first | intro _ | assumption | apply setTask_keeps | apply endLoan_keeps | apply foldl_keeps))

theorem freeOwned_keeps {s0 : State} : ∀ {x0 x1 s3}, keeps s0 s3 → keeps s0 (freeOwned x0 x1 s3) := by
  intro x0 x1 s3  h
  unfold freeOwned
  repeat' (first | (with_reducible first | intro _ | assumption | apply freeBuf_keeps | apply foldl_keeps))

theorem freeSlotTask_keeps {s0 : State} : ∀ {x0 x1 s3}, keeps s0 s3 → keeps s0 (freeSlotTask x0 x1 s3) := by
  intro x0 x1 s3  h
  unfold freeSlotTask
  repeat' (first | (with_reducible first | intro _ | assumption | apply freeOwned_keeps | apply endLoans_keeps | apply setEng_keeps | apply complete_keeps | apply disown_keeps | apply foldl_keeps))

theorem stopCancelled_keeps {s0 : State} : ∀ {x0 x1 x2 s4}, keeps s0 s4 → keeps s0 (stopCancelled x0 x1 x2 s4) := by
  intro x0 x1 x2 s4  h
  unfold stopCancelled
  repeat' (first | (with_reducible first | assumption | apply freeSlotTask_keeps | apply bump_keeps | apply bumpN_keeps) | (fail_if_no_progress with_reducible apply keeps.mk))

theorem cancelSlot_keeps {s0 : State} : ∀ {x0 x1 x2 s4}, keeps s0 s4 → keeps s0 (cancelSlot x0 x1 x2 s4) := by
  intro x0 x1 x2 s4  h
  unfold cancelSlot
  repeat' (first | (with_reducible first | assumption | apply keeps.ite | apply setTask_keeps | apply stopCancelled_keeps))

theorem stopWaitingCancels_keeps {s0 : State} : ∀ {x0 s2}, keeps s0 s2 → keeps s0 (stopWaitingCancels x0 s2) := by
  intro x0 s2  h
  unfold stopWaitingCancels
  repeat' (first | (with_reducible first | intro _ | assumption | apply keeps.ite | apply stopCancelled_keeps | apply foldl_keeps))

theorem clearSlots_keeps {s0 : State} : ∀ {x0 s2}, keeps s0 s2 → keeps s0 (clearSlots x0 s2) := by
  intro x0 s2  h
  unfold clearSlots
  repeat' (first | (with_reducible first | intro _ | assumption | apply freeSlotTask_keeps | apply foldl_keeps))

theorem msgLand_keeps {s0 : State} : ∀ {x0 x1 x2 s4}, keeps s0 s4 → keeps s0 (msgLand x0 x1 x2 s4) := by
  intro x0 x1 x2 s4  h
  unfold msgLand
  repeat' (first | (with_reducible first | assumption | apply keeps.ite | apply bump_keeps | apply wakeSlot_keeps | apply setTask_keeps))

theorem markBack_keeps {s0 : State} : ∀ {x0 s2}, keeps s0 s2 → keeps s0 (markBack x0 s2) := by
  intro x0 s2  h
  unfold markBack
  repeat' (first | (with_reducible first | intro _ | assumption | apply setTask_keeps | apply foldl_keeps))

theorem saveV_keeps {s0 : State} : ∀ {x0 x1 s3}, keeps s0 s3 → keeps s0 (saveV x0 x1 s3) := by
  intro x0 x1 s3  h
  unfold saveV
  repeat' (with_reducible first | intro _ | assumption | apply keeps.ite | apply setEng_keeps | apply foldl_keeps)

theorem loadV_keeps {s0 : State} : ∀ {x0 x1 s3}, keeps s0 s3 → keeps s0 (loadV x0 x1 s3) := by
  intro x0 x1 s3  h
  unfold loadV
  repeat' (first | with_reducible intro _ | (fail_if_no_progress extract_lets +onlyGivenNames y) | (with_reducible first | assumption | apply setEng_keeps | apply fixLoc_keeps | apply foldl_keeps) | split)

theorem switchTo_startSlot_keeps {s0 : State} : ∀ {x0 x1 s3}, keeps s0 s3 → keeps s0 (switchTo.startSlot x0 x1 s3) := by
  intro x0 x1 s3  h
  unfold switchTo.startSlot
  repeat' (with_reducible first | assumption | apply loadV_keeps | apply setEng_keeps | apply setTask_keeps)

theorem switchTo_keeps {s0 : State} : ∀ {x0 x1 s3}, keeps s0 s3 → keeps s0 (switchTo x0 x1 s3) := by
  intro x0 x1 s3  h
  unfold switchTo
  repeat' (first | (with_reducible first | assumption | apply makeReady_keeps | apply setTask_keeps | apply bump_keeps | apply switchTo_startSlot_keeps | apply saveV_keeps) | split)

/-! ### Deliver -/

theorem loansBack_keeps {s0 : State} : ∀ {x0 s2}, keeps s0 s2 → keeps s0 (loansBack x0 s2) := by
  intro x0 s2  h
  unfold loansBack
  repeat' (first | (with_reducible first | assumption | apply keeps.ite) | (fail_if_no_progress with_reducible apply keeps.mk))

theorem lendTo_keeps {s0 : State} : ∀ {x0 x1 x2 x3 x4 s6}, keeps s0 s6 → keeps s0 (lendTo x0 x1 x2 x3 x4 s6) := by
  intro x0 x1 x2 x3 x4 s6  h
  unfold lendTo
  repeat' (first | (fail_if_no_progress extract_lets +onlyGivenNames y) | (with_reducible first | assumption | apply bump_keeps | apply loansBack_keeps | apply wakeSlot_keeps | apply setTask_keeps | apply setBuf_keeps) | split | (fail_if_no_progress with_reducible apply keeps.mk))

theorem lendAll_keeps {s0 : State} : ∀ {x0 x1 x2 x3 s5}, keeps s0 s5 → keeps s0 (lendAll x0 x1 x2 x3 s5) := by
  intro x0 x1 x2 x3 s5  h
  unfold lendAll
  repeat' (first | (with_reducible first | intro _ | assumption | apply keeps.ite | apply lendTo_keeps | apply freeBuf_keeps | apply foldl_keeps))

theorem lendBatch_keeps {s0 : State} : ∀ {x0 x1 x2 s4}, keeps s0 s4 → keeps s0 (lendBatch x0 x1 x2 s4) := by
  intro x0 x1 x2 s4  h
  unfold lendBatch
  repeat' (first | (fail_if_no_progress extract_lets +onlyGivenNames y) | (with_reducible first | assumption | apply lendAll_keeps | apply setBuf_keeps) | split)

theorem deliver_keeps {s0 : State} : ∀ {x0 x1 x2 s4}, keeps s0 s4 → keeps s0 (deliver x0 x1 x2 s4) := by
  intro x0 x1 x2 s4  h
  unfold deliver
  repeat' (first | ((fail_if_no_progress extract_lets +onlyGivenNames x); refine (fun (hx : keeps s0 x) => ?_) ?_; clear_value x; rotate_left; dsimp only [x]) | (with_reducible first | assumption | apply lendBatch_keeps | apply histWrite_keeps | apply strobes_keeps) | split | (fail_if_no_progress with_reducible apply keeps.mk))

/-! ### PaceOps -/

theorem setPace_keeps {s0 : State} : ∀ {x0 s2}, keeps s0 s2 → keeps s0 (setPace x0 s2) := by
  intro x0 s2  h
  unfold setPace
  repeat' (first | with_reducible assumption | (fail_if_no_progress with_reducible apply keeps.mk))

theorem setRail_keeps {s0 : State} : ∀ {x0 x1 s3}, keeps s0 s3 → keeps s0 (setRail x0 x1 s3) := by
  intro x0 x1 s3  h
  unfold setRail
  repeat' (first | (with_reducible first | assumption | apply setPace_keeps))

theorem paceTick_keeps {s0 : State} : ∀ {s1}, keeps s0 s1 → keeps s0 (paceTick s1) := by
  intro s1  h
  unfold paceTick
  repeat' (first | (with_reducible first | intro _ | assumption | apply keeps.ite | apply setRail_keeps | apply foldl_keeps))

theorem railFault_keeps {s0 : State} : ∀ {x0 s2}, keeps s0 s2 → keeps s0 (railFault x0 s2) := by
  intro x0 s2  h
  unfold railFault
  repeat' (first | (with_reducible first | assumption | apply bump_keeps | apply attnRaise_keeps | apply setFld_keeps | apply setRail_keeps))

theorem railTrans_keeps2 {s0 : State} : ∀ {x0 x1 x2 x3 s5}, keeps s0 s5 → keeps s0 (railTrans x0 x1 x2 x3 s5).2.2 := by
  intro x0 x1 x2 x3 s5  h
  unfold railTrans
  repeat' (first | (with_reducible first | assumption | refine pmTrans_keeps (by assumption) ?_ | apply railFault_keeps) | split)
theorem railTrans_keeps {s0 : State} : ∀ {x0 x1 x2 x3 s5 v w t}, railTrans x0 x1 x2 x3 s5 = (v, w, t) → keeps s0 s5 → keeps s0 t := by
  intro x0 x1 x2 x3 s5 v w t  e h
  have h2 : keeps s0 (railTrans x0 x1 x2 x3 s5).2.2 := railTrans_keeps2  h
  rw [e] at h2
  exact h2

theorem railCommand_keeps2 {s0 : State} : ∀ {x0 x1 x2 s4}, keeps s0 s4 → keeps s0 (railCommand x0 x1 x2 s4).2 := by
  intro x0 x1 x2 s4  h
  unfold railCommand
  repeat' (first | (with_reducible first | assumption | refine railTrans_keeps (by assumption) ?_ | apply setFld_keeps) | split)
theorem railCommand_keeps {s0 : State} : ∀ {x0 x1 x2 s4 v t}, railCommand x0 x1 x2 s4 = (v, t) → keeps s0 s4 → keeps s0 t := by
  intro x0 x1 x2 s4 v t  e h
  have h2 : keeps s0 (railCommand x0 x1 x2 s4).2 := railCommand_keeps2  h
  rw [e] at h2
  exact h2

theorem railForce_keeps {s0 : State} : ∀ {x0 x1 s3}, keeps s0 s3 → keeps s0 (railForce x0 x1 s3) := by
  intro x0 x1 s3  h
  unfold railForce
  repeat' (first | (with_reducible first | assumption | apply railCommand_keeps2))

theorem railStart_keeps2 {s0 : State} : ∀ {x0 x1 s3}, keeps s0 s3 → keeps s0 (railStart x0 x1 s3).2 := by
  intro r bus s h
  unfold railStart
  have k1 := railTrans_keeps2 (x0 := r) (x1 := 0x20) (x2 := none) (x3 := bus) h
  generalize railTrans r 0x20 none bus s = p at k1 ⊢
  obtain ⟨v, b, s1⟩ := p
  dsimp only at k1 ⊢
  split
  · exact setRail_keeps k1
  · split
    · exact attnRaise_keeps (setFld_keeps (setRail_keeps k1))
    · split
      · exact setRail_keeps k1
      · generalize hs : setRail r _ _ = s2
        have k2 : keeps s0 s2 := by rw [← hs]; exact setRail_keeps k1
        have k3 := railTrans_keeps2 (x0 := r) (x1 := 0x21) (x2 := none) (x3 := b) k2
        generalize railTrans r 0x21 none b s2 = p at k3 ⊢
        obtain ⟨v2, b2, s3⟩ := p
        dsimp only at k3 ⊢
        split
        · exact setFld_keeps k3
        · exact k3
theorem railStart_keeps {s0 : State} : ∀ {x0 x1 s3 v t}, railStart x0 x1 s3 = (v, t) → keeps s0 s3 → keeps s0 t := by
  intro x0 x1 s3 v t e h
  have h2 : keeps s0 (railStart x0 x1 s3).2 := railStart_keeps2 h
  rw [e] at h2
  exact h2

theorem paceStart_keeps {s0 : State} : ∀ {x0 s2}, keeps s0 s2 → keeps s0 (paceStart x0 s2) := by
  intro x0 s2  h
  unfold paceStart
  repeat' (first | (with_reducible first | intro _ | assumption | apply railStart_keeps2 | apply setPace_keeps | apply pmTrans_keeps2 | apply foldl2_keeps) | split | dsimp +zetaDelta only)

theorem railAsk_keeps2 {s0 : State} : ∀ {x0 x1 x2 s4}, keeps s0 s4 → keeps s0 (railAsk x0 x1 x2 s4).2.2 := by
  intro r c b s h
  unfold railAsk
  split
  · exact h
  · exact railTrans_keeps2 h

theorem railPeriod_keeps2 {s0 : State} : ∀ {x0 x1 x2}, keeps s0 x1.2 → keeps s0 (railPeriod x0 x1 x2).2 := by
  intro low x r h
  unfold railPeriod
  split
  · exact h
  · split
    · exact h
    · have k1 := railTrans_keeps2 (x0 := r) (x1 := 0x8B) (x2 := none) (x3 := x.1) h
      generalize railTrans r 0x8B none x.1 x.2 = p at k1 ⊢
      obtain ⟨v, b, s1⟩ := p
      dsimp only at k1 ⊢
      generalize hp : railAsk r 0x21 b _ = p
      have k3 : keeps s0 p.2.2 := by
        rw [← hp]; refine railAsk_keeps2 ?_
        split
        · exact setFld_keeps k1
        · exact k1
      clear hp
      obtain ⟨c, b2, s3⟩ := p
      dsimp only at k3 ⊢
      have k4 := railAsk_keeps2 (x0 := r) (x1 := 0x8C) (x2 := b2) k3
      generalize railAsk r 0x8C b2 s3 = p at k4 ⊢
      obtain ⟨i, b3, s4⟩ := p
      dsimp only at k4 ⊢
      have k7 (u : Nat) (f : Rail → Rail) : keeps s0 (setRail r f (setReg (railBase r + 0x10) (rail r (bumpN (railBase r + 0x18) u s4)).worst (bumpN (railBase r + 0x18) u s4))) :=
        setRail_keeps (setReg_keeps (bumpN_keeps k4))
      generalize hs : setRail r _ _ = s7
      have k7' : keeps s0 s7 := by rw [← hs]; exact k7 _ _
      repeat' split
      all_goals repeat' (first | with_reducible assumption | with_reducible apply railCommand_keeps2 | with_reducible apply bump_keeps | with_reducible apply setFld_keeps | with_reducible apply setRail_keeps | split | dsimp only)
theorem railPeriod_keeps {s0 : State} : ∀ {x0 x1 x2 v t}, railPeriod x0 x1 x2 = (v, t) → keeps s0 x1.2 → keeps s0 t := by
  intro x0 x1 x2 v t e h
  have h2 : keeps s0 (railPeriod x0 x1 x2).2 := railPeriod_keeps2 h
  rw [e] at h2
  exact h2

theorem monPeriod_keeps2 {s0 : State} : ∀ {x0 x1}, keeps s0 x0.2 → keeps s0 (monPeriod x0 x1).2 := by
  intro x0 x1  h
  unfold monPeriod
  repeat' (first | (fail_if_no_progress extract_lets +onlyGivenNames y) | (with_reducible first | assumption | refine pmTrans_keeps (by assumption) ?_ | apply bumpN_keeps) | split)
theorem monPeriod_keeps {s0 : State} : ∀ {x0 x1 v t}, monPeriod x0 x1 = (v, t) → keeps s0 x0.2 → keeps s0 t := by
  intro x0 x1 v t  e h
  have h2 : keeps s0 (monPeriod x0 x1).2 := monPeriod_keeps2  h
  rw [e] at h2
  exact h2

theorem execPacePeriod_keeps : ∀ {x0 x1 s3}, keepsX s3 (execPacePeriod x0 x1 s3) := by
  intro x0 x1 s3
  unfold execPacePeriod
  repeat' (first | (with_reducible first | assumption | exact keeps.refl | apply keepsX.next | apply setPace_keeps | apply railPeriod_keeps2 | apply monPeriod_keeps2 | apply foldl2_keeps) | split)

theorem railMode_keeps {s0 : State} : ∀ {s1 x1}, keeps s0 s1 → keeps s0 (railMode s1 x1) := by
  intro s1 x1  h
  unfold railMode
  repeat' (with_reducible first | assumption | apply keeps.ite | apply railForce_keeps)

theorem paceMode_keeps {s0 : State} : ∀ {s1}, keeps s0 s1 → keeps s0 (paceMode s1) := by
  intro s1  h
  unfold paceMode
  repeat' (first | with_reducible intro _ | ((fail_if_no_progress extract_lets +onlyGivenNames x); refine (fun (hx : keeps s0 x) => ?_) ?_; clear_value x; rotate_left; dsimp only [x]) | (with_reducible first | assumption | apply railMode_keeps | apply foldl_keeps) | split)

/-! ### SpiOps -/

theorem setSpi_keeps {s0 : State} : ∀ {x0 x1 s3}, keeps s0 s3 → keeps s0 (setSpi x0 x1 s3) := by
  intro x0 x1 s3  h
  unfold setSpi
  repeat' (first | with_reducible assumption | (fail_if_no_progress with_reducible apply keeps.mk))

theorem spiRxFlush_keeps {s0 : State} : ∀ {x0 s2}, keeps s0 s2 → keeps s0 (spiRxFlush x0 s2) := by
  intro x0 s2  h
  unfold spiRxFlush
  repeat' (first | (with_reducible first | assumption | apply setSpi_keeps))

theorem spiTxFlush_keeps {s0 : State} : ∀ {x0 s2}, keeps s0 s2 → keeps s0 (spiTxFlush x0 s2) := by
  intro x0 s2  h
  unfold spiTxFlush
  repeat' (first | (with_reducible first | assumption | apply setSpi_keeps))

theorem spiPush_keeps {s0 : State} : ∀ {x0 x1 s3}, keeps s0 s3 → keeps s0 (spiPush x0 x1 s3) := by
  intro x0 x1 s3  h
  unfold spiPush
  repeat' (first | (with_reducible first | assumption | apply keeps.ite | apply setSpi_keeps))

theorem spiPop_keeps2 {s0 : State} : ∀ {x0 s2}, keeps s0 s2 → keeps s0 (spiPop x0 s2).2 := by
  intro x0 s2  h
  unfold spiPop
  repeat' (first | (with_reducible first | assumption | refine takeFree_keeps (by assumption) ?_ | apply setReg_keeps | apply setSpi_keeps) | split)
theorem spiPop_keeps {s0 : State} : ∀ {x0 s2 v t}, spiPop x0 s2 = (v, t) → keeps s0 s2 → keeps s0 t := by
  intro x0 s2 v t  e h
  have h2 : keeps s0 (spiPop x0 s2).2 := spiPop_keeps2  h
  rw [e] at h2
  exact h2

theorem spiGo_keeps {s0 : State} : ∀ {x0 x1 s3}, keeps s0 s3 → keeps s0 (spiGo x0 x1 s3) := by
  intro x0 x1 s3  h
  unfold spiGo
  repeat' (first | (with_reducible first | assumption | apply keeps.ite | apply setSpi_keeps))

theorem spiClock_keeps {s0 : State} : ∀ {x0 x1 s3}, keeps s0 s3 → keeps s0 (spiClock x0 x1 s3) := by
  intro x0 x1 s3  h
  unfold spiClock
  repeat' (first | (fail_if_no_progress extract_lets +onlyGivenNames y) | (with_reducible first | assumption | apply emit_keeps | apply setSpi_keeps) | split)

theorem spiEnd_keeps {s0 : State} : ∀ {x0 s2}, keeps s0 s2 → keeps s0 (spiEnd x0 s2) := by
  intro x0 s2  h
  unfold spiEnd
  repeat' (first | (with_reducible first | assumption | apply setSpi_keeps) | split)

theorem spiDisable_keeps {s0 : State} : ∀ {x0 s2}, keeps s0 s2 → keeps s0 (spiDisable x0 s2) := by
  intro x0 s2  h
  unfold spiDisable
  repeat' (first | (with_reducible first | assumption | apply setSpi_keeps | apply spiRxFlush_keeps | apply spiTxFlush_keeps))

/-! ### FlashOps -/

theorem setFlash_keeps {s0 : State} : ∀ {x0 s2}, keeps s0 s2 → keeps s0 (setFlash x0 s2) := by
  intro x0 s2  h
  unfold setFlash
  repeat' (first | with_reducible assumption | (fail_if_no_progress with_reducible apply keeps.mk))

theorem flProgram_keeps {s0 : State} : ∀ {x0 x1 x2 s4}, keeps s0 s4 → keeps s0 (flProgram x0 x1 x2 s4) := by
  intro x0 x1 x2 s4  h
  unfold flProgram
  repeat' (first | (with_reducible first | assumption | apply setFlash_keeps))

theorem flErase_keeps {s0 : State} : ∀ {x0 x1 x2 s4}, keeps s0 s4 → keeps s0 (flErase x0 x1 x2 s4) := by
  intro x0 x1 x2 s4  h
  unfold flErase
  repeat' (first | (with_reducible first | assumption | apply setFlash_keeps))

theorem flScramble_keeps {s0 : State} : ∀ {x0 x1 x2 s4}, keeps s0 s4 → keeps s0 (flScramble x0 x1 x2 s4) := by
  intro x0 x1 x2 s4  h
  unfold flScramble
  repeat' (first | (with_reducible first | assumption | apply setFlash_keeps) | (fail_if_no_progress with_reducible apply keeps.free))

theorem flOut_keeps {s0 : State} : ∀ {x0 x1 x2 x3 s5}, keeps s0 s5 → keeps s0 (flOut x0 x1 x2 x3 s5) := by
  intro x0 x1 x2 x3 s5  h
  unfold flOut
  repeat' (with_reducible first | assumption | apply emit_keeps)

theorem progPages_keeps {s0 : State} : ∀ {x0 x1 x2 s4}, keeps s0 s4 → keeps s0 (progPages x0 x1 x2 s4) := by
  intro x0 x1 x2 s4  h
  unfold progPages
  repeat' (first | (with_reducible first | intro _ | assumption | apply flProgram_keeps | apply flOut_keeps | apply foldl_keeps) | split)

theorem writeRecord_keeps {s0 : State} : ∀ {x0 x1 s3}, keeps s0 s3 → keeps s0 (writeRecord x0 x1 s3) := by
  intro x0 x1 s3  h
  unfold writeRecord
  repeat' (first | (with_reducible first | assumption | apply flErase_keeps | apply flOut_keeps | apply progPages_keeps))

theorem flashShow_keeps {s0 : State} : ∀ {s1}, keeps s0 s1 → keeps s0 (flashShow s1) := by
  intro s1  h
  unfold flashShow
  repeat' (first | (with_reducible first | assumption | apply setFld_keeps))

theorem flashIssue_keeps {s0 : State} : ∀ {x0 x1 x2 x3 s5}, keeps s0 s5 → keeps s0 (flashIssue x0 x1 x2 x3 s5) := by
  intro x0 x1 x2 x3 s5  h
  unfold flashIssue
  repeat' (with_reducible first | assumption | apply flashShow_keeps | apply flOut_keeps | apply setFlash_keeps)

theorem flashBegin_keeps {s0 : State} : ∀ {s1}, keeps s0 s1 → keeps s0 (flashBegin s1) := by
  intro s1  h
  unfold flashBegin
  repeat' (first | (with_reducible first | assumption | apply flashShow_keeps | apply flashIssue_keeps) | split)

theorem flashFree_keeps {s0 : State} : ∀ {s1}, keeps s0 s1 → keeps s0 (flashFree s1) := by
  intro s1  h
  unfold flashFree
  repeat' (first | (with_reducible first | assumption | apply flashShow_keeps | apply spiGo_keeps | apply setSpi_keeps | apply flashBegin_keeps) | split)

theorem flashAdd_keeps {s0 : State} : ∀ {x0 s2}, keeps s0 s2 → keeps s0 (flashAdd x0 s2) := by
  intro x0 s2  h
  unfold flashAdd
  repeat' (first | (with_reducible first | assumption | apply flashBegin_keeps | apply setFlash_keeps))

/-! ### RepairOps -/

theorem setRepair_keeps {s0 : State} : ∀ {x0 s2}, keeps s0 s2 → keeps s0 (setRepair x0 s2) := by
  intro x0 s2  h
  unfold setRepair
  repeat' (first | with_reducible assumption | (fail_if_no_progress with_reducible apply keeps.mk))

theorem showLmap_keeps {s0 : State} : ∀ {x0 x1 s3}, keeps s0 s3 → keeps s0 (showLmap x0 x1 s3) := by
  intro x0 x1 s3  h
  unfold showLmap
  repeat' (first | (with_reducible first | assumption | apply setReg_keeps))

theorem serveOn_keeps {s0 : State} : ∀ {x0 x1 s3}, keeps s0 s3 → keeps s0 (serveOn x0 x1 s3) := by
  intro x0 x1 s3  h
  unfold serveOn
  repeat' (first | (with_reducible first | assumption | apply showLmap_keeps | apply setEng_keeps) | (fail_if_no_progress with_reducible apply keeps.mk))

theorem mapEngines_keeps {s0 : State} : ∀ {x0 s2}, keeps s0 s2 → keeps s0 (mapEngines x0 s2) := by
  intro x0 s2  h
  unfold mapEngines
  repeat' (first | (with_reducible first | intro _ | assumption | apply keeps.ite | apply showLmap_keeps | apply serveOn_keeps | apply setEng_keeps | apply foldl_keeps) | (fail_if_no_progress with_reducible apply keeps.mk))

theorem showEntry_keeps {s0 : State} : ∀ {x0 s2}, keeps s0 s2 → keeps s0 (showEntry x0 s2) := by
  intro x0 s2  h
  unfold showEntry
  repeat' (first | (with_reducible first | assumption | apply setFld_keeps | apply setReg_keeps) | split)

theorem showMap_keeps {s0 : State} : ∀ {s1}, keeps s0 s1 → keeps s0 (showMap s1) := by
  intro s1  h
  unfold showMap
  repeat' (first | (with_reducible first | intro _ | assumption | apply showEntry_keeps | apply foldl_keeps))

theorem showAct_keeps {s0 : State} : ∀ {x0 x1 x2 s4}, keeps s0 s4 → keeps s0 (showAct x0 x1 x2 s4) := by
  intro x0 x1 x2 s4  h
  unfold showAct
  repeat' (first | (with_reducible first | assumption | apply keeps.ite | apply setReg_keeps))

theorem putCastle_keeps {s0 : State} : ∀ {x0 s2}, keeps s0 s2 → keeps s0 (putCastle x0 s2) := by
  intro x0 s2  h
  unfold putCastle
  repeat' (first | (with_reducible first | assumption | apply showAct_keeps | apply setRepair_keeps))

theorem dropCastle_keeps {s0 : State} : ∀ {x0 s2}, keeps s0 s2 → keeps s0 (dropCastle x0 s2) := by
  intro x0 s2  h
  unfold dropCastle
  repeat' (first | (with_reducible first | assumption | apply keeps.ite | apply setRepair_keeps | apply setReg_keeps))

theorem answerCastle_keeps {s0 : State} : ∀ {x0 x1 s3}, keeps s0 s3 → keeps s0 (answerCastle x0 x1 s3) := by
  intro x0 x1 s3  h
  unfold answerCastle
  repeat' (first | (with_reducible first | assumption | apply complete_keeps) | split)

theorem castleJournal_keeps {s0 : State} : ∀ {x0 x1 s3}, keeps s0 s3 → keeps s0 (castleJournal x0 x1 s3) := by
  intro x0 x1 s3  h
  unfold castleJournal
  repeat' (first | (with_reducible first | assumption | apply keeps.ite | apply journalReg_keeps | apply takeFree_keeps2 | apply journal_keeps | apply bumpVer_keeps))

theorem commitFailed_keeps {s0 : State} : ∀ {x0 x1 s3}, keeps s0 s3 → keeps s0 (commitFailed x0 x1 s3) := by
  intro x0 x1 s3  h
  unfold commitFailed
  repeat' (with_reducible first | assumption | apply answerCastle_keeps | apply bump_keeps | apply dropCastle_keeps | apply showEntry_keeps | apply setRepair_keeps)

theorem commitMap_keeps {s0 : State} : ∀ {x0 x1 s3}, keeps s0 s3 → keeps s0 (commitMap x0 x1 s3) := by
  intro x0 x1 s3  h
  unfold commitMap
  repeat' (first | (with_reducible first | assumption | apply keeps.ite | apply commitFailed_keeps | apply flErase_keeps | apply writeRecord_keeps | apply setRepair_keeps | apply showEntry_keeps | apply setFld_keeps | apply setReg_keeps | apply answerCastle_keeps | apply dropCastle_keeps | apply bump_keeps))

theorem startEngine_keeps {s0 : State} : ∀ {x0 x1 x2 x3 x4 s6}, keeps s0 s6 → keeps s0 (startEngine x0 x1 x2 x3 x4 s6) := by
  intro x0 x1 x2 x3 x4 s6  h
  unfold startEngine
  repeat' (first | (with_reducible first | assumption | apply putCastle_keeps | apply setEng_keeps))

theorem startSteward_keeps {s0 : State} : ∀ {x0 x1 s3}, keeps s0 s3 → keeps s0 (startSteward x0 x1 s3) := by
  intro x0 x1 s3  h
  unfold startSteward
  repeat' (first | (with_reducible first | assumption | apply putCastle_keeps))

theorem resumeSteward_keeps {s0 : State} : ∀ {x0 s2}, keeps s0 s2 → keeps s0 (resumeSteward x0 s2) := by
  intro x0 s2  h
  unfold resumeSteward
  repeat' (with_reducible first | assumption | apply bump_keeps | apply putCastle_keeps | apply setFld_keeps | apply setRepair_keeps | apply setRst_keeps)

theorem freezeEngine_keeps {s0 : State} : ∀ {x0 x1 x2 s4}, keeps s0 s4 → keeps s0 (freezeEngine x0 x1 x2 s4) := by
  intro x0 x1 x2 s4  h
  unfold freezeEngine
  repeat' (first | (with_reducible first | assumption | apply setEng_keeps | apply showAct_keeps | apply putCastle_keeps | apply holdMarks_keeps | apply markBack_keeps))

theorem copyWindow_keeps {s0 : State} : ∀ {x0 x1 x2 s4}, keeps s0 s4 → keeps s0 (copyWindow x0 x1 x2 s4) := by
  intro x0 x1 x2 s4  h
  unfold copyWindow
  repeat' (first | (with_reducible first | intro _ | assumption | apply setReg_keeps | apply foldl_keeps | refine putCnt_keeps ?_ (cnt_keeps (by assumption))))

theorem engWipe_keeps {s0 : State} : ∀ {x0 x1 s3}, keeps s0 s3 → keeps s0 (engWipe x0 x1 s3) := by
  intro x0 x1 s3  h
  unfold engWipe
  repeat' (first | (with_reducible first | assumption | apply setEng_keeps | apply clearSlots_keeps) | (fail_if_no_progress with_reducible apply keeps.filt))

theorem resumeEngine_keeps {s0 : State} : ∀ {x0 s2}, keeps s0 s2 → keeps s0 (resumeEngine x0 s2) := by
  intro x0 s2  h
  unfold resumeEngine
  repeat' (first | (with_reducible first | assumption | apply keeps.ite | apply setEng_keeps | apply resumeMarks_keeps | apply serveOn_keeps | apply copyWindow_keeps | apply setRepair_keeps | apply engWipe_keeps | apply stopWaitingCancels_keeps | apply bump_keeps | apply putCastle_keeps))

theorem abandonCastle_keeps {s0 : State} : ∀ {x0 x1 s3}, keeps s0 s3 → keeps s0 (abandonCastle x0 x1 s3) := by
  intro x0 x1 s3  h
  unfold abandonCastle
  repeat' (first | (with_reducible first | assumption | apply setEng_keeps | apply resumeMarks_keeps | apply setRepair_keeps | apply bump_keeps | apply dropCastle_keeps) | split)

theorem verifyFailed_keeps {s0 : State} : ∀ {x0 s2}, keeps s0 s2 → keeps s0 (verifyFailed x0 s2) := by
  intro x0 s2  h
  unfold verifyFailed
  repeat' (first | (with_reducible first | assumption | apply keeps.ite | apply setFld_keeps | apply bump_keeps | apply answerCastle_keeps | apply dropCastle_keeps | apply startSteward_keeps | apply castleJournal_keeps | apply startEngine_keeps))

theorem sliceCommit_keeps {s0 : State} : ∀ {x0 s2}, keeps s0 s2 → keeps s0 (sliceCommit x0 s2) := by
  intro x0 s2  h
  unfold sliceCommit
  repeat' (first | (with_reducible first | assumption | apply keeps.ite | apply commitMap_keeps))

theorem sliceLinkUp_keeps {s0 : State} : ∀ {x0 s2}, keeps s0 s2 → keeps s0 (sliceLinkUp x0 s2) := by
  intro x0 s2  h
  unfold sliceLinkUp
  repeat' (first | (with_reducible first | assumption | apply sliceCommit_keeps) | split)

/-! ### TmrOps -/

theorem setTmr_keeps {s0 : State} : ∀ {x0 x1 s3}, keeps s0 s3 → keeps s0 (setTmr x0 x1 s3) := by
  intro x0 x1 s3  h
  unfold setTmr
  repeat' (first | with_reducible assumption | (fail_if_no_progress with_reducible apply keeps.mk))

theorem tmrFlag_keeps {s0 : State} : ∀ {x0 x1 s3}, keeps s0 s3 → keeps s0 (tmrFlag x0 x1 s3) := by
  intro x0 x1 s3  h
  unfold tmrFlag
  repeat' (first | (with_reducible first | assumption | apply keeps.ite | apply setFld_keeps | apply sendVec_keeps))

theorem tmrNote_keeps {s0 : State} : ∀ {x0 x1 s3}, keeps s0 s3 → keeps s0 (tmrNote x0 x1 s3) := by
  intro x0 x1 s3  h
  unfold tmrNote
  repeat' (first | (with_reducible first | assumption | apply setFld_keeps))

theorem pinSet_keeps {s0 : State} : ∀ {x0 x1 s3}, keeps s0 s3 → keeps s0 (pinSet x0 x1 s3) := by
  intro x0 x1 s3  h
  unfold pinSet
  repeat' (first | (with_reducible first | assumption | apply emit_keeps | apply setFld_keeps))

theorem tmrPinDo_keeps {s0 : State} : ∀ {x0 x1 s3}, keeps s0 s3 → keeps s0 (tmrPinDo x0 x1 s3) := by
  intro x0 x1 s3  h
  unfold tmrPinDo
  repeat' (first | (with_reducible first | assumption | apply keeps.ite | apply pinSet_keeps))

theorem tmrEdges_keeps {s0 : State} : ∀ {x0 x1 s3}, keeps s0 s3 → keeps s0 (tmrEdges x0 x1 s3) := by
  intro x0 x1 s3  h
  unfold tmrEdges
  repeat' (first | (with_reducible first | assumption | apply keeps.ite | apply setTmr_keeps))

theorem tmrMatch_keeps {s0 : State} : ∀ {x0 s2}, keeps s0 s2 → keeps s0 (tmrMatch x0 s2) := by
  intro x0 s2  h
  unfold tmrMatch
  repeat' (first | (with_reducible first | assumption | apply tmrFlag_keeps | apply tmrPinDo_keeps | apply setTmr_keeps))

theorem tmrReloadTick_keeps {s0 : State} : ∀ {x0 s2}, keeps s0 s2 → keeps s0 (tmrReloadTick x0 s2) := by
  intro x0 s2  h
  unfold tmrReloadTick
  repeat' (first | (with_reducible first | assumption | apply keeps.ite | apply setFld_keeps | apply setTmr_keeps | apply tmrFlag_keeps | apply tmrPinDo_keeps))

theorem tmrTick_keeps {s0 : State} : ∀ {s1 s2}, keeps s0 s2 → keeps s0 (tmrTick s1 s2) := by
  intro s1 s2  h
  unfold tmrTick
  repeat' (first | (with_reducible first | intro _ | assumption | apply keeps.ite | apply tmrEdges_keeps | apply foldl_keeps) | (fail_if_no_progress with_reducible apply keeps.mk))

theorem tmrFire_keeps {s0 : State} : ∀ {x0 x1 s3}, keeps s0 s3 → keeps s0 (tmrFire x0 x1 s3) := by
  intro x0 x1 s3  h
  unfold tmrFire
  repeat' (first | (with_reducible first | assumption | apply keeps.ite | apply setFld_keeps | apply setTmr_keeps | apply tmrNote_keeps | apply tmrFlag_keeps | apply tmrPinDo_keeps))

theorem tmrTest_keepsO {s0 : State} : ∀ {x0 s2}, keeps s0 s2 → optAll (fun t => keeps s0 t) (tmrTest x0 s2) := by
  intro x0 s2  h
  unfold tmrTest
  repeat' (first | (with_reducible first | assumption | apply optAll.none | apply optAll.some | apply tmrNote_keeps | apply setFld_keeps | apply setTmr_keeps | apply tmrFire_keeps) | split)
theorem tmrTest_keeps {s0 : State} : ∀ {x0 s2 t}, tmrTest x0 s2 = some t → keeps s0 s2 → keeps s0 t := by
  intro x0 s2 t  e h
  exact tmrTest_keepsO  h _ e

theorem tmrArm_keeps {s0 : State} : ∀ {x0 s2}, keeps s0 s2 → keeps s0 (tmrArm x0 s2) := by
  intro x0 s2  h
  unfold tmrArm
  repeat' (first | (with_reducible first | assumption | refine tmrTest_keeps (by assumption) ?_ | apply tmrFire_keeps | apply setTmr_keeps) | split)

theorem tmrStep_keeps {s0 : State} : ∀ {x0 s2}, keeps s0 s2 → keeps s0 (tmrStep x0 s2) := by
  intro x0 s2  h
  unfold tmrStep
  repeat' (first | (with_reducible first | intro _ | assumption | apply keeps.ite | refine optAll.getD (tmrTest_keepsO ?_) ?_ | apply foldl_keeps))

theorem tmrCtlEffect_keeps {s0 : State} : ∀ {x0 x1 x2 s4}, keeps s0 s4 → keeps s0 (tmrCtlEffect x0 x1 x2 s4) := by
  intro x0 x1 x2 s4  h
  unfold tmrCtlEffect
  repeat' (first | (with_reducible first | assumption | apply keeps.ite | apply setTmr_keeps | apply tmrArm_keeps))

theorem tmrWake_keeps {s0 : State} : ∀ {x0 s2 x2}, keeps s0 s2 → keeps s0 (tmrWake x0 s2 x2) := by
  intro x0 s2 x2  h
  unfold tmrWake
  repeat' (first | (with_reducible first | assumption | apply keeps.ite | apply tmrFire_keeps | apply setTmr_keeps | apply setFld_keeps | apply setReg_keeps | apply tmrNote_keeps | apply tmrPinDo_keeps | apply tmrFlag_keeps))

theorem tmrSleepUpdate_keeps {s0 : State} : ∀ {s1}, keeps s0 s1 → keeps s0 (tmrSleepUpdate s1) := by
  intro s1  h
  unfold tmrSleepUpdate
  repeat' (first | (fail_if_no_progress extract_lets +onlyGivenNames y) | (with_reducible first | assumption | apply takeFree_keeps2 | apply tmrWake_keeps | apply foldl_keeps) | split | (fail_if_no_progress with_reducible apply keeps.mk))

/-! ### TrigOps -/

theorem phaseEdge_keeps {s0 : State} : ∀ {x0 x1 s3 x3}, keeps s0 s3 → keeps s0 (phaseEdge x0 x1 s3 x3) := by
  intro x0 x1 s3 x3  h
  unfold phaseEdge
  repeat' (first | (with_reducible first | assumption | apply keeps.ite | apply setTb_keeps | apply offerOffset_keeps))

theorem capturePush_keeps {s0 : State} : ∀ {x0 x1 s3}, keeps s0 s3 → keeps s0 (capturePush x0 x1 s3) := by
  intro x0 x1 s3  h
  unfold capturePush
  repeat' (first | (with_reducible first | assumption | apply keeps.ite | apply setFld_keeps | apply setTrigIn_keeps))

theorem captureEdge_keeps {s0 : State} : ∀ {x0 x1 s3}, keeps s0 s3 → keeps s0 (captureEdge x0 x1 s3) := by
  intro x0 x1 s3  h
  unfold captureEdge
  repeat' (first | (with_reducible first | assumption | apply keeps.ite | apply bump_keeps | apply setTrigIn_keeps | apply phaseEdge_keeps | apply ccuOffer_keeps | apply capturePush_keeps | apply foldl_keeps))

theorem lineEdge_keeps {s0 : State} : ∀ {x0 x1 x2 s4}, keeps s0 s4 → keeps s0 (lineEdge x0 x1 x2 s4) := by
  intro x0 x1 x2 s4  h
  unfold lineEdge
  repeat' (first | (with_reducible first | assumption | apply keeps.ite | apply setTrigIn_keeps | apply captureEdge_keeps | apply fastEdges_keeps))

theorem stuckOn_keeps {s0 : State} : ∀ {x0 s2}, keeps s0 s2 → keeps s0 (stuckOn x0 s2) := by
  intro x0 s2  h
  unfold stuckOn
  repeat' (with_reducible first | assumption | apply setTrigIn_keeps)

theorem stuckOff_keeps {s0 : State} : ∀ {x0 s2}, keeps s0 s2 → keeps s0 (stuckOff x0 s2) := by
  intro x0 s2  h
  unfold stuckOff
  repeat' (with_reducible first | assumption | apply setTrigIn_keeps)

theorem lineIn_keeps {s0 : State} : ∀ {x0 x1 x2 s4}, keeps s0 s4 → keeps s0 (lineIn x0 x1 x2 s4) := by
  intro x0 x1 x2 s4  h
  unfold lineIn
  repeat' (with_reducible first | assumption | apply keeps.ite | apply lineEdge_keeps | apply setTrigIn_keeps)

theorem lineTick_keeps {s0 : State} : ∀ {x0 s2}, keeps s0 s2 → keeps s0 (lineTick x0 s2) := by
  intro x0 s2  h
  unfold lineTick
  repeat' (with_reducible first | intro _ | assumption | apply keeps.ite | apply lineEdge_keeps | apply setTrigIn_keeps | apply foldl_keeps)

theorem pulseTaken_keeps2 {s0 : State} : ∀ {x0 x1 s3}, keeps s0 s3 → keeps s0 (pulseTaken x0 x1 s3).2 := by
  intro x0 x1 s3  h
  unfold pulseTaken
  repeat' (first | (fail_if_no_progress extract_lets +onlyGivenNames y) | (with_reducible first | assumption | apply takeFree_keeps2) | split)
theorem pulseTaken_keeps {s0 : State} : ∀ {x0 x1 s3 v t}, pulseTaken x0 x1 s3 = (v, t) → keeps s0 s3 → keeps s0 t := by
  intro x0 x1 s3 v t  e h
  have h2 : keeps s0 (pulseTaken x0 x1 s3).2 := pulseTaken_keeps2  h
  rw [e] at h2
  exact h2

theorem lineStuck_keeps {s0 : State} : ∀ {x0 s2}, keeps s0 s2 → keeps s0 (lineStuck x0 s2) := by
  intro x0 s2  h
  unfold lineStuck
  repeat' (first | (with_reducible first | assumption | apply keeps.ite | apply bump_keeps | apply setFld_keeps | apply stuckOn_keeps))

theorem lineUnstuck_keeps {s0 : State} : ∀ {x0 s2}, keeps s0 s2 → keeps s0 (lineUnstuck x0 s2) := by
  intro x0 s2  h
  unfold lineUnstuck
  repeat' (first | (with_reducible first | assumption | apply keeps.ite | apply stuckOff_keeps))

theorem stretchEnd_keeps {s0 : State} : ∀ {x0 x1 x2 s4}, keeps s0 s4 → keeps s0 (stretchEnd x0 x1 x2 s4) := by
  intro x0 x1 x2 s4  h
  unfold stretchEnd
  repeat' (first | (fail_if_no_progress extract_lets +onlyGivenNames y) | (with_reducible first | assumption | apply fastAdvance_keeps | apply setFast_keeps) | split)

theorem outputEnd_keeps {s0 : State} : ∀ {x0 s2}, keeps s0 s2 → keeps s0 (outputEnd x0 s2) := by
  intro x0 s2  h
  unfold outputEnd
  repeat' (first | with_reducible intro _ | (fail_if_no_progress extract_lets +onlyGivenNames y) | (with_reducible first | assumption | apply fastLow_keeps | apply setFast_keeps | apply foldl_keeps) | split)

theorem outPulse_keeps {s0 : State} : ∀ {x0 s2}, keeps s0 s2 → keeps s0 (outPulse x0 s2) := by
  intro x0 s2  h
  unfold outPulse
  repeat' (first | (with_reducible first | assumption | apply driveOut_keeps | apply setTrigOut_keeps))

theorem pulseLow_keeps {s0 : State} : ∀ {x0 s2}, keeps s0 s2 → keeps s0 (pulseLow x0 s2) := by
  intro x0 s2  h
  unfold pulseLow
  repeat' (with_reducible first | assumption | apply driveOut_keeps | apply setTrigOut_keeps)

theorem pulseEnd_keeps {s0 : State} : ∀ {x0 s2}, keeps s0 s2 → keeps s0 (pulseEnd x0 s2) := by
  intro x0 s2  h
  unfold pulseEnd
  repeat' (first | (with_reducible first | assumption | apply pulseLow_keeps) | split)

theorem pulseExpire_keeps {s0 : State} : ∀ {x0 s2}, keeps s0 s2 → keeps s0 (pulseExpire x0 s2) := by
  intro x0 s2  h
  unfold pulseExpire
  repeat' (first | (with_reducible first | assumption | apply pulseLow_keeps) | split)

theorem trigTick_keeps {s0 : State} : ∀ {s1}, keeps s0 s1 → keeps s0 (trigTick s1) := by
  intro s1  h
  unfold trigTick
  repeat' (with_reducible first | intro _ | assumption | apply lineTick_keeps | apply fastExpire_keeps | apply fastAdvance_keeps | apply pulseExpire_keeps | apply foldl_keeps)

theorem outDrop_keeps {s0 : State} : ∀ {x0 x1 s3}, keeps s0 s3 → keeps s0 (outDrop x0 x1 s3) := by
  intro x0 x1 s3  h
  unfold outDrop
  repeat' (first | (with_reducible first | assumption | apply setTrigOut_keeps))

theorem outLate_keeps {s0 : State} : ∀ {x0 x1 s3}, keeps s0 s3 → keeps s0 (outLate x0 x1 s3) := by
  intro x0 x1 s3  h
  unfold outLate
  repeat' (first | (with_reducible first | assumption | apply keeps.ite | apply setTrigOut_keeps | apply complete_keeps | apply outDrop_keeps))

theorem outSent_keeps {s0 : State} : ∀ {x0 x1 x2 s4}, keeps s0 s4 → keeps s0 (outSent x0 x1 x2 s4) := by
  intro x0 x1 x2 s4  h
  unfold outSent
  repeat' (first | (with_reducible first | assumption | apply completeWith_keeps | apply outPulse_keeps | apply outDrop_keeps))

theorem outDue_keeps {s0 : State} : ∀ {x0 x1 s3}, keeps s0 s3 → keeps s0 (outDue x0 x1 s3) := by
  intro x0 x1 s3  h
  unfold outDue
  repeat' (first | (with_reducible first | assumption | apply outSent_keeps | apply outLate_keeps) | split)

theorem outStep_keeps {s0 : State} : ∀ {x0 x1 s3}, keeps s0 s3 → keeps s0 (outStep x0 x1 s3) := by
  intro x0 x1 s3  h
  unfold outStep
  repeat' (first | (with_reducible first | intro _ | assumption | apply keeps.ite | apply outLate_keeps | apply complete_keeps | apply outDrop_keeps | apply setTrigOut_keeps | apply foldl_keeps))

theorem outAbort_keeps {s0 : State} : ∀ {x0 s2}, keeps s0 s2 → keeps s0 (outAbort x0 s2) := by
  intro x0 s2  h
  unfold outAbort
  repeat' (first | (with_reducible first | intro _ | assumption | apply complete_keeps | apply setTrigOut_keeps | apply foldl_keeps))

/-! ### StepHooks -/

theorem stepTimeUnit_keeps {s0 : State} : ∀ {x0 s2}, keeps s0 s2 → keeps s0 (stepTimeUnit x0 s2) := by
  intro x0 s2  h
  unfold stepTimeUnit
  repeat' (first | (with_reducible first | intro _ | assumption | apply launchStep_keeps | apply synRelockAll_keeps | apply foldl_keeps))

theorem fenceStep_keeps {s0 : State} : ∀ {x0 s2}, keeps s0 s2 → keeps s0 (fenceStep x0 s2) := by
  intro x0 s2  h
  unfold fenceStep
  repeat' (first | with_reducible intro _ | ((fail_if_no_progress extract_lets +onlyGivenNames x); refine (fun (hx : keeps s0 x) => ?_) ?_; clear_value x; rotate_left; dsimp only [x]) | (with_reducible first | assumption | apply fences_keeps | apply complete_keeps | apply stopRing_keeps | apply foldl_keeps) | split)

theorem stepDependants_keeps {s0 : State} : ∀ {x0 s2}, keeps s0 s2 → keeps s0 (stepDependants x0 s2) := by
  intro x0 s2  h
  unfold stepDependants
  repeat' (first | (with_reducible first | intro _ | assumption | apply tmrStep_keeps | apply fenceStep_keeps | apply wakeStep_keeps | apply trigStep_keeps | apply outStep_keeps | apply stepTimeUnit_keeps | apply foldl_keeps))

/-! ### Time -/

theorem execTbOffset_keeps : ∀ {x0 s2}, keepsX s2 (execTbOffset x0 s2) := by
  intro x0 s2
  unfold execTbOffset
  repeat' (first | (with_reducible first | intro _ | assumption | exact keeps.refl | apply keepsX.next | apply keeps.ite | apply serve_keeps | apply complete_keeps | apply offerOffset_keeps | apply refuseOffset_keeps))

theorem serveStep_keeps {s0 : State} : ∀ {x0 x1 x2 x3 s5 x5}, (∀ y0 y1, keeps s0 y1 → keeps s0 (x3 y0 y1)) → (∀ y0 y1, keeps s0 y1 → keeps s0 (x5 y0 y1)) → keeps s0 s5 → keeps s0 (serveStep x0 x1 x2 x3 s5 x5) := by
  intro x0 x1 x2 x3 s5 x5 hr0 hr1 h
  unfold serveStep
  repeat' (first | (with_reducible first | assumption | apply keeps.ite | apply hr0 | apply hr1 | apply serve_keeps))

theorem syncDiscard_keeps {s0 : State} : ∀ {x0 s2}, keeps s0 s2 → keeps s0 (syncDiscard x0 s2) := by
  intro x0 s2  h
  unfold syncDiscard
  repeat' (with_reducible first | assumption | apply setTime_keeps)

theorem stepApply_keeps {s0 : State} : ∀ {x0 x1 s3}, keeps s0 s3 → keeps s0 (stepApply x0 x1 s3) := by
  intro x0 x1 s3  h
  unfold stepApply
  repeat' (first | (with_reducible first | assumption | apply stepDependants_keeps | apply syncDiscard_keeps | apply setTb_keeps))

theorem execTbStepSlew_keeps : ∀ {x0 s2}, keepsX s2 (execTbStepSlew x0 s2) := by
  intro x0 s2
  unfold execTbStepSlew
  repeat' (first | (with_reducible first | intro _ | assumption | exact keeps.refl | apply keepsX.next | apply keeps.ite | apply serveStep_keeps | apply complete_keeps | apply offerOffset_keeps | apply refuseOffset_keeps))

theorem execTbStepRelative_keeps : ∀ {x0 s2}, keepsX s2 (execTbStepRelative x0 s2) := by
  intro x0 s2
  unfold execTbStepRelative
  repeat' (first | (with_reducible first | intro _ | assumption | exact keeps.refl | apply keepsX.next | apply serveStep_keeps | apply complete_keeps | apply stepApply_keeps))

theorem execTbStepAbsolute_keeps : ∀ {x0 s2}, keepsX s2 (execTbStepAbsolute x0 s2) := by
  intro x0 s2
  unfold execTbStepAbsolute
  repeat' (first | (with_reducible first | intro _ | assumption | exact keeps.refl | apply keepsX.next | apply serveStep_keeps | apply complete_keeps | apply stepApply_keeps))

theorem execTbStepMeasured_keeps : ∀ {x0 s2}, keepsX s2 (execTbStepMeasured x0 s2) := by
  intro x0 s2
  unfold execTbStepMeasured
  repeat' (first | (with_reducible first | intro _ | assumption | exact keeps.refl | apply keepsX.next | apply serveStep_keeps | apply complete_keeps | apply stepApply_keeps))

theorem execHoldoverTimeout_keeps : ∀ {x0 s2}, keepsX s2 (execHoldoverTimeout x0 s2) := by
  intro x0 s2
  unfold execHoldoverTimeout
  repeat' (first | (with_reducible first | assumption | exact keeps.refl | apply keepsX.next | apply keeps.ite | apply setTb_keeps))

theorem l1Lost_keeps {s0 : State} : ∀ {x0 s2}, keeps s0 s2 → keeps s0 (l1Lost x0 s2) := by
  intro x0 s2  h
  unfold l1Lost
  repeat' (with_reducible first | assumption | apply keeps.ite | apply setTb_keeps)

theorem execLane0LockLoss_keeps : ∀ {x0 s2}, keepsX s2 (execLane0LockLoss x0 s2) := by
  intro x0 s2
  unfold execLane0LockLoss
  repeat' (first | (with_reducible first | assumption | exact keeps.refl | apply keepsX.next | apply keeps.ite | apply l1Update_keeps | apply l1Lost_keeps | apply setPort_keeps))

theorem execRefinLoss_keeps : ∀ {s1}, keepsX s1 (execRefinLoss s1) := by
  intro s1
  unfold execRefinLoss
  repeat' (first | (with_reducible first | intro _ | assumption | exact keeps.refl | apply keepsX.next | apply setTime_keeps | apply setTb_keeps | apply foldl_keeps) | split)

theorem execPllRelock_keeps : ∀ {s1}, keepsX s1 (execPllRelock s1) := by
  intro s1
  unfold execPllRelock
  repeat' (first | (with_reducible first | assumption | exact keeps.refl | apply keepsX.next | apply synRelockAll_keeps | apply setTime_keeps) | split)

theorem execPpsinEdge_keeps : ∀ {x0 s2}, keepsX s2 (execPpsinEdge x0 s2) := by
  intro x0 s2
  unfold execPpsinEdge
  repeat' (first | (with_reducible first | intro _ | assumption | exact keeps.refl | apply keepsX.next | apply setTime_keeps | apply offerOffset_keeps | apply foldl_keeps) | split)

theorem execPpsoutPulse_keeps : ∀ {s1}, keepsX s1 (execPpsoutPulse s1) := by
  intro s1
  unfold execPpsoutPulse
  repeat' (first | (fail_if_no_progress extract_lets +onlyGivenNames y) | (with_reducible first | assumption | exact keeps.refl | apply keepsX.next | apply emit_keeps | apply setTime_keeps | apply takeFree_keeps2) | split)

theorem execPpsoutPulseEnd_keeps : ∀ {s1}, keepsX s1 (execPpsoutPulseEnd s1) := by
  intro s1
  unfold execPpsoutPulseEnd
  repeat' (first | (fail_if_no_progress extract_lets +onlyGivenNames y) | (with_reducible first | assumption | exact keeps.refl | apply keepsX.next | apply emit_keeps | apply setTime_keeps) | split)

theorem execSynRelockDone_keeps : ∀ {x0 s2}, keepsX s2 (execSynRelockDone x0 s2) := by
  intro x0 s2
  unfold execSynRelockDone
  repeat' (first | (with_reducible first | assumption | exact keeps.refl | apply keepsX.next | apply setSyn_keeps) | split)

theorem execSynGateRelease_keeps : ∀ {x0 s2}, keepsX s2 (execSynGateRelease x0 s2) := by
  intro x0 s2
  unfold execSynGateRelease
  repeat' (first | (fail_if_no_progress extract_lets +onlyGivenNames y) | (with_reducible first | assumption | exact keeps.refl | apply keepsX.next | apply synRise_keeps | apply setSyn_keeps) | split)

theorem execLaunchFrame_keeps : ∀ {x0 x1 s3}, keepsX s3 (execLaunchFrame x0 x1 s3) := by
  intro x0 x1 s3
  unfold execLaunchFrame
  repeat' (first | with_reducible intro _ | (fail_if_no_progress extract_lets +onlyGivenNames y) | (with_reducible first | assumption | exact keeps.refl | apply keepsX.next | apply serve_keeps | apply complete_keeps | apply setPort_keeps | apply launchLate_keeps) | split)

theorem launchSent_keeps {s0 : State} : ∀ {x0 x1 x2 s4}, keeps s0 s4 → keeps s0 (launchSent x0 x1 x2 s4) := by
  intro x0 x1 x2 s4  h
  unfold launchSent
  repeat' (first | (with_reducible first | assumption | apply completeWith_keeps | apply sendFrame_keeps | apply launchDrop_keeps))

theorem execLaunchDue_keeps : ∀ {x0 x1 s3}, keepsX s3 (execLaunchDue x0 x1 s3) := by
  intro x0 x1 s3
  unfold execLaunchDue
  repeat' (first | (with_reducible first | assumption | exact keeps.refl | apply keepsX.next | apply launchSent_keeps) | split)

theorem execLaunchLate_keeps : ∀ {x0 s2}, keepsX s2 (execLaunchLate x0 s2) := by
  intro x0 s2
  unfold execLaunchLate
  repeat' (first | (with_reducible first | assumption | exact keeps.refl | apply keepsX.next | apply launchLate_keeps | apply outLate_keeps) | split)

theorem ptpSent_keeps {s0 : State} : ∀ {x0 x1 x2 s4}, keeps s0 s4 → keeps s0 (ptpSent x0 x1 x2 s4) := by
  intro x0 x1 x2 s4  h
  unfold ptpSent
  repeat' (first | (with_reducible first | assumption | apply takeFree_keeps2 | apply emit_keeps | apply setPtp_keeps) | split | dsimp +zetaDelta only)

theorem frameDone_keeps {s0 : State} : ∀ {x0 x1 s3}, keeps s0 s3 → keeps s0 (frameDone x0 x1 s3) := by
  intro x0 x1 s3  h
  unfold frameDone
  repeat' (first | (with_reducible first | assumption | apply keeps.ite | apply freeBuf_keeps))

theorem execPortTxSelect_keeps : ∀ {x0 x1 s3}, keepsX s3 (execPortTxSelect x0 x1 s3) := by
  intro x0 x1 s3
  unfold execPortTxSelect
  repeat' (first | (with_reducible first | assumption | exact keeps.refl | apply keepsX.next | apply setPort_keeps | apply ptpSent_keeps | apply bump_keeps | apply sendOut_keeps | apply sendFrame_keeps | apply frameDone_keeps) | split)

theorem execTxSettleDone_keeps : ∀ {x0 s2}, keepsX s2 (execTxSettleDone x0 s2) := by
  intro x0 s2
  unfold execTxSettleDone
  repeat' (first | (with_reducible first | assumption | exact keeps.refl | apply keepsX.next | apply setPort_keeps))

end Sys2Proof.Machine
end

