-- ==== Sys2Proof/Laws/Keeps3.lean ====
section
/-! SUPPORT. What every operation keeps (part 3 of 7): ingest, events, modes and their commands, and resets. -/

namespace Sys2Proof.Machine

set_option Elab.async false
set_option linter.all false

/-! ### Ingest -/

theorem modStream_keeps {s0 : State} : ∀ {x0 x1 s3}, keeps s0 s3 → keeps s0 (modStream x0 x1 s3) := by
  intro x0 x1 s3  h
  unfold modStream
  repeat' (first | with_reducible assumption | split | (fail_if_no_progress with_reducible apply keeps.mk))

theorem closeBatch_keeps {s0 : State} : ∀ {x0 s2}, keeps s0 s2 → keeps s0 (closeBatch x0 s2) := by
  intro x0 s2  h
  unfold closeBatch
  repeat' (first | (with_reducible first | assumption | apply deliver_keeps | apply modStream_keeps) | split)

theorem gapReserve_keeps {s0 : State} : ∀ {x0 x1 x2 s4}, keeps s0 s4 → keeps s0 (gapReserve x0 x1 x2 s4) := by
  intro x0 x1 x2 s4  h
  unfold gapReserve
  repeat' (first | with_reducible assumption | (fail_if_no_progress with_reducible apply keeps.mk))

theorem openGap_keeps {s0 : State} : ∀ {x0 x1 x2 s4}, keeps s0 s4 → keeps s0 (openGap x0 x1 x2 s4) := by
  intro x0 x1 x2 s4  h
  unfold openGap
  repeat' (first | ((fail_if_no_progress extract_lets +onlyGivenNames x); refine (fun (hx : keeps s0 x) => ?_) ?_; clear_value x; rotate_left; dsimp only [x]) | (with_reducible first | assumption | apply modStream_keeps | apply closeBatch_keeps | apply histGap_keeps | apply gapReserve_keeps | apply deliver_keeps) | split)

theorem modGapEntry_keeps {s0 : State} : ∀ {x0 x1 x2 s4}, keeps s0 s4 → keeps s0 (modGapEntry x0 x1 x2 s4) := by
  intro x0 x1 x2 s4  h
  unfold modGapEntry
  repeat' (first | with_reducible assumption | split | (fail_if_no_progress with_reducible apply keeps.mk))

theorem closeGap_keeps {s0 : State} : ∀ {x0 x1 x2 x3 x4 x5 s7}, keeps s0 s7 → keeps s0 (closeGap x0 x1 x2 x3 x4 x5 s7) := by
  intro x0 x1 x2 x3 x4 x5 s7  h
  unfold closeGap
  repeat' (first | (with_reducible first | assumption | apply modStream_keeps | apply modGapEntry_keeps) | split)

theorem openNoBuf_keeps {s0 : State} : ∀ {x0 x1 s3}, keeps s0 s3 → keeps s0 (openNoBuf x0 x1 s3) := by
  intro x0 x1 s3  h
  unfold openNoBuf
  repeat' (first | (fail_if_no_progress extract_lets +onlyGivenNames y) | (with_reducible first | assumption | apply deliver_keeps | apply gapReserve_keeps | apply modStream_keeps) | split)

theorem addInstant_keeps {s0 : State} : ∀ {x0 x1 x2 x3 s5}, keeps s0 s5 → keeps s0 (addInstant x0 x1 x2 x3 s5) := by
  intro x0 x1 x2 x3 s5  h
  unfold addInstant
  repeat' (first | (fail_if_no_progress extract_lets +onlyGivenNames y) | (with_reducible first | assumption | apply modStream_keeps | apply closeBatch_keeps) | split)

theorem takeInstants_keeps {s0 : State} {k : Nat} {fc : FrameCtx} : ∀ {l : List (List Comp)} {j : Nat} {s : State}, keeps s0 s → keeps s0 (takeInstants k fc l j s)
  | [], _, _, h => h
  | x :: l, j, s, h => by
    unfold takeInstants
    dsimp only
    repeat' (first | with_reducible assumption | with_reducible apply takeInstants_keeps | with_reducible apply addInstant_keeps | with_reducible apply openNoBuf_keeps | with_reducible apply modStream_keeps | split)

theorem failCheck_keeps {s0 : State} : ∀ {x0 x1 x2 x3 x4 x5 s7}, keeps s0 s7 → keeps s0 (failCheck x0 x1 x2 x3 x4 x5 s7) := by
  intro x0 x1 x2 x3 x4 x5 s7  h
  unfold failCheck
  repeat' (first | (with_reducible first | intro _ | assumption | apply keeps.ite | apply bump_keeps | apply setReg_keeps | apply setFld_keeps | apply foldl_keeps))

theorem takeFrame_keeps {s0 : State} : ∀ {x0 x1 x2 x3 x4 x5 x6 x7 x8 s10}, keeps s0 s10 → keeps s0 (takeFrame x0 x1 x2 x3 x4 x5 x6 x7 x8 s10) := by
  intro x0 x1 x2 x3 x4 x5 x6 x7 x8 s10 h
  unfold takeFrame
  split
  · exact h
  · extract_lets tb running rebased jump s1 s2 s3 s4 comps bad s5 t0 fc s6 dropped s7 s8
    have k1 : keeps s0 s1 := by
      dsimp only [s1]; split
      · exact openGap_keeps h
      · exact h
    clear_value s1 jump rebased running
    have k2 : keeps s0 s2 := by
      dsimp only [s2]; split
      · exact openGap_keeps (failCheck_keeps k1)
      · exact k1
    clear_value s2
    have k3 : keeps s0 s3 := by
      dsimp only [s3]; split
      · exact openGap_keeps k2
      · exact k2
    clear_value s3
    have k4 : keeps s0 s4 := closeGap_keeps k3
    clear_value s4 bad comps
    have k5 : keeps s0 s5 := by
      dsimp only [s5]; split
      · exact k4
      · exact bumpN_keeps (failCheck_keeps k4)
    clear_value s5 fc
    have k6 : keeps s0 s6 := takeInstants_keeps (modStream_keeps k5)
    clear_value s6 dropped
    have k7 : keeps s0 s7 := by
      dsimp only [s7]; split
      · exact failCheck_keeps k6
      · exact k6
    clear_value s7
    have k8 : keeps s0 s8 := modStream_keeps k7
    clear_value s8
    split
    · exact modStream_keeps (openGap_keeps (closeBatch_keeps k8))
    · exact k8

theorem gsfFrame_keeps {s0 : State} : ∀ {x0 x1 x2 x3 x4 x5 x6 s8}, keeps s0 s8 → keeps s0 (gsfFrame x0 x1 x2 x3 x4 x5 x6 s8) := by
  intro x0 x1 x2 x3 x4 x5 x6 s8  h
  unfold gsfFrame
  repeat' (first | ((fail_if_no_progress extract_lets +onlyGivenNames x); refine (fun (hx : keeps s0 x) => ?_) ?_; clear_value x; rotate_left; dsimp only [x]) | (fail_if_no_progress extract_lets +onlyGivenNames y) | (with_reducible first | assumption | apply failCheck_keeps | apply takeFrame_keeps) | split)

theorem dropFrame_keeps {s0 : State} : ∀ {x0 x1 s3}, keeps s0 s3 → keeps s0 (dropFrame x0 x1 s3) := by
  intro x0 x1 s3  h
  unfold dropFrame
  repeat' (first | (with_reducible first | assumption | apply bump_keeps))

theorem respond_keeps {s0 : State} : ∀ {x0 x1 s3}, keeps s0 s3 → keeps s0 (respond x0 x1 s3) := by
  intro x0 x1 s3  h
  unfold respond
  repeat' (first | (with_reducible first | assumption | apply keeps.ite | apply bump_keeps | apply setPort_keeps))

theorem ptpFrame_keeps {s0 : State} : ∀ {x0 x1 s3}, keeps s0 s3 → keeps s0 (ptpFrame x0 x1 s3) := by
  intro x0 x1 s3  h
  unfold ptpFrame
  repeat' (with_reducible first | assumption | apply keeps.ite | apply ptpUnsupported_keeps)

theorem udpFrame_keeps {s0 : State} : ∀ {x0 x1 x2 x3 x4 x5 s7}, keeps s0 s7 → keeps s0 (udpFrame x0 x1 x2 x3 x4 x5 s7) := by
  intro x0 x1 x2 x3 x4 x5 s7  h
  unfold udpFrame
  repeat' (first | (with_reducible first | assumption | apply keeps.ite | apply dropFrame_keeps | apply ptpFrame_keeps | apply gsfFrame_keeps))

theorem ip4Frame_keeps {s0 : State} : ∀ {x0 x1 x2 x3 s5}, keeps s0 s5 → keeps s0 (ip4Frame x0 x1 x2 x3 s5) := by
  intro x0 x1 x2 x3 s5  h
  unfold ip4Frame
  repeat' (first | (with_reducible first | assumption | apply keeps.ite | apply dropFrame_keeps | apply udpFrame_keeps))

theorem ip6Frame_keeps {s0 : State} : ∀ {x0 x1 x2 x3 s5}, keeps s0 s5 → keeps s0 (ip6Frame x0 x1 x2 x3 s5) := by
  intro x0 x1 x2 x3 s5  h
  unfold ip6Frame
  repeat' (first | (with_reducible first | assumption | apply keeps.ite | apply dropFrame_keeps | apply respond_keeps | apply udpFrame_keeps))

theorem pauseFrame_keeps {s0 : State} : ∀ {x0 x1 s3}, keeps s0 s3 → keeps s0 (pauseFrame x0 x1 s3) := by
  intro x0 x1 s3  h
  unfold pauseFrame
  repeat' (first | (with_reducible first | assumption | apply keeps.ite | apply setPort_keeps))

theorem dispatchFrame_keeps {s0 : State} : ∀ {x0 x1 x2 x3 x4 s6}, keeps s0 s6 → keeps s0 (dispatchFrame x0 x1 x2 x3 x4 s6) := by
  intro x0 x1 x2 x3 x4 s6  h
  unfold dispatchFrame
  repeat' (first | (with_reducible first | assumption | apply keeps.ite | apply ptpFrame_keeps | apply dropFrame_keeps | apply gsfFrame_keeps | apply ip4Frame_keeps | apply ip6Frame_keeps | apply respond_keeps))

theorem safeFrame_keeps {s0 : State} : ∀ {x0 x1 x2 s4}, keeps s0 s4 → keeps s0 (safeFrame x0 x1 x2 s4) := by
  intro x0 x1 x2 s4  h
  unfold safeFrame
  repeat' (first | (fail_if_no_progress extract_lets +onlyGivenNames y) | (with_reducible first | assumption | apply modStream_keeps) | split)

theorem execFrameReceive_keeps : ∀ {x0 x1 s3}, keepsX s3 (execFrameReceive x0 x1 s3) := by
  intro x0 x1 s3
  unfold execFrameReceive
  repeat' (first | (fail_if_no_progress extract_lets +onlyGivenNames y) | (with_reducible first | assumption | exact keeps.refl | apply keepsX.next | apply bumpN_keeps | apply dropFrame_keeps | apply bump_keeps | apply safeFrame_keeps | apply pauseFrame_keeps | apply dispatchFrame_keeps) | split)

theorem execBatchTimeout_keeps : ∀ {x0 x1 s3}, keepsX s3 (execBatchTimeout x0 x1 s3) := by
  intro x0 x1 s3
  unfold execBatchTimeout
  repeat' (first | (with_reducible first | assumption | exact keeps.refl | apply keepsX.next | apply closeBatch_keeps) | split)

theorem execSilenceTimeout_keeps : ∀ {x0 x1 s3}, keepsX s3 (execSilenceTimeout x0 x1 s3) := by
  intro x0 x1 s3
  unfold execSilenceTimeout
  repeat' (first | (with_reducible first | assumption | exact keeps.refl | apply keepsX.next | apply openGap_keeps | apply modStream_keeps) | split)

theorem execNoBufferGapClose_keeps : ∀ {x0 x1 s3}, keepsX s3 (execNoBufferGapClose x0 x1 s3) := by
  intro x0 x1 s3
  unfold execNoBufferGapClose
  repeat' (first | (fail_if_no_progress extract_lets +onlyGivenNames y) | (with_reducible first | assumption | exact keeps.refl | apply keepsX.next | apply modStream_keeps | apply modGapEntry_keeps | apply closeBatch_keeps) | split)

theorem portGaps_keeps {s0 : State} : ∀ {x0 x1 s3 x3}, keeps s0 s3 → keeps s0 (portGaps x0 x1 s3 x3) := by
  intro x0 x1 s3 x3  h
  unfold portGaps
  repeat' (first | (with_reducible first | intro _ | assumption | apply openGap_keeps | apply foldl_keeps) | split)

theorem dropEvents_keeps {s0 : State} : ∀ {x0 s2}, keeps s0 s2 → keeps s0 (dropEvents x0 s2) := by
  intro x0 s2  h
  unfold dropEvents
  repeat' (first | (with_reducible first | intro _ | assumption | apply setPort_keeps | apply bump_keeps | apply frameDone_keeps | apply foldl_keeps) | split)

theorem linkDown_keeps {s0 : State} : ∀ {x0 x1 s3}, keeps s0 s3 → keeps s0 (linkDown x0 x1 s3) := by
  intro x0 x1 s3  h
  unfold linkDown
  repeat' (first | (with_reducible first | assumption | apply keeps.ite | apply bump_keeps | apply setPort_keeps | apply dropEvents_keeps | apply portGaps_keeps | apply linkLost_keeps | apply l1Lost_keeps | apply l1Update_keeps | apply setPtp_keeps))

theorem startTraining_keeps {s0 : State} : ∀ {x0 s2}, keeps s0 s2 → keeps s0 (startTraining x0 s2) := by
  intro x0 s2  h
  unfold startTraining
  repeat' (first | (with_reducible first | assumption | apply bumpN_keeps | apply setPort_keeps))

theorem execPortTrainingAttemptTimeout_keeps : ∀ {x0 s2}, keepsX s2 (execPortTrainingAttemptTimeout x0 s2) := by
  intro x0 s2
  unfold execPortTrainingAttemptTimeout
  repeat' (first | (with_reducible first | assumption | exact keeps.refl | apply keepsX.next | apply setPort_keeps) | split)

theorem execLinkUp_keeps : ∀ {x0 s2}, keepsX s2 (execLinkUp x0 s2) := by
  intro x0 s2
  unfold execLinkUp
  repeat' (first | (with_reducible first | assumption | exact keeps.refl | apply keepsX.next | apply setPort_keeps | apply setPtp_keeps | apply sliceLinkUp_keeps | apply ptpDecide_keeps) | split)

theorem execLinkDown_keeps : ∀ {x0 s2}, keepsX s2 (execLinkDown x0 s2) := by
  intro x0 s2
  unfold execLinkDown
  repeat' (first | (with_reducible first | assumption | exact keeps.refl | apply keepsX.next | apply setPort_keeps | apply linkDown_keeps) | split)

/-! ### EvtOps -/

theorem setBuild_keeps {s0 : State} : ∀ {x0 x1 s3}, keeps s0 s3 → keeps s0 (setBuild x0 x1 s3) := by
  intro x0 x1 s3  h
  unfold setBuild
  repeat' (first | (with_reducible first | assumption | apply setEvt_keeps))

theorem delBuild_keeps {s0 : State} : ∀ {x0 s2}, keeps s0 s2 → keeps s0 (delBuild x0 s2) := by
  intro x0 s2  h
  unfold delBuild
  repeat' (first | (with_reducible first | assumption | apply setEvt_keeps))

theorem addBuild_keeps {s0 : State} : ∀ {x0 s2}, keeps s0 s2 → keeps s0 (addBuild x0 s2) := by
  intro x0 s2  h
  unfold addBuild
  repeat' (first | (with_reducible first | assumption | apply setEvt_keeps))

theorem sizePart_keeps {s0 : State} : ∀ {x0 x1 s3}, keeps s0 s3 → keeps s0 (sizePart x0 x1 s3) := by
  intro x0 x1 s3  h
  unfold sizePart
  repeat' (first | (with_reducible first | assumption | apply bumpN_keeps | apply setBuild_keeps) | split)

theorem hostPut_keeps {s0 : State} : ∀ {x0 x1 x2 s4}, keeps s0 s4 → keeps s0 (hostPut x0 x1 x2 s4) := by
  intro x0 x1 x2 s4  h
  unfold hostPut
  repeat' (first | (with_reducible first | intro _ | assumption | apply emit_keeps | apply foldl_keeps))

theorem queueFrames_keeps {s0 : State} {b : Build} {q p key chunk : Nat} : ∀ {n off : Nat} {bs : List Nat} {s : State}, keeps s0 s → keeps s0 (queueFrames b q p key chunk n off bs s)
  | 0, _, _, _, h => h
  | n + 1, off, bs, s, h => by
    unfold queueFrames
    dsimp only
    repeat' (first | with_reducible assumption | with_reducible apply queueFrames_keeps | with_reducible apply bump_keeps | with_reducible apply bumpN_keeps | with_reducible apply setPort_keeps | with_reducible apply takeFree_keeps2 | split)

theorem sendRegion_keepsO {s0 : State} : ∀ {x0 x1 x2 x3 s5}, keeps s0 s5 → optAll (fun t => keeps s0 t) (sendRegion x0 x1 x2 x3 s5) := by
  intro x0 x1 x2 x3 s5  h
  unfold sendRegion
  repeat' (first | (with_reducible first | assumption | apply optAll.none | apply optAll.some | refine allocBuf_keeps (by assumption) ?_ | apply queueFrames_keeps | apply freeBuf_keeps) | split)
theorem sendRegion_keeps {s0 : State} : ∀ {x0 x1 x2 x3 s5 t}, sendRegion x0 x1 x2 x3 s5 = some t → keeps s0 s5 → keeps s0 t := by
  intro x0 x1 x2 x3 s5 t  e h
  exact sendRegion_keepsO  h _ e

theorem replyEntry_keeps {s0 : State} : ∀ {x0 x1 x2 x3 s5}, keeps s0 s5 → keeps s0 (replyEntry x0 x1 x2 x3 s5) := by
  intro x0 x1 x2 x3 s5  h
  unfold replyEntry
  repeat' (first | (with_reducible first | assumption | apply complEntry_keeps))

theorem askedDone_keeps {s0 : State} : ∀ {x0 x1 x2 s4}, keeps s0 s4 → keeps s0 (askedDone x0 x1 x2 s4) := by
  intro x0 x1 x2 s4  h
  unfold askedDone
  repeat' (with_reducible first | assumption | apply setEvt_keeps)

theorem sendReply_keeps {s0 : State} : ∀ {x0 x1 x2 x3 s5}, keeps s0 s5 → keeps s0 (sendReply x0 x1 x2 x3 s5) := by
  intro x0 x1 x2 x3 s5  h
  unfold sendReply
  repeat' (with_reducible first | assumption | apply keeps.ite | apply bump_keeps | apply gcmSend_keeps2)

theorem finishRecall_keeps {s0 : State} : ∀ {x0 x1 x2 x3 x4 s6}, keeps s0 s6 → keeps s0 (finishRecall x0 x1 x2 x3 x4 s6) := by
  intro x0 x1 x2 x3 x4 s6  h
  unfold finishRecall
  repeat' (first | (with_reducible first | assumption | apply replyEntry_keeps | apply askedDone_keeps | apply completeWith_keeps | apply sendReply_keeps) | split)

theorem freeStaged_keeps {s0 : State} : ∀ {x0 s2}, keeps s0 s2 → keeps s0 (freeStaged x0 s2) := by
  intro x0 s2  h
  unfold freeStaged
  repeat' (first | (with_reducible first | intro _ | assumption | apply freeBuf_keeps | apply foldl_keeps))

theorem endBuild_keeps {s0 : State} : ∀ {x0 x1 s3}, keeps s0 s3 → keeps s0 (endBuild x0 x1 s3) := by
  intro x0 x1 s3  h
  unfold endBuild
  repeat' (first | (with_reducible first | assumption | apply delBuild_keeps | apply freeStaged_keeps | apply finishRecall_keeps) | split)

theorem stageAll_keepsO {s0 : State} : ∀ {x0 s2}, keeps s0 s2 → optAll (fun t => keeps s0 t.2) (stageAll x0 s2) := by
  intro x0 s2 h
  unfold stageAll
  refine optAll.foldl (fun o q ho => ?_) _ (optAll.some h)
  split
  · exact optAll.none
  · have h2 := ho _ rfl
    dsimp only at h2 ⊢
    split
    · exact optAll.some h2
    · split
      · exact optAll.none
      · exact optAll.map (allocBuf_keepsO h2) (fun _ h => h)
theorem stageAll_keeps {s0 : State} : ∀ {x0 s2 v t}, stageAll x0 s2 = some (v, t) → keeps s0 s2 → keeps s0 t := by
  intro x0 s2 v t e h
  exact stageAll_keepsO h _ e

theorem applyPolicy_keeps {s0 : State} : ∀ {x0 x1 s3}, keeps s0 s3 → keeps s0 (applyPolicy x0 x1 s3) := by
  intro x0 x1 s3  h
  unfold applyPolicy
  repeat' (first | (with_reducible first | assumption | apply keeps.ite | apply bump_keeps | apply setBuild_keeps | apply freeStaged_keeps | apply endBuild_keeps))

theorem holdRecord_keeps {s0 : State} : ∀ {x0 x1 s3}, keeps s0 s3 → keeps s0 (holdRecord x0 x1 s3) := by
  intro x0 x1 s3  h
  unfold holdRecord
  repeat' (first | ((fail_if_no_progress extract_lets +onlyGivenNames x); refine (fun (hx : keeps s0 x) => ?_) ?_; clear_value x; rotate_left; dsimp only [x]) | (with_reducible first | assumption | apply applyPolicy_keeps | refine stageAll_keeps (by assumption) ?_ | apply bump_keeps | apply setBuild_keeps | apply wakeFn_keeps) | split)

theorem placeHost_keeps {s0 : State} : ∀ {x0 x1 x2 s4}, keeps s0 s4 → keeps s0 (placeHost x0 x1 x2 s4) := by
  intro x0 x1 x2 s4  h
  unfold placeHost
  repeat' (first | (with_reducible first | assumption | apply holdRecord_keeps | apply setRing_keeps | apply setBuild_keeps | apply stopRing_keeps | apply applyPolicy_keeps) | split | dsimp +zetaDelta only)

theorem route__keeps {s0 : State} : ∀ {x0 x1 x2 s4}, keeps s0 s4 → keeps s0 (route_ x0 x1 x2 s4) := by
  intro x0 x1 x2 s4  h
  unfold route_
  repeat' (first | (fail_if_no_progress extract_lets +onlyGivenNames y) | (with_reducible first | assumption | apply placeHost_keeps | apply setBuild_keeps | apply bump_keeps) | split)

theorem regionDone_keepsO {s0 : State} : ∀ {x0 x1 x2 s4}, keeps s0 s4 → optAll (fun t => keeps s0 t) (regionDone x0 x1 x2 s4) := by
  intro x0 x1 x2 s4  h
  unfold regionDone
  repeat' (first | (with_reducible first | assumption | apply optAll.some | apply bumpN_keeps | apply setBuild_keeps | apply hostPut_keeps | apply sendRegion_keepsO) | split)
theorem regionDone_keeps {s0 : State} : ∀ {x0 x1 x2 s4 t}, regionDone x0 x1 x2 s4 = some t → keeps s0 s4 → keeps s0 t := by
  intro x0 x1 x2 s4 t  e h
  exact regionDone_keepsO  h _ e

theorem writeDescs_keeps {s0 : State} {b : Build} {key gen r : Nat} : ∀ {l : List PostUse} {i n : Nat} {s : State}, keeps s0 s → keeps s0 (writeDescs b key gen r l i n s)
  | [], _, _, _, h => h
  | _ :: _, _, _, _, h => by
    unfold writeDescs
    exact writeDescs_keeps (emit_keeps h)

theorem passWritten_keeps {s0 : State} : ∀ {n f r : Nat} {s : State}, keeps s0 s → keeps s0 (passWritten n f r s)
  | 0, _, _, _, h => h
  | n + 1, f, r, s, h => by
    unfold passWritten
    dsimp only
    repeat' (first | with_reducible assumption | with_reducible apply passWritten_keeps | with_reducible apply coalesce_keeps | with_reducible apply writeShadow_keeps | with_reducible apply emit_keeps | with_reducible apply setRing_keeps | split)

theorem deliverHost_keepsO {s0 : State} : ∀ {x0 x1 s3}, keeps s0 s3 → optAll (fun t => keeps s0 t) (deliverHost x0 x1 s3) := by
  intro x0 x1 s3  h
  unfold deliverHost
  repeat' (first | (fail_if_no_progress extract_lets +onlyGivenNames y) | (with_reducible first | assumption | apply optAll.none | apply optAll.some | refine allocBuf_keeps (by assumption) ?_ | apply bumpN_keeps | apply hostPut_keeps | apply writeDescs_keeps | apply setEvt_keeps | apply bump_keeps | apply passWritten_keeps | apply setRing_keeps) | split)
theorem deliverHost_keeps {s0 : State} : ∀ {x0 x1 s3 t}, deliverHost x0 x1 s3 = some t → keeps s0 s3 → keeps s0 t := by
  intro x0 x1 s3 t  e h
  exact deliverHost_keepsO  h _ e

theorem deliverRecord_keepsO {s0 : State} : ∀ {x0 x1 s3}, keeps s0 s3 → optAll (fun t => keeps s0 t) (deliverRecord x0 x1 s3) := by
  intro x0 x1 s3  h
  unfold deliverRecord
  repeat' (first | with_reducible intro _ | ((fail_if_no_progress extract_lets +onlyGivenNames x); refine (fun (hx : keeps s0 x) => ?_) ?_; clear_value x; rotate_left; dsimp only [x]) | ((fail_if_no_progress extract_lets +onlyGivenNames x); refine (fun (hx : optAll (fun t => keeps s0 t) x) => ?_) ?_; clear_value x; rotate_left; dsimp only [x]) | (fail_if_no_progress extract_lets +onlyGivenNames y) | (with_reducible first | assumption | apply optAll.some | refine optAll.bind (by assumption) ?_ | refine optAll.map (by assumption) ?_ | apply sendRegion_keepsO | apply deliverHost_keepsO | apply bump_keeps | apply endBuild_keeps) | split)
theorem deliverRecord_keeps {s0 : State} : ∀ {x0 x1 s3 t}, deliverRecord x0 x1 s3 = some t → keeps s0 s3 → keeps s0 t := by
  intro x0 x1 s3 t  e h
  exact deliverRecord_keepsO  h _ e

theorem drainBuilds_keeps {s0 : State} : ∀ {s1}, keeps s0 s1 → keeps s0 (drainBuilds s1) := by
  intro s1  h
  unfold drainBuilds
  repeat' (first | with_reducible intro _ | ((fail_if_no_progress extract_lets +onlyGivenNames x); refine (fun (hx : keeps s0 x) => ?_) ?_; clear_value x; rotate_left; dsimp only [x]) | (with_reducible first | assumption | apply sizePart_keeps | apply setBuild_keeps | apply foldl_keeps) | split)

theorem resetBuilds_keeps {s0 : State} : ∀ {x0 s2}, keeps s0 s2 → keeps s0 (resetBuilds x0 s2) := by
  intro x0 s2  h
  unfold resetBuilds
  repeat' (first | (with_reducible first | intro _ | assumption | apply bump_keeps | apply delBuild_keeps | apply freeStaged_keeps | apply finishRecall_keeps | apply setBuild_keeps | apply foldl_keeps) | split)

theorem gateBuilds_keeps {s0 : State} : ∀ {s1}, keeps s0 s1 → keeps s0 (gateBuilds s1) := by
  intro s1  h
  unfold gateBuilds
  repeat' (with_reducible first | intro _ | assumption | apply setBuild_keeps | apply foldl_keeps)

/-! ### ModeOps -/

theorem answerMode_keeps {s0 : State} : ∀ {x0 s2}, keeps s0 s2 → keeps s0 (answerMode x0 s2) := by
  intro x0 s2  h
  unfold answerMode
  repeat' (first | (with_reducible first | intro _ | assumption | apply keeps.ite | apply complete_keeps | apply foldl_keeps))

theorem modeBegin_keeps {s0 : State} : ∀ {x0 x1 s3}, keeps s0 s3 → keeps s0 (modeBegin x0 x1 s3) := by
  intro x0 x1 s3  h
  unfold modeBegin
  repeat' (first | (with_reducible first | assumption | apply keeps.ite | apply setMode_keeps | apply drainBuilds_keeps | apply setFld_keeps))

theorem modeRequest_keeps {s0 : State} : ∀ {x0 x1 s3}, keeps s0 s3 → keeps s0 (modeRequest x0 x1 s3) := by
  intro x0 x1 s3  h
  unfold modeRequest
  repeat' (first | (with_reducible first | assumption | apply complete_keeps | apply setFld_keeps | apply modeBegin_keeps) | split)

theorem launchAbort_keeps {s0 : State} : ∀ {x0 s2}, keeps s0 s2 → keeps s0 (launchAbort x0 s2) := by
  intro x0 s2  h
  unfold launchAbort
  repeat' (first | (with_reducible first | intro _ | assumption | apply complete_keeps | apply setPort_keeps | apply foldl_keeps))

theorem portOff_keeps {s0 : State} : ∀ {x0 x1 s3}, keeps s0 s3 → keeps s0 (portOff x0 x1 s3) := by
  intro x0 x1 s3  h
  unfold portOff
  repeat' (first | (with_reducible first | assumption | apply dropEvents_keeps | apply linkDown_keeps | apply portGaps_keeps | apply launchAbort_keeps | apply setPtp_keeps | apply setPort_keeps))

theorem portTrain_keeps {s0 : State} : ∀ {x0 s2}, keeps s0 s2 → keeps s0 (portTrain x0 s2) := by
  intro x0 s2  h
  unfold portTrain
  repeat' (first | (with_reducible first | assumption | apply keeps.ite | apply startTraining_keeps))

theorem portRetrain_keeps {s0 : State} : ∀ {x0 x1 s3}, keeps s0 s3 → keeps s0 (portRetrain x0 x1 s3) := by
  intro x0 x1 s3  h
  unfold portRetrain
  repeat' (first | (with_reducible first | assumption | apply portTrain_keeps | apply linkDown_keeps | apply portGaps_keeps))

theorem engTurn_keeps {s0 : State} : ∀ {s1 s2 x2}, keeps s0 s2 → keeps s0 (engTurn s1 s2 x2) := by
  intro s1 s2 x2  h
  unfold engTurn
  repeat' (first | (with_reducible first | assumption | apply keeps.ite | apply markBack_keeps | apply stopWaitingCancels_keeps))

theorem histTurn_keeps {s0 : State} : ∀ {x0 x1 x2 s4 x4}, keeps s0 s4 → keeps s0 (histTurn x0 x1 x2 s4 x4) := by
  intro x0 x1 x2 s4 x4  h
  unfold histTurn
  repeat' (first | (with_reducible first | assumption | apply setHist_keeps))

theorem castleTurn_keeps {s0 : State} : ∀ {s1 x1}, keeps s0 s1 → keeps s0 (castleTurn s1 x1) := by
  intro s1 x1  h
  unfold castleTurn
  repeat' (first | (with_reducible first | assumption | apply keeps.ite | apply answerCastle_keeps | apply abandonCastle_keeps | apply putCastle_keeps))

theorem gateTas_keeps {s0 : State} : ∀ {s1}, keeps s0 s1 → keeps s0 (gateTas s1) := by
  intro s1  h
  unfold gateTas
  repeat' (first | (with_reducible first | assumption | apply gateBuilds_keeps) | (fail_if_no_progress with_reducible apply keeps.mk))

theorem portTurn_keeps {s0 : State} : ∀ {x0 x1 x2 x3 x4 x5 x6 x7 s9 x9}, keeps s0 s9 → keeps s0 (portTurn x0 x1 x2 x3 x4 x5 x6 x7 s9 x9) := by
  intro x0 x1 x2 x3 x4 x5 x6 x7 s9 x9  h
  unfold portTurn
  repeat' (first | (with_reducible first | assumption | apply keeps.ite | apply setPort_keeps | apply portOff_keeps | apply portTrain_keeps | apply portRetrain_keeps | apply portGaps_keeps))

theorem modeEnd_keeps {s0 : State} : ∀ {x0 s2}, keeps s0 s2 → keeps s0 (modeEnd x0 s2) := by
  intro x0 s2  h
  unfold modeEnd
  repeat' (first | (with_reducible first | assumption | apply keeps.ite | apply portTurn_keeps | apply setMode_keeps | apply histTurn_keeps | apply engTurn_keeps | apply castleTurn_keeps | apply gateTas_keeps | apply tmrSleepUpdate_keeps | apply paceMode_keeps | apply setFlash_keeps | apply attnRaise_keeps | apply issueReady_keeps | apply answerMode_keeps | apply foldl_keeps))

theorem safeEnter_keeps {s0 : State} : ∀ {s1}, keeps s0 s1 → keeps s0 (safeEnter s1) := by
  intro s1  h
  unfold safeEnter
  repeat' (first | (with_reducible first | assumption | apply modeBegin_keeps | apply answerMode_keeps) | split)

theorem safeClear_keeps {s0 : State} : ∀ {x0 s2}, keeps s0 s2 → keeps s0 (safeClear x0 s2) := by
  intro x0 s2  h
  unfold safeClear
  repeat' (first | (with_reducible first | assumption | apply setMode_keeps))

/-! ### RepairCmds -/

theorem repairWarn_keeps {s0 : State} : ∀ {s1}, keeps s0 s1 → keeps s0 (repairWarn s1) := by
  intro s1  h
  unfold repairWarn
  repeat' (first | (with_reducible first | assumption | apply attnRaise_keeps | apply setFld_keeps))

theorem wearTake_keeps {s0 : State} : ∀ {x0 x1 x2 x3 x4 x5 x6 s8}, keeps s0 s8 → keeps s0 (wearTake x0 x1 x2 x3 x4 x5 x6 s8) := by
  intro x0 x1 x2 x3 x4 x5 x6 s8  h
  unfold wearTake
  repeat' (first | (with_reducible first | assumption | apply keeps.ite | apply setFld_keeps | apply repairWarn_keeps))

theorem wearRead_keeps {s0 : State} : ∀ {s1 x1}, keeps s0 s1 → keeps s0 (wearRead s1 x1) := by
  intro s1 x1  h
  unfold wearRead
  repeat' (first | (with_reducible first | assumption | apply wearTake_keeps | apply setFld_keeps | apply setReg_keeps | apply repairWarn_keeps) | split)

theorem execWearAverage_keeps : ∀ {x0 s2}, keepsX s2 (execWearAverage x0 s2) := by
  intro x0 s2
  unfold execWearAverage
  repeat' (first | (with_reducible first | assumption | exact keeps.refl | apply keepsX.next | apply wearRead_keeps | apply foldl_keeps) | split)

theorem execLaneEyeMeasure_keeps : ∀ {x0 x1 s3}, keepsX s3 (execLaneEyeMeasure x0 x1 s3) := by
  intro x0 x1 s3
  unfold execLaneEyeMeasure
  repeat' (first | (with_reducible first | assumption | exact keeps.refl | apply keepsX.next | apply wearTake_keeps) | split)

theorem startSlice_keeps {s0 : State} : ∀ {x0 x1 x2 x3 x4 s6}, keeps s0 s6 → keeps s0 (startSlice x0 x1 x2 x3 x4 s6) := by
  intro x0 x1 x2 x3 x4 s6  h
  unfold startSlice
  repeat' (first | (with_reducible first | intro _ | assumption | apply sliceCommit_keeps | apply portRetrain_keeps | apply putCastle_keeps | apply foldl_keeps))

theorem startPch_keeps {s0 : State} : ∀ {x0 x1 x2 x3 s5}, keeps s0 s5 → keeps s0 (startPch x0 x1 x2 x3 s5) := by
  intro x0 x1 x2 x3 s5  h
  unfold startPch
  repeat' (first | (with_reducible first | assumption | apply putCastle_keeps))

theorem startBank_keeps {s0 : State} : ∀ {x0 x1 s3}, keeps s0 s3 → keeps s0 (startBank x0 x1 s3) := by
  intro x0 x1 s3  h
  unfold startBank
  repeat' (first | (with_reducible first | assumption | apply putCastle_keeps))

theorem fed_keeps {s0 : State} : ∀ {x0 x1 x2 s4}, keeps s0 s4 → keeps s0 (fed x0 x1 x2 s4) := by
  intro x0 x1 x2 s4  h
  unfold fed
  repeat' (first | (with_reducible first | assumption | apply setRepair_keeps))

theorem noSpare_keeps {s0 : State} : ∀ {x0 x1 x2 s4}, keeps s0 s4 → keeps s0 (noSpare x0 x1 x2 s4) := by
  intro x0 x1 x2 s4  h
  unfold noSpare
  repeat' (first | (with_reducible first | assumption | apply keeps.ite | apply bump_keeps | apply setRepair_keeps))

theorem autoStart_keepsO {s0 : State} : ∀ {x0 s2}, keeps s0 s2 → optAll (fun t => keeps s0 t) (autoStart x0 s2) := by
  intro x0 s2  h
  unfold autoStart
  repeat' (first | (fail_if_no_progress extract_lets +onlyGivenNames y) | (with_reducible first | assumption | apply optAll.none | apply optAll.some | apply fed_keeps | apply castleJournal_keeps | apply noSpare_keeps | apply startEngine_keeps | apply startSteward_keeps | apply startSlice_keeps | apply startPch_keeps | apply startBank_keeps) | split)
theorem autoStart_keeps {s0 : State} : ∀ {x0 s2 t}, autoStart x0 s2 = some t → keeps s0 s2 → keeps s0 t := by
  intro x0 s2 t  e h
  exact autoStart_keepsO  h _ e

theorem execCastleAutoStart_keeps : ∀ {x0 x1 x2 s4}, keepsX s4 (execCastleAutoStart x0 x1 x2 s4) := by
  intro x0 x1 x2 s4
  unfold execCastleAutoStart
  repeat' (first | (with_reducible first | assumption | exact keeps.refl | apply keepsX.next | refine autoStart_keeps (by assumption) ?_ | refine optAll.getD (autoStart_keepsO ?_) ?_ | apply setRepair_keeps) | split)

theorem serveCastle_keeps {s0 : State} : ∀ {x0 x1 x2 x3 x4 x5 s7}, (∀ y0 y1, keeps s0 y1 → keeps s0 (x5 y0 y1)) → keeps s0 s7 → keeps s0 (serveCastle x0 x1 x2 x3 x4 x5 s7) := by
  intro x0 x1 x2 x3 x4 x5 s7 hr0 h
  unfold serveCastle
  repeat' (first | (with_reducible first | intro _ | assumption | apply hr0 | apply serve_keeps))

theorem execCastleEngine_keeps : ∀ {x0 s2}, keepsX s2 (execCastleEngine x0 s2) := by
  intro x0 s2
  unfold execCastleEngine
  repeat' (first | (with_reducible first | intro _ | assumption | exact keeps.refl | apply keepsX.next | apply serveCastle_keeps | apply startEngine_keeps) | split)

theorem execCastleSteward_keeps : ∀ {x0 s2}, keepsX s2 (execCastleSteward x0 s2) := by
  intro x0 s2
  unfold execCastleSteward
  repeat' (first | (with_reducible first | intro _ | assumption | exact keeps.refl | apply keepsX.next | apply serveCastle_keeps | apply startSteward_keeps) | split)

theorem execCastleSlice_keeps : ∀ {x0 s2}, keepsX s2 (execCastleSlice x0 s2) := by
  intro x0 s2
  unfold execCastleSlice
  repeat' (first | (with_reducible first | intro _ | assumption | exact keeps.refl | apply keepsX.next | apply serveCastle_keeps | apply startSlice_keeps) | split)

theorem execCastlePch_keeps : ∀ {x0 s2}, keepsX s2 (execCastlePch x0 s2) := by
  intro x0 s2
  unfold execCastlePch
  repeat' (first | (with_reducible first | intro _ | assumption | exact keeps.refl | apply keepsX.next | apply serveCastle_keeps | apply startPch_keeps) | split)

theorem execEngineCastleFreeze_keeps : ∀ {x0 x1 x2 s4}, keepsX s4 (execEngineCastleFreeze x0 x1 x2 s4) := by
  intro x0 x1 x2 s4
  unfold execEngineCastleFreeze
  repeat' (first | (with_reducible first | assumption | exact keeps.refl | apply keepsX.next | apply showAct_keeps | apply putCastle_keeps | apply setRepair_keeps | apply freezeEngine_keeps) | split)

theorem execEngineCastleResume_keeps : ∀ {x0 s2}, keepsX s2 (execEngineCastleResume x0 s2) := by
  intro x0 s2
  unfold execEngineCastleResume
  repeat' (first | (with_reducible first | assumption | exact keeps.refl | apply keepsX.next | apply resumeSteward_keeps | apply resumeEngine_keeps) | split)

theorem execCastleVerifyDone_keeps : ∀ {x0 x1 s3}, keepsX s3 (execCastleVerifyDone x0 x1 s3) := by
  intro x0 x1 s3
  unfold execCastleVerifyDone
  repeat' (first | (with_reducible first | assumption | exact keeps.refl | apply keepsX.next | apply verifyFailed_keeps | apply answerCastle_keeps | apply dropCastle_keeps | apply putCastle_keeps) | split)

theorem execRepairMapCommit_keeps : ∀ {x0 x1 x2 s4}, keepsX s4 (execRepairMapCommit x0 x1 x2 s4) := by
  intro x0 x1 x2 s4
  unfold execRepairMapCommit
  repeat' (first | (with_reducible first | assumption | exact keeps.refl | apply keepsX.next | apply commitMap_keeps) | split)

theorem execPchEvacDone_keeps : ∀ {x0 s2}, keepsX s2 (execPchEvacDone x0 s2) := by
  intro x0 s2
  unfold execPchEvacDone
  repeat' (first | (with_reducible first | assumption | exact keeps.refl | apply keepsX.next | apply bump_keeps | apply putCastle_keeps) | split)

theorem execBankCastleDone_keeps : ∀ {x0 s2}, keepsX s2 (execBankCastleDone x0 s2) := by
  intro x0 s2
  unfold execBankCastleDone
  repeat' (first | (with_reducible first | assumption | exact keeps.refl | apply keepsX.next | apply bump_keeps | apply putCastle_keeps) | split)

theorem execWireCastle_keeps : ∀ {x0 x1 x2 s4}, keepsX s4 (execWireCastle x0 x1 x2 s4) := by
  intro x0 x1 x2 s4
  unfold execWireCastle
  repeat' (first | (fail_if_no_progress extract_lets +onlyGivenNames y) | (with_reducible first | assumption | exact keeps.refl | apply keepsX.next | apply setRepair_keeps | apply bump_keeps | apply setReg_keeps | apply putCastle_keeps | apply castleJournal_keeps) | split)

theorem execRepairCommit_keeps : ∀ {x0 s2}, keepsX s2 (execRepairCommit x0 s2) := by
  intro x0 s2
  unfold execRepairCommit
  repeat' (first | (with_reducible first | intro _ | assumption | exact keeps.refl | apply keepsX.next | apply serve_keeps | apply complete_keeps | apply setFld_keeps) | (fail_if_no_progress with_reducible apply keeps.mk))

theorem execPowerWarning_keeps : ∀ {s1}, keepsX s1 (execPowerWarning s1) := by
  intro s1
  unfold execPowerWarning
  repeat' (first | (with_reducible first | assumption | exact keeps.refl | apply keepsX.next | apply attnRaise_keeps | apply setFld_keeps | apply setRepair_keeps) | split)

theorem execPowerWarningClear_keeps : ∀ {s1}, keepsX s1 (execPowerWarningClear s1) := by
  intro s1
  unfold execPowerWarningClear
  repeat' (first | (with_reducible first | assumption | exact keeps.refl | apply keepsX.next | apply flashBegin_keeps | apply setRepair_keeps) | split)

/-! ### FlashCmds -/

theorem recordWrite_keeps {s0 : State} : ∀ {x0 x1 x2 s4}, keeps s0 s4 → keeps s0 (recordWrite x0 x1 x2 s4) := by
  intro x0 x1 x2 s4  h
  unfold recordWrite
  repeat' (first | (with_reducible first | assumption | apply keeps.ite | apply setFlash_keeps | apply writeRecord_keeps | apply flErase_keeps))

theorem execConfigRecordRewrite_keeps : ∀ {x0 s2}, keepsX s2 (execConfigRecordRewrite x0 s2) := by
  intro x0 s2
  unfold execConfigRecordRewrite
  repeat' (first | (with_reducible first | assumption | exact keeps.refl | apply keepsX.next | apply setFlash_keeps | apply recordWrite_keeps | apply setFld_keeps) | split)

theorem jobEnd_keeps {s0 : State} : ∀ {x0 s2}, keeps s0 s2 → keeps s0 (jobEnd x0 s2) := by
  intro x0 s2  h
  unfold jobEnd
  repeat' (first | (with_reducible first | assumption | apply setFlash_keeps | apply complete_keeps) | split)

theorem stepDone_keeps {s0 : State} : ∀ {s1}, keeps s0 s1 → keeps s0 (stepDone s1) := by
  intro s1  h
  unfold stepDone
  repeat' (first | (with_reducible first | assumption | apply flErase_keeps | apply flProgram_keeps | apply setFlash_keeps | apply flashFree_keeps | apply jobEnd_keeps) | split)

theorem stepFail_keeps {s0 : State} : ∀ {s1}, keeps s0 s1 → keeps s0 (stepFail s1) := by
  intro s1  h
  unfold stepFail
  repeat' (first | (with_reducible first | assumption | apply setFlash_keeps | apply flScramble_keeps | apply complete_keeps | apply flashFree_keeps | apply setFld_keeps) | split)

theorem execFlashPageFlush_keeps : ∀ {s1}, keepsX s1 (execFlashPageFlush s1) := by
  intro s1
  unfold execFlashPageFlush
  repeat' (first | (with_reducible first | assumption | exact keeps.refl | apply keepsX.next | apply flashIssue_keeps) | split)

theorem execFlashStatusPoll_keeps : ∀ {x0 s2}, keepsX s2 (execFlashStatusPoll x0 s2) := by
  intro x0 s2
  unfold execFlashStatusPoll
  repeat' (first | (with_reducible first | assumption | exact keeps.refl | apply keepsX.next | apply emit_keeps | apply setFlash_keeps | apply stepDone_keeps) | split)

theorem execFlashOpTimeout_keeps : ∀ {s1}, keepsX s1 (execFlashOpTimeout s1) := by
  intro s1
  unfold execFlashOpTimeout
  repeat' (first | (fail_if_no_progress extract_lets +onlyGivenNames y) | (with_reducible first | assumption | exact keeps.refl | apply keepsX.next | apply stepFail_keeps) | split)

theorem execFlashWrite_keeps : ∀ {x0 x1 s3}, keepsX s3 (execFlashWrite x0 x1 s3) := by
  intro x0 x1 s3
  unfold execFlashWrite
  repeat' (first | (with_reducible first | intro _ | assumption | exact keeps.refl | apply keepsX.next | apply serve_keeps | apply complete_keeps | apply flashAdd_keeps) | split)

theorem execFlashErase_keeps : ∀ {x0 s2}, keepsX s2 (execFlashErase x0 s2) := by
  intro x0 s2
  unfold execFlashErase
  repeat' (first | (with_reducible first | intro _ | assumption | exact keeps.refl | apply keepsX.next | apply keeps.ite | apply serve_keeps | apply complete_keeps | apply flashAdd_keeps))

theorem execFwStage_keeps : ∀ {x0 x1 s3}, keepsX s3 (execFwStage x0 x1 s3) := by
  intro x0 x1 s3
  unfold execFwStage
  repeat' (first | (with_reducible first | intro _ | assumption | exact keeps.refl | apply keepsX.next | apply serve_keeps | apply complete_keeps | apply flashAdd_keeps | apply setFlash_keeps) | split)

theorem switchTo__keeps {s0 : State} : ∀ {x0 s2}, keeps s0 s2 → keeps s0 (switchTo_ x0 s2) := by
  intro x0 s2  h
  unfold switchTo_
  repeat' (first | (with_reducible first | assumption | apply recordWrite_keeps))

theorem execFwSwitchNextBoot_keeps : ∀ {x0 s2}, keepsX s2 (execFwSwitchNextBoot x0 s2) := by
  intro x0 s2
  unfold execFwSwitchNextBoot
  repeat' (first | (with_reducible first | intro _ | assumption | exact keeps.refl | apply keepsX.next | apply serve_keeps | apply complete_keeps | apply switchTo__keeps) | split)

theorem execFwSwitchLive_keeps : ∀ {x0 s2}, keepsX s2 (execFwSwitchLive x0 s2) := by
  intro x0 s2
  unfold execFwSwitchLive
  repeat' (first | (with_reducible first | intro _ | assumption | exact keeps.refl | apply keepsX.next | apply serve_keeps | apply complete_keeps | apply setReg_keeps | apply setRst_keeps | apply switchTo__keeps) | split)

/-! ### SysCmds -/

theorem execLinkHelloTx_keeps : ∀ {x0 s2}, keepsX s2 (execLinkHelloTx x0 s2) := by
  intro x0 s2
  unfold execLinkHelloTx
  repeat' (first | (with_reducible first | assumption | exact keeps.refl | apply keepsX.next | apply takeFree_keeps2 | apply gcmNew_keeps2 | apply bump_keeps | apply gcmPut_keeps | apply setLink_keeps) | split)

theorem execBeaconTx_keeps : ∀ {s1}, keepsX s1 (execBeaconTx s1) := by
  intro s1
  unfold execBeaconTx
  repeat' (first | (with_reducible first | intro _ | assumption | exact keeps.refl | apply keepsX.next | apply setSys_keeps | apply gcmNew_keeps2 | apply bump_keeps | apply gcmPut_keeps | apply foldl_keeps) | split)

theorem execLinkHelloTimeout_keeps : ∀ {x0 s2}, keepsX s2 (execLinkHelloTimeout x0 s2) := by
  intro x0 s2
  unfold execLinkHelloTimeout
  repeat' (first | (with_reducible first | assumption | exact keeps.refl | apply keepsX.next | apply keeps.ite | apply linkLost_keeps))

theorem execBeaconTimeout_keeps : ∀ {x0 s2}, keepsX s2 (execBeaconTimeout x0 s2) := by
  intro x0 s2
  unfold execBeaconTimeout
  repeat' (first | (with_reducible first | assumption | exact keeps.refl | apply keepsX.next | apply setSys_keeps) | split)

theorem remoteTake_keeps {s0 : State} : ∀ {x0 s2}, keeps s0 s2 → keeps s0 (remoteTake x0 s2) := by
  intro x0 s2  h
  unfold remoteTake
  repeat' (first | (with_reducible first | assumption | apply keeps.ite | apply bump_keeps | apply ccuArrive_keeps | apply setSys_keeps))

theorem takeTpRecord_keeps {s0 : State} : ∀ {x0 s2 x2}, keeps s0 s2 → keeps s0 (takeTpRecord x0 s2 x2) := by
  intro x0 s2 x2  h
  unfold takeTpRecord
  repeat' (first | (with_reducible first | assumption | apply keeps.ite | apply bump_keeps | apply remoteTake_keeps))

theorem execGcmTpReceive_keeps : ∀ {x0 x1 x2 s4}, keepsX s4 (execGcmTpReceive x0 x1 x2 s4) := by
  intro x0 x1 x2 s4
  unfold execGcmTpReceive
  repeat' (first | (with_reducible first | assumption | exact keeps.refl | apply keepsX.next | apply gcmReceive_keeps | apply takeTpRecord_keeps | apply foldl_keeps))

theorem importTa_keeps {s0 : State} : ∀ {x0 s2}, keeps s0 s2 → keeps s0 (importTa x0 s2) := by
  intro x0 s2  h
  unfold importTa
  repeat' (first | (with_reducible first | assumption | apply keeps.ite | apply bump_keeps | apply taHold_keeps))

theorem takeTaRecord_keeps {s0 : State} : ∀ {x0 s2 x2}, keeps s0 s2 → keeps s0 (takeTaRecord x0 s2 x2) := by
  intro x0 s2 x2  h
  unfold takeTaRecord
  repeat' (first | (with_reducible first | assumption | apply keeps.ite | apply bump_keeps | apply importTa_keeps | apply remoteTake_keeps))

theorem execGcmTaReceive_keeps : ∀ {x0 x1 x2 s4}, keepsX s4 (execGcmTaReceive x0 x1 x2 s4) := by
  intro x0 x1 x2 s4
  unfold execGcmTaReceive
  repeat' (first | (with_reducible first | assumption | exact keeps.refl | apply keepsX.next | apply gcmReceive_keeps | apply takeTaRecord_keeps | apply foldl_keeps))

theorem skipCount_keeps {s0 : State} : ∀ {x0 x1 s3}, keeps s0 s3 → keeps s0 (skipCount x0 x1 s3) := by
  intro x0 x1 s3  h
  unfold skipCount
  repeat' (first | (with_reducible first | assumption | apply keeps.ite | apply bump_keeps))

theorem recallStart_keeps {s0 : State} : ∀ {x0 x1 x2 x3 s5}, keeps s0 s5 → keeps s0 (recallStart x0 x1 x2 x3 s5) := by
  intro x0 x1 x2 x3 s5  h
  unfold recallStart
  repeat' (first | (with_reducible first | assumption | apply keeps.ite | apply addBuild_keeps | apply finishRecall_keeps))

theorem askedPut_keeps {s0 : State} : ∀ {x0 x1 s3}, keeps s0 s3 → keeps s0 (askedPut x0 x1 s3) := by
  intro x0 x1 s3  h
  unfold askedPut
  repeat' (with_reducible first | assumption | apply setEvt_keeps)

theorem recallAnswer_keeps {s0 : State} : ∀ {x0 x1 s3}, keeps s0 s3 → keeps s0 (recallAnswer x0 x1 s3) := by
  intro x0 x1 s3  h
  unfold recallAnswer
  repeat' (first | (with_reducible first | assumption | apply recallStart_keeps | apply askedPut_keeps | apply sendReply_keeps | apply skipCount_keeps) | split)

theorem execGcmRecallReceive_keeps : ∀ {x0 x1 x2 s4}, keepsX s4 (execGcmRecallReceive x0 x1 x2 s4) := by
  intro x0 x1 x2 s4
  unfold execGcmRecallReceive
  repeat' (first | (with_reducible first | intro _ | assumption | exact keeps.refl | apply keepsX.next | apply bump_keeps | apply gcmSend_keeps2 | apply recallAnswer_keeps | apply gcmReceive_keeps) | split | dsimp +zetaDelta only)

theorem execGcmReplyReceive_keeps : ∀ {x0 x1 x2 s4}, keepsX s4 (execGcmReplyReceive x0 x1 x2 s4) := by
  intro x0 x1 x2 s4
  unfold execGcmReplyReceive
  repeat' (first | (with_reducible first | intro _ | assumption | exact keeps.refl | apply keepsX.next | apply replyEntry_keeps | apply gcmReceive_keeps) | split | dsimp +zetaDelta only)

theorem takeBeacon_keeps {s0 : State} : ∀ {x0 s2}, keeps s0 s2 → keeps s0 (takeBeacon x0 s2) := by
  intro x0 s2  h
  unfold takeBeacon
  repeat' (first | (with_reducible first | intro _ | assumption | apply keeps.ite | apply setSys_keeps | apply foldl_keeps))

theorem execGcmHelloReceive_keeps : ∀ {x0 x1 x2 s4}, keepsX s4 (execGcmHelloReceive x0 x1 x2 s4) := by
  intro x0 x1 x2 s4
  unfold execGcmHelloReceive
  repeat' (first | (with_reducible first | assumption | exact keeps.refl | apply keepsX.next | apply gcmReceive_keeps | apply takeBeacon_keeps))

theorem execGcmPackTimeout_keeps : ∀ {x0 s2}, keepsX s2 (execGcmPackTimeout x0 s2) := by
  intro x0 s2
  unfold execGcmPackTimeout
  repeat' (first | (with_reducible first | assumption | exact keeps.refl | apply keepsX.next | apply packSend_keeps) | split)

/-! ### StreamCmds -/

theorem applyStreamCfg_keeps {s0 : State} : ∀ {x0 x1 x2 s4}, keeps s0 s4 → keeps s0 (applyStreamCfg x0 x1 x2 s4) := by
  intro x0 x1 x2 s4  h
  unfold applyStreamCfg
  repeat' (first | (with_reducible first | assumption | apply closeBatch_keeps | apply openGap_keeps | apply modStream_keeps) | split | (fail_if_no_progress with_reducible apply keeps.mk))

theorem execStreamCfg_keeps : ∀ {x0 x1 s3}, keepsX s3 (execStreamCfg x0 x1 s3) := by
  intro x0 x1 s3
  unfold execStreamCfg
  repeat' (first | (with_reducible first | intro _ | assumption | exact keeps.refl | apply keepsX.next | apply serve_keeps | apply complete_keeps | apply applyStreamCfg_keeps) | split)

theorem releaseStream_keeps {s0 : State} : ∀ {x0 s2}, keeps s0 s2 → keeps s0 (releaseStream x0 s2) := by
  intro x0 s2  h
  unfold releaseStream
  repeat' (first | (with_reducible first | assumption | apply closeBatch_keeps | apply streamGone_keeps) | split | (fail_if_no_progress with_reducible apply keeps.mk))

theorem execStreamRelease_keeps : ∀ {x0 x1 s3}, keepsX s3 (execStreamRelease x0 x1 s3) := by
  intro x0 x1 s3
  unfold execStreamRelease
  repeat' (first | (with_reducible first | intro _ | assumption | exact keeps.refl | apply keepsX.next | apply serve_keeps | apply complete_keeps | apply disown_keeps | apply releaseStream_keeps) | split)

/-! ### EvtCmds -/

theorem execShedLevelUp_keeps : ∀ {x0 s2}, keepsX s2 (execShedLevelUp x0 s2) := by
  intro x0 s2
  unfold execShedLevelUp
  repeat' (first | (with_reducible first | assumption | exact keeps.refl | apply keepsX.next | apply keeps.ite | apply setHist_keeps))

theorem execShedLevelDown_keeps : ∀ {x0 s2}, keepsX s2 (execShedLevelDown x0 s2) := by
  intro x0 s2
  unfold execShedLevelDown
  repeat' (first | (with_reducible first | assumption | exact keeps.refl | apply keepsX.next | apply keeps.ite | apply setHist_keeps))

theorem execHbmRefresh_keeps : ∀ {x0 x1 x2 s4}, keepsX s4 (execHbmRefresh x0 x1 x2 s4) := by
  intro x0 x1 x2 s4
  unfold execHbmRefresh
  repeat' (first | (with_reducible first | assumption | exact keeps.refl | apply keepsX.next | apply setHist_keeps) | split)

theorem execStreamQuota_keeps : ∀ {x0 s2}, keepsX s2 (execStreamQuota x0 s2) := by
  intro x0 s2
  unfold execStreamQuota
  repeat' (first | (with_reducible first | intro _ | assumption | exact keeps.refl | apply keepsX.next | apply serve_keeps | apply setEvt_keeps | apply releaseBlocks_keeps | apply complete_keeps) | split | dsimp +zetaDelta only)

theorem releaseBy_keeps {s0 : State} : ∀ {x0 x1 s3}, keeps s0 s3 → keeps s0 (releaseBy x0 x1 s3) := by
  intro x0 x1 s3  h
  unfold releaseBy
  repeat' (first | (with_reducible first | assumption | apply bump_keeps | apply setEvt_keeps | apply freeBuf_keeps))

theorem execBufRelease_keeps : ∀ {x0 s2}, keepsX s2 (execBufRelease x0 s2) := by
  intro x0 s2
  unfold execBufRelease
  repeat' (first | (with_reducible first | intro _ | assumption | exact keeps.refl | apply keepsX.next | apply keeps.ite | apply serve_keeps | apply complete_keeps | apply releaseBy_keeps | apply bump_keeps | apply refuseRelease_keeps))

theorem execQuotaSet_keeps : ∀ {x0 s2}, keepsX s2 (execQuotaSet x0 s2) := by
  intro x0 s2
  unfold execQuotaSet
  repeat' (first | (with_reducible first | intro _ | assumption | exact keeps.refl | apply keepsX.next | apply serve_keeps | apply complete_keeps | apply setEvt_keeps))

theorem profileSet_keeps {s0 : State} : ∀ {x0 x1 s3}, keeps s0 s3 → keeps s0 (profileSet x0 x1 s3) := by
  intro x0 x1 s3  h
  unfold profileSet
  repeat' (first | (with_reducible first | assumption | apply setEvt_keeps))

theorem execEvtRoute_keeps : ∀ {x0 x1 s3}, keepsX s3 (execEvtRoute x0 x1 s3) := by
  intro x0 x1 s3
  unfold execEvtRoute
  repeat' (first | (with_reducible first | intro _ | assumption | exact keeps.refl | apply keepsX.next | apply serve_keeps | apply complete_keeps | apply profileSet_keeps) | split)

theorem execProfileRelease_keeps : ∀ {x0 x1 s3}, keepsX s3 (execProfileRelease x0 x1 s3) := by
  intro x0 x1 s3
  unfold execProfileRelease
  repeat' (first | (with_reducible first | intro _ | assumption | exact keeps.refl | apply keepsX.next | apply serve_keeps | apply complete_keeps | apply disown_keeps | apply profileSet_keeps) | split)

theorem taTaken_keeps {s0 : State} : ∀ {x0 x1 s3}, keeps s0 s3 → keeps s0 (taTaken x0 x1 s3) := by
  intro x0 x1 s3  h
  unfold taTaken
  repeat' (first | (with_reducible first | assumption | apply setTrig_keeps))

theorem buildFor_keeps {s0 : State} : ∀ {x0 s2}, keeps s0 s2 → keeps s0 (buildFor x0 s2) := by
  intro x0 s2  h
  unfold buildFor
  repeat' (first | (with_reducible first | assumption | apply keeps.ite | apply bump_keeps | apply addBuild_keeps))

theorem execEvbTaTake_keeps : ∀ {x0 s2}, keepsX s2 (execEvbTaTake x0 s2) := by
  intro x0 s2
  unfold execEvbTaTake
  repeat' (first | (with_reducible first | assumption | exact keeps.refl | apply keepsX.next | apply bump_keeps | apply buildFor_keeps | apply setBuild_keeps | apply taTaken_keeps) | split | dsimp +zetaDelta only)

theorem execEventBuildStart_keeps : ∀ {x0 x1 s3}, keepsX s3 (execEventBuildStart x0 x1 s3) := by
  intro x0 x1 s3
  unfold execEventBuildStart
  repeat' (first | (with_reducible first | assumption | exact keeps.refl | apply keepsX.next | apply sizePart_keeps) | split)

theorem execBuildWaitTimeout_keeps : ∀ {x0 x1 s3}, keepsX s3 (execBuildWaitTimeout x0 x1 s3) := by
  intro x0 x1 s3
  unfold execBuildWaitTimeout
  repeat' (first | (with_reducible first | assumption | exact keeps.refl | apply keepsX.next | apply sizePart_keeps) | split)

theorem execSizesComplete_keeps : ∀ {x0 x1 s3}, keepsX s3 (execSizesComplete x0 x1 s3) := by
  intro x0 x1 s3
  unfold execSizesComplete
  repeat' (first | (with_reducible first | assumption | exact keeps.refl | apply keepsX.next | apply route__keeps | apply setBuild_keeps | apply placeHost_keeps) | split)

theorem execEvbRegionDone_keeps : ∀ {x0 x1 s3}, keepsX s3 (execEvbRegionDone x0 x1 s3) := by
  intro x0 x1 s3
  unfold execEvbRegionDone
  repeat' (first | (with_reducible first | assumption | exact keeps.refl | apply keepsX.next | refine optAll.getD (regionDone_keepsO ?_) ?_) | split)

theorem execRecordDelivery_keeps : ∀ {x0 s2}, keepsX s2 (execRecordDelivery x0 s2) := by
  intro x0 s2
  unfold execRecordDelivery
  repeat' (first | (with_reducible first | assumption | exact keeps.refl | apply keepsX.next | refine optAll.getD (deliverRecord_keepsO ?_) ?_) | split)

theorem execRecordHoldTimeout_keeps : ∀ {x0 s2}, keepsX s2 (execRecordHoldTimeout x0 s2) := by
  intro x0 s2
  unfold execRecordHoldTimeout
  repeat' (first | (with_reducible first | assumption | exact keeps.refl | apply keepsX.next | apply applyPolicy_keeps) | split)

theorem execAttachHoldExpire_keeps : ∀ {x0 s2}, keepsX s2 (execAttachHoldExpire x0 s2) := by
  intro x0 s2
  unfold execAttachHoldExpire
  repeat' (first | (with_reducible first | intro _ | assumption | exact keeps.refl | apply keepsX.next | apply freeBuf_keeps | apply setEvt_keeps | apply foldl_keeps))

theorem execRecallLocal_keeps : ∀ {x0 s2}, keepsX s2 (execRecallLocal x0 s2) := by
  intro x0 s2
  unfold execRecallLocal
  repeat' (first | (with_reducible first | intro _ | assumption | exact keeps.refl | apply keepsX.next | apply serve_keeps | apply recallStart_keeps | apply skipCount_keeps) | split)

theorem recallOut_keeps {s0 : State} : ∀ {x0 x1 x2 s4}, keeps s0 s4 → keeps s0 (recallOut x0 x1 x2 s4) := by
  intro x0 x1 x2 s4  h
  unfold recallOut
  repeat' (first | (with_reducible first | assumption | apply gcmSend_keeps2 | apply complete_keeps | apply setEvt_keeps | apply bump_keeps | apply replyEntry_keeps | apply recallStart_keeps | apply askedPut_keeps | apply skipCount_keeps) | split | dsimp +zetaDelta only)

theorem execRecallDevice_keeps : ∀ {x0 s2}, keepsX s2 (execRecallDevice x0 s2) := by
  intro x0 s2
  unfold execRecallDevice
  repeat' (first | (with_reducible first | intro _ | assumption | exact keeps.refl | apply keepsX.next | apply serve_keeps | apply recallOut_keeps) | split)

theorem execRecallAll_keeps : ∀ {x0 s2}, keepsX s2 (execRecallAll x0 s2) := by
  intro x0 s2
  unfold execRecallAll
  repeat' (first | (with_reducible first | intro _ | assumption | exact keeps.refl | apply keepsX.next | apply serve_keeps | apply recallOut_keeps) | split)

/-! ### ResetOps -/

theorem rewaitBuilds_keeps {s0 : State} : ∀ {x0 x1 s3}, keeps s0 s3 → keeps s0 (rewaitBuilds x0 x1 s3) := by
  intro x0 x1 s3  h
  unfold rewaitBuilds
  repeat' (first | (with_reducible first | intro _ | assumption | apply keeps.ite | apply holdRecord_keeps | apply setBuild_keeps | apply foldl_keeps))

theorem releaseDelivered_keeps {s0 : State} : ∀ {x0 s2}, keeps s0 s2 → keeps s0 (releaseDelivered x0 s2) := by
  intro x0 s2  h
  unfold releaseDelivered
  repeat' (first | (with_reducible first | intro _ | assumption | apply freeBuf_keeps | apply setEvt_keeps | apply foldl_keeps))

theorem fencesForget_keeps {s0 : State} : ∀ {x0 s2}, keeps s0 s2 → keeps s0 (fencesForget x0 s2) := by
  intro x0 s2  h
  unfold fencesForget
  repeat' (first | (with_reducible first | assumption | apply fences_keeps | apply setJrnl_keeps))

theorem fnReset_keeps {s0 : State} : ∀ {x0 s2}, keeps s0 s2 → keeps s0 (fnReset x0 s2) := by
  intro x0 s2  h
  unfold fnReset
  repeat' (first | (with_reducible first | assumption | apply setFn_keeps | apply keepRegs_keeps | apply fencesForget_keeps | apply rewaitBuilds_keeps | apply releaseDelivered_keeps))

theorem flrReset_keeps {s0 : State} : ∀ {x0 s2}, keeps s0 s2 → keeps s0 (flrReset x0 s2) := by
  intro x0 s2  h
  unfold flrReset
  repeat' (first | (with_reducible first | intro _ | assumption | apply keeps.ite | apply fnReset_keeps | apply foldl_keeps))

theorem hostReset_keeps {s0 : State} : ∀ {s1}, keeps s0 s1 → keeps s0 (hostReset s1) := by
  intro s1  h
  unfold hostReset
  repeat' (first | (with_reducible first | intro _ | assumption | apply keeps.ite | apply fnReset_keeps | apply keepRegs_keeps | apply attnRaise_keeps | apply foldl_keeps) | (fail_if_no_progress with_reducible apply keeps.mk))

theorem quadCastles_keeps {s0 : State} : ∀ {x0 s2}, keeps s0 s2 → keeps s0 (quadCastles x0 s2) := by
  intro x0 s2  h
  unfold quadCastles
  repeat' (first | (with_reducible first | intro _ | assumption | apply keeps.ite | apply abandonCastle_keeps | apply foldl_keeps))

theorem dropAsked_keeps {s0 : State} : ∀ {s1}, keeps s0 s1 → keeps s0 (dropAsked s1) := by
  intro s1  h
  unfold dropAsked
  repeat' (first | (with_reducible first | intro _ | assumption | apply delBuild_keeps | apply freeStaged_keeps | apply setEvt_keeps | apply foldl_keeps) | split)

theorem quadReset_keeps {s0 : State} : ∀ {x0 s2}, keeps s0 s2 → keeps s0 (quadReset x0 s2) := by
  intro x0 s2  h
  unfold quadReset
  repeat' (first | (with_reducible first | intro _ | assumption | apply quadCastles_keeps | apply clearSlots_keeps | apply setPtp_keeps | apply portOff_keeps | apply releaseDelivered_keeps | apply resetBuilds_keeps | apply dropAsked_keeps | apply keepRegs_keeps | apply foldl_keeps) | (fail_if_no_progress with_reducible apply keeps.mk))

theorem engReset_keeps {s0 : State} : ∀ {x0 s2}, keeps s0 s2 → keeps s0 (engReset x0 s2) := by
  intro x0 s2  h
  unfold engReset
  repeat' (first | (with_reducible first | assumption | apply putCastle_keeps | apply engWipe_keeps | apply abandonCastle_keeps) | split)

theorem flashCut_keeps {s0 : State} : ∀ {x0 s2}, keeps s0 s2 → keeps s0 (flashCut x0 s2) := by
  intro x0 s2  h
  unfold flashCut
  repeat' (first | (with_reducible first | assumption | apply flScramble_keeps | apply flErase_keeps | apply flProgram_keeps) | split)

theorem scratch_keeps {s0 x y : State} (h : keeps s0 x) (hp : y.pending = x.pending) (ht : y.ticks = x.ticks) (hf : y.freeIdx = x.freeIdx)
    (ho : y.out = x.out) (c : Bool) (p : Nat → Bool) (hr : y.regs = if c then [] else mfilter p x.regs) (hc : y.cnts = if c then [] else mfilter p x.cnts) :
    keeps s0 y := by
  obtain ⟨a1, a2, a3, a4, a5, a6⟩ := h
  refine ⟨hp.trans a1, ht.trans a2, hf ▸ a3, ho ▸ a4, fun hw => ?_, fun hw => ?_⟩
  · cases c
    · have k := (filter_keeps (keeps.refl (s := x)) p).2.2.2.2.1 (a5 hw)
      simpa [regsWf, hr] using k
    · simp [regsWf, hr]
      decide
  · cases c
    · have k := (filter_keeps (keeps.refl (s := x)) p).2.2.2.2.2 (a6 hw)
      simpa [cntsWf, hc] using k
    · simp [cntsWf, hc]
      decide
theorem deviceReset_keeps {s0 : State} : ∀ {x0 s2}, keeps s0 s2 → keeps s0 (deviceReset x0 s2) := by
  intro x0 s2 h
  unfold deviceReset
  extract_lets lines b flash fns s1 kept t2
  have k1 : keeps s0 s1 := scratch_keeps h rfl rfl rfl rfl x0 l1Keeps rfl rfl
  have k2 : keeps s0 t2 := by dsimp only [t2]; exact keeps.mk k1
  clear_value s1 t2
  split
  · exact k1
  · exact foldl_keeps (fun _ _ h => l1Update_keeps h) _ k2

theorem rstReset_keeps {s0 : State} : ∀ {x0 x1 s3}, (cntsWf s0 = true → x1 < 2 ^ 64) → keeps s0 s3 → keeps s0 (rstReset x0 x1 s3) := by
  intro x0 x1 s3 hx h
  unfold rstReset
  dsimp only
  split
  · exact keeps.mk h
  · exact keeps.mk (putCnt_keeps h hx)

theorem rstClear_keeps {s0 : State} : ∀ {x0 x1 x2 s4}, keeps s0 s4 → keeps s0 (rstClear x0 x1 x2 s4) := by
  intro x0 x1 x2 s4  h
  unfold rstClear
  repeat' (first | (with_reducible first | assumption | refine rstReset_keeps (cnt_keeps (by assumption)) ?_ | apply deviceReset_keeps | apply flashCut_keeps | apply hostReset_keeps | apply flrReset_keeps | apply quadReset_keeps | apply engReset_keeps) | split)

theorem markCause_keeps {s0 : State} : ∀ {x0 s2}, keeps s0 s2 → keeps s0 (markCause x0 s2) := by
  intro x0 s2  h
  unfold markCause
  repeat' (first | (with_reducible first | assumption | apply setRst_keeps))

theorem assertReset_keeps {s0 : State} : ∀ {x0 x1 s3}, keeps s0 s3 → keeps s0 (assertReset x0 x1 s3) := by
  intro x0 x1 s3  h
  unfold assertReset
  repeat' (first | (with_reducible first | assumption | apply keeps.ite | apply rstClear_keeps | apply setRst_keeps))

theorem runRequest_keeps {s0 : State} : ∀ {x0 s2}, keeps s0 s2 → keeps s0 (runRequest x0 s2) := by
  intro x0 s2  h
  unfold runRequest
  repeat' (first | (with_reducible first | assumption | apply assertReset_keeps | apply bump_keeps | apply setRst_keeps) | split)

theorem resetRequest_keeps {s0 : State} : ∀ {x0 s2}, keeps s0 s2 → keeps s0 (resetRequest x0 s2) := by
  intro x0 s2  h
  unfold resetRequest
  repeat' (first | (with_reducible first | assumption | apply runRequest_keeps | apply markCause_keeps))

theorem endHold_keeps {s0 : State} : ∀ {s1}, keeps s0 s1 → keeps s0 (endHold s1) := by
  intro s1  h
  unfold endHold
  repeat' (first | (with_reducible first | assumption | apply setRst_keeps) | split)

theorem senseFuses_keeps {s0 : State} : ∀ {s1}, keeps s0 s1 → keeps s0 (senseFuses s1) := by
  intro s1  h
  unfold senseFuses
  repeat' (first | (with_reducible first | intro _ | assumption | apply setReg_keeps | apply foldl_keeps) | split)

theorem fillWindow_keeps {s0 : State} : ∀ {x0 s2}, keeps s0 s2 → keeps s0 (fillWindow x0 s2) := by
  intro x0 s2  h
  unfold fillWindow
  repeat' (first | (with_reducible first | assumption | apply setFld_keeps | apply setReg_keeps) | split)

theorem startImage_keeps {s0 : State} : ∀ {x0 x1 s3}, keeps s0 s3 → keeps s0 (startImage x0 x1 s3) := by
  intro x0 x1 s3  h
  unfold startImage
  repeat' (first | (with_reducible first | assumption | apply keeps.ite | apply setReg_keeps | apply setRst_keeps) | (fail_if_no_progress with_reducible apply keeps.mk))

theorem bootRom_keeps {s0 : State} : ∀ {x0 s2}, keeps s0 s2 → keeps s0 (bootRom x0 s2) := by
  intro x0 s2  h
  unfold bootRom
  repeat' (first | (with_reducible first | assumption | apply keeps.ite | apply fillWindow_keeps | apply emit_keeps | apply setFlash_keeps | apply startImage_keeps | apply setRst_keeps))

theorem readRecords_keeps {s0 : State} : ∀ {x0 s2}, keeps s0 s2 → keeps s0 (readRecords x0 s2) := by
  intro x0 s2  h
  unfold readRecords
  repeat' (first | (with_reducible first | intro _ | assumption | apply setFlash_keeps | apply setRepair_keeps | apply bumpN_keeps | apply setFld_keeps | apply setReg_keeps | apply showMap_keeps | apply foldl_keeps) | split)

theorem restoreRegs_keeps {s0 : State} : ∀ {x0 x1 x2 s4}, keeps s0 s4 → keeps s0 (restoreRegs x0 x1 x2 s4) := by
  intro x0 x1 x2 s4  h
  unfold restoreRegs
  repeat' (first | (with_reducible first | intro _ | assumption | apply setReg_keeps | apply foldl_keeps) | split)

theorem release_keeps {s0 : State} : ∀ {x0 x1 x2 s4}, keeps s0 s4 → keeps s0 (release x0 x1 x2 s4) := by
  intro x0 x1 x2 s4  h
  unfold release
  repeat' (first | (with_reducible first | assumption | apply senseFuses_keeps | apply bootRom_keeps | apply restoreRegs_keeps | apply readRecords_keeps | apply setTime_keeps | apply mapEngines_keeps) | split)

theorem bootEnd_keeps {s0 : State} : ∀ {x0 s2}, keeps s0 s2 → keeps s0 (bootEnd x0 s2) := by
  intro x0 s2  h
  unfold bootEnd
  repeat' (first | (with_reducible first | assumption | apply keeps.ite | apply setFlash_keeps | apply setJrnl_keeps | apply paceStart_keeps | apply setFld_keeps | apply modeEnd_keeps | apply emit_keeps | apply setTw_keeps))

theorem bringupEnd_keeps {s0 : State} : ∀ {x0 x1 s3}, keeps s0 s3 → keeps s0 (bringupEnd x0 x1 s3) := by
  intro x0 x1 s3  h
  unfold bringupEnd
  repeat' (first | (with_reducible first | assumption | apply keeps.ite | apply setRst_keeps | apply bump_keeps | apply bootEnd_keeps | apply attnRaise_keeps | apply errVec_keeps))

theorem serveHeld_keeps {s0 : State} : ∀ {x0 s2}, keeps s0 s2 → keeps s0 (serveHeld x0 s2) := by
  intro x0 s2  h
  unfold serveHeld
  repeat' (first | (with_reducible first | intro _ | assumption | apply keeps.ite | apply bump_keeps | apply runRequest_keeps | apply setRst_keeps | apply foldl_keeps))

theorem releaseStep_keeps {s0 : State} : ∀ {x0 x1 s3}, keeps s0 s3 → keeps s0 (releaseStep x0 x1 s3) := by
  intro x0 x1 s3  h
  unfold releaseStep
  repeat' (first | (fail_if_no_progress extract_lets +onlyGivenNames y) | (with_reducible first | assumption | apply endHold_keeps | apply serveHeld_keeps | apply bringupEnd_keeps | apply release_keeps | apply setRst_keeps) | split)

end Sys2Proof.Machine
end

