-- ==== Sys2Proof/Laws/Keeps4.lean ====
section
/-! SUPPORT. What every operation keeps (part 4 of 7): the engine strings, micro steps and chords. -/

namespace Sys2Proof.Machine

set_option Elab.async false
set_option linter.all false

/-! ### SString -/

theorem sMem_keeps : ∀ {x0 x1 x2}, okAll fxK (sMem x0 x1 x2) := by
  intro x0 x1 x2
  unfold sMem
  repeat' (first | (with_reducible first | apply okAll.ok | apply okAll.pure | apply okAll.bind | apply okAll.wantTag | apply okAll.wantAddr | apply okAll.trapUnder | apply okAll.trapMix | apply dataWr_keeps) | split | (with_reducible refine fxK.of ?_; intro s0 s h; try dsimp +zetaDelta only [id]; repeat' (first | (with_reducible exact h) | with_reducible apply dataWr_keeps)) | with_reducible intro _)

theorem sEval_keeps : ∀ {x0 x1 x2}, okAll fxK (sEval x0 x1 x2) := by
  intro x0 x1 x2
  unfold sEval
  repeat' (first | (with_reducible first | apply okAll.ok | apply okAll.pure | apply okAll.bind | apply okAll.wantTag | apply okAll.trapUnder | apply okAll.trapMix | apply sMem_keeps) | split | (with_reducible refine fxK.of ?_; intro s0 s h; try dsimp +zetaDelta only [id]; repeat' ((with_reducible exact h))) | with_reducible intro _)

/-! ### VString -/

theorem vUn_keeps : ∀ {x0 x1}, okAll fxK (vUn x0 x1) := by
  intro x0 x1
  unfold vUn
  repeat' (first | (with_reducible first | apply okAll.pure | apply okAll.bind | apply okAll.trapUnder | apply okAll.trapMix) | split | (with_reducible refine fxK.of ?_; intro s0 s h; try dsimp +zetaDelta only [id]; repeat' ((with_reducible exact h))) | with_reducible intro _)

theorem vBin_keeps : ∀ {x0 x1}, okAll fxK (vBin x0 x1) := by
  intro x0 x1
  unfold vBin
  repeat' (first | (with_reducible first | apply okAll.pure | apply okAll.bind | apply okAll.trapUnder | apply okAll.trapMix) | split | (with_reducible refine fxK.of ?_; intro s0 s h; try dsimp +zetaDelta only [id]; repeat' ((with_reducible exact h))) | with_reducible intro _)

theorem vMove_keeps : ∀ {x0 x1}, okAll fxK (vMove x0 x1) := by
  intro x0 x1
  unfold vMove
  repeat' (first | (with_reducible first | apply okAll.pure | apply okAll.bind | apply okAll.trapUnder | apply okAll.trapMix) | split | (with_reducible refine fxK.of ?_; intro s0 s h; try dsimp +zetaDelta only [id]; repeat' ((with_reducible exact h))) | with_reducible intro _)

theorem vArith_keeps : ∀ {x0 x1}, okAll fxK (vArith x0 x1) := by
  intro x0 x1
  unfold vArith
  repeat' (with_reducible first | apply okAll.ite | apply okAll.trapMix | apply vBin_keeps | apply vUn_keeps)

theorem vEval_keeps : ∀ {x0 x1}, okAll fxK (vEval x0 x1) := by
  intro x0 x1
  unfold vEval
  repeat' (first | (with_reducible first | apply okAll.ite | apply okAll.ok | apply okAll.pure | apply okAll.bind | apply okAll.wantAddr | apply okAll.recOff | apply okAll.trapUnder | apply okAll.trapMix | apply vMove_keeps | apply vecWr_keeps | apply bufWr_keeps | apply vUn_keeps | apply vBin_keeps | apply vArith_keeps) | split | (with_reducible refine fxK.of ?_; intro s0 s h; try dsimp +zetaDelta only [id]; repeat' (first | (with_reducible exact h) | (with_reducible first | apply vMove_keeps | apply vecWr_keeps | apply bufWr_keeps | apply vUn_keeps | apply vBin_keeps | apply vArith_keeps))) | with_reducible intro _)

/-! ### MString -/

theorem statusWr_keeps {s0 : State} : ∀ {x0 x1 x2 s4}, keeps s0 s4 → keeps s0 (statusWr x0 x1 x2 s4) := by
  intro x0 x1 x2 s4  h
  unfold statusWr
  repeat' (first | (with_reducible first | assumption | apply dataWr_keeps))

theorem mMove_keeps : ∀ {x0 x1 x2}, okAll fxK (mMove x0 x1 x2) := by
  intro x0 x1 x2
  unfold mMove
  repeat' (first | (with_reducible first | apply okAll.pure | apply okAll.bind | apply okAll.wantTag | apply okAll.opnds | apply okAll.trapUnder | apply okAll.trapMix) | split | (with_reducible refine fxK.of ?_; intro s0 s h; try dsimp +zetaDelta only [id]; repeat' ((with_reducible exact h))) | with_reducible intro _)

theorem mTake_keeps : ∀ {x0 x1 x2}, fxK (mTake x0 x1 x2) := by
  intro x0 x1 x2
  unfold mTake
  repeat' (first | (with_reducible first | apply okAll.trapMix | apply statusWr_keeps | apply setTask_keeps) | split | (with_reducible refine fxK.of ?_; intro s0 s h; try dsimp +zetaDelta only [id]; repeat' (first | (with_reducible exact h) | (with_reducible first | apply statusWr_keeps | apply setTask_keeps))))

theorem mDone_keeps : ∀ {x0 x1 x2}, okAll fxK (mDone x0 x1 x2) := by
  intro x0 x1 x2
  unfold mDone
  repeat' (first | (with_reducible first | apply okAll.ok | apply okAll.wantTag | apply okAll.trapHandle | apply okAll.trapMix | apply endLoan_keeps | apply setTask_keeps) | extract_lets | split | (with_reducible refine fxK.of ?_; intro s0 s h; try dsimp +zetaDelta only [id]; repeat' (first | (with_reducible exact h) | (with_reducible first | apply endLoan_keeps | apply setTask_keeps))))

theorem dataWrs_keeps {s0 : State} : ∀ {x0 x1 x2 s4}, keeps s0 s4 → keeps s0 (dataWrs x0 x1 x2 s4) := by
  intro x0 x1 x2 s4  h
  unfold dataWrs
  repeat' (first | (with_reducible first | intro _ | assumption | apply dataWr_keeps | apply foldl_keeps))

theorem mHdr_keeps : ∀ {x0 x1 x2}, okAll fxK (mHdr x0 x1 x2) := by
  intro x0 x1 x2
  unfold mHdr
  repeat' (first | (with_reducible first | apply okAll.ok | apply okAll.bind | apply okAll.batchUse | apply okAll.opnds | apply okAll.trapMix | apply dataWrs_keeps) | (with_reducible refine fxK.of ?_; intro s0 s h; try dsimp +zetaDelta only [id]; repeat' (first | (with_reducible exact h) | with_reducible apply dataWrs_keeps)) | with_reducible intro _)

theorem mAlloc_keeps : ∀ {x0 x1}, okAll fxK (mAlloc x0 x1) := by
  intro x0 x1
  unfold mAlloc
  repeat' (first | (with_reducible first | apply okAll.ok | apply okAll.bind | apply okAll.wantTag | apply okAll.trapMix | apply statusWr_keeps | apply setBuf_keeps) | split | (with_reducible refine fxK.of ?_; intro s0 s h; try dsimp +zetaDelta only [id]; repeat' (first | (with_reducible exact h) | (with_reducible first | apply statusWr_keeps | apply allocBuf_keepsO | refine optAll.bind (allocBuf_keepsO ?_) ?_ | refine optAll.map (allocBuf_keepsO ?_) ?_ | apply setBuf_keeps))) | with_reducible intro _)

theorem mFree_keeps : ∀ {x0 x1 x2}, okAll fxK (mFree x0 x1 x2) := by
  intro x0 x1 x2
  unfold mFree
  repeat' (first | (with_reducible first | apply okAll.ok | apply okAll.handleUse | apply okAll.trapMix | apply freeBuf_keeps) | (with_reducible refine fxK.of ?_; intro s0 s h; try dsimp +zetaDelta only [id]; repeat' (first | (with_reducible exact h) | with_reducible apply freeBuf_keeps)) | with_reducible intro _)

theorem mGive_keeps : ∀ {x0 x1 x2}, okAll fxK (mGive x0 x1 x2) := by
  intro x0 x1 x2
  unfold mGive
  repeat' (first | (with_reducible first | apply okAll.ok | apply okAll.bind | apply okAll.handleUse | apply okAll.opnds | apply okAll.trapMix | apply statusWr_keeps | apply setBuf_keeps) | (with_reducible refine fxK.of ?_; intro s0 s h; try dsimp +zetaDelta only [id]; repeat' (first | (with_reducible exact h) | (with_reducible first | apply statusWr_keeps | apply setBuf_keeps) | split)) | with_reducible intro _)

theorem mSend_keeps : ∀ {x0 x1 x2}, okAll fxK (mSend x0 x1 x2) := by
  intro x0 x1 x2
  unfold mSend
  repeat' (first | (with_reducible first | apply okAll.ok | apply okAll.bind | apply okAll.opnds | apply okAll.trapMix | apply statusWr_keeps | apply bump_keeps) | (with_reducible refine fxK.of ?_; intro s0 s h; try dsimp +zetaDelta only [id]; repeat' (first | (with_reducible exact h) | (with_reducible first | apply statusWr_keeps | apply bump_keeps) | split | (fail_if_no_progress with_reducible apply keeps.mk))) | with_reducible intro _)

theorem mRecv_keeps : ∀ {x0 x1 x2}, okAll fxK (mRecv x0 x1 x2) := by
  intro x0 x1 x2
  unfold mRecv
  repeat' (first | (with_reducible first | apply okAll.ok | apply okAll.wantTag | apply okAll.opnds | apply okAll.trapMix | apply statusWr_keeps | apply setTask_keeps | apply dataWrs_keeps) | split | (with_reducible refine fxK.of ?_; intro s0 s h; try dsimp +zetaDelta only [id]; repeat' (first | (with_reducible exact h) | (with_reducible first | apply statusWr_keeps | apply setTask_keeps | apply dataWrs_keeps))) | with_reducible intro _)

theorem handOff_keeps {s0 : State} : ∀ {x0 x1 s3}, keeps s0 s3 → keeps s0 (handOff x0 x1 s3) := by
  intro x0 x1 s3  h
  unfold handOff
  repeat' (first | (with_reducible first | assumption | apply setBuf_keeps | apply bump_keeps | apply freeBuf_keeps | apply setEvt_keeps) | split | dsimp +zetaDelta only)

theorem emitTp_keeps {s0 : State} : ∀ {x0 x1 x2 x3 x4 x5 s7}, keeps s0 s7 → keeps s0 (emitTp x0 x1 x2 x3 x4 x5 s7) := by
  intro x0 x1 x2 x3 x4 x5 s7  h
  unfold emitTp
  repeat' (first | (with_reducible first | assumption | apply setEng_keeps | apply handOff_keeps) | split)

theorem mTp_keeps : ∀ {x0 x1 x2}, okAll fxK (mTp x0 x1 x2) := by
  intro x0 x1 x2
  unfold mTp
  repeat' (first | (with_reducible first | apply okAll.ok | apply okAll.opnds | apply okAll.attachOf | apply okAll.trapMix | apply emitTp_keeps | apply statusWr_keeps | apply dataWr_keeps) | (with_reducible refine fxK.of ?_; intro s0 s h; try dsimp +zetaDelta only [id]; repeat' (first | (with_reducible exact h) | (with_reducible first | apply emitTp_keeps | apply statusWr_keeps | apply dataWr_keeps) | split)) | with_reducible intro _)

theorem mStack_keeps : ∀ {x0 x1}, okAll fxK (mStack x0 x1) := by
  intro x0 x1
  unfold mStack
  repeat' (first | (with_reducible first | apply okAll.pure | apply okAll.bind | apply okAll.trapUnder | apply okAll.trapMix) | split | (with_reducible refine fxK.of ?_; intro s0 s h; try dsimp +zetaDelta only [id]; repeat' ((with_reducible exact h))) | with_reducible intro _)

theorem mEval_keeps : ∀ {x0 x1}, okAll fxK (mEval x0 x1) := by
  intro x0 x1
  unfold mEval
  repeat' (first | (with_reducible first | apply okAll.ite | apply okAll.ok | apply okAll.pure | apply okAll.bind | apply okAll.wantTag | apply okAll.batchUse | apply okAll.trapUnder | apply okAll.trapMix | apply mStack_keeps | apply mMove_keeps | apply mTake_keeps | apply mAlloc_keeps | apply mDone_keeps | apply mHdr_keeps | apply mFree_keeps | apply mGive_keeps | apply mSend_keeps | apply mRecv_keeps | apply mTp_keeps) | split | (with_reducible refine fxK.of ?_; intro s0 s h; try dsimp +zetaDelta only [id]; repeat' ((with_reducible exact h))) | with_reducible intro _)

/-! ### Micro -/

theorem sortStep_keeps : ∀ {x0 x1 x2}, okAll mrK (sortStep x0 x1 x2) := by
  intro x0 x1 x2
  unfold sortStep
  repeat' (first | (with_reducible first | apply okAll.pure | apply okAll.bind | apply okAll.trapMix | apply vecWr_keeps) | (with_reducible refine mrK.of ?_; intro s0 s h; try dsimp +zetaDelta only [id]; repeat' (first | (with_reducible exact h) | with_reducible apply vecWr_keeps)) | with_reducible intro _)

theorem emitStep_keeps : ∀ {x0 x1 x2}, okAll mrK (emitStep x0 x1 x2) := by
  intro x0 x1 x2
  unfold emitStep
  repeat' (first | (with_reducible first | apply okAll.ok | apply okAll.opnds | apply okAll.attachOf | apply okAll.trapMix | apply emitTp_keeps | apply dataWr_keeps | apply statusWr_keeps) | (with_reducible refine mrK.of ?_; intro s0 s h; try dsimp +zetaDelta only [id]; repeat' (first | (with_reducible exact h) | (with_reducible first | apply emitTp_keeps | apply dataWr_keeps | apply statusWr_keeps | apply foldl_keeps) | split)) | with_reducible intro _)

theorem moveStep_keeps : ∀ {x0 x1 x2 x3}, okAll mrK (moveStep x0 x1 x2 x3) := by
  intro x0 x1 x2 x3
  unfold moveStep
  repeat' (first | (with_reducible first | apply okAll.ok | apply okAll.handleUse | apply okAll.opnds | apply okAll.trapRange | apply okAll.trapMix | apply bufWr_keeps | apply dataWr_keeps) | extract_lets | split | (with_reducible refine mrK.of ?_; intro s0 s h; try dsimp +zetaDelta only [id]; repeat' (first | (with_reducible exact h) | with_reducible apply foldl_keeps)) | with_reducible intro _)

theorem hcopyStep_keeps : ∀ {x0 x1 x2}, okAll mrK (hcopyStep x0 x1 x2) := by
  intro x0 x1 x2
  unfold hcopyStep
  repeat' (first | (with_reducible first | apply okAll.ok | apply okAll.handleUse | apply okAll.trapMix | apply statusWr_keeps | apply bufWr_keeps) | split | (with_reducible refine mrK.of ?_; intro s0 s h; try dsimp +zetaDelta only [id]; repeat' (first | (with_reducible exact h) | (with_reducible first | apply statusWr_keeps | apply bufWr_keeps))) | with_reducible intro _)

theorem mrStep_keeps : ∀ {x0 x1 x2 x3}, okAll mrK (mrStep x0 x1 x2 x3) := by
  intro x0 x1 x2 x3
  unfold mrStep
  repeat' (first | (with_reducible first | apply okAll.trapMix | apply sortStep_keeps | apply emitStep_keeps | apply moveStep_keeps | apply hcopyStep_keeps) | split)

/-! ### Chord -/

theorem reportTrap_keeps {s0 : State} : ∀ {x0 x1 s3}, keeps s0 s3 → keeps s0 (reportTrap x0 x1 s3) := by
  intro x0 x1 s3  h
  unfold reportTrap
  repeat' (first | (fail_if_no_progress extract_lets +onlyGivenNames y) | (with_reducible first | assumption | apply complEntry_keeps) | split)

theorem enterTrapped_keeps {s0 : State} : ∀ {x0 x1 s3}, keeps s0 s3 → keeps s0 (enterTrapped x0 x1 s3) := by
  intro x0 x1 s3  h
  unfold enterTrapped
  repeat' (first | (with_reducible first | assumption | apply reportTrap_keeps | apply setEng_keeps | apply saveV_keeps))

theorem trapAction_keeps {s0 : State} : ∀ {x0 x1 x2 s4}, keeps s0 s4 → keeps s0 (trapAction x0 x1 x2 s4) := by
  intro x0 x1 x2 s4  h
  unfold trapAction
  repeat' (first | (with_reducible first | assumption | apply keeps.ite | apply enterTrapped_keeps | apply setTask_keeps | apply setEng_keeps))

theorem haltHere_keeps {s0 : State} : ∀ {x0 x1 s3}, keeps s0 s3 → keeps s0 (haltHere x0 x1 s3) := by
  intro x0 x1 s3  h
  unfold haltHere
  repeat' (first | (with_reducible first | assumption | apply setEng_keeps | apply setFld_keeps | apply markBack_keeps))

theorem raiseTrap_keeps {s0 : State} : ∀ {x0 x1 x2 x3 x4 x5 x6 s8}, keeps s0 s8 → keeps s0 (raiseTrap x0 x1 x2 x3 x4 x5 x6 s8) := by
  intro x0 x1 x2 x3 x4 x5 x6 s8  h
  unfold raiseTrap
  repeat' (first | (with_reducible first | assumption | apply bump_keeps | apply setEng_keeps | apply setTask_keeps | apply haltHere_keeps | apply trapAction_keeps) | split)

theorem raise_keeps {s0 : State} : ∀ {x0 x1 x2 x3 x4 s6}, keeps s0 s6 → keeps s0 (raise x0 x1 x2 x3 x4 s6) := by
  intro x0 x1 x2 x3 x4 s6  h
  unfold raise
  repeat' (first | (with_reducible first | assumption | apply raiseTrap_keeps | apply takeFree_keeps2) | split)

theorem rthnNested_keeps {s0 : State} : ∀ {x0 x1 s3}, keeps s0 s3 → keeps s0 (rthnNested x0 x1 s3) := by
  intro x0 x1 s3  h
  unfold rthnNested
  repeat' (with_reducible first | assumption | apply keeps.ite | apply setTask_keeps | apply haltHere_keeps | apply enterTrapped_keeps)

theorem clearHalt_keeps {s0 : State} : ∀ {x0 s2}, keeps s0 s2 → keeps s0 (clearHalt x0 s2) := by
  intro x0 s2  h
  unfold clearHalt
  repeat' (first | (with_reducible first | assumption | apply keeps.ite | apply setEng_keeps))

theorem finishChord_keeps {s0 : State} : ∀ {x0 x1 x2 s4}, keeps s0 s4 → keeps s0 (finishChord x0 x1 x2 s4) := by
  intro x0 x1 x2 s4  h
  unfold finishChord
  repeat' (first | (fail_if_no_progress extract_lets +onlyGivenNames y) | (with_reducible first | assumption | apply freeSlotTask_keeps | apply setTask_keeps | apply setEng_keeps | apply saveV_keeps | apply makeReady_keeps) | split)

theorem countLanes_keeps {s0 : State} : ∀ {x0 x1 s3}, keeps s0 s3 → keeps s0 (countLanes x0 x1 s3) := by
  intro x0 x1 s3  h
  unfold countLanes
  repeat' (first | (with_reducible first | assumption | apply keeps.ite | apply bumpN_keeps))

theorem optFx_keeps {s0 : State} {α : Type} : ∀ {x0 : Option (Eff α)} {s3}, optAll fxK x0 → keeps s0 s3 → keeps s0 (optFx x0 s3) := by
  intro x0 s3 hx h
  unfold optFx
  split
  · exact hx _ rfl _ _ h
  · exact h

/-- The effects of a chord's syllables keep what every command keeps. -/
def chK (r : ChordRes) : Prop := optAll fxK r.s ∧ optAll fxK r.v ∧ optAll fxK r.m
theorem optAll_fxK_optSyl {α : Type} {o : Option Syl} {f : Syl → TR (Eff α)} (hf : ∀ y, okAll fxK (f y)) : okAll (fun o => optAll fxK o) (evalOpt o f) := by
  unfold evalOpt
  split
  · exact okAll.bindP (hf _) fun a ha => okAll.pure (optAll.some ha)
  · exact okAll.ok optAll.none
theorem okAll_onStr {α : Type} {P : α → Prop} {n : Nat} {x : TR α} (h : okAll P x) : okAll P (onStr n x) := by
  unfold onStr
  split
  · exact okAll.ok (h _ rfl)
  · exact okAll.err
theorem okAll_latched {α : Type} {c : ECtx} {x : TR (Eff α)} {l : List Nat} (h : okAll fxK x) : okAll fxK (do let r ← x; latchBad c l; return r) :=
  okAll.bindP h fun _ hr => okAll.bind fun _ => okAll.pure hr
theorem okAll_latched2 {α : Type} {c : ECtx} {x : TR (Eff α)} {l m : List Nat} (h : okAll fxK x) : okAll fxK (do let r ← x; latchBad c l; vBad c m; return r) :=
  okAll.bindP h fun _ hr => okAll.bind fun _ => okAll.bind fun _ => okAll.pure hr
theorem evalChord_chK {c : ECtx} {l : List Syl} {n : Nat} : okAll chK (evalChord c l n) := by
  unfold evalChord
  refine okAll.bind fun a => ?_
  split
  · exact okAll.pure ⟨optAll.none, optAll.none, optAll.none⟩
  · refine okAll.bindP (okAll_onStr (optAll_fxK_optSyl fun y => okAll_latched2 sEval_keeps)) fun a ha => ?_
    refine okAll.bindP (okAll_onStr (optAll_fxK_optSyl fun y => okAll_latched2 vEval_keeps)) fun b hb => ?_
    refine okAll.bindP (okAll_onStr (optAll_fxK_optSyl fun y => okAll_latched mEval_keeps)) fun d hd => ?_
    exact okAll.pure ⟨ha, hb, hd⟩
theorem commitChord_keeps {s0 : State} : ∀ {x0 x1 x2 x3 x4 x5 s7}, chK x5 → keeps s0 s7 → keeps s0 (commitChord x0 x1 x2 x3 x4 x5 s7) := by
  intro x0 x1 x2 x3 x4 x5 s7 hx h
  unfold commitChord
  extract_lets t0 pl fence keepMr s1 low sP mP vP marks s2 s5 mF s6
  have k1 : keeps s0 s1 := setTask_keeps h
  clear_value s1
  have k2 : keeps s0 s2 := by
    dsimp only [s2]
    split
    · exact clearHalt_keeps k1
    · exact clearHalt_keeps (setEng_keeps k1)
  clear_value s2
  have k5 : keeps s0 s5 := optFx_keeps hx.2.2 (optFx_keeps hx.2.1 (optFx_keeps hx.1 k2))
  clear_value s5
  have k6 : keeps s0 s6 := by
    dsimp only [s6]
    split
    · exact setTask_keeps k5
    · exact k5
  exact finishChord_keeps (wakeSlot_keeps (bump_keeps (countLanes_keeps k6)))

theorem commitStep_keeps {s0 : State} : ∀ {x0 x1 x2 x3 x4 s6}, mrK x4 → keeps s0 s6 → keeps s0 (commitStep x0 x1 x2 x3 x4 s6) := by
  intro x0 x1 x2 x3 x4 s6 hx h
  unfold commitStep
  extract_lets t s1
  have k1 : keeps s0 s1 := clearHalt_keeps (hx _ _ h)
  clear_value s1
  split
  · exact setTask_keeps k1
  · exact bump_keeps (countLanes_keeps (setTask_keeps k1))

theorem runStep_keeps {s0 : State} : ∀ {x0 x1 x2 s4}, keeps s0 s4 → keeps s0 (runStep x0 x1 x2 s4) := by
  intro x0 x1 x2 s4 h
  unfold runStep
  extract_lets o
  split
  · exact raise_keeps h
  · split
    · exact setTask_keeps h
    · split
      · exact raise_keeps h
      · rename_i hr
        split
        · exact raise_keeps h
        · exact commitStep_keeps (mrStep_keeps _ hr) h

theorem runPlain_keeps {s0 : State} : ∀ {x0 x1 x2 s4}, keeps s0 s4 → keeps s0 (runDecoded.runPlain x0 x1 x2 s4) := by
  intro x0 x1 x2 s4 h
  unfold runDecoded.runPlain
  split
  · exact setTask_keeps h
  · split
    · extract_lets free d s1
      have k1 : keeps s0 s1 := by
        dsimp only [s1]
        split
        · exact refuseRelease_keeps h
        · exact h
      clear_value s1
      exact raise_keeps k1
    · rename_i hr
      split
      · exact rthnNested_keeps h
      · exact commitChord_keeps (evalChord_chK _ hr) h
theorem runDecoded_keeps {s0 : State} : ∀ {x0 x1 x2 s4}, keeps s0 s4 → keeps s0 (runDecoded x0 x1 x2 s4) := by
  intro x0 x1 x2 s4 h
  unfold runDecoded
  extract_lets t c
  clear_value c
  split
  · exact raiseTrap_keeps h
  · exact raiseTrap_keeps h
  · extract_lets n
    split
    · split
      · exact runStep_keeps h
      · exact runPlain_keeps h
    · exact runPlain_keeps h

theorem fixFetch_keeps {s0 : State} : ∀ {x0 x1 x2 s4}, keeps s0 s4 → keeps s0 (fixFetch x0 x1 x2 s4) := by
  intro x0 x1 x2 s4  h
  unfold fixFetch
  repeat' (with_reducible first | intro _ | assumption | apply fixLoc_keeps | apply foldl_keeps)

theorem fixReads_keeps {s0 : State} {key slot : Nat} {d : Dec} : ∀ {n : Nat} {s : State}, keeps s0 s → keeps s0 (fixReads key slot d n s)
  | 0, _, h => h
  | n + 1, s, h => by
    unfold fixReads
    split
    · exact fixReads_keeps (fixLoc_keeps h)
    · exact h

theorem fetchRun_keeps {s0 : State} : ∀ {x0 x1 s3}, keeps s0 s3 → keeps s0 (fetchRun x0 x1 s3) := by
  intro x0 x1 s3  h
  unfold fetchRun
  repeat' (with_reducible first | assumption | apply fixFetch_keeps | apply runDecoded_keeps | apply fixReads_keeps)

theorem issue_keeps {s0 : State} : ∀ {x0 x1 s3}, keeps s0 s3 → keeps s0 (issue x0 x1 s3) := by
  intro x0 x1 s3  h
  unfold issue
  repeat' (first | ((fail_if_no_progress extract_lets +onlyGivenNames x); refine (fun (hx : keeps s0 x) => ?_) ?_; clear_value x; rotate_left; dsimp only [x]) | (fail_if_no_progress extract_lets +onlyGivenNames y) | (with_reducible first | assumption | apply trapAction_keeps | apply clearHalt_keeps | apply setTask_keeps | apply haltHere_keeps | apply fetchRun_keeps | apply setEng_keeps) | split)

theorem chordRow_keeps {s0 : State} : ∀ {x0 x1 x2 x3 x4 s6}, keeps s0 s6 → keeps s0 (chordRow x0 x1 x2 x3 x4 s6) := by
  intro x0 x1 x2 x3 x4 s6  h
  unfold chordRow
  repeat' (first | (fail_if_no_progress extract_lets +onlyGivenNames y) | (with_reducible first | assumption | apply issue_keeps | apply switchTo_keeps) | split)

end Sys2Proof.Machine
end

