-- ==== Sys2Proof/Laws/Keeps5.lean ====
section
/-! SUPPORT. What every operation keeps (part 5 of 7): registers, the host and the commands of most families. -/

namespace Sys2Proof.Machine

set_option Elab.async false
set_option linter.all false

/-! ### RegView -/

theorem dbgFix_keeps {s0 : State} : ∀ {x0 s2}, keeps s0 s2 → keeps s0 (dbgFix x0 s2) := by
  intro x0 s2  h
  unfold dbgFix
  repeat' (with_reducible first | assumption | apply keeps.ite | apply fixLoc_keeps)

theorem dbgWrite_keeps {s0 : State} : ∀ {x0 x1 s3}, keeps s0 s3 → keeps s0 (dbgWrite x0 x1 s3) := by
  intro x0 x1 s3  h
  unfold dbgWrite
  repeat' (first | (fail_if_no_progress extract_lets +onlyGivenNames y) | (with_reducible first | assumption | apply setEng_keeps | apply dataWr_keeps | apply progWr_keeps | apply setTask_keeps | apply vecWr_keeps) | split)

/-! ### RegRead -/

theorem setLatch_keeps {s0 : State} : ∀ {x0 x1 x2 s4}, keeps s0 s4 → keeps s0 (setLatch x0 x1 x2 s4) := by
  intro x0 x1 x2 s4  h
  unfold setLatch
  repeat' (first | with_reducible assumption | (fail_if_no_progress with_reducible apply keeps.mk))

theorem trigPop_keeps2 {s0 : State} : ∀ {x0 x1 x2 s4}, keeps s0 s4 → keeps s0 (trigPop x0 x1 x2 s4).2 := by
  intro x0 x1 x2 s4  h
  unfold trigPop
  repeat' (first | (with_reducible first | assumption | apply setLatch_keeps | refine takeFree_keeps (by assumption) ?_ | apply setTrigIn_keeps) | split)
theorem trigPop_keeps {s0 : State} : ∀ {x0 x1 x2 s4 v t}, trigPop x0 x1 x2 s4 = (v, t) → keeps s0 s4 → keeps s0 t := by
  intro x0 x1 x2 s4 v t  e h
  have h2 : keeps s0 (trigPop x0 x1 x2 s4).2 := trigPop_keeps2  h
  rw [e] at h2
  exact h2

theorem readReg_keeps2 {s0 : State} : ∀ {x0 x1 s3}, keeps s0 s3 → keeps s0 (readReg x0 x1 s3).2 := by
  intro x0 x1 s3  h
  unfold readReg
  repeat' (first | (with_reducible first | intro _ | assumption | apply spiPop_keeps2 | apply trigPop_keeps2 | apply setLatch_keeps | apply dbgFix_keeps | apply foldl_keeps) | split)
theorem readReg_keeps {s0 : State} : ∀ {x0 x1 s3 v t}, readReg x0 x1 s3 = (v, t) → keeps s0 s3 → keeps s0 t := by
  intro x0 x1 s3 v t  e h
  have h2 : keeps s0 (readReg x0 x1 s3).2 := readReg_keeps2  h
  rw [e] at h2
  exact h2

theorem readDw_keeps2 {s0 : State} : ∀ {x0 x1 x2 s4}, keeps s0 s4 → keeps s0 (readDw x0 x1 x2 s4).2 := by
  intro x0 x1 x2 s4  h
  unfold readDw
  repeat' (first | (with_reducible first | assumption | apply readReg_keeps2) | split)
theorem readDw_keeps {s0 : State} : ∀ {x0 x1 x2 s4 v t}, readDw x0 x1 x2 s4 = (v, t) → keeps s0 s4 → keeps s0 t := by
  intro x0 x1 x2 s4 v t  e h
  have h2 : keeps s0 (readDw x0 x1 x2 s4).2 := readDw_keeps2  h
  rw [e] at h2
  exact h2

theorem readRun_keeps {s0 : State} {who : Requester} {b : Bool} : ∀ {n o : Nat} {s : State}, keeps s0 s → keeps s0 (readRun who b n o s)
  | 0, _, _, h => h
  | _ + 1, _, _, h => by
    unfold readRun
    exact readRun_keeps (emit_keeps (readDw_keeps2 h))

/-! ### RegWrite -/

theorem logRefusal_keeps {s0 : State} : ∀ {x0 x1 x2 x3 x4 s6}, keeps s0 s6 → keeps s0 (logRefusal x0 x1 x2 x3 x4 s6) := by
  intro x0 x1 x2 x3 x4 s6  h
  unfold logRefusal
  repeat' (first | (with_reducible first | assumption | apply bump_keeps | apply setReg_keeps) | split)

/-! ### HostOps -/

theorem flushJrnl_keeps {s0 : State} : ∀ {x0 s2}, keeps s0 s2 → keeps s0 (flushJrnl x0 s2) := by
  intro x0 s2  h
  unfold flushJrnl
  repeat' (first | (with_reducible first | intro _ | assumption | apply jrnlRingPut_keeps | apply setFn_keeps | apply foldl_keeps))

theorem flushCq_keeps {s0 : State} : ∀ {x0 s2}, keeps s0 s2 → keeps s0 (flushCq x0 s2) := by
  intro x0 s2  h
  unfold flushCq
  repeat' (first | (with_reducible first | intro _ | assumption | apply writeCompl_keeps | apply setFn_keeps | apply foldl_keeps))

theorem flushFn_keeps {s0 : State} : ∀ {x0 s2}, keeps s0 s2 → keeps s0 (flushFn x0 s2) := by
  intro x0 s2  h
  unfold flushFn
  repeat' (first | (with_reducible first | assumption | apply flushCq_keeps | apply flushJrnl_keeps))

theorem ringEnable_keeps {s0 : State} : ∀ {x0 x1 s3}, keeps s0 s3 → keeps s0 (ringEnable x0 x1 s3) := by
  intro x0 x1 s3  h
  unfold ringEnable
  repeat' (first | (with_reducible first | assumption | apply flushFn_keeps | apply showRing_keeps | apply writeShadow_keeps | apply setRing_keeps))

theorem fencesDrop_keeps {s0 : State} : ∀ {x0 x1 s3}, keeps s0 s3 → keeps s0 (fencesDrop x0 x1 s3) := by
  intro x0 x1 s3  h
  unfold fencesDrop
  repeat' (first | (with_reducible first | assumption | apply fences_keeps | apply setJrnl_keeps))

theorem ringDisable_keeps {s0 : State} : ∀ {x0 x1 s3}, keeps s0 s3 → keeps s0 (ringDisable x0 x1 s3) := by
  intro x0 x1 s3  h
  unfold ringDisable
  repeat' (first | (with_reducible first | assumption | apply keeps.ite | apply showRing_keeps | apply setRing_keeps | apply fencesDrop_keeps | apply flushFn_keeps | apply setFn_keeps | apply rewaitBuilds_keeps))

theorem takeIndex_keeps {s0 : State} : ∀ {x0 s2 x2}, keeps s0 s2 → keeps s0 (takeIndex x0 s2 x2) := by
  intro x0 s2 x2  h
  unfold takeIndex
  repeat' (first | (with_reducible first | assumption | apply keeps.ite | apply setRing_keeps | apply stopRing_keeps))

theorem ringResume_keeps {s0 : State} : ∀ {x0 x1 s3}, keeps s0 s3 → keeps s0 (ringResume x0 x1 s3) := by
  intro x0 x1 s3  h
  unfold ringResume
  repeat' (first | (fail_if_no_progress extract_lets +onlyGivenNames y) | (with_reducible first | assumption | apply setRing_keeps | apply flushFn_keeps | apply showRing_keeps | apply takeIndex_keeps) | split)

theorem ringCtlEffect_keeps {s0 : State} : ∀ {x0 x1 x2 x3 s5}, keeps s0 s5 → keeps s0 (ringCtlEffect x0 x1 x2 x3 s5) := by
  intro x0 x1 x2 x3 s5  h
  unfold ringCtlEffect
  repeat' (first | (with_reducible first | assumption | apply keeps.ite | apply ringEnable_keeps | apply ringDisable_keeps | apply ringResume_keeps))

theorem takeWords_keeps {s0 : State} : ∀ {x0 x1 s3}, keeps s0 s3 → keeps s0 (takeWords x0 x1 s3) := by
  intro x0 x1 s3  h
  unfold takeWords
  repeat' (first | (with_reducible first | intro _ | assumption | apply flushFn_keeps | apply takeIndex_keeps | apply foldl_keeps))

theorem poll_keeps {s0 : State} : ∀ {x0 x1 s3}, keeps s0 s3 → keeps s0 (poll x0 x1 s3) := by
  intro x0 x1 s3  h
  unfold poll
  repeat' (first | (with_reducible first | assumption | apply keeps.ite | apply setFld_keeps | apply takeWords_keeps | apply setFn_keeps))

theorem sendPending_keeps {s0 : State} : ∀ {x0 s2 x2}, keeps s0 s2 → keeps s0 (sendPending x0 s2 x2) := by
  intro x0 s2 x2  h
  unfold sendPending
  repeat' (first | (with_reducible first | assumption | apply keeps.ite | apply emit_keeps | apply setPba_keeps))

/-! ### TrigCmds -/

theorem execTpArriveQcu_keeps : ∀ {x0 x1 s3}, keepsX s3 (execTpArriveQcu x0 x1 s3) := by
  intro x0 x1 s3
  unfold execTpArriveQcu
  repeat' (first | (fail_if_no_progress extract_lets +onlyGivenNames y) | (with_reducible first | assumption | exact keeps.refl | apply keepsX.next | apply bump_keeps | apply setQcu_keeps | apply qcuTake_keeps | apply setEng_keeps) | split)

theorem execQcuRelease_keeps : ∀ {x0 x1 s3}, keepsX s3 (execQcuRelease x0 x1 s3) := by
  intro x0 x1 s3
  unfold execQcuRelease
  repeat' (first | (with_reducible first | assumption | exact keeps.refl | apply keepsX.next | apply setQcu_keeps | apply sendMarks_keeps | apply exportTp_keeps | apply ccuArrive_keeps | apply bump_keeps) | split)

theorem execReleaseMark_keeps : ∀ {x0 s2}, keepsX s2 (execReleaseMark x0 s2) := by
  intro x0 s2
  unfold execReleaseMark
  repeat' (first | (with_reducible first | assumption | exact keeps.refl | apply keepsX.next | apply issueReady_keeps | apply ccuRun_keeps | apply sendMarks_keeps) | split)

theorem execCastleHoldEnd_keeps : ∀ {x0 s2}, keepsX s2 (execCastleHoldEnd x0 s2) := by
  intro x0 s2
  unfold execCastleHoldEnd
  repeat' (first | (with_reducible first | assumption | exact keeps.refl | apply keepsX.next | apply setQcu_keeps) | split)

theorem execCcuInput_keeps : ∀ {s1}, keepsX s1 (execCcuInput s1) := by
  intro s1
  unfold execCcuInput
  repeat' (first | (with_reducible first | assumption | exact keeps.refl | apply keepsX.next | apply ccuTake_keeps | apply setTrig_keeps) | split)

theorem execCcuDecide_keeps : ∀ {x0 s2}, keepsX s2 (execCcuDecide x0 s2) := by
  intro x0 s2
  unfold execCcuDecide
  repeat' (first | (fail_if_no_progress extract_lets +onlyGivenNames y) | (with_reducible first | assumption | exact keeps.refl | apply keepsX.next | apply condRun_keeps | apply issueReady_keeps | apply dropOld_keeps | apply decideOcc_keeps) | split)

theorem execStepShadowEnd_keeps : ∀ {x0 s2}, keepsX s2 (execStepShadowEnd x0 s2) := by
  intro x0 s2
  unfold execStepShadowEnd
  repeat' (first | (with_reducible first | assumption | exact keeps.refl | apply keepsX.next | apply setTrig_keeps) | split)

theorem execTriginEdge_keeps : ∀ {x0 x1 x2 s4}, keepsX s4 (execTriginEdge x0 x1 x2 s4) := by
  intro x0 x1 x2 s4
  unfold execTriginEdge
  repeat' (first | (fail_if_no_progress extract_lets +onlyGivenNames y) | (with_reducible first | assumption | exact keeps.refl | apply keepsX.next | apply setTrigIn_keeps | apply pulseTaken_keeps2 | apply lineIn_keeps) | split)

theorem execTriginStuck_keeps : ∀ {x0 s2}, keepsX s2 (execTriginStuck x0 s2) := by
  intro x0 s2
  unfold execTriginStuck
  repeat' (first | (with_reducible first | assumption | exact keeps.refl | apply keepsX.next | apply lineStuck_keeps))

theorem execTriginUnstuck_keeps : ∀ {x0 s2}, keepsX s2 (execTriginUnstuck x0 s2) := by
  intro x0 s2
  unfold execTriginUnstuck
  repeat' (first | (with_reducible first | assumption | exact keeps.refl | apply keepsX.next | apply lineUnstuck_keeps))

theorem execFastStretchEnd_keeps : ∀ {x0 x1 x2 s4}, keepsX s4 (execFastStretchEnd x0 x1 x2 s4) := by
  intro x0 x1 x2 s4
  unfold execFastStretchEnd
  repeat' (first | (with_reducible first | assumption | exact keeps.refl | apply keepsX.next | apply stretchEnd_keeps))

theorem execFastOutputEnd_keeps : ∀ {x0 s2}, keepsX s2 (execFastOutputEnd x0 s2) := by
  intro x0 s2
  unfold execFastOutputEnd
  repeat' (first | (with_reducible first | assumption | exact keeps.refl | apply keepsX.next | apply outputEnd_keeps))

theorem execDelayTrack_keeps : ∀ {x0 x1 s3}, keepsX s3 (execDelayTrack x0 x1 s3) := by
  intro x0 x1 s3
  unfold execDelayTrack
  repeat' (first | (with_reducible first | assumption | exact keeps.refl | apply keepsX.next | apply keeps.ite | apply setFast_keeps))

theorem execTrigoutPulseEnd_keeps : ∀ {x0 s2}, keepsX s2 (execTrigoutPulseEnd x0 s2) := by
  intro x0 s2
  unfold execTrigoutPulseEnd
  repeat' (first | (with_reducible first | assumption | exact keeps.refl | apply keepsX.next | apply pulseEnd_keeps))

theorem execTrigoutLaunchDue_keeps : ∀ {x0 x1 s3}, keepsX s3 (execTrigoutLaunchDue x0 x1 s3) := by
  intro x0 x1 s3
  unfold execTrigoutLaunchDue
  repeat' (first | (with_reducible first | assumption | exact keeps.refl | apply keepsX.next | apply outDue_keeps))

theorem execLaunchPulse_keeps : ∀ {x0 s2}, keepsX s2 (execLaunchPulse x0 s2) := by
  intro x0 s2
  unfold execLaunchPulse
  repeat' (first | with_reducible intro _ | (fail_if_no_progress extract_lets +onlyGivenNames y) | (with_reducible first | assumption | exact keeps.refl | apply keepsX.next | apply serve_keeps | apply setTrigOut_keeps | apply outLate_keeps) | split)

theorem condSet_keeps {s0 : State} : ∀ {x0 x1 s3}, keeps s0 s3 → keeps s0 (condSet x0 x1 s3) := by
  intro x0 x1 s3  h
  unfold condSet
  repeat' (first | (with_reducible first | assumption | apply condReplace_keeps | apply setCond_keeps))

theorem execTrigCondSet_keeps : ∀ {x0 x1 s3}, keepsX s3 (execTrigCondSet x0 x1 s3) := by
  intro x0 x1 s3
  unfold execTrigCondSet
  repeat' (first | (with_reducible first | intro _ | assumption | exact keeps.refl | apply keepsX.next | apply serve_keeps | apply complete_keeps | apply condSet_keeps) | split)

theorem execCondRelease_keeps : ∀ {x0 x1 s3}, keepsX s3 (execCondRelease x0 x1 s3) := by
  intro x0 x1 s3
  unfold execCondRelease
  repeat' (first | (with_reducible first | intro _ | assumption | exact keeps.refl | apply keepsX.next | apply serve_keeps | apply complete_keeps | apply disown_keeps | apply condSet_keeps) | split)

/-! ### RegCommit -/

theorem portCfgEffect_keeps {s0 : State} : ∀ {x0 x1 x2 s4}, keeps s0 s4 → keeps s0 (portCfgEffect x0 x1 x2 s4) := by
  intro x0 x1 x2 s4  h
  unfold portCfgEffect
  repeat' (first | (with_reducible first | assumption | apply keeps.ite | apply portOff_keeps | apply portRetrain_keeps))

theorem ppsCtlEffect_keeps {s0 : State} : ∀ {x0 x1 s3}, keeps s0 s3 → keeps s0 (ppsCtlEffect x0 x1 s3) := by
  intro x0 x1 s3  h
  unfold ppsCtlEffect
  repeat' (first | (with_reducible first | assumption | apply keeps.ite | apply emit_keeps | apply setTime_keeps))

theorem tbStatusEffect_keeps {s0 : State} : ∀ {x0 x1 s3}, keeps s0 s3 → keeps s0 (tbStatusEffect x0 x1 s3) := by
  intro x0 x1 s3  h
  unfold tbStatusEffect
  repeat' (first | (with_reducible first | assumption | apply setTb_keeps))

theorem ptpCtlEffect_keeps {s0 : State} : ∀ {x0 x1 x2 s4}, keeps s0 s4 → keeps s0 (ptpCtlEffect x0 x1 x2 s4) := by
  intro x0 x1 x2 s4  h
  unfold ptpCtlEffect
  repeat' (first | (with_reducible first | assumption | apply keeps.ite | apply setPtp_keeps | apply ptpDecide_keeps))

theorem engHalt_keeps {s0 : State} : ∀ {x0 s2}, keeps s0 s2 → keeps s0 (engHalt x0 s2) := by
  intro x0 s2  h
  unfold engHalt
  repeat' (first | (with_reducible first | assumption | apply keeps.ite | apply setEng_keeps | apply markBack_keeps))

theorem engRun_keeps {s0 : State} : ∀ {x0 s2}, keeps s0 s2 → keeps s0 (engRun x0 s2) := by
  intro x0 s2  h
  unfold engRun
  repeat' (first | (with_reducible first | assumption | apply keeps.ite | apply stopWaitingCancels_keeps | apply setEng_keeps))

theorem engStep_keeps {s0 : State} : ∀ {x0 s2}, keeps s0 s2 → keeps s0 (engStep x0 s2) := by
  intro x0 s2  h
  unfold engStep
  repeat' (first | ((fail_if_no_progress extract_lets +onlyGivenNames x); refine (fun (hx : keeps s0 x) => ?_) ?_; clear_value x; rotate_left; dsimp only [x]) | (with_reducible first | assumption | apply setEng_keeps | apply setTask_keeps | apply switchTo_keeps | apply markBack_keeps | apply issue_keeps) | split)

theorem engDbgEffect_keeps {s0 : State} : ∀ {x0 x1 s3}, keeps s0 s3 → keeps s0 (engDbgEffect x0 x1 s3) := by
  intro x0 x1 s3  h
  unfold engDbgEffect
  repeat' (first | (with_reducible first | assumption | apply keeps.ite | apply engStep_keeps | apply engHalt_keeps | apply engRun_keeps))

theorem ccuCtlEffect_keeps {s0 : State} : ∀ {x0 x1 s3}, keeps s0 s3 → keeps s0 (ccuCtlEffect x0 x1 s3) := by
  intro x0 x1 s3  h
  unfold ccuCtlEffect
  repeat' (first | (with_reducible first | intro _ | assumption | apply keeps.ite | apply condSet_keeps | apply foldl_keeps))

theorem trigInEffect_keeps {s0 : State} : ∀ {x0 x1 s3}, keeps s0 s3 → keeps s0 (trigInEffect x0 x1 s3) := by
  intro x0 x1 s3  h
  unfold trigInEffect
  repeat' (with_reducible first | assumption | apply keeps.ite | apply setTrigIn_keeps | apply stuckOff_keeps | apply takeFree_keeps2 | apply lineIn_keeps)

theorem trigOutEffect_keeps {s0 : State} : ∀ {x0 x1 x2 s4}, keeps s0 s4 → keeps s0 (trigOutEffect x0 x1 x2 s4) := by
  intro x0 x1 x2 s4  h
  unfold trigOutEffect
  repeat' (first | (with_reducible first | assumption | apply keeps.ite | apply outAbort_keeps | apply driveOut_keeps))

theorem trigEffect_keeps {s0 : State} : ∀ {x0 x1 x2 x3 s5}, keeps s0 s5 → keeps s0 (trigEffect x0 x1 x2 x3 s5) := by
  intro x0 x1 x2 x3 s5  h
  unfold trigEffect
  repeat' (first | (with_reducible first | assumption | apply trigInEffect_keeps | apply setFast_keeps | apply trigOutEffect_keeps) | split)

theorem arbEffect_keeps {s0 : State} : ∀ {x0 x1 x2 s4}, keeps s0 s4 → keeps s0 (arbEffect x0 x1 x2 s4) := by
  intro x0 x1 x2 s4  h
  unfold arbEffect
  repeat' (first | (with_reducible first | assumption | apply keeps.ite | apply setSys_keeps))

theorem primaryEffect_keeps {s0 : State} : ∀ {x0 x1 s3}, keeps s0 s3 → keeps s0 (primaryEffect x0 x1 s3) := by
  intro x0 x1 s3  h
  unfold primaryEffect
  repeat' (first | (with_reducible first | assumption | apply keeps.ite | apply setSys_keeps))

theorem railSet_keeps {s0 : State} : ∀ {x0 x1 x2 s4}, keeps s0 s4 → keeps s0 (railSet x0 x1 x2 s4) := by
  intro x0 x1 x2 s4  h
  unfold railSet
  repeat' (first | (with_reducible first | assumption | apply railCommand_keeps2))

theorem railsBack_keeps {s0 : State} : ∀ {s1}, keeps s0 s1 → keeps s0 (railsBack s1) := by
  intro s1  h
  unfold railsBack
  repeat' (first | (with_reducible first | intro _ | assumption | apply keeps.ite | apply paceMode_keeps | apply setRail_keeps | apply foldl_keeps))

theorem paceEffect_keeps {s0 : State} : ∀ {x0 x1 x2 x3 x4 s6}, keeps s0 s6 → keeps s0 (paceEffect x0 x1 x2 x3 x4 s6) := by
  intro x0 x1 x2 x3 x4 s6  h
  unfold paceEffect
  repeat' (first | (with_reducible first | assumption | apply paceMode_keeps | apply paceStart_keeps | apply railMode_keeps | apply setRail_keeps | apply railSet_keeps | apply railsBack_keeps) | split)

theorem rstEffect_keeps {s0 : State} : ∀ {x0 x1 s3}, keeps s0 s3 → keeps s0 (rstEffect x0 x1 s3) := by
  intro x0 x1 s3  h
  unfold rstEffect
  repeat' (first | (with_reducible first | assumption | apply setRst_keeps | apply resetRequest_keeps) | split)

theorem spiEffect_keeps {s0 : State} : ∀ {x0 x1 x2 x3 s5}, keeps s0 s5 → keeps s0 (spiEffect x0 x1 x2 x3 s5) := by
  intro x0 x1 x2 x3 s5  h
  unfold spiEffect
  repeat' (first | ((fail_if_no_progress extract_lets +onlyGivenNames x); refine (fun (hx : keeps s0 x) => ?_) ?_; clear_value x; rotate_left; dsimp only [x]) | (fail_if_no_progress extract_lets +onlyGivenNames y) | (with_reducible first | assumption | apply flashBegin_keeps | apply spiDisable_keeps | apply spiRxFlush_keeps | apply spiTxFlush_keeps | apply spiGo_keeps | apply spiPush_keeps | apply flashAdd_keeps) | split)

theorem tmrPinEffect_keeps {s0 : State} : ∀ {x0 x1 s3}, keeps s0 s3 → keeps s0 (tmrPinEffect x0 x1 s3) := by
  intro x0 x1 s3  h
  unfold tmrPinEffect
  repeat' (first | (with_reducible first | intro _ | assumption | apply keeps.ite | apply emit_keeps | apply foldl_keeps))

theorem writeEffect_keeps {s0 : State} : ∀ {x0 x1 x2 x3 x4 s6}, keeps s0 s6 → keeps s0 (writeEffect x0 x1 x2 x3 x4 s6) := by
  intro x0 x1 x2 x3 x4 s6  h
  unfold writeEffect
  repeat' (first | (with_reducible first | intro _ | assumption | apply safeClear_keeps | apply portCfgEffect_keeps | apply l1Update_keeps | apply tbCtlEffect_keeps | apply tbStatusEffect_keeps | apply setTime_keeps | apply ppsCtlEffect_keeps | apply synCtlEffect_keeps | apply ptpCtlEffect_keeps | apply engDbgEffect_keeps | apply setQcu_keeps | apply ccuCtlEffect_keeps | apply trigEffect_keeps | apply arbEffect_keeps | apply primaryEffect_keeps | apply linkJudge_keeps | apply ringCtlEffect_keeps | apply sendPending_keeps | apply paceEffect_keeps | apply rstEffect_keeps | apply spiEffect_keeps | apply tmrSleepUpdate_keeps | apply tmrPinEffect_keeps | apply tmrCtlEffect_keeps | apply foldl_keeps) | split)

theorem storeDw_keeps {s0 : State} : ∀ {x0 x1 x2 x3 x4 s6}, keeps s0 s6 → keeps s0 (storeDw x0 x1 x2 x3 x4 s6) := by
  intro x0 x1 x2 x3 x4 s6  h
  unfold storeDw
  repeat' (first | (with_reducible first | assumption | apply keeps.ite | apply attnClear_keeps | apply setReg_keeps | apply setFlash_keeps | apply writeEffect_keeps))

theorem storePair_keeps {s0 : State} : ∀ {x0 x1 x2 x3 x4 s6}, keeps s0 s6 → keeps s0 (storePair x0 x1 x2 x3 x4 s6) := by
  intro x0 x1 x2 x3 x4 s6  h
  unfold storePair
  repeat' (first | (with_reducible first | assumption | apply dbgWrite_keeps | apply setTmr_keeps | apply setReg_keeps | apply setFlash_keeps) | split)

theorem applyWrite_keeps {s0 : State} : ∀ {s1 x1}, keeps s0 s1 → keeps s0 (applyWrite s1 x1) := by
  intro s1 x1  h
  unfold applyWrite
  repeat' (first | (with_reducible first | assumption | apply storeDw_keeps) | split)

theorem applyChange_keeps {s0 : State} : ∀ {x0 s2}, keeps s0 s2 → keeps s0 (applyChange x0 s2) := by
  intro x0 s2  h
  unfold applyChange
  repeat' (first | (with_reducible first | intro _ | assumption | apply applyWrite_keeps | apply disown_keeps | apply complete_keeps | apply foldl_keeps) | split)

theorem runChanges_keeps {s0 : State} : ∀ {s1}, keeps s0 s1 → keeps s0 (runChanges s1) := by
  intro s1  h
  unfold runChanges
  repeat' (first | (with_reducible first | intro _ | assumption | apply keeps.ite | apply applyChange_keeps | apply setTrig_keeps | apply foldl_keeps))

theorem offerChange_keeps {s0 : State} : ∀ {x0 x1 x2 s4}, keeps s0 s4 → keeps s0 (offerChange x0 x1 x2 s4) := by
  intro x0 x1 x2 s4  h
  unfold offerChange
  repeat' (first | (with_reducible first | assumption | apply runChanges_keeps | apply setTrig_keeps))

/-! ### RegReq -/

theorem journalWrite_keeps {s0 : State} : ∀ {x0 x1 s3}, keeps s0 s3 → keeps s0 (journalWrite x0 x1 s3) := by
  intro x0 x1 s3  h
  unfold journalWrite
  repeat' (first | (with_reducible first | assumption | apply journalReg_keeps) | split)

theorem holdHi_keeps {s0 : State} : ∀ {x0 x1 x2 s4}, keeps s0 s4 → keeps s0 (holdHi x0 x1 x2 s4) := by
  intro x0 x1 x2 s4  h
  unfold holdHi
  repeat' (first | with_reducible assumption | (fail_if_no_progress with_reducible apply keeps.mk))

theorem dropHi_keeps {s0 : State} : ∀ {x0 x1 s3}, keeps s0 s3 → keeps s0 (dropHi x0 x1 s3) := by
  intro x0 x1 s3  h
  unfold dropHi
  repeat' (first | with_reducible assumption | (fail_if_no_progress with_reducible apply keeps.mk))

theorem dropLatch_keeps {s0 : State} : ∀ {x0 x1 s3}, keeps s0 s3 → keeps s0 (dropLatch x0 x1 s3) := by
  intro x0 x1 s3  h
  unfold dropLatch
  repeat' (first | (with_reducible first | assumption | apply dropHi_keeps) | split)

theorem refuseWrite_keeps {s0 : State} : ∀ {x0 x1 x2 x3 x4 x5 s7}, keeps s0 s7 → keeps s0 (refuseWrite x0 x1 x2 x3 x4 x5 s7) := by
  intro x0 x1 x2 x3 x4 x5 s7  h
  unfold refuseWrite
  repeat' (first | (with_reducible first | assumption | apply dropLatch_keeps | apply journalWrite_keeps | apply logRefusal_keeps))

theorem commitDw_keeps {s0 : State} : ∀ {x0 x1 x2 x3 x4 x5 s7}, keeps s0 s7 → keeps s0 (commitDw x0 x1 x2 x3 x4 x5 s7) := by
  intro x0 x1 x2 x3 x4 x5 s7  h
  unfold commitDw
  repeat' (first | (with_reducible first | assumption | apply keeps.ite | apply storePair_keeps | apply dropLatch_keeps | apply storeDw_keeps))

theorem acceptDw_keeps {s0 : State} : ∀ {x0 x1 x2 x3 s5}, keeps s0 s5 → keeps s0 (acceptDw x0 x1 x2 x3 s5) := by
  intro x0 x1 x2 x3 s5  h
  unfold acceptDw
  repeat' (first | (with_reducible first | assumption | apply holdHi_keeps | apply journalWrite_keeps | apply dropLatch_keeps | apply modeRequest_keeps | apply storeDw_keeps | apply offerChange_keeps | apply commitDw_keeps) | split)

theorem writeDw_keeps {s0 : State} : ∀ {x0 x1 x2 x3 x4 s6}, keeps s0 s6 → keeps s0 (writeDw x0 x1 x2 x3 x4 s6) := by
  intro x0 x1 x2 x3 x4 s6  h
  unfold writeDw
  repeat' (first | (with_reducible first | assumption | apply refuseWrite_keeps | apply acceptDw_keeps) | split)

theorem writePair_keeps {s0 : State} : ∀ {x0 x1 x2 x3 x4 x5 s7}, keeps s0 s7 → keeps s0 (writePair x0 x1 x2 x3 x4 x5 s7) := by
  intro x0 x1 x2 x3 x4 x5 s7  h
  unfold writePair
  repeat' (first | ((fail_if_no_progress extract_lets +onlyGivenNames x); refine (fun (hx : keeps s0 x) => ?_) ?_; clear_value x; rotate_left; dsimp only [x]) | (with_reducible first | assumption | apply refuseWrite_keeps | apply holdHi_keeps | apply acceptDw_keeps) | split)

theorem writeBar0_keeps {s0 : State} : ∀ {x0 x1 x2 x3 s5}, keeps s0 s5 → keeps s0 (writeBar0 x0 x1 x2 x3 s5) := by
  intro x0 x1 x2 x3 s5  h
  unfold writeBar0
  repeat' (first | (with_reducible first | assumption | apply logRefusal_keeps | apply refuseWrite_keeps | apply writeDw_keeps | apply writePair_keeps) | split)

theorem writeBar2_keeps {s0 : State} : ∀ {x0 x1 x2 s4}, keeps s0 s4 → keeps s0 (writeBar2 x0 x1 x2 s4) := by
  intro x0 x1 x2 s4  h
  unfold writeBar2
  repeat' (first | (with_reducible first | assumption | apply logRefusal_keeps) | split | dsimp +zetaDelta only)

theorem regWrite_keeps {s0 : State} : ∀ {x0 x1 x2 x3 x4 s6}, keeps s0 s6 → keeps s0 (regWrite x0 x1 x2 x3 x4 s6) := by
  intro x0 x1 x2 x3 x4 s6  h
  unfold regWrite
  repeat' (first | (with_reducible first | assumption | apply emit_keeps | apply writeBar2_keeps | apply writeBar0_keeps) | split)

theorem writeAt_keeps {s0 : State} : ∀ {x0 x1 x2 x3 s5}, keeps s0 s5 → keeps s0 (writeAt x0 x1 x2 x3 s5) := by
  intro x0 x1 x2 x3 s5  h
  unfold writeAt
  repeat' (first | (with_reducible first | assumption | apply regWrite_keeps) | split)

/-! ### RegCmds -/

theorem execRegisterWrite_keeps : ∀ {x0 x1 x2 x3 x4 s6}, keepsX s6 (execRegisterWrite x0 x1 x2 x3 x4 s6) := by
  intro x0 x1 x2 x3 x4 s6
  unfold execRegisterWrite
  repeat' (first | (with_reducible first | assumption | exact keeps.refl | apply keepsX.next | apply regWrite_keeps))

theorem execLoReadLatch_keeps : ∀ {x0 x1 x2 x3 s5}, keepsX s5 (execLoReadLatch x0 x1 x2 x3 s5) := by
  intro x0 x1 x2 x3 s5
  unfold execLoReadLatch
  repeat' (first | (with_reducible first | assumption | exact keeps.refl | apply keepsX.next | apply readRun_keeps | apply emit_keeps) | split)

theorem execJtagRegacc_keeps : ∀ {x0 x1 s3}, keepsX s3 (execJtagRegacc x0 x1 s3) := by
  intro x0 x1 s3
  unfold execJtagRegacc
  repeat' (first | (with_reducible first | assumption | exact keeps.refl | apply keepsX.next | apply regWrite_keeps | apply readDw_keeps2 | apply emit_keeps) | split)

theorem execSetupFaultClear_keeps : ∀ {x0 x1 s3}, keepsX s3 (execSetupFaultClear x0 x1 s3) := by
  intro x0 x1 s3
  unfold execSetupFaultClear
  repeat' (first | (with_reducible first | assumption | exact keeps.refl | apply keepsX.next | apply writeAt_keeps))

theorem execSafeCauseClear_keeps : ∀ {x0 x1 s3}, keepsX s3 (execSafeCauseClear x0 x1 s3) := by
  intro x0 x1 s3
  unfold execSafeCauseClear
  repeat' (first | (with_reducible first | assumption | exact keeps.refl | apply keepsX.next | apply writeAt_keeps))

theorem execCapRearm_keeps : ∀ {x0 x1 x2 s4}, keepsX s4 (execCapRearm x0 x1 x2 s4) := by
  intro x0 x1 x2 s4
  unfold execCapRearm
  repeat' (first | (with_reducible first | assumption | exact keeps.refl | apply keepsX.next | apply writeAt_keeps))

theorem execSynCommit_keeps : ∀ {x0 x1 x2 s4}, keepsX s4 (execSynCommit x0 x1 x2 s4) := by
  intro x0 x1 x2 s4
  unfold execSynCommit
  repeat' (first | (with_reducible first | assumption | exact keeps.refl | apply keepsX.next | apply writeAt_keeps) | split)

theorem execDebugHalt_keeps : ∀ {x0 x1 x2 x3 s5}, keepsX s5 (execDebugHalt x0 x1 x2 x3 s5) := by
  intro x0 x1 x2 x3 s5
  unfold execDebugHalt
  repeat' (first | (with_reducible first | assumption | exact keeps.refl | apply keepsX.next | apply writeAt_keeps) | split)

theorem execDebugResume_keeps : ∀ {x0 x1 x2 x3 s5}, keepsX s5 (execDebugResume x0 x1 x2 x3 s5) := by
  intro x0 x1 x2 x3 s5
  unfold execDebugResume
  repeat' (first | (with_reducible first | assumption | exact keeps.refl | apply keepsX.next | apply writeAt_keeps) | split)

theorem execDebugStep_keeps : ∀ {x0 x1 x2 x3 s5}, keepsX s5 (execDebugStep x0 x1 x2 x3 s5) := by
  intro x0 x1 x2 x3 s5
  unfold execDebugStep
  repeat' (first | (with_reducible first | assumption | exact keeps.refl | apply keepsX.next | apply writeAt_keeps) | split)

theorem execDebugWrite_keeps : ∀ {x0 x1 x2 x3 x4 s6}, keepsX s6 (execDebugWrite x0 x1 x2 x3 x4 s6) := by
  intro x0 x1 x2 x3 x4 s6
  unfold execDebugWrite
  repeat' (first | (with_reducible first | assumption | exact keeps.refl | apply keepsX.next | apply writeAt_keeps))

theorem execTriginFifoPop_keeps : ∀ {x0 x1 s3}, keepsX s3 (execTriginFifoPop x0 x1 s3) := by
  intro x0 x1 s3
  unfold execTriginFifoPop
  repeat' (first | (with_reducible first | assumption | exact keeps.refl | apply keepsX.next | apply readRun_keeps) | split)

theorem execTriginFifoFlush_keeps : ∀ {x0 x1 x2 s4}, keepsX s4 (execTriginFifoFlush x0 x1 x2 s4) := by
  intro x0 x1 x2 s4
  unfold execTriginFifoFlush
  repeat' (first | (with_reducible first | assumption | exact keeps.refl | apply keepsX.next | apply writeAt_keeps) | split)

theorem execTrigFastApply_keeps : ∀ {s1}, keepsX s1 (execTrigFastApply s1) := by
  intro s1
  unfold execTrigFastApply
  repeat' (first | (with_reducible first | assumption | exact keeps.refl | apply keepsX.next | apply runChanges_keeps))

theorem execLateCapRearm_keeps : ∀ {x0 x1 x2 s4}, keepsX s4 (execLateCapRearm x0 x1 x2 s4) := by
  intro x0 x1 x2 s4
  unfold execLateCapRearm
  repeat' (first | (with_reducible first | assumption | exact keeps.refl | apply keepsX.next | apply writeAt_keeps))

theorem execBufFaultRearm_keeps : ∀ {x0 x1 x2 s4}, keepsX s4 (execBufFaultRearm x0 x1 x2 s4) := by
  intro x0 x1 x2 s4
  unfold execBufFaultRearm
  repeat' (first | (with_reducible first | assumption | exact keeps.refl | apply keepsX.next | apply writeAt_keeps))

theorem execRingEnable_keeps : ∀ {x0 x1 x2 x3 s5}, keepsX s5 (execRingEnable x0 x1 x2 x3 s5) := by
  intro x0 x1 x2 x3 s5
  unfold execRingEnable
  repeat' (first | (with_reducible first | assumption | exact keeps.refl | apply keepsX.next | apply writeAt_keeps) | split)

theorem execRingDisable_keeps : ∀ {x0 x1 x2 x3 s5}, keepsX s5 (execRingDisable x0 x1 x2 x3 s5) := by
  intro x0 x1 x2 x3 s5
  unfold execRingDisable
  repeat' (first | (with_reducible first | assumption | exact keeps.refl | apply keepsX.next | apply writeAt_keeps) | split)

theorem execRingResume_keeps : ∀ {x0 x1 x2 x3 s5}, keepsX s5 (execRingResume x0 x1 x2 x3 s5) := by
  intro x0 x1 x2 x3 s5
  unfold execRingResume
  repeat' (first | (with_reducible first | assumption | exact keeps.refl | apply keepsX.next | apply keeps.ite | apply setRing_keeps | apply writeAt_keeps) | split)

theorem execMsixUnmask_keeps : ∀ {x0 x1 s3}, keepsX s3 (execMsixUnmask x0 x1 s3) := by
  intro x0 x1 s3
  unfold execMsixUnmask
  repeat' (first | (with_reducible first | assumption | exact keeps.refl | apply keepsX.next | apply writeAt_keeps))

theorem execPaceEnable_keeps : ∀ {x0 x1 x2 s4}, keepsX s4 (execPaceEnable x0 x1 x2 s4) := by
  intro x0 x1 x2 s4
  unfold execPaceEnable
  repeat' (first | (with_reducible first | assumption | exact keeps.refl | apply keepsX.next | apply writeAt_keeps) | split)

theorem execRailSet_keeps : ∀ {x0 x1 x2 x3 s5}, keepsX s5 (execRailSet x0 x1 x2 x3 s5) := by
  intro x0 x1 x2 x3 s5
  unfold execRailSet
  repeat' (first | (with_reducible first | assumption | exact keeps.refl | apply keepsX.next | apply writeAt_keeps))

theorem execRstSwL1_keeps : ∀ {x0 s2}, keepsX s2 (execRstSwL1 x0 s2) := by
  intro x0 s2
  unfold execRstSwL1
  repeat' (first | (with_reducible first | assumption | exact keeps.refl | apply keepsX.next | apply writeAt_keeps))

theorem execRstSwL2_keeps : ∀ {x0 s2}, keepsX s2 (execRstSwL2 x0 s2) := by
  intro x0 s2
  unfold execRstSwL2
  repeat' (first | (with_reducible first | assumption | exact keeps.refl | apply keepsX.next | apply writeAt_keeps))

theorem execRstSwL3_keeps : ∀ {x0 x1 s3}, keepsX s3 (execRstSwL3 x0 x1 s3) := by
  intro x0 x1 s3
  unfold execRstSwL3
  repeat' (first | (with_reducible first | assumption | exact keeps.refl | apply keepsX.next | apply writeAt_keeps))

theorem execRstSwL4_keeps : ∀ {x0 x1 s3}, keepsX s3 (execRstSwL4 x0 x1 s3) := by
  intro x0 x1 s3
  unfold execRstSwL4
  repeat' (first | (with_reducible first | assumption | exact keeps.refl | apply keepsX.next | apply writeAt_keeps))

theorem execSpiTransfer_keeps : ∀ {x0 x1 x2 s4}, keepsX s4 (execSpiTransfer x0 x1 x2 s4) := by
  intro x0 x1 x2 s4
  unfold execSpiTransfer
  repeat' (first | (with_reducible first | assumption | exact keeps.refl | apply keepsX.next | apply writeAt_keeps) | split)

theorem execSpiTxPush_keeps : ∀ {x0 x1 x2 s4}, keepsX s4 (execSpiTxPush x0 x1 x2 s4) := by
  intro x0 x1 x2 s4
  unfold execSpiTxPush
  repeat' (first | (with_reducible first | assumption | exact keeps.refl | apply keepsX.next | apply writeAt_keeps))

theorem execSpiRxPop_keeps : ∀ {x0 x1 s3}, keepsX s3 (execSpiRxPop x0 x1 s3) := by
  intro x0 x1 s3
  unfold execSpiRxPop
  repeat' (first | (with_reducible first | assumption | exact keeps.refl | apply keepsX.next | apply readRun_keeps) | split)

theorem execSpiTxFlush_keeps : ∀ {x0 x1 x2 s4}, keepsX s4 (execSpiTxFlush x0 x1 x2 s4) := by
  intro x0 x1 x2 s4
  unfold execSpiTxFlush
  repeat' (first | (with_reducible first | assumption | exact keeps.refl | apply keepsX.next | apply writeAt_keeps) | split)

theorem execSpiRxFlush_keeps : ∀ {x0 x1 x2 s4}, keepsX s4 (execSpiRxFlush x0 x1 x2 s4) := by
  intro x0 x1 x2 s4
  unfold execSpiRxFlush
  repeat' (first | (with_reducible first | assumption | exact keeps.refl | apply keepsX.next | apply writeAt_keeps) | split)

theorem execSpiDisable_keeps : ∀ {x0 x1 x2 s4}, keepsX s4 (execSpiDisable x0 x1 x2 s4) := by
  intro x0 x1 x2 s4
  unfold execSpiDisable
  repeat' (first | (with_reducible first | assumption | exact keeps.refl | apply keepsX.next | apply writeAt_keeps) | split)

theorem execAttnCauseClear_keeps : ∀ {x0 x1 s3}, keepsX s3 (execAttnCauseClear x0 x1 s3) := by
  intro x0 x1 s3
  unfold execAttnCauseClear
  repeat' (first | (with_reducible first | assumption | exact keeps.refl | apply keepsX.next | apply writeAt_keeps))

theorem execTimerEnable_keeps : ∀ {x0 x1 x2 s4}, keepsX s4 (execTimerEnable x0 x1 x2 s4) := by
  intro x0 x1 x2 s4
  unfold execTimerEnable
  repeat' (first | (with_reducible first | assumption | exact keeps.refl | apply keepsX.next | apply writeAt_keeps) | split)

theorem execTimerPinLevel_keeps : ∀ {x0 x1 s3}, keepsX s3 (execTimerPinLevel x0 x1 s3) := by
  intro x0 x1 s3
  unfold execTimerPinLevel
  repeat' (first | (with_reducible first | assumption | exact keeps.refl | apply keepsX.next | apply writeAt_keeps))

theorem execTimerReloadCommit_keeps : ∀ {x0 x1 x2 x3 s5}, keepsX s5 (execTimerReloadCommit x0 x1 x2 x3 s5) := by
  intro x0 x1 x2 x3 s5
  unfold execTimerReloadCommit
  repeat' (first | (with_reducible first | assumption | exact keeps.refl | apply keepsX.next | apply writeAt_keeps))

theorem execTimerCmpCommit_keeps : ∀ {x0 x1 x2 x3 s5}, keepsX s5 (execTimerCmpCommit x0 x1 x2 x3 s5) := by
  intro x0 x1 x2 x3 s5
  unfold execTimerCmpCommit
  repeat' (first | (with_reducible first | assumption | exact keeps.refl | apply keepsX.next | apply writeAt_keeps))

/-! ### HostCmds -/

theorem execHostLinkUp_keeps : ∀ {x0 x1 x2 x3 x4 x5 x6 s8}, keepsX s8 (execHostLinkUp x0 x1 x2 x3 x4 x5 x6 s8) := by
  intro x0 x1 x2 x3 x4 x5 x6 s8
  unfold execHostLinkUp
  repeat' (first | (with_reducible first | intro _ | assumption | exact keeps.refl | apply keepsX.next | apply setFn_keeps | apply foldl_keeps) | split | (fail_if_no_progress with_reducible apply keeps.mk))

theorem execFunctionD3hotEntry_keeps : ∀ {x0 x1 s3}, keepsX s3 (execFunctionD3hotEntry x0 x1 s3) := by
  intro x0 x1 s3
  unfold execFunctionD3hotEntry
  repeat' (first | (with_reducible first | assumption | exact keeps.refl | apply keepsX.next | apply keeps.ite | apply setFn_keeps) | (fail_if_no_progress with_reducible apply keeps.mk))

theorem sendAll_keeps {s0 : State} : ∀ {x0 s2}, keeps s0 s2 → keeps s0 (sendAll x0 s2) := by
  intro x0 s2  h
  unfold sendAll
  repeat' (with_reducible first | assumption | apply sendPending_keeps | apply foldl_keeps)

theorem execFunctionD0Entry_keeps : ∀ {x0 s2}, keepsX s2 (execFunctionD0Entry x0 s2) := by
  intro x0 s2
  unfold execFunctionD0Entry
  repeat' (first | (with_reducible first | intro _ | assumption | exact keeps.refl | apply keepsX.next | apply keeps.ite | apply sendAll_keeps | apply setFn_keeps | apply foldl_keeps) | (fail_if_no_progress with_reducible apply keeps.mk))

theorem execDoorbellPoll_keeps : ∀ {x0 x1 s3}, keepsX s3 (execDoorbellPoll x0 x1 s3) := by
  intro x0 x1 s3
  unfold execDoorbellPoll
  repeat' (first | (with_reducible first | assumption | exact keeps.refl | apply keepsX.next | apply keeps.ite | apply poll_keeps))

theorem execDoorbellInvalidate_keeps : ∀ {x0 x1 x2 s4}, keepsX s4 (execDoorbellInvalidate x0 x1 x2 s4) := by
  intro x0 x1 x2 s4
  unfold execDoorbellInvalidate
  repeat' (first | (with_reducible first | assumption | exact keeps.refl | apply keepsX.next | apply keeps.ite | apply takeWords_keeps))

theorem execNudge_keeps : ∀ {x0 x1 s3}, keepsX s3 (execNudge x0 x1 s3) := by
  intro x0 x1 s3
  unfold execNudge
  repeat' (first | (with_reducible first | assumption | exact keeps.refl | apply keepsX.next | apply keeps.ite | apply poll_keeps))

theorem execDmaReadFault_keeps : ∀ {x0 x1 s3}, keepsX s3 (execDmaReadFault x0 x1 s3) := by
  intro x0 x1 s3
  unfold execDmaReadFault
  repeat' (first | (with_reducible first | intro _ | assumption | exact keeps.refl | apply keepsX.next | apply keeps.ite | apply stopRing_keeps | apply foldl_keeps))

theorem execCoalTimeout_keeps : ∀ {x0 x1 s3}, keepsX s3 (execCoalTimeout x0 x1 s3) := by
  intro x0 x1 s3
  unfold execCoalTimeout
  repeat' (first | (with_reducible first | assumption | exact keeps.refl | apply keepsX.next | apply keeps.ite | apply sendVec_keeps | apply setRing_keeps))

theorem freeTake_keeps {s0 : State} : ∀ {x0 x1 x2 s4}, keeps s0 s4 → keeps s0 (freeTake x0 x1 x2 s4) := by
  intro x0 x1 x2 s4  h
  unfold freeTake
  repeat' (first | (with_reducible first | assumption | apply writeShadow_keeps | apply setRing_keeps | apply showRing_keeps | apply releaseBy_keeps | apply bump_keeps | apply refuseRelease_keeps | apply writeCompl_keeps) | split | dsimp +zetaDelta only)

theorem execFreeEntry_keeps : ∀ {x0 x1 x2 s4}, keepsX s4 (execFreeEntry x0 x1 x2 s4) := by
  intro x0 x1 x2 s4
  unfold execFreeEntry
  repeat' (first | (with_reducible first | assumption | exact keeps.refl | apply keepsX.next | apply keeps.ite | apply showRing_keeps | apply freeTake_keeps))

theorem execNop_keeps : ∀ {x0 s2}, keepsX s2 (execNop x0 s2) := by
  intro x0 s2
  unfold execNop
  repeat' (first | (with_reducible first | intro _ | assumption | exact keeps.refl | apply keepsX.next | apply serve_keeps | apply complete_keeps))

theorem execEcho_keeps : ∀ {x0 s2}, keepsX s2 (execEcho x0 s2) := by
  intro x0 s2
  unfold execEcho
  repeat' (first | (with_reducible first | intro _ | assumption | exact keeps.refl | apply keepsX.next | apply serve_keeps | apply complete_keeps))

theorem execJrnlSync_keeps : ∀ {x0 s2}, keepsX s2 (execJrnlSync x0 s2) := by
  intro x0 s2
  unfold execJrnlSync
  repeat' (first | (with_reducible first | intro _ | assumption | exact keeps.refl | apply keepsX.next | apply serve_keeps | apply complete_keeps))

theorem execReservedOpcode_keeps : ∀ {x0 x1 s3}, keepsX s3 (execReservedOpcode x0 x1 s3) := by
  intro x0 x1 s3
  unfold execReservedOpcode
  repeat' (first | (with_reducible first | assumption | exact keeps.refl | apply keepsX.next | apply reject_keeps | apply meetHeld_keeps) | split)

theorem serveFence_keeps {s0 : State} : ∀ {x0 x1 s3}, keeps s0 s3 → keeps s0 (serveFence x0 x1 s3) := by
  intro x0 x1 s3  h
  unfold serveFence
  repeat' (first | (with_reducible first | intro _ | assumption | apply keeps.ite | apply serve_keeps | apply takeWords_keeps | apply fences_keeps | apply setJrnl_keeps | apply stopRing_keeps))

theorem execFenceExec_keeps : ∀ {x0 x1 s3}, keepsX s3 (execFenceExec x0 x1 s3) := by
  intro x0 x1 s3
  unfold execFenceExec
  repeat' (first | (with_reducible first | assumption | exact keeps.refl | apply keepsX.next | apply serveFence_keeps) | split)

theorem execFenceFunc_keeps : ∀ {x0 x1 s3}, keepsX s3 (execFenceFunc x0 x1 s3) := by
  intro x0 x1 s3
  unfold execFenceFunc
  repeat' (first | (with_reducible first | assumption | exact keeps.refl | apply keepsX.next | apply serveFence_keeps) | split)

theorem execFenceData_keeps : ∀ {x0 x1 s3}, keepsX s3 (execFenceData x0 x1 s3) := by
  intro x0 x1 s3
  unfold execFenceData
  repeat' (first | (with_reducible first | assumption | exact keeps.refl | apply keepsX.next | apply serveFence_keeps) | split)

theorem execFenceTime_keeps : ∀ {x0 x1 s3}, keepsX s3 (execFenceTime x0 x1 s3) := by
  intro x0 x1 s3
  unfold execFenceTime
  repeat' (first | (with_reducible first | assumption | exact keeps.refl | apply keepsX.next | apply serveFence_keeps) | split)

theorem execFenceTimeReached_keeps : ∀ {s1}, keepsX s1 (execFenceTimeReached s1) := by
  intro s1
  unfold execFenceTimeReached
  repeat' (first | (with_reducible first | assumption | exact keeps.refl | apply keepsX.next | apply fences_keeps))

theorem execStatsSnap_keeps : ∀ {x0 x1 s3}, keepsX s3 (execStatsSnap x0 x1 s3) := by
  intro x0 x1 s3
  unfold execStatsSnap
  repeat' (first | (with_reducible first | intro _ | assumption | exact keeps.refl | apply keepsX.next | apply serve_keeps | apply complete_keeps | apply emit_keeps))

theorem execCounterReadStream_keeps : ∀ {x0 s2}, keepsX s2 (execCounterReadStream x0 s2) := by
  intro x0 s2
  unfold execCounterReadStream
  repeat' (first | (with_reducible first | intro _ | assumption | exact keeps.refl | apply keepsX.next | apply serve_keeps | apply complete_keeps | apply emit_keeps) | split)

theorem execCounterReadFunction_keeps : ∀ {x0 s2}, keepsX s2 (execCounterReadFunction x0 s2) := by
  intro x0 s2
  unfold execCounterReadFunction
  repeat' (first | (with_reducible first | intro _ | assumption | exact keeps.refl | apply keepsX.next | apply serve_keeps | apply complete_keeps | apply emit_keeps) | split)

/-! ### CfgCmds -/

theorem applyPair_keeps {s0 : State} : ∀ {x0 x1 s3 x3}, keeps s0 s3 → keeps s0 (applyPair x0 x1 s3 x3) := by
  intro x0 x1 s3 x3  h
  unfold applyPair
  repeat' (first | (with_reducible first | assumption | apply holdHi_keeps | apply commitDw_keeps) | split)

theorem applyPairs_keeps {s0 : State} : ∀ {x0 x1 s3}, keeps s0 s3 → keeps s0 (applyPairs x0 x1 s3) := by
  intro x0 x1 s3  h
  unfold applyPairs
  repeat' (first | (with_reducible first | assumption | apply applyPair_keeps | apply foldl_keeps))

theorem execPortCfg_keeps : ∀ {x0 s2}, keepsX s2 (execPortCfg x0 s2) := by
  intro x0 s2
  unfold execPortCfg
  repeat' (first | (with_reducible first | intro _ | assumption | exact keeps.refl | apply keepsX.next | apply serve_keeps | apply complete_keeps | apply applyPairs_keeps))

theorem execTbCfg_keeps : ∀ {x0 s2}, keepsX s2 (execTbCfg x0 s2) := by
  intro x0 s2
  unfold execTbCfg
  repeat' (first | (with_reducible first | intro _ | assumption | exact keeps.refl | apply keepsX.next | apply serve_keeps | apply complete_keeps | apply applyPairs_keeps) | split)

theorem execTbRelease_keeps : ∀ {x0 s2}, keepsX s2 (execTbRelease x0 s2) := by
  intro x0 s2
  unfold execTbRelease
  repeat' (first | (with_reducible first | intro _ | assumption | exact keeps.refl | apply keepsX.next | apply serve_keeps | apply complete_keeps | apply disown_keeps | apply applyPairs_keeps) | split)

theorem trigWrites_keeps {s0 : State} {who : Requester} : ∀ {l : List (Nat × Nat)} {s : State} {v t}, trigWrites who l s = (v, t) → keeps s0 s → keeps s0 t
  | [], _, _, _, e, h => by unfold trigWrites at e; cases e; exact h
  | p :: l, s, v, t, e, h => by
    unfold trigWrites at e
    dsimp only at e
    repeat' split at e
    · exact trigWrites_keeps e h
    · exact trigWrites_keeps e (holdHi_keeps h)
    · cases e
      exact trigWrites_keeps rfl (dropLatch_keeps h)
theorem trigWrites_keeps2 {s0 : State} {who : Requester} {l : List (Nat × Nat)} {s : State} (h : keeps s0 s) : keeps s0 (trigWrites who l s).2 := trigWrites_keeps rfl h

theorem execTrigFastSet_keeps : ∀ {x0 s2}, keepsX s2 (execTrigFastSet x0 s2) := by
  intro x0 s2
  unfold execTrigFastSet
  repeat' (first | (with_reducible first | intro _ | assumption | exact keeps.refl | apply keepsX.next | apply serve_keeps | apply trigWrites_keeps2 | apply offerChange_keeps) | split)

theorem execFastRelease_keeps : ∀ {x0 s2}, keepsX s2 (execFastRelease x0 s2) := by
  intro x0 s2
  unfold execFastRelease
  repeat' (first | (with_reducible first | intro _ | assumption | exact keeps.refl | apply keepsX.next | apply serve_keeps | apply trigWrites_keeps2 | apply offerChange_keeps) | split)

/-! ### TwCmds -/

theorem mgmtRegRead_keeps2 {s0 : State} : ∀ {x0 s2}, keeps s0 s2 → keeps s0 (mgmtRegRead x0 s2).2.2 := by
  intro x0 s2  h
  unfold mgmtRegRead
  repeat' (first | (with_reducible first | assumption | apply readDw_keeps2) | split)
theorem mgmtRegRead_keeps {s0 : State} : ∀ {x0 s2 v w t}, mgmtRegRead x0 s2 = (v, w, t) → keeps s0 s2 → keeps s0 t := by
  intro x0 s2 v w t  e h
  have h2 : keeps s0 (mgmtRegRead x0 s2).2.2 := mgmtRegRead_keeps2  h
  rw [e] at h2
  exact h2

theorem mgmtResult_keeps {s0 : State} : ∀ {x0 x1 s3}, keeps s0 s3 → keeps s0 (mgmtResult x0 x1 s3) := by
  intro x0 x1 s3  h
  unfold mgmtResult
  repeat' (first | (with_reducible first | assumption | apply setFld_keeps))

theorem mgmtReset_keeps2 {s0 : State} : ∀ {x0 s2}, keeps s0 s2 → keeps s0 (mgmtReset x0 s2).2 := by
  intro x0 s2  h
  unfold mgmtReset
  repeat' (first | (with_reducible first | assumption | apply resetRequest_keeps) | split)
theorem mgmtReset_keeps {s0 : State} : ∀ {x0 s2 v t}, mgmtReset x0 s2 = (v, t) → keeps s0 s2 → keeps s0 t := by
  intro x0 s2 v t  e h
  have h2 : keeps s0 (mgmtReset x0 s2).2 := mgmtReset_keeps2  h
  rw [e] at h2
  exact h2

theorem mgmtSafe_keeps2 {s0 : State} : ∀ {x0 s2}, keeps s0 s2 → keeps s0 (mgmtSafe x0 s2).2 := by
  intro x0 s2  h
  unfold mgmtSafe
  repeat' (first | (fail_if_no_progress extract_lets +onlyGivenNames y) | (with_reducible first | assumption | apply journalReg_keeps | apply modeRequest_keeps) | split)
theorem mgmtSafe_keeps {s0 : State} : ∀ {x0 s2 v t}, mgmtSafe x0 s2 = (v, t) → keeps s0 s2 → keeps s0 t := by
  intro x0 s2 v t  e h
  have h2 : keeps s0 (mgmtSafe x0 s2).2 := mgmtSafe_keeps2  h
  rw [e] at h2
  exact h2

theorem mgmtAttnClr_keeps2 {s0 : State} : ∀ {x0 s2}, keeps s0 s2 → keeps s0 (mgmtAttnClr x0 s2).2 := by
  intro x0 s2  h
  unfold mgmtAttnClr
  repeat' (first | (with_reducible first | assumption | apply attnClear_keeps) | split)
theorem mgmtAttnClr_keeps {s0 : State} : ∀ {x0 s2 v t}, mgmtAttnClr x0 s2 = (v, t) → keeps s0 s2 → keeps s0 t := by
  intro x0 s2 v t  e h
  have h2 : keeps s0 (mgmtAttnClr x0 s2).2 := mgmtAttnClr_keeps2  h
  rw [e] at h2
  exact h2

theorem mgmtWrite_keeps2 {s0 : State} : ∀ {x0 x1 s3}, keeps s0 s3 → keeps s0 (mgmtWrite x0 x1 s3).2 := by
  intro x0 x1 s3  h
  unfold mgmtWrite
  repeat' (first | (with_reducible first | assumption | apply mgmtReset_keeps2 | apply mgmtResult_keeps | apply mgmtSafe_keeps2 | apply mgmtAttnClr_keeps2) | split)
theorem mgmtWrite_keeps {s0 : State} : ∀ {x0 x1 s3 v t}, mgmtWrite x0 x1 s3 = (v, t) → keeps s0 s3 → keeps s0 t := by
  intro x0 x1 s3 v t  e h
  have h2 : keeps s0 (mgmtWrite x0 x1 s3).2 := mgmtWrite_keeps2  h
  rw [e] at h2
  exact h2

theorem execTw0AddressMatch_keeps : ∀ {x0 s2}, keepsX s2 (execTw0AddressMatch x0 s2) := by
  intro x0 s2
  unfold execTw0AddressMatch
  repeat' (first | (with_reducible first | assumption | exact keeps.refl | apply keepsX.next | apply keeps.ite | apply bump_keeps | apply setTw_keeps) | split)

theorem tw0Stop_keeps {s0 : State} : ∀ {s1}, keeps s0 s1 → keeps s0 (tw0Stop s1) := by
  intro s1  h
  unfold tw0Stop
  repeat' (first | (with_reducible first | assumption | apply setTw_keeps))

theorem execTw0Sleep_keeps : ∀ {s1}, keepsX s1 (execTw0Sleep s1) := by
  intro s1
  unfold execTw0Sleep
  repeat' (first | (with_reducible first | assumption | exact keeps.refl | apply keepsX.next | apply keeps.ite | apply setTw_keeps))

theorem stretchOver_keeps {s0 : State} : ∀ {s1}, keeps s0 s1 → keeps s0 (stretchOver s1) := by
  intro s1  h
  unfold stretchOver
  repeat' (first | (with_reducible first | assumption | apply setFld_keeps | apply bump_keeps))

theorem execTw0StretchExpire_keeps : ∀ {x0 s2}, keepsX s2 (execTw0StretchExpire x0 s2) := by
  intro x0 s2
  unfold execTw0StretchExpire
  repeat' (first | (with_reducible first | assumption | exact keeps.refl | apply keepsX.next | apply emit_keeps | apply tw0Stop_keeps | apply stretchOver_keeps) | split)

theorem tw0Block_keeps {s0 : State} : ∀ {x0 s2}, keeps s0 s2 → keeps s0 (tw0Block x0 s2) := by
  intro x0 s2  h
  unfold tw0Block
  repeat' (first | (with_reducible first | assumption | apply keeps.ite | apply emit_keeps | apply tw0Stop_keeps))

theorem execTw0Id_keeps : ∀ {s1}, keepsX s1 (execTw0Id s1) := by
  intro s1
  unfold execTw0Id
  repeat' (first | (with_reducible first | assumption | exact keeps.refl | apply keepsX.next | apply tw0Block_keeps))

theorem execTw0Status_keeps : ∀ {s1}, keepsX s1 (execTw0Status s1) := by
  intro s1
  unfold execTw0Status
  repeat' (first | (with_reducible first | assumption | exact keeps.refl | apply keepsX.next | apply tw0Block_keeps))

theorem execTw0Temp_keeps : ∀ {s1}, keepsX s1 (execTw0Temp s1) := by
  intro s1
  unfold execTw0Temp
  repeat' (first | (with_reducible first | assumption | exact keeps.refl | apply keepsX.next | apply tw0Block_keeps))

theorem execTw0Rails_keeps : ∀ {s1}, keepsX s1 (execTw0Rails s1) := by
  intro s1
  unfold execTw0Rails
  repeat' (first | (with_reducible first | assumption | exact keeps.refl | apply keepsX.next | apply tw0Block_keeps))

theorem execTw0Result_keeps : ∀ {s1}, keepsX s1 (execTw0Result s1) := by
  intro s1
  unfold execTw0Result
  repeat' (first | (with_reducible first | assumption | exact keeps.refl | apply keepsX.next | apply tw0Block_keeps))

theorem execTw0RegRead_keeps : ∀ {x0 s2}, keepsX s2 (execTw0RegRead x0 s2) := by
  intro x0 s2
  unfold execTw0RegRead
  repeat' (first | (with_reducible first | assumption | exact keeps.refl | apply keepsX.next | apply mgmtRegRead_keeps2 | apply emit_keeps | apply tw0Stop_keeps) | split)

theorem tw0Invalid_keeps {s0 : State} : ∀ {x0 x1 s3}, keeps s0 s3 → keeps s0 (tw0Invalid x0 x1 s3) := by
  intro x0 x1 s3  h
  unfold tw0Invalid
  repeat' (first | (with_reducible first | assumption | apply emit_keeps | apply tw0Stop_keeps | apply mgmtResult_keeps | apply bump_keeps))

theorem tw0Write_keeps {s0 : State} : ∀ {x0 x1 x2 s4}, keeps s0 s4 → keeps s0 (tw0Write x0 x1 x2 s4) := by
  intro x0 x1 x2 s4  h
  unfold tw0Write
  repeat' (first | (fail_if_no_progress extract_lets +onlyGivenNames y) | (with_reducible first | assumption | apply mgmtResult_keeps | apply tw0Stop_keeps | apply mgmtWrite_keeps2 | apply tw0Invalid_keeps | apply emit_keeps | apply setFld_keeps | apply bump_keeps) | split)

theorem execTw0Reset_keeps : ∀ {x0 x1 s3}, keepsX s3 (execTw0Reset x0 x1 s3) := by
  intro x0 x1 s3
  unfold execTw0Reset
  repeat' (first | (with_reducible first | assumption | exact keeps.refl | apply keepsX.next | apply tw0Write_keeps))

theorem execTw0Safe_keeps : ∀ {x0 x1 s3}, keepsX s3 (execTw0Safe x0 x1 s3) := by
  intro x0 x1 s3
  unfold execTw0Safe
  repeat' (first | (with_reducible first | assumption | exact keeps.refl | apply keepsX.next | apply tw0Write_keeps))

theorem execTw0AttnClr_keeps : ∀ {x0 x1 s3}, keepsX s3 (execTw0AttnClr x0 x1 s3) := by
  intro x0 x1 s3
  unfold execTw0AttnClr
  repeat' (first | (with_reducible first | assumption | exact keeps.refl | apply keepsX.next | apply tw0Write_keeps))

theorem execTw0InvalidTransfer_keeps : ∀ {x0 x1 s3}, keepsX s3 (execTw0InvalidTransfer x0 x1 s3) := by
  intro x0 x1 s3
  unfold execTw0InvalidTransfer
  repeat' (first | (fail_if_no_progress extract_lets +onlyGivenNames y) | (with_reducible first | assumption | exact keeps.refl | apply keepsX.next | apply tw0Invalid_keeps) | split)

theorem execAttnRequest_keeps : ∀ {x0 s2}, keepsX s2 (execAttnRequest x0 s2) := by
  intro x0 s2
  unfold execAttnRequest
  repeat' (first | (with_reducible first | assumption | exact keeps.refl | apply keepsX.next | apply keeps.ite | apply bump_keeps | apply setTw_keeps | apply emit_keeps))

theorem execAttnRepeat_keeps : ∀ {s1}, keepsX s1 (execAttnRepeat s1) := by
  intro s1
  unfold execAttnRepeat
  repeat' (first | (with_reducible first | assumption | exact keeps.refl | apply keepsX.next | apply keeps.ite | apply setTw_keeps))

theorem busClear_keeps {s0 : State} : ∀ {x0 s2}, keeps s0 s2 → keeps s0 (busClear x0 s2) := by
  intro x0 s2  h
  unfold busClear
  repeat' (first | (with_reducible first | assumption | apply bump_keeps | apply emit_keeps | apply setFld_keeps) | split)

theorem execTwStuck_keeps : ∀ {x0 x1 x2 x3 s5}, keepsX s5 (execTwStuck x0 x1 x2 x3 s5) := by
  intro x0 x1 x2 x3 s5
  unfold execTwStuck
  repeat' (first | (with_reducible first | assumption | exact keeps.refl | apply keepsX.next | apply bump_keeps | apply setFld_keeps | apply busClear_keeps | apply mgmtResult_keeps | apply setTw_keeps | apply tw0Stop_keeps) | split | dsimp +zetaDelta only)

/-! ### SpiCmds -/

theorem spiOver_keeps {s0 : State} : ∀ {x0 s2}, keeps s0 s2 → keeps s0 (spiOver x0 s2) := by
  intro x0 s2  h
  unfold spiOver
  repeat' (with_reducible first | assumption | apply keeps.ite | apply flashBegin_keeps)

theorem execSpiTransferDone_keeps : ∀ {x0 x1 s3}, keepsX s3 (execSpiTransferDone x0 x1 s3) := by
  intro x0 x1 s3
  unfold execSpiTransferDone
  repeat' (first | (with_reducible first | assumption | exact keeps.refl | apply keepsX.next | apply spiOver_keeps | apply spiEnd_keeps | apply spiClock_keeps) | split)

theorem execSpiFifoResume_keeps : ∀ {x0 x1 s3}, keepsX s3 (execSpiFifoResume x0 x1 s3) := by
  intro x0 x1 s3
  unfold execSpiFifoResume
  repeat' (first | (with_reducible first | assumption | exact keeps.refl | apply keepsX.next | apply spiClock_keeps) | split)

theorem frameWords_keeps {s0 : State} {k : Nat} : ∀ {n : Nat} {l : List Nat} {s : State} {v t}, frameWords k n l s = (v, t) → keeps s0 s → keeps s0 t
  | 0, _, _, _, _, e, h => by unfold frameWords at e; cases e; exact h
  | n + 1, l, s, v, t, e, h => by
    unfold frameWords at e
    dsimp only at e
    repeat' split at e
    · cases e; exact h
    · cases e; exact frameWords_keeps rfl (takeFree_keeps2 h)
    · cases e; exact frameWords_keeps rfl h
theorem frameWords_keeps2 {s0 : State} {k n : Nat} {l : List Nat} {s : State} (h : keeps s0 s) : keeps s0 (frameWords k n l s).2 := frameWords_keeps rfl h

theorem frameReply_keeps {s0 : State} : ∀ {x0 x1 s3}, keeps s0 s3 → keeps s0 (frameReply x0 x1 s3) := by
  intro x0 x1 s3  h
  unfold frameReply
  repeat' (first | (with_reducible first | intro _ | assumption | apply frameWords_keeps2 | apply spiPush_keeps | apply foldl_keeps))

theorem frameRun_keeps {s0 : State} : ∀ {x0 s2}, keeps s0 s2 → keeps s0 (frameRun x0 s2) := by
  intro x0 s2  h
  unfold frameRun
  repeat' (first | (with_reducible first | assumption | apply keeps.ite | apply frameReply_keeps | apply mgmtResult_keeps | apply mgmtWrite_keeps2 | apply mgmtRegRead_keeps2))

theorem frameByte_keeps {s0 : State} : ∀ {s1 x1}, keeps s0 s1 → keeps s0 (frameByte s1 x1) := by
  intro s1 x1  h
  unfold frameByte
  repeat' (first | (with_reducible first | assumption | apply keeps.ite | apply frameRun_keeps | apply setSpi_keeps))

theorem frameEnd_keeps {s0 : State} : ∀ {s1}, keeps s0 s1 → keeps s0 (frameEnd s1) := by
  intro s1  h
  unfold frameEnd
  repeat' (first | (with_reducible first | assumption | apply setSpi_keeps | apply frameReply_keeps | apply mgmtResult_keeps) | split)

theorem frameRead_keeps {s0 : State} : ∀ {n : Nat} {s : State}, keeps s0 s → keeps s0 (frameRead n s)
  | 0, _, h => h
  | n + 1, s, h => by
    unfold frameRead
    dsimp only
    repeat' (first | with_reducible assumption | with_reducible apply frameRead_keeps | with_reducible apply frameEnd_keeps | with_reducible apply setSpi_keeps | (refine foldl_keeps (fun _ _ h => frameByte_keeps h) _ ?_) | split)

theorem tgtBusy_keeps {s0 : State} : ∀ {x0 s2}, keeps s0 s2 → keeps s0 (tgtBusy x0 s2) := by
  intro x0 s2  h
  unfold tgtBusy
  repeat' (first | (with_reducible first | assumption | apply keeps.ite | apply emit_keeps | apply setReg_keeps))

theorem tgtDeliver_keeps {s0 : State} : ∀ {x0 s2}, keeps s0 s2 → keeps s0 (tgtDeliver x0 s2) := by
  intro x0 s2  h
  unfold tgtDeliver
  repeat' (first | (with_reducible first | assumption | apply keeps.ite | apply setFld_keeps | apply setSpi_keeps))

theorem tgtSend_keeps {s0 : State} : ∀ {x0 s2}, keeps s0 s2 → keeps s0 (tgtSend x0 s2) := by
  intro x0 s2  h
  unfold tgtSend
  repeat' (first | (with_reducible first | assumption | apply emit_keeps | apply setSpi_keeps | apply setFld_keeps | apply tgtBusy_keeps) | split)

theorem execSpiTargetSelect_keeps : ∀ {x0 x1 s3}, keepsX s3 (execSpiTargetSelect x0 x1 s3) := by
  intro x0 x1 s3
  unfold execSpiTargetSelect
  repeat' (first | (with_reducible first | assumption | exact keeps.refl | apply keepsX.next | apply keeps.ite | apply setSpi_keeps | apply frameRead_keeps))

theorem execSpiTargetWord_keeps : ∀ {x0 x1 s3}, keepsX s3 (execSpiTargetWord x0 x1 s3) := by
  intro x0 x1 s3
  unfold execSpiTargetWord
  repeat' (first | (with_reducible first | assumption | exact keeps.refl | apply keepsX.next | apply keeps.ite | apply tgtBusy_keeps | apply frameRead_keeps | apply tgtDeliver_keeps | apply tgtSend_keeps))

theorem tgtRelease_keeps {s0 : State} : ∀ {x0 x1 s3}, keeps s0 s3 → keeps s0 (tgtRelease x0 x1 s3) := by
  intro x0 x1 s3  h
  unfold tgtRelease
  repeat' (first | ((fail_if_no_progress extract_lets +onlyGivenNames x); refine (fun (hx : keeps s0 x) => ?_) ?_; clear_value x; rotate_left; dsimp only [x]) | (with_reducible first | assumption | apply setSpi_keeps | apply frameEnd_keeps | apply setFld_keeps | apply tgtBusy_keeps | apply tgtDeliver_keeps) | split)

theorem execSpiTargetDeselect_keeps : ∀ {x0 x1 x2 s4}, keepsX s4 (execSpiTargetDeselect x0 x1 x2 s4) := by
  intro x0 x1 x2 s4
  unfold execSpiTargetDeselect
  repeat' (first | (with_reducible first | assumption | exact keeps.refl | apply keepsX.next | apply keeps.ite | apply frameRead_keeps | apply tgtRelease_keeps))

/-! ### ResetCmds -/

theorem execPowerOnReset_keeps : ∀ {s1}, keepsX s1 (execPowerOnReset s1) := by
  intro s1
  unfold execPowerOnReset
  repeat' (first | (with_reducible first | assumption | exact keeps.refl | apply keepsX.next | apply endHold_keeps | apply setRst_keeps) | split)

theorem execBrownOut_keeps : ∀ {s1}, keepsX s1 (execBrownOut s1) := by
  intro s1
  unfold execBrownOut
  repeat' (first | (with_reducible first | assumption | exact keeps.refl | apply keepsX.next | apply resetRequest_keeps | apply setRst_keeps) | split)

theorem execPowerFail_keeps : ∀ {s1}, keepsX s1 (execPowerFail s1) := by
  intro s1
  unfold execPowerFail
  repeat' (first | (with_reducible first | assumption | exact keeps.refl | apply keepsX.next | apply resetRequest_keeps | apply setRst_keeps) | split)

theorem pulseAsserts_keeps2 {s0 : State} : ∀ {x0 s2}, keeps s0 s2 → keeps s0 (pulseAsserts x0 s2).2 := by
  intro x0 s2  h
  unfold pulseAsserts
  repeat' (first | (with_reducible first | assumption | apply takeFree_keeps2) | split)
theorem pulseAsserts_keeps {s0 : State} : ∀ {x0 s2 v t}, pulseAsserts x0 s2 = (v, t) → keeps s0 s2 → keeps s0 t := by
  intro x0 s2 v t  e h
  have h2 : keeps s0 (pulseAsserts x0 s2).2 := pulseAsserts_keeps2  h
  rw [e] at h2
  exact h2

theorem pinLow_keeps {s0 : State} : ∀ {x0 x1 x2 s4}, keeps s0 s4 → keeps s0 (pinLow x0 x1 x2 s4) := by
  intro x0 x1 x2 s4  h
  unfold pinLow
  repeat' (first | (with_reducible first | assumption | apply keeps.ite | apply pulseAsserts_keeps2 | apply resetRequest_keeps | apply setRst_keeps | apply bump_keeps))

theorem pinHigh_keeps {s0 : State} : ∀ {x0 x1 x2 s4}, keeps s0 s4 → keeps s0 (pinHigh x0 x1 x2 s4) := by
  intro x0 x1 x2 s4  h
  unfold pinHigh
  repeat' (first | ((fail_if_no_progress extract_lets +onlyGivenNames x); refine (fun (hx : keeps s0 x) => ?_) ?_; clear_value x; rotate_left; dsimp only [x]) | (with_reducible first | assumption | apply setRst_keeps | apply endHold_keeps) | split)

theorem execSysrstAssert_keeps : ∀ {x0 s2}, keepsX s2 (execSysrstAssert x0 s2) := by
  intro x0 s2
  unfold execSysrstAssert
  repeat' (first | (with_reducible first | assumption | exact keeps.refl | apply keepsX.next | apply pinLow_keeps))

theorem execSysrstRelease_keeps : ∀ {x0 s2}, keepsX s2 (execSysrstRelease x0 s2) := by
  intro x0 s2
  unfold execSysrstRelease
  repeat' (first | (with_reducible first | assumption | exact keeps.refl | apply keepsX.next | apply pinHigh_keeps))

theorem execPerstAssert_keeps : ∀ {x0 s2}, keepsX s2 (execPerstAssert x0 s2) := by
  intro x0 s2
  unfold execPerstAssert
  repeat' (first | (with_reducible first | assumption | exact keeps.refl | apply keepsX.next | apply pinLow_keeps))

theorem execPerstRelease_keeps : ∀ {x0 s2}, keepsX s2 (execPerstRelease x0 s2) := by
  intro x0 s2
  unfold execPerstRelease
  repeat' (first | (with_reducible first | assumption | exact keeps.refl | apply keepsX.next | apply pinHigh_keeps))

theorem execHotReset_keeps : ∀ {s1}, keepsX s1 (execHotReset s1) := by
  intro s1
  unfold execHotReset
  repeat' (first | (with_reducible first | assumption | exact keeps.refl | apply keepsX.next | apply resetRequest_keeps) | split)

theorem execFlr_keeps : ∀ {x0 s2}, keepsX s2 (execFlr x0 s2) := by
  intro x0 s2
  unfold execFlr
  repeat' (first | (with_reducible first | assumption | exact keeps.refl | apply keepsX.next | apply resetRequest_keeps) | split)

theorem execWatchdogExpire_keeps : ∀ {s1}, keepsX s1 (execWatchdogExpire s1) := by
  intro s1
  unfold execWatchdogExpire
  repeat' (first | (with_reducible first | assumption | exact keeps.refl | apply keepsX.next | apply resetRequest_keeps) | split)

theorem execThermalTrip_keeps : ∀ {x0 s2}, keepsX s2 (execThermalTrip x0 s2) := by
  intro x0 s2
  unfold execThermalTrip
  repeat' (first | (with_reducible first | assumption | exact keeps.refl | apply keepsX.next | apply resetRequest_keeps | apply setMode_keeps) | split)

theorem execThermalTripRelease_keeps : ∀ {x0 s2}, keepsX s2 (execThermalTripRelease x0 s2) := by
  intro x0 s2
  unfold execThermalTripRelease
  repeat' (first | (with_reducible first | assumption | exact keeps.refl | apply keepsX.next | apply setMode_keeps | apply endHold_keeps) | split)

theorem execJtagDevrst_keeps : ∀ {s1}, keepsX s1 (execJtagDevrst s1) := by
  intro s1
  unfold execJtagDevrst
  repeat' (first | (with_reducible first | assumption | exact keeps.refl | apply keepsX.next | apply resetRequest_keeps) | split)

theorem execBringupReleaseStep_keeps : ∀ {x0 x1 s3}, keepsX s3 (execBringupReleaseStep x0 x1 s3) := by
  intro x0 x1 s3
  unfold execBringupReleaseStep
  repeat' (first | (with_reducible first | assumption | exact keeps.refl | apply keepsX.next | apply releaseStep_keeps))

/-! ### ModeCmds -/

theorem execModeSet_keeps : ∀ {x0 s2}, keepsX s2 (execModeSet x0 s2) := by
  intro x0 s2
  unfold execModeSet
  repeat' (first | (with_reducible first | intro _ | assumption | exact keeps.refl | apply keepsX.next | apply serve_keeps | apply modeRequest_keeps))

theorem execModeTransitionDone_keeps : ∀ {s1}, keepsX s1 (execModeTransitionDone s1) := by
  intro s1
  unfold execModeTransitionDone
  repeat' (first | (with_reducible first | assumption | exact keeps.refl | apply keepsX.next | apply modeEnd_keeps) | split)

theorem execSafeEntryThermal_keeps : ∀ {s1}, keepsX s1 (execSafeEntryThermal s1) := by
  intro s1
  unfold execSafeEntryThermal
  repeat' (first | (with_reducible first | assumption | exact keeps.refl | apply keepsX.next | apply safeEnter_keeps | apply setMode_keeps) | split)

theorem execSafeEntrySupply_keeps : ∀ {x0 s2}, keepsX s2 (execSafeEntrySupply x0 s2) := by
  intro x0 s2
  unfold execSafeEntrySupply
  repeat' (first | (with_reducible first | assumption | exact keeps.refl | apply keepsX.next | apply setMode_keeps | apply safeEnter_keeps) | split)

theorem execDrainTimeout_keeps : ∀ {s1}, keepsX s1 (execDrainTimeout s1) := by
  intro s1
  unfold execDrainTimeout
  repeat' (first | (with_reducible first | assumption | exact keeps.refl | apply keepsX.next | apply drainBuilds_keeps) | split)

theorem execThermalWarning_keeps : ∀ {x0 s2}, keepsX s2 (execThermalWarning x0 s2) := by
  intro x0 s2
  unfold execThermalWarning
  repeat' (first | (fail_if_no_progress extract_lets +onlyGivenNames y) | (with_reducible first | assumption | exact keeps.refl | apply keepsX.next | apply setMode_keeps | apply attnRaise_keeps) | split)

end Sys2Proof.Machine
end

