-- ==== Sys2Proof/Laws/Keeps6.lean ====
section
/-! SUPPORT. What every operation keeps (part 6 of 7): the rest of the commands and the rows of the engine strings. -/

namespace Sys2Proof.Machine

set_option Elab.async false
set_option linter.all false

/-! ### TmrCmds -/

theorem execTimerMatch_keeps : ∀ {x0 s2}, keepsX s2 (execTimerMatch x0 s2) := by
  intro x0 s2
  unfold execTimerMatch
  repeat' (first | (with_reducible first | assumption | exact keeps.refl | apply keepsX.next | apply tmrMatch_keeps) | split)

theorem execTimerReload_keeps : ∀ {x0 s2}, keepsX s2 (execTimerReload x0 s2) := by
  intro x0 s2
  unfold execTimerReload
  repeat' (first | (with_reducible first | assumption | exact keeps.refl | apply keepsX.next | apply tmrReloadTick_keeps) | split)

theorem tmrCapture_keeps {s0 : State} : ∀ {x0 x1 s3 x3}, keeps s0 s3 → keeps s0 (tmrCapture x0 x1 s3 x3) := by
  intro x0 x1 s3 x3  h
  unfold tmrCapture
  repeat' (first | (with_reducible first | assumption | apply keeps.ite | apply setReg_keeps | apply tmrNote_keeps | apply tmrFlag_keeps))

theorem execTimerCapture_keeps : ∀ {x0 x1 s3}, keepsX s3 (execTimerCapture x0 x1 s3) := by
  intro x0 x1 s3
  unfold execTimerCapture
  repeat' (first | (with_reducible first | intro _ | assumption | exact keeps.refl | apply keepsX.next | apply tmrCapture_keeps | apply tmrEdges_keeps | apply foldl_keeps) | split)

theorem execTimerTimeFire_keeps : ∀ {x0 s2}, keepsX s2 (execTimerTimeFire x0 s2) := by
  intro x0 s2
  unfold execTimerTimeFire
  repeat' (first | (with_reducible first | assumption | exact keeps.refl | apply keepsX.next | apply tmrFire_keeps) | split)

/-! ### EngCmds -/

theorem freshMarks_keeps {s0 : State} : ∀ {x0 x1 s3}, keeps s0 s3 → keeps s0 (freshMarks x0 x1 s3) := by
  intro x0 x1 s3  h
  unfold freshMarks
  repeat' (with_reducible first | assumption | apply keeps.ite | apply setEng_keeps)

theorem execTaskStart_keeps : ∀ {x0 s2}, keepsX s2 (execTaskStart x0 s2) := by
  intro x0 s2
  unfold execTaskStart
  repeat' (first | (with_reducible first | intro _ | assumption | exact keeps.refl | apply keepsX.next | apply serve_keeps | apply complete_keeps | apply makeReady_keeps | apply freshMarks_keeps | apply setTask_keeps) | split)

theorem execTaskKick_keeps : ∀ {x0 s2}, keepsX s2 (execTaskKick x0 s2) := by
  intro x0 s2
  unfold execTaskKick
  repeat' (first | (with_reducible first | intro _ | assumption | exact keeps.refl | apply keepsX.next | apply serve_keeps | apply complete_keeps | apply msgLand_keeps) | split)

theorem execTaskCancel_keeps : ∀ {x0 s2}, keepsX s2 (execTaskCancel x0 s2) := by
  intro x0 s2
  unfold execTaskCancel
  repeat' (first | (with_reducible first | intro _ | assumption | exact keeps.refl | apply keepsX.next | apply serve_keeps | apply cancelSlot_keeps))

theorem execTaskPrio_keeps : ∀ {x0 s2}, keepsX s2 (execTaskPrio x0 s2) := by
  intro x0 s2
  unfold execTaskPrio
  repeat' (first | (with_reducible first | intro _ | assumption | exact keeps.refl | apply keepsX.next | apply serve_keeps | apply complete_keeps | apply setTask_keeps))

theorem loadUnit_keepsO {s0 : State} : ∀ {x0 x1 x2 x3 s5}, keeps s0 s5 → optAll (fun t => keeps s0 t) (loadUnit x0 x1 x2 x3 s5) := by
  intro x0 x1 x2 x3 s5  h
  unfold loadUnit
  repeat' (first | (fail_if_no_progress extract_lets +onlyGivenNames y) | (with_reducible first | assumption | apply optAll.none | apply optAll.some | apply dataWr_keeps | apply vecWr_keeps | apply progWr_keeps) | split)
theorem loadUnit_keeps {s0 : State} : ∀ {x0 x1 x2 x3 s5 t}, loadUnit x0 x1 x2 x3 s5 = some t → keeps s0 s5 → keeps s0 t := by
  intro x0 x1 x2 x3 s5 t  e h
  exact loadUnit_keepsO  h _ e

theorem loadUnits_keeps {s0 : State} {key space : Nat} : ∀ {n addr : Nat} {l : List Nat} {k : Nat} {s : State} {t v w}, loadUnits key space n addr l k s = (t, v, w) → keeps s0 s → keeps s0 t
  | 0, _, _, _, _, _, _, _, e, h => by unfold loadUnits at e; cases e; exact h
  | n + 1, addr, l, k, s, t, v, w, e, h => by
    unfold loadUnits at e
    split at e
    · cases e; exact h
    · exact loadUnits_keeps e (loadUnit_keeps (by assumption) h)
theorem loadUnits_keeps2 {s0 : State} {key space n addr : Nat} {l : List Nat} {k : Nat} {s : State} (h : keeps s0 s) : keeps s0 (loadUnits key space n addr l k s).1 := loadUnits_keeps rfl h

theorem execEngLoad_keeps : ∀ {x0 x1 s3}, keepsX s3 (execEngLoad x0 x1 s3) := by
  intro x0 x1 s3
  unfold execEngLoad
  repeat' (first | (with_reducible first | intro _ | assumption | exact keeps.refl | apply keepsX.next | apply keeps.ite | apply serve_keeps | apply complete_keeps | apply loadUnits_keeps2))

theorem execWakeTimeFire_keeps : ∀ {x0 x1 x2 s4}, keepsX s4 (execWakeTimeFire x0 x1 x2 s4) := by
  intro x0 x1 x2 s4
  unfold execWakeTimeFire
  repeat' (first | (with_reducible first | assumption | exact keeps.refl | apply keepsX.next | apply timerFire_keeps) | split)

theorem execMessageArrive_keeps : ∀ {x0 s2}, keepsX s2 (execMessageArrive x0 s2) := by
  intro x0 s2
  unfold execMessageArrive
  repeat' (first | (with_reducible first | assumption | exact keeps.refl | apply keepsX.next | apply msgLand_keeps) | split | (fail_if_no_progress with_reducible apply keeps.mk))

theorem execFenceComplete_keeps : ∀ {x0 x1 x2 s4}, keepsX s4 (execFenceComplete x0 x1 x2 s4) := by
  intro x0 x1 x2 s4
  unfold execFenceComplete
  repeat' (first | (with_reducible first | assumption | exact keeps.refl | apply keepsX.next | apply setTask_keeps))

theorem execFenceTimeout_keeps : ∀ {x0 x1 x2 s4}, keepsX s4 (execFenceTimeout x0 x1 x2 s4) := by
  intro x0 x1 x2 s4
  unfold execFenceTimeout
  repeat' (first | (with_reducible first | assumption | exact keeps.refl | apply keepsX.next | apply keeps.ite | apply setTask_keeps | apply fixReads_keeps | apply fixFetch_keeps | apply runDecoded_keeps | apply raiseTrap_keeps) | split)

theorem scrubFind_keeps {s0 : State} : ∀ {x0 s2 x2}, keeps s0 s2 → keeps s0 (scrubFind x0 s2 x2) := by
  intro x0 s2 x2  h
  unfold scrubFind
  repeat' (first | (with_reducible first | assumption | apply keeps.ite | apply bump_keeps | apply dataWr_keeps | apply setEng_keeps))

theorem goBad_keeps {s0 : State} : ∀ {x0 s2 x2}, keeps s0 s2 → keeps s0 (goBad x0 s2 x2) := by
  intro x0 s2 x2  h
  unfold goBad
  repeat' (first | (with_reducible first | assumption | apply keeps.ite | apply setEng_keeps))

theorem goSoft_keeps {s0 : State} : ∀ {x0 s2 x2}, keeps s0 s2 → keeps s0 (goSoft x0 s2 x2) := by
  intro x0 s2 x2  h
  unfold goSoft
  repeat' (with_reducible first | assumption | apply keeps.ite | apply setEng_keeps)

theorem execScrubPass_keeps : ∀ {x0 x1 x2 x3 x4 x5 s7}, keepsX s7 (execScrubPass x0 x1 x2 x3 x4 x5 s7) := by
  intro x0 x1 x2 x3 x4 x5 s7
  unfold execScrubPass
  repeat' (first | with_reducible intro _ | (fail_if_no_progress extract_lets +onlyGivenNames y) | (with_reducible first | assumption | exact keeps.refl | apply keepsX.next | apply fixLoc_keeps | apply scrubFind_keeps | apply bumpN_keeps | apply goSoft_keeps | apply goBad_keeps | apply setBuf_keeps | apply foldl_keeps) | split)

theorem execMicroStep_keeps : ∀ {x0 x1 s3}, keepsX s3 (execMicroStep x0 x1 s3) := by
  intro x0 x1 s3
  unfold execMicroStep
  repeat' (first | (fail_if_no_progress extract_lets +onlyGivenNames y) | (with_reducible first | assumption | exact keeps.refl | apply keepsX.next | apply issue_keeps | apply switchTo_keeps) | split)

theorem execTpQueueRoom_keeps : ∀ {x0 x1 s3}, keepsX s3 (execTpQueueRoom x0 x1 s3) := by
  intro x0 x1 s3
  unfold execTpQueueRoom
  repeat' (first | (with_reducible first | assumption | exact keeps.refl | apply keepsX.next | apply issue_keeps | apply setTask_keeps | apply switchTo_keeps) | split)

theorem execIllegalChord_keeps : ∀ {x0 x1 s3}, keepsX s3 (execIllegalChord x0 x1 s3) := by
  intro x0 x1 s3
  unfold execIllegalChord
  repeat' (first | (with_reducible first | assumption | exact keeps.refl | apply keepsX.next | apply issue_keeps | apply switchTo_keeps) | split)

/-! ### Ptp -/

theorem ptpTaken_keeps {s0 : State} : ∀ {x0 x1 x2 x3 x4 s6}, (∀ y0, keeps s0 y0 → keeps s0 (x4 y0)) → keeps s0 s6 → keeps s0 (ptpTaken x0 x1 x2 x3 x4 s6) := by
  intro x0 x1 x2 x3 x4 s6 hr0 h
  unfold ptpTaken
  repeat' (first | (with_reducible first | assumption | apply keeps.ite | apply hr0 | apply ptpUnsupported_keeps))

theorem execPtpSyncReceive_keeps : ∀ {x0 x1 x2 x3 s5}, keepsX s5 (execPtpSyncReceive x0 x1 x2 x3 s5) := by
  intro x0 x1 x2 x3 s5
  unfold execPtpSyncReceive
  repeat' (first | (with_reducible first | intro _ | assumption | exact keeps.refl | apply keepsX.next | apply keeps.ite | apply ptpTaken_keeps | apply setPtp_keeps | apply ptpSteer_keeps))

theorem execPtpFollowUpReceive_keeps : ∀ {x0 x1 x2 s4}, keepsX s4 (execPtpFollowUpReceive x0 x1 x2 s4) := by
  intro x0 x1 x2 s4
  unfold execPtpFollowUpReceive
  repeat' (first | (with_reducible first | intro _ | assumption | exact keeps.refl | apply keepsX.next | apply ptpTaken_keeps | apply ptpSteer_keeps | apply setPtp_keeps) | split)

theorem execPtpDelayReqReceive_keeps : ∀ {x0 x1 x2 x3 s5}, keepsX s5 (execPtpDelayReqReceive x0 x1 x2 x3 s5) := by
  intro x0 x1 x2 x3 s5
  unfold execPtpDelayReqReceive
  repeat' (first | (with_reducible first | intro _ | assumption | exact keeps.refl | apply keepsX.next | apply keeps.ite | apply ptpTaken_keeps | apply ptpQueue_keeps))

theorem execPtpDelayRespReceive_keeps : ∀ {x0 x1 x2 s4}, keepsX s4 (execPtpDelayRespReceive x0 x1 x2 s4) := by
  intro x0 x1 x2 s4
  unfold execPtpDelayRespReceive
  repeat' (first | with_reducible intro _ | (fail_if_no_progress extract_lets +onlyGivenNames y) | (with_reducible first | assumption | exact keeps.refl | apply keepsX.next | apply ptpTaken_keeps | apply ptpDelaySample_keeps | apply setPtp_keeps) | split)

theorem execPtpPdelayReqReceive_keeps : ∀ {x0 x1 x2 x3 s5}, keepsX s5 (execPtpPdelayReqReceive x0 x1 x2 x3 s5) := by
  intro x0 x1 x2 x3 s5
  unfold execPtpPdelayReqReceive
  repeat' (first | (with_reducible first | intro _ | assumption | exact keeps.refl | apply keepsX.next | apply keeps.ite | apply ptpTaken_keeps | apply ptpQueue_keeps))

theorem execPtpPdelayRespReceive_keeps : ∀ {x0 x1 x2 x3 s5}, keepsX s5 (execPtpPdelayRespReceive x0 x1 x2 x3 s5) := by
  intro x0 x1 x2 x3 s5
  unfold execPtpPdelayRespReceive
  repeat' (first | (with_reducible first | intro _ | assumption | exact keeps.refl | apply keepsX.next | apply ptpTaken_keeps | apply setPtp_keeps | apply ptpDelaySample_keeps) | split)

theorem execPtpAnnounceReceive_keeps : ∀ {x0 x1 x2 s4}, keepsX s4 (execPtpAnnounceReceive x0 x1 x2 s4) := by
  intro x0 x1 x2 s4
  unfold execPtpAnnounceReceive
  repeat' (first | with_reducible intro _ | (fail_if_no_progress extract_lets +onlyGivenNames y) | (with_reducible first | assumption | exact keeps.refl | apply keepsX.next | apply ptpTaken_keeps | apply ptpUnsupported_keeps | apply ptpDecide_keeps | apply setPtp_keeps | apply takeUtc_keeps) | split)

theorem execPtpAnnounceTimeout_keeps : ∀ {x0 s2}, keepsX s2 (execPtpAnnounceTimeout x0 s2) := by
  intro x0 s2
  unfold execPtpAnnounceTimeout
  repeat' (first | (with_reducible first | assumption | exact keeps.refl | apply keepsX.next | apply ptpDecide_keeps | apply setPtp_keeps) | split)

theorem execPtpSyncInterval_keeps : ∀ {x0 s2}, keepsX s2 (execPtpSyncInterval x0 s2) := by
  intro x0 s2
  unfold execPtpSyncInterval
  repeat' (first | (with_reducible first | assumption | exact keeps.refl | apply keepsX.next | apply keeps.ite | apply ptpQueue_keeps | apply setPtp_keeps))

theorem execPtpAnnounceInterval_keeps : ∀ {x0 s2}, keepsX s2 (execPtpAnnounceInterval x0 s2) := by
  intro x0 s2
  unfold execPtpAnnounceInterval
  repeat' (first | (with_reducible first | assumption | exact keeps.refl | apply keepsX.next | apply keeps.ite | apply ptpQueue_keeps | apply setPtp_keeps))

theorem execPtpDelayReqInterval_keeps : ∀ {x0 s2}, keepsX s2 (execPtpDelayReqInterval x0 s2) := by
  intro x0 s2
  unfold execPtpDelayReqInterval
  repeat' (first | (with_reducible first | assumption | exact keeps.refl | apply keepsX.next | apply keeps.ite | apply ptpQueue_keeps | apply setPtp_keeps))

theorem execPtpFollowUpSend_keeps : ∀ {x0 s2}, keepsX s2 (execPtpFollowUpSend x0 s2) := by
  intro x0 s2
  unfold execPtpFollowUpSend
  repeat' (first | (with_reducible first | assumption | exact keeps.refl | apply keepsX.next | apply ptpQueue_keeps | apply setPtp_keeps) | split)

/-! ### SRows -/

theorem execSDup_keeps : ∀ {x0 x1 s3}, keepsX s3 (execSDup x0 x1 s3) := by
  intro x0 x1 s3
  unfold execSDup
  repeat' (first | (with_reducible first | assumption | exact keeps.refl | apply keepsX.next | apply chordRow_keeps))

theorem execSDrop_keeps : ∀ {x0 x1 s3}, keepsX s3 (execSDrop x0 x1 s3) := by
  intro x0 x1 s3
  unfold execSDrop
  repeat' (first | (with_reducible first | assumption | exact keeps.refl | apply keepsX.next | apply chordRow_keeps))

theorem execSSwap_keeps : ∀ {x0 x1 s3}, keepsX s3 (execSSwap x0 x1 s3) := by
  intro x0 x1 s3
  unfold execSSwap
  repeat' (first | (with_reducible first | assumption | exact keeps.refl | apply keepsX.next | apply chordRow_keeps))

theorem execSOver_keeps : ∀ {x0 x1 s3}, keepsX s3 (execSOver x0 x1 s3) := by
  intro x0 x1 s3
  unfold execSOver
  repeat' (first | (with_reducible first | assumption | exact keeps.refl | apply keepsX.next | apply chordRow_keeps))

theorem execSRot_keeps : ∀ {x0 x1 s3}, keepsX s3 (execSRot x0 x1 s3) := by
  intro x0 x1 s3
  unfold execSRot
  repeat' (first | (with_reducible first | assumption | exact keeps.refl | apply keepsX.next | apply chordRow_keeps))

theorem execSNip_keeps : ∀ {x0 x1 s3}, keepsX s3 (execSNip x0 x1 s3) := by
  intro x0 x1 s3
  unfold execSNip
  repeat' (first | (with_reducible first | assumption | exact keeps.refl | apply keepsX.next | apply chordRow_keeps))

theorem execSPick_keeps : ∀ {x0 x1 s3}, keepsX s3 (execSPick x0 x1 s3) := by
  intro x0 x1 s3
  unfold execSPick
  repeat' (first | (with_reducible first | assumption | exact keeps.refl | apply keepsX.next | apply chordRow_keeps))

theorem execSLit8_keeps : ∀ {x0 x1 s3}, keepsX s3 (execSLit8 x0 x1 s3) := by
  intro x0 x1 s3
  unfold execSLit8
  repeat' (first | (with_reducible first | assumption | exact keeps.refl | apply keepsX.next | apply chordRow_keeps))

theorem execSLiti_keeps : ∀ {x0 x1 s3}, keepsX s3 (execSLiti x0 x1 s3) := by
  intro x0 x1 s3
  unfold execSLiti
  repeat' (first | (with_reducible first | assumption | exact keeps.refl | apply keepsX.next | apply chordRow_keeps))

theorem execSLitu_keeps : ∀ {x0 x1 s3}, keepsX s3 (execSLitu x0 x1 s3) := by
  intro x0 x1 s3
  unfold execSLitu
  repeat' (first | (with_reducible first | assumption | exact keeps.refl | apply keepsX.next | apply chordRow_keeps))

theorem execSLitw_keeps : ∀ {x0 x1 s3}, keepsX s3 (execSLitw x0 x1 s3) := by
  intro x0 x1 s3
  unfold execSLitw
  repeat' (first | (with_reducible first | assumption | exact keeps.refl | apply keepsX.next | apply chordRow_keeps))

theorem execSTag_keeps : ∀ {x0 x1 s3}, keepsX s3 (execSTag x0 x1 s3) := by
  intro x0 x1 s3
  unfold execSTag
  repeat' (first | (with_reducible first | assumption | exact keeps.refl | apply keepsX.next | apply chordRow_keeps))

theorem execSOrigin_keeps : ∀ {x0 x1 s3}, keepsX s3 (execSOrigin x0 x1 s3) := by
  intro x0 x1 s3
  unfold execSOrigin
  repeat' (first | (with_reducible first | assumption | exact keeps.refl | apply keepsX.next | apply chordRow_keeps))

theorem execSTageq_keeps : ∀ {x0 x1 s3}, keepsX s3 (execSTageq x0 x1 s3) := by
  intro x0 x1 s3
  unfold execSTageq
  repeat' (first | (with_reducible first | assumption | exact keeps.refl | apply keepsX.next | apply chordRow_keeps))

theorem execSToint_keeps : ∀ {x0 x1 s3}, keepsX s3 (execSToint x0 x1 s3) := by
  intro x0 x1 s3
  unfold execSToint
  repeat' (first | (with_reducible first | assumption | exact keeps.refl | apply keepsX.next | apply chordRow_keeps))

theorem execSTouint_keeps : ∀ {x0 x1 s3}, keepsX s3 (execSTouint x0 x1 s3) := by
  intro x0 x1 s3
  unfold execSTouint
  repeat' (first | (with_reducible first | assumption | exact keeps.refl | apply keepsX.next | apply chordRow_keeps))

theorem execSTofix_keeps : ∀ {x0 x1 s3}, keepsX s3 (execSTofix x0 x1 s3) := by
  intro x0 x1 s3
  unfold execSTofix
  repeat' (first | (with_reducible first | assumption | exact keeps.refl | apply keepsX.next | apply chordRow_keeps))

theorem execSTodur_keeps : ∀ {x0 x1 s3}, keepsX s3 (execSTodur x0 x1 s3) := by
  intro x0 x1 s3
  unfold execSTodur
  repeat' (first | (with_reducible first | assumption | exact keeps.refl | apply keepsX.next | apply chordRow_keeps))

theorem execSTimeu_keeps : ∀ {x0 x1 s3}, keepsX s3 (execSTimeu x0 x1 s3) := by
  intro x0 x1 s3
  unfold execSTimeu
  repeat' (first | (with_reducible first | assumption | exact keeps.refl | apply keepsX.next | apply chordRow_keeps))

theorem execSAddru_keeps : ∀ {x0 x1 s3}, keepsX s3 (execSAddru x0 x1 s3) := by
  intro x0 x1 s3
  unfold execSAddru
  repeat' (first | (with_reducible first | assumption | exact keeps.refl | apply keepsX.next | apply chordRow_keeps))

theorem execSMktime_keeps : ∀ {x0 x1 s3}, keepsX s3 (execSMktime x0 x1 s3) := by
  intro x0 x1 s3
  unfold execSMktime
  repeat' (first | (with_reducible first | assumption | exact keeps.refl | apply keepsX.next | apply chordRow_keeps))

theorem execSMkaddr_keeps : ∀ {x0 x1 s3}, keepsX s3 (execSMkaddr x0 x1 s3) := by
  intro x0 x1 s3
  unfold execSMkaddr
  repeat' (first | (with_reducible first | assumption | exact keeps.refl | apply keepsX.next | apply chordRow_keeps))

theorem execSMkclass_keeps : ∀ {x0 x1 s3}, keepsX s3 (execSMkclass x0 x1 s3) := by
  intro x0 x1 s3
  unfold execSMkclass
  repeat' (first | (with_reducible first | assumption | exact keeps.refl | apply keepsX.next | apply chordRow_keeps))

theorem execSClassno_keeps : ∀ {x0 x1 s3}, keepsX s3 (execSClassno x0 x1 s3) := by
  intro x0 x1 s3
  unfold execSClassno
  repeat' (first | (with_reducible first | assumption | exact keeps.refl | apply keepsX.next | apply chordRow_keeps))

theorem execSScore_keeps : ∀ {x0 x1 s3}, keepsX s3 (execSScore x0 x1 s3) := by
  intro x0 x1 s3
  unfold execSScore
  repeat' (first | (with_reducible first | assumption | exact keeps.refl | apply keepsX.next | apply chordRow_keeps))

theorem execSUnpk16_keeps : ∀ {x0 x1 s3}, keepsX s3 (execSUnpk16 x0 x1 s3) := by
  intro x0 x1 s3
  unfold execSUnpk16
  repeat' (first | (with_reducible first | assumption | exact keeps.refl | apply keepsX.next | apply chordRow_keeps))

theorem execSUnpk8_keeps : ∀ {x0 x1 s3}, keepsX s3 (execSUnpk8 x0 x1 s3) := by
  intro x0 x1 s3
  unfold execSUnpk8
  repeat' (first | (with_reducible first | assumption | exact keeps.refl | apply keepsX.next | apply chordRow_keeps))

theorem execSFlags_keeps : ∀ {x0 x1 s3}, keepsX s3 (execSFlags x0 x1 s3) := by
  intro x0 x1 s3
  unfold execSFlags
  repeat' (first | (with_reducible first | assumption | exact keeps.refl | apply keepsX.next | apply chordRow_keeps))

theorem execSPack16_keeps : ∀ {x0 x1 s3}, keepsX s3 (execSPack16 x0 x1 s3) := by
  intro x0 x1 s3
  unfold execSPack16
  repeat' (first | (with_reducible first | assumption | exact keeps.refl | apply keepsX.next | apply chordRow_keeps))

theorem execSPack8_keeps : ∀ {x0 x1 s3}, keepsX s3 (execSPack8 x0 x1 s3) := by
  intro x0 x1 s3
  unfold execSPack8
  repeat' (first | (with_reducible first | assumption | exact keeps.refl | apply keepsX.next | apply chordRow_keeps))

theorem execSMkpoison_keeps : ∀ {x0 x1 s3}, keepsX s3 (execSMkpoison x0 x1 s3) := by
  intro x0 x1 s3
  unfold execSMkpoison
  repeat' (first | (with_reducible first | assumption | exact keeps.refl | apply keepsX.next | apply chordRow_keeps))

theorem execSAdd_keeps : ∀ {x0 x1 s3}, keepsX s3 (execSAdd x0 x1 s3) := by
  intro x0 x1 s3
  unfold execSAdd
  repeat' (first | (with_reducible first | assumption | exact keeps.refl | apply keepsX.next | apply chordRow_keeps))

theorem execSSub_keeps : ∀ {x0 x1 s3}, keepsX s3 (execSSub x0 x1 s3) := by
  intro x0 x1 s3
  unfold execSSub
  repeat' (first | (with_reducible first | assumption | exact keeps.refl | apply keepsX.next | apply chordRow_keeps))

theorem execSMul_keeps : ∀ {x0 x1 s3}, keepsX s3 (execSMul x0 x1 s3) := by
  intro x0 x1 s3
  unfold execSMul
  repeat' (first | (with_reducible first | assumption | exact keeps.refl | apply keepsX.next | apply chordRow_keeps))

theorem execSDiv_keeps : ∀ {x0 x1 s3}, keepsX s3 (execSDiv x0 x1 s3) := by
  intro x0 x1 s3
  unfold execSDiv
  repeat' (first | (with_reducible first | assumption | exact keeps.refl | apply keepsX.next | apply chordRow_keeps))

theorem execSRem_keeps : ∀ {x0 x1 s3}, keepsX s3 (execSRem x0 x1 s3) := by
  intro x0 x1 s3
  unfold execSRem
  repeat' (first | (with_reducible first | assumption | exact keeps.refl | apply keepsX.next | apply chordRow_keeps))

theorem execSNeg_keeps : ∀ {x0 x1 s3}, keepsX s3 (execSNeg x0 x1 s3) := by
  intro x0 x1 s3
  unfold execSNeg
  repeat' (first | (with_reducible first | assumption | exact keeps.refl | apply keepsX.next | apply chordRow_keeps))

theorem execSAbs_keeps : ∀ {x0 x1 s3}, keepsX s3 (execSAbs x0 x1 s3) := by
  intro x0 x1 s3
  unfold execSAbs
  repeat' (first | (with_reducible first | assumption | exact keeps.refl | apply keepsX.next | apply chordRow_keeps))

theorem execSMin_keeps : ∀ {x0 x1 s3}, keepsX s3 (execSMin x0 x1 s3) := by
  intro x0 x1 s3
  unfold execSMin
  repeat' (first | (with_reducible first | assumption | exact keeps.refl | apply keepsX.next | apply chordRow_keeps))

theorem execSMax_keeps : ∀ {x0 x1 s3}, keepsX s3 (execSMax x0 x1 s3) := by
  intro x0 x1 s3
  unfold execSMax
  repeat' (first | (with_reducible first | assumption | exact keeps.refl | apply keepsX.next | apply chordRow_keeps))

theorem execSAddw_keeps : ∀ {x0 x1 s3}, keepsX s3 (execSAddw x0 x1 s3) := by
  intro x0 x1 s3
  unfold execSAddw
  repeat' (first | (with_reducible first | assumption | exact keeps.refl | apply keepsX.next | apply chordRow_keeps))

theorem execSSubw_keeps : ∀ {x0 x1 s3}, keepsX s3 (execSSubw x0 x1 s3) := by
  intro x0 x1 s3
  unfold execSSubw
  repeat' (first | (with_reducible first | assumption | exact keeps.refl | apply keepsX.next | apply chordRow_keeps))

theorem execSSat16_keeps : ∀ {x0 x1 s3}, keepsX s3 (execSSat16 x0 x1 s3) := by
  intro x0 x1 s3
  unfold execSSat16
  repeat' (first | (with_reducible first | assumption | exact keeps.refl | apply keepsX.next | apply chordRow_keeps))

theorem execSSat8_keeps : ∀ {x0 x1 s3}, keepsX s3 (execSSat8 x0 x1 s3) := by
  intro x0 x1 s3
  unfold execSSat8
  repeat' (first | (with_reducible first | assumption | exact keeps.refl | apply keepsX.next | apply chordRow_keeps))

theorem execSAnd_keeps : ∀ {x0 x1 s3}, keepsX s3 (execSAnd x0 x1 s3) := by
  intro x0 x1 s3
  unfold execSAnd
  repeat' (first | (with_reducible first | assumption | exact keeps.refl | apply keepsX.next | apply chordRow_keeps))

theorem execSOr_keeps : ∀ {x0 x1 s3}, keepsX s3 (execSOr x0 x1 s3) := by
  intro x0 x1 s3
  unfold execSOr
  repeat' (first | (with_reducible first | assumption | exact keeps.refl | apply keepsX.next | apply chordRow_keeps))

theorem execSXor_keeps : ∀ {x0 x1 s3}, keepsX s3 (execSXor x0 x1 s3) := by
  intro x0 x1 s3
  unfold execSXor
  repeat' (first | (with_reducible first | assumption | exact keeps.refl | apply keepsX.next | apply chordRow_keeps))

theorem execSNot_keeps : ∀ {x0 x1 s3}, keepsX s3 (execSNot x0 x1 s3) := by
  intro x0 x1 s3
  unfold execSNot
  repeat' (first | (with_reducible first | assumption | exact keeps.refl | apply keepsX.next | apply chordRow_keeps))

theorem execSShlv_keeps : ∀ {x0 x1 s3}, keepsX s3 (execSShlv x0 x1 s3) := by
  intro x0 x1 s3
  unfold execSShlv
  repeat' (first | (with_reducible first | assumption | exact keeps.refl | apply keepsX.next | apply chordRow_keeps))

theorem execSShrv_keeps : ∀ {x0 x1 s3}, keepsX s3 (execSShrv x0 x1 s3) := by
  intro x0 x1 s3
  unfold execSShrv
  repeat' (first | (with_reducible first | assumption | exact keeps.refl | apply keepsX.next | apply chordRow_keeps))

theorem execSShl_keeps : ∀ {x0 x1 s3}, keepsX s3 (execSShl x0 x1 s3) := by
  intro x0 x1 s3
  unfold execSShl
  repeat' (first | (with_reducible first | assumption | exact keeps.refl | apply keepsX.next | apply chordRow_keeps))

theorem execSShr_keeps : ∀ {x0 x1 s3}, keepsX s3 (execSShr x0 x1 s3) := by
  intro x0 x1 s3
  unfold execSShr
  repeat' (first | (with_reducible first | assumption | exact keeps.refl | apply keepsX.next | apply chordRow_keeps))

theorem execSAddi_keeps : ∀ {x0 x1 s3}, keepsX s3 (execSAddi x0 x1 s3) := by
  intro x0 x1 s3
  unfold execSAddi
  repeat' (first | (with_reducible first | assumption | exact keeps.refl | apply keepsX.next | apply chordRow_keeps))

theorem execSEq_keeps : ∀ {x0 x1 s3}, keepsX s3 (execSEq x0 x1 s3) := by
  intro x0 x1 s3
  unfold execSEq
  repeat' (first | (with_reducible first | assumption | exact keeps.refl | apply keepsX.next | apply chordRow_keeps))

theorem execSNe_keeps : ∀ {x0 x1 s3}, keepsX s3 (execSNe x0 x1 s3) := by
  intro x0 x1 s3
  unfold execSNe
  repeat' (first | (with_reducible first | assumption | exact keeps.refl | apply keepsX.next | apply chordRow_keeps))

theorem execSLt_keeps : ∀ {x0 x1 s3}, keepsX s3 (execSLt x0 x1 s3) := by
  intro x0 x1 s3
  unfold execSLt
  repeat' (first | (with_reducible first | assumption | exact keeps.refl | apply keepsX.next | apply chordRow_keeps))

theorem execSLe_keeps : ∀ {x0 x1 s3}, keepsX s3 (execSLe x0 x1 s3) := by
  intro x0 x1 s3
  unfold execSLe
  repeat' (first | (with_reducible first | assumption | exact keeps.refl | apply keepsX.next | apply chordRow_keeps))

theorem execSGt_keeps : ∀ {x0 x1 s3}, keepsX s3 (execSGt x0 x1 s3) := by
  intro x0 x1 s3
  unfold execSGt
  repeat' (first | (with_reducible first | assumption | exact keeps.refl | apply keepsX.next | apply chordRow_keeps))

theorem execSGe_keeps : ∀ {x0 x1 s3}, keepsX s3 (execSGe x0 x1 s3) := by
  intro x0 x1 s3
  unfold execSGe
  repeat' (first | (with_reducible first | assumption | exact keeps.refl | apply keepsX.next | apply chordRow_keeps))

theorem execSSel_keeps : ∀ {x0 x1 s3}, keepsX s3 (execSSel x0 x1 s3) := by
  intro x0 x1 s3
  unfold execSSel
  repeat' (first | (with_reducible first | assumption | exact keeps.refl | apply keepsX.next | apply chordRow_keeps))

theorem execSLd_keeps : ∀ {x0 x1 s3}, keepsX s3 (execSLd x0 x1 s3) := by
  intro x0 x1 s3
  unfold execSLd
  repeat' (first | (with_reducible first | assumption | exact keeps.refl | apply keepsX.next | apply chordRow_keeps))

theorem execSSt_keeps : ∀ {x0 x1 s3}, keepsX s3 (execSSt x0 x1 s3) := by
  intro x0 x1 s3
  unfold execSSt
  repeat' (first | (with_reducible first | assumption | exact keeps.refl | apply keepsX.next | apply chordRow_keeps))

theorem execSLdm_keeps : ∀ {x0 x1 s3}, keepsX s3 (execSLdm x0 x1 s3) := by
  intro x0 x1 s3
  unfold execSLdm
  repeat' (first | (with_reducible first | assumption | exact keeps.refl | apply keepsX.next | apply chordRow_keeps))

theorem execSStm_keeps : ∀ {x0 x1 s3}, keepsX s3 (execSStm x0 x1 s3) := by
  intro x0 x1 s3
  unfold execSStm
  repeat' (first | (with_reducible first | assumption | exact keeps.refl | apply keepsX.next | apply chordRow_keeps))

theorem execSXm_keeps : ∀ {x0 x1 s3}, keepsX s3 (execSXm x0 x1 s3) := by
  intro x0 x1 s3
  unfold execSXm
  repeat' (first | (with_reducible first | assumption | exact keeps.refl | apply keepsX.next | apply chordRow_keeps))

theorem execSXlc_keeps : ∀ {x0 x1 s3}, keepsX s3 (execSXlc x0 x1 s3) := by
  intro x0 x1 s3
  unfold execSXlc
  repeat' (first | (with_reducible first | assumption | exact keeps.refl | apply keepsX.next | apply chordRow_keeps))

theorem execSXvls_keeps : ∀ {x0 x1 s3}, keepsX s3 (execSXvls x0 x1 s3) := by
  intro x0 x1 s3
  unfold execSXvls
  repeat' (first | (with_reducible first | assumption | exact keeps.refl | apply keepsX.next | apply chordRow_keeps))

theorem execSXvl_keeps : ∀ {x0 x1 s3}, keepsX s3 (execSXvl x0 x1 s3) := by
  intro x0 x1 s3
  unfold execSXvl
  repeat' (first | (with_reducible first | assumption | exact keeps.refl | apply keepsX.next | apply chordRow_keeps))

theorem execSNow_keeps : ∀ {x0 x1 s3}, keepsX s3 (execSNow x0 x1 s3) := by
  intro x0 x1 s3
  unfold execSNow
  repeat' (first | (with_reducible first | assumption | exact keeps.refl | apply keepsX.next | apply chordRow_keeps))

/-! ### CRows -/

theorem execCJmp_keeps : ∀ {x0 x1 s3}, keepsX s3 (execCJmp x0 x1 s3) := by
  intro x0 x1 s3
  unfold execCJmp
  repeat' (first | (with_reducible first | assumption | exact keeps.refl | apply keepsX.next | apply chordRow_keeps))

theorem execCBrt_keeps : ∀ {x0 x1 s3}, keepsX s3 (execCBrt x0 x1 s3) := by
  intro x0 x1 s3
  unfold execCBrt
  repeat' (first | (with_reducible first | assumption | exact keeps.refl | apply keepsX.next | apply chordRow_keeps))

theorem execCBrf_keeps : ∀ {x0 x1 s3}, keepsX s3 (execCBrf x0 x1 s3) := by
  intro x0 x1 s3
  unfold execCBrf
  repeat' (first | (with_reducible first | assumption | exact keeps.refl | apply keepsX.next | apply chordRow_keeps))

theorem execCCall_keeps : ∀ {x0 x1 s3}, keepsX s3 (execCCall x0 x1 s3) := by
  intro x0 x1 s3
  unfold execCCall
  repeat' (first | (with_reducible first | assumption | exact keeps.refl | apply keepsX.next | apply chordRow_keeps))

theorem execCJmpl_keeps : ∀ {x0 x1 s3}, keepsX s3 (execCJmpl x0 x1 s3) := by
  intro x0 x1 s3
  unfold execCJmpl
  repeat' (first | (with_reducible first | assumption | exact keeps.refl | apply keepsX.next | apply chordRow_keeps))

theorem execCBrtl_keeps : ∀ {x0 x1 s3}, keepsX s3 (execCBrtl x0 x1 s3) := by
  intro x0 x1 s3
  unfold execCBrtl
  repeat' (first | (with_reducible first | assumption | exact keeps.refl | apply keepsX.next | apply chordRow_keeps))

theorem execCBrfl_keeps : ∀ {x0 x1 s3}, keepsX s3 (execCBrfl x0 x1 s3) := by
  intro x0 x1 s3
  unfold execCBrfl
  repeat' (first | (with_reducible first | assumption | exact keeps.refl | apply keepsX.next | apply chordRow_keeps))

theorem execCLoopi1_keeps : ∀ {x0 x1 s3}, keepsX s3 (execCLoopi1 x0 x1 s3) := by
  intro x0 x1 s3
  unfold execCLoopi1
  repeat' (first | (with_reducible first | assumption | exact keeps.refl | apply keepsX.next | apply chordRow_keeps))

theorem execCLoopi2_keeps : ∀ {x0 x1 s3}, keepsX s3 (execCLoopi2 x0 x1 s3) := by
  intro x0 x1 s3
  unfold execCLoopi2
  repeat' (first | (with_reducible first | assumption | exact keeps.refl | apply keepsX.next | apply chordRow_keeps))

theorem execCLoops_keeps : ∀ {x0 x1 s3}, keepsX s3 (execCLoops x0 x1 s3) := by
  intro x0 x1 s3
  unfold execCLoops
  repeat' (first | (with_reducible first | assumption | exact keeps.refl | apply keepsX.next | apply chordRow_keeps))

theorem execCNop_keeps : ∀ {x0 x1 s3}, keepsX s3 (execCNop x0 x1 s3) := by
  intro x0 x1 s3
  unfold execCNop
  repeat' (first | (with_reducible first | assumption | exact keeps.refl | apply keepsX.next | apply chordRow_keeps))

theorem execCEnd_keeps : ∀ {x0 x1 s3}, keepsX s3 (execCEnd x0 x1 s3) := by
  intro x0 x1 s3
  unfold execCEnd
  repeat' (first | (with_reducible first | assumption | exact keeps.refl | apply keepsX.next | apply chordRow_keeps))

theorem execCWait_keeps : ∀ {x0 x1 s3}, keepsX s3 (execCWait x0 x1 s3) := by
  intro x0 x1 s3
  unfold execCWait
  repeat' (first | (with_reducible first | assumption | exact keeps.refl | apply keepsX.next | apply chordRow_keeps))

theorem execCYield_keeps : ∀ {x0 x1 s3}, keepsX s3 (execCYield x0 x1 s3) := by
  intro x0 x1 s3
  unfold execCYield
  repeat' (first | (with_reducible first | assumption | exact keeps.refl | apply keepsX.next | apply chordRow_keeps))

theorem execCFence_keeps : ∀ {x0 x1 s3}, keepsX s3 (execCFence x0 x1 s3) := by
  intro x0 x1 s3
  unfold execCFence
  repeat' (first | (with_reducible first | assumption | exact keeps.refl | apply keepsX.next | apply chordRow_keeps))

theorem execCRet_keeps : ∀ {x0 x1 s3}, keepsX s3 (execCRet x0 x1 s3) := by
  intro x0 x1 s3
  unfold execCRet
  repeat' (first | (with_reducible first | assumption | exact keeps.refl | apply keepsX.next | apply chordRow_keeps))

theorem execCLeave_keeps : ∀ {x0 x1 s3}, keepsX s3 (execCLeave x0 x1 s3) := by
  intro x0 x1 s3
  unfold execCLeave
  repeat' (first | (with_reducible first | assumption | exact keeps.refl | apply keepsX.next | apply chordRow_keeps))

theorem execCJmps_keeps : ∀ {x0 x1 s3}, keepsX s3 (execCJmps x0 x1 s3) := by
  intro x0 x1 s3
  unfold execCJmps
  repeat' (first | (with_reducible first | assumption | exact keeps.refl | apply keepsX.next | apply chordRow_keeps))

theorem execCCalls_keeps : ∀ {x0 x1 s3}, keepsX s3 (execCCalls x0 x1 s3) := by
  intro x0 x1 s3
  unfold execCCalls
  repeat' (first | (with_reducible first | assumption | exact keeps.refl | apply keepsX.next | apply chordRow_keeps))

theorem execCRth_keeps : ∀ {x0 x1 s3}, keepsX s3 (execCRth x0 x1 s3) := by
  intro x0 x1 s3
  unfold execCRth
  repeat' (first | (with_reducible first | assumption | exact keeps.refl | apply keepsX.next | apply chordRow_keeps))

theorem execCRthn_keeps : ∀ {x0 x1 s3}, keepsX s3 (execCRthn x0 x1 s3) := by
  intro x0 x1 s3
  unfold execCRthn
  repeat' (first | (with_reducible first | assumption | exact keeps.refl | apply keepsX.next | apply chordRow_keeps))

theorem execCWake_keeps : ∀ {x0 x1 s3}, keepsX s3 (execCWake x0 x1 s3) := by
  intro x0 x1 s3
  unfold execCWake
  repeat' (first | (with_reducible first | assumption | exact keeps.refl | apply keepsX.next | apply chordRow_keeps))

theorem execCUnwake_keeps : ∀ {x0 x1 s3}, keepsX s3 (execCUnwake x0 x1 s3) := by
  intro x0 x1 s3
  unfold execCUnwake
  repeat' (first | (with_reducible first | assumption | exact keeps.refl | apply keepsX.next | apply chordRow_keeps))

theorem execCWaker_keeps : ∀ {x0 x1 s3}, keepsX s3 (execCWaker x0 x1 s3) := by
  intro x0 x1 s3
  unfold execCWaker
  repeat' (first | (with_reducible first | assumption | exact keeps.refl | apply keepsX.next | apply chordRow_keeps))

theorem execCSetmask_keeps : ∀ {x0 x1 s3}, keepsX s3 (execCSetmask x0 x1 s3) := by
  intro x0 x1 s3
  unfold execCSetmask
  repeat' (first | (with_reducible first | assumption | exact keeps.refl | apply keepsX.next | apply chordRow_keeps))

/-! ### VRows -/

theorem execVDup_keeps : ∀ {x0 x1 s3}, keepsX s3 (execVDup x0 x1 s3) := by
  intro x0 x1 s3
  unfold execVDup
  repeat' (first | (with_reducible first | assumption | exact keeps.refl | apply keepsX.next | apply chordRow_keeps))

theorem execVDrop_keeps : ∀ {x0 x1 s3}, keepsX s3 (execVDrop x0 x1 s3) := by
  intro x0 x1 s3
  unfold execVDrop
  repeat' (first | (with_reducible first | assumption | exact keeps.refl | apply keepsX.next | apply chordRow_keeps))

theorem execVSwap_keeps : ∀ {x0 x1 s3}, keepsX s3 (execVSwap x0 x1 s3) := by
  intro x0 x1 s3
  unfold execVSwap
  repeat' (first | (with_reducible first | assumption | exact keeps.refl | apply keepsX.next | apply chordRow_keeps))

theorem execVOver_keeps : ∀ {x0 x1 s3}, keepsX s3 (execVOver x0 x1 s3) := by
  intro x0 x1 s3
  unfold execVOver
  repeat' (first | (with_reducible first | assumption | exact keeps.refl | apply keepsX.next | apply chordRow_keeps))

theorem execVRot_keeps : ∀ {x0 x1 s3}, keepsX s3 (execVRot x0 x1 s3) := by
  intro x0 x1 s3
  unfold execVRot
  repeat' (first | (with_reducible first | assumption | exact keeps.refl | apply keepsX.next | apply chordRow_keeps))

theorem execVNip_keeps : ∀ {x0 x1 s3}, keepsX s3 (execVNip x0 x1 s3) := by
  intro x0 x1 s3
  unfold execVNip
  repeat' (first | (with_reducible first | assumption | exact keeps.refl | apply keepsX.next | apply chordRow_keeps))

theorem execVLdv_keeps : ∀ {x0 x1 s3}, keepsX s3 (execVLdv x0 x1 s3) := by
  intro x0 x1 s3
  unfold execVLdv
  repeat' (first | (with_reducible first | assumption | exact keeps.refl | apply keepsX.next | apply chordRow_keeps))

theorem execVLda_keeps : ∀ {x0 x1 s3}, keepsX s3 (execVLda x0 x1 s3) := by
  intro x0 x1 s3
  unfold execVLda
  repeat' (first | (with_reducible first | assumption | exact keeps.refl | apply keepsX.next | apply chordRow_keeps))

theorem execVStv_keeps : ∀ {x0 x1 s3}, keepsX s3 (execVStv x0 x1 s3) := by
  intro x0 x1 s3
  unfold execVStv
  repeat' (first | (with_reducible first | assumption | exact keeps.refl | apply keepsX.next | apply chordRow_keeps))

theorem execVSta_keeps : ∀ {x0 x1 s3}, keepsX s3 (execVSta x0 x1 s3) := by
  intro x0 x1 s3
  unfold execVSta
  repeat' (first | (with_reducible first | assumption | exact keeps.refl | apply keepsX.next | apply chordRow_keeps))

theorem execVLdb_keeps : ∀ {x0 x1 s3}, keepsX s3 (execVLdb x0 x1 s3) := by
  intro x0 x1 s3
  unfold execVLdb
  repeat' (first | (with_reducible first | assumption | exact keeps.refl | apply keepsX.next | apply chordRow_keeps))

theorem execVLdbw_keeps : ∀ {x0 x1 s3}, keepsX s3 (execVLdbw x0 x1 s3) := by
  intro x0 x1 s3
  unfold execVLdbw
  repeat' (first | (with_reducible first | assumption | exact keeps.refl | apply keepsX.next | apply chordRow_keeps))

theorem execVLdq_keeps : ∀ {x0 x1 s3}, keepsX s3 (execVLdq x0 x1 s3) := by
  intro x0 x1 s3
  unfold execVLdq
  repeat' (first | (with_reducible first | assumption | exact keeps.refl | apply keepsX.next | apply chordRow_keeps))

theorem execVStq_keeps : ∀ {x0 x1 s3}, keepsX s3 (execVStq x0 x1 s3) := by
  intro x0 x1 s3
  unfold execVStq
  repeat' (first | (with_reducible first | assumption | exact keeps.refl | apply keepsX.next | apply chordRow_keeps))

theorem execVSplat_keeps : ∀ {x0 x1 s3}, keepsX s3 (execVSplat x0 x1 s3) := by
  intro x0 x1 s3
  unfold execVSplat
  repeat' (first | (with_reducible first | assumption | exact keeps.refl | apply keepsX.next | apply chordRow_keeps))

theorem execVSplat16_keeps : ∀ {x0 x1 s3}, keepsX s3 (execVSplat16 x0 x1 s3) := by
  intro x0 x1 s3
  unfold execVSplat16
  repeat' (first | (with_reducible first | assumption | exact keeps.refl | apply keepsX.next | apply chordRow_keeps))

theorem execVSplat8_keeps : ∀ {x0 x1 s3}, keepsX s3 (execVSplat8 x0 x1 s3) := by
  intro x0 x1 s3
  unfold execVSplat8
  repeat' (first | (with_reducible first | assumption | exact keeps.refl | apply keepsX.next | apply chordRow_keeps))

theorem execVWlo_keeps : ∀ {x0 x1 s3}, keepsX s3 (execVWlo x0 x1 s3) := by
  intro x0 x1 s3
  unfold execVWlo
  repeat' (first | (with_reducible first | assumption | exact keeps.refl | apply keepsX.next | apply chordRow_keeps))

theorem execVWhi_keeps : ∀ {x0 x1 s3}, keepsX s3 (execVWhi x0 x1 s3) := by
  intro x0 x1 s3
  unfold execVWhi
  repeat' (first | (with_reducible first | assumption | exact keeps.refl | apply keepsX.next | apply chordRow_keeps))

theorem execVNarrow_keeps : ∀ {x0 x1 s3}, keepsX s3 (execVNarrow x0 x1 s3) := by
  intro x0 x1 s3
  unfold execVNarrow
  repeat' (first | (with_reducible first | assumption | exact keeps.refl | apply keepsX.next | apply chordRow_keeps))

theorem execVToq_keeps : ∀ {x0 x1 s3}, keepsX s3 (execVToq x0 x1 s3) := by
  intro x0 x1 s3
  unfold execVToq
  repeat' (first | (with_reducible first | assumption | exact keeps.refl | apply keepsX.next | apply chordRow_keeps))

theorem execVFromq_keeps : ∀ {x0 x1 s3}, keepsX s3 (execVFromq x0 x1 s3) := by
  intro x0 x1 s3
  unfold execVFromq
  repeat' (first | (with_reducible first | assumption | exact keeps.refl | apply keepsX.next | apply chordRow_keeps))

theorem execVAdd_keeps : ∀ {x0 x1 s3}, keepsX s3 (execVAdd x0 x1 s3) := by
  intro x0 x1 s3
  unfold execVAdd
  repeat' (first | (with_reducible first | assumption | exact keeps.refl | apply keepsX.next | apply chordRow_keeps))

theorem execVSub_keeps : ∀ {x0 x1 s3}, keepsX s3 (execVSub x0 x1 s3) := by
  intro x0 x1 s3
  unfold execVSub
  repeat' (first | (with_reducible first | assumption | exact keeps.refl | apply keepsX.next | apply chordRow_keeps))

theorem execVMul_keeps : ∀ {x0 x1 s3}, keepsX s3 (execVMul x0 x1 s3) := by
  intro x0 x1 s3
  unfold execVMul
  repeat' (first | (with_reducible first | assumption | exact keeps.refl | apply keepsX.next | apply chordRow_keeps))

theorem execVMulq_keeps : ∀ {x0 x1 s3}, keepsX s3 (execVMulq x0 x1 s3) := by
  intro x0 x1 s3
  unfold execVMulq
  repeat' (first | (with_reducible first | assumption | exact keeps.refl | apply keepsX.next | apply chordRow_keeps))

theorem execVAbs_keeps : ∀ {x0 x1 s3}, keepsX s3 (execVAbs x0 x1 s3) := by
  intro x0 x1 s3
  unfold execVAbs
  repeat' (first | (with_reducible first | assumption | exact keeps.refl | apply keepsX.next | apply chordRow_keeps))

theorem execVNeg_keeps : ∀ {x0 x1 s3}, keepsX s3 (execVNeg x0 x1 s3) := by
  intro x0 x1 s3
  unfold execVNeg
  repeat' (first | (with_reducible first | assumption | exact keeps.refl | apply keepsX.next | apply chordRow_keeps))

theorem execVMin_keeps : ∀ {x0 x1 s3}, keepsX s3 (execVMin x0 x1 s3) := by
  intro x0 x1 s3
  unfold execVMin
  repeat' (first | (with_reducible first | assumption | exact keeps.refl | apply keepsX.next | apply chordRow_keeps))

theorem execVMax_keeps : ∀ {x0 x1 s3}, keepsX s3 (execVMax x0 x1 s3) := by
  intro x0 x1 s3
  unfold execVMax
  repeat' (first | (with_reducible first | assumption | exact keeps.refl | apply keepsX.next | apply chordRow_keeps))

theorem execVAnd_keeps : ∀ {x0 x1 s3}, keepsX s3 (execVAnd x0 x1 s3) := by
  intro x0 x1 s3
  unfold execVAnd
  repeat' (first | (with_reducible first | assumption | exact keeps.refl | apply keepsX.next | apply chordRow_keeps))

theorem execVOr_keeps : ∀ {x0 x1 s3}, keepsX s3 (execVOr x0 x1 s3) := by
  intro x0 x1 s3
  unfold execVOr
  repeat' (first | (with_reducible first | assumption | exact keeps.refl | apply keepsX.next | apply chordRow_keeps))

theorem execVXor_keeps : ∀ {x0 x1 s3}, keepsX s3 (execVXor x0 x1 s3) := by
  intro x0 x1 s3
  unfold execVXor
  repeat' (first | (with_reducible first | assumption | exact keeps.refl | apply keepsX.next | apply chordRow_keeps))

theorem execVShr_keeps : ∀ {x0 x1 s3}, keepsX s3 (execVShr x0 x1 s3) := by
  intro x0 x1 s3
  unfold execVShr
  repeat' (first | (with_reducible first | assumption | exact keeps.refl | apply keepsX.next | apply chordRow_keeps))

theorem execVShl_keeps : ∀ {x0 x1 s3}, keepsX s3 (execVShl x0 x1 s3) := by
  intro x0 x1 s3
  unfold execVShl
  repeat' (first | (with_reducible first | assumption | exact keeps.refl | apply keepsX.next | apply chordRow_keeps))

theorem execVMag2_keeps : ∀ {x0 x1 s3}, keepsX s3 (execVMag2 x0 x1 s3) := by
  intro x0 x1 s3
  unfold execVMag2
  repeat' (first | (with_reducible first | assumption | exact keeps.refl | apply keepsX.next | apply chordRow_keeps))

theorem execVMacs_keeps : ∀ {x0 x1 s3}, keepsX s3 (execVMacs x0 x1 s3) := by
  intro x0 x1 s3
  unfold execVMacs
  repeat' (first | (with_reducible first | assumption | exact keeps.refl | apply keepsX.next | apply chordRow_keeps))

theorem execVMuls_keeps : ∀ {x0 x1 s3}, keepsX s3 (execVMuls x0 x1 s3) := by
  intro x0 x1 s3
  unfold execVMuls
  repeat' (first | (with_reducible first | assumption | exact keeps.refl | apply keepsX.next | apply chordRow_keeps))

theorem execVKeepge_keeps : ∀ {x0 x1 s3}, keepsX s3 (execVKeepge x0 x1 s3) := by
  intro x0 x1 s3
  unfold execVKeepge
  repeat' (first | (with_reducible first | assumption | exact keeps.refl | apply keepsX.next | apply chordRow_keeps))

theorem execVKeepgev_keeps : ∀ {x0 x1 s3}, keepsX s3 (execVKeepgev x0 x1 s3) := by
  intro x0 x1 s3
  unfold execVKeepgev
  repeat' (first | (with_reducible first | assumption | exact keeps.refl | apply keepsX.next | apply chordRow_keeps))

theorem execVRsum_keeps : ∀ {x0 x1 s3}, keepsX s3 (execVRsum x0 x1 s3) := by
  intro x0 x1 s3
  unfold execVRsum
  repeat' (first | (with_reducible first | assumption | exact keeps.refl | apply keepsX.next | apply chordRow_keeps))

theorem execVRmax_keeps : ∀ {x0 x1 s3}, keepsX s3 (execVRmax x0 x1 s3) := by
  intro x0 x1 s3
  unfold execVRmax
  repeat' (first | (with_reducible first | assumption | exact keeps.refl | apply keepsX.next | apply chordRow_keeps))

theorem execVRmin_keeps : ∀ {x0 x1 s3}, keepsX s3 (execVRmin x0 x1 s3) := by
  intro x0 x1 s3
  unfold execVRmin
  repeat' (first | (with_reducible first | assumption | exact keeps.refl | apply keepsX.next | apply chordRow_keeps))

theorem execVRcnt_keeps : ∀ {x0 x1 s3}, keepsX s3 (execVRcnt x0 x1 s3) := by
  intro x0 x1 s3
  unfold execVRcnt
  repeat' (first | (with_reducible first | assumption | exact keeps.refl | apply keepsX.next | apply chordRow_keeps))

theorem execVSld_keeps : ∀ {x0 x1 s3}, keepsX s3 (execVSld x0 x1 s3) := by
  intro x0 x1 s3
  unfold execVSld
  repeat' (first | (with_reducible first | assumption | exact keeps.refl | apply keepsX.next | apply chordRow_keeps))

theorem execVSort_keeps : ∀ {x0 x1 s3}, keepsX s3 (execVSort x0 x1 s3) := by
  intro x0 x1 s3
  unfold execVSort
  repeat' (first | (with_reducible first | assumption | exact keeps.refl | apply keepsX.next | apply chordRow_keeps))

/-! ### MRows -/

theorem execMDup_keeps : ∀ {x0 x1 s3}, keepsX s3 (execMDup x0 x1 s3) := by
  intro x0 x1 s3
  unfold execMDup
  repeat' (first | (with_reducible first | assumption | exact keeps.refl | apply keepsX.next | apply chordRow_keeps))

theorem execMDrop_keeps : ∀ {x0 x1 s3}, keepsX s3 (execMDrop x0 x1 s3) := by
  intro x0 x1 s3
  unfold execMDrop
  repeat' (first | (with_reducible first | assumption | exact keeps.refl | apply keepsX.next | apply chordRow_keeps))

theorem execMSwap_keeps : ∀ {x0 x1 s3}, keepsX s3 (execMSwap x0 x1 s3) := by
  intro x0 x1 s3
  unfold execMSwap
  repeat' (first | (with_reducible first | assumption | exact keeps.refl | apply keepsX.next | apply chordRow_keeps))

theorem execMOver_keeps : ∀ {x0 x1 s3}, keepsX s3 (execMOver x0 x1 s3) := by
  intro x0 x1 s3
  unfold execMOver
  repeat' (first | (with_reducible first | assumption | exact keeps.refl | apply keepsX.next | apply chordRow_keeps))

theorem execMFroms_keeps : ∀ {x0 x1 s3}, keepsX s3 (execMFroms x0 x1 s3) := by
  intro x0 x1 s3
  unfold execMFroms
  repeat' (first | (with_reducible first | assumption | exact keeps.refl | apply keepsX.next | apply chordRow_keeps))

theorem execMInc_keeps : ∀ {x0 x1 s3}, keepsX s3 (execMInc x0 x1 s3) := by
  intro x0 x1 s3
  unfold execMInc
  repeat' (first | (with_reducible first | assumption | exact keeps.refl | apply keepsX.next | apply chordRow_keeps))

theorem execMDec_keeps : ∀ {x0 x1 s3}, keepsX s3 (execMDec x0 x1 s3) := by
  intro x0 x1 s3
  unfold execMDec
  repeat' (first | (with_reducible first | assumption | exact keeps.refl | apply keepsX.next | apply chordRow_keeps))

theorem execMAdv_keeps : ∀ {x0 x1 s3}, keepsX s3 (execMAdv x0 x1 s3) := by
  intro x0 x1 s3
  unfold execMAdv
  repeat' (first | (with_reducible first | assumption | exact keeps.refl | apply keepsX.next | apply chordRow_keeps))

theorem execMTake_keeps : ∀ {x0 x1 s3}, keepsX s3 (execMTake x0 x1 s3) := by
  intro x0 x1 s3
  unfold execMTake
  repeat' (first | (with_reducible first | assumption | exact keeps.refl | apply keepsX.next | apply chordRow_keeps))

theorem execMTakeany_keeps : ∀ {x0 x1 s3}, keepsX s3 (execMTakeany x0 x1 s3) := by
  intro x0 x1 s3
  unfold execMTakeany
  repeat' (first | (with_reducible first | assumption | exact keeps.refl | apply keepsX.next | apply chordRow_keeps))

theorem execMDone_keeps : ∀ {x0 x1 s3}, keepsX s3 (execMDone x0 x1 s3) := by
  intro x0 x1 s3
  unfold execMDone
  repeat' (first | (with_reducible first | assumption | exact keeps.refl | apply keepsX.next | apply chordRow_keeps))

theorem execMStrm_keeps : ∀ {x0 x1 s3}, keepsX s3 (execMStrm x0 x1 s3) := by
  intro x0 x1 s3
  unfold execMStrm
  repeat' (first | (with_reducible first | assumption | exact keeps.refl | apply keepsX.next | apply chordRow_keeps))

theorem execMHdr_keeps : ∀ {x0 x1 s3}, keepsX s3 (execMHdr x0 x1 s3) := by
  intro x0 x1 s3
  unfold execMHdr
  repeat' (first | (with_reducible first | assumption | exact keeps.refl | apply keepsX.next | apply chordRow_keeps))

theorem execMAlloc_keeps : ∀ {x0 x1 s3}, keepsX s3 (execMAlloc x0 x1 s3) := by
  intro x0 x1 s3
  unfold execMAlloc
  repeat' (first | (with_reducible first | assumption | exact keeps.refl | apply keepsX.next | apply chordRow_keeps))

theorem execMFree_keeps : ∀ {x0 x1 s3}, keepsX s3 (execMFree x0 x1 s3) := by
  intro x0 x1 s3
  unfold execMFree
  repeat' (first | (with_reducible first | assumption | exact keeps.refl | apply keepsX.next | apply chordRow_keeps))

theorem execMGive_keeps : ∀ {x0 x1 s3}, keepsX s3 (execMGive x0 x1 s3) := by
  intro x0 x1 s3
  unfold execMGive
  repeat' (first | (with_reducible first | assumption | exact keeps.refl | apply keepsX.next | apply chordRow_keeps))

theorem execMSend_keeps : ∀ {x0 x1 s3}, keepsX s3 (execMSend x0 x1 s3) := by
  intro x0 x1 s3
  unfold execMSend
  repeat' (first | (with_reducible first | assumption | exact keeps.refl | apply keepsX.next | apply chordRow_keeps))

theorem execMRecv_keeps : ∀ {x0 x1 s3}, keepsX s3 (execMRecv x0 x1 s3) := by
  intro x0 x1 s3
  unfold execMRecv
  repeat' (first | (with_reducible first | assumption | exact keeps.refl | apply keepsX.next | apply chordRow_keeps))

theorem execMTp_keeps : ∀ {x0 x1 s3}, keepsX s3 (execMTp x0 x1 s3) := by
  intro x0 x1 s3
  unfold execMTp
  repeat' (first | (with_reducible first | assumption | exact keeps.refl | apply keepsX.next | apply chordRow_keeps))

theorem execMEmit_keeps : ∀ {x0 x1 s3}, keepsX s3 (execMEmit x0 x1 s3) := by
  intro x0 x1 s3
  unfold execMEmit
  repeat' (first | (with_reducible first | assumption | exact keeps.refl | apply keepsX.next | apply chordRow_keeps))

theorem execMFence_keeps : ∀ {x0 x1 s3}, keepsX s3 (execMFence x0 x1 s3) := by
  intro x0 x1 s3
  unfold execMFence
  repeat' (first | (with_reducible first | assumption | exact keeps.refl | apply keepsX.next | apply chordRow_keeps))

theorem execMGather_keeps : ∀ {x0 x1 s3}, keepsX s3 (execMGather x0 x1 s3) := by
  intro x0 x1 s3
  unfold execMGather
  repeat' (first | (with_reducible first | assumption | exact keeps.refl | apply keepsX.next | apply chordRow_keeps))

theorem execMScatter_keeps : ∀ {x0 x1 s3}, keepsX s3 (execMScatter x0 x1 s3) := by
  intro x0 x1 s3
  unfold execMScatter
  repeat' (first | (with_reducible first | assumption | exact keeps.refl | apply keepsX.next | apply chordRow_keeps))

theorem execMHcopy_keeps : ∀ {x0 x1 s3}, keepsX s3 (execMHcopy x0 x1 s3) := by
  intro x0 x1 s3
  unfold execMHcopy
  repeat' (first | (with_reducible first | assumption | exact keeps.refl | apply keepsX.next | apply chordRow_keeps))

end Sys2Proof.Machine
end

