-- ==== Sys2Proof/Laws/Keeps.lean ====
section
/-! SUPPORT. What every command keeps, and what a tick of the idle block keeps but for the clock (part 7 of 7). -/

namespace Sys2Proof.Machine

set_option Elab.async false
set_option linter.all false

/-- Every command keeps the queue, the clock, what was driven, the index of free values and the form of the stores. -/
theorem exec_keeps (i : Instr) (s : State) : keepsX s (exec i s) := by
  cases i
  case modeSet => exact execModeSet_keeps
  case modeTransitionDone => exact execModeTransitionDone_keeps
  case safeEntryThermal => exact execSafeEntryThermal_keeps
  case safeEntrySupply => exact execSafeEntrySupply_keeps
  case drainTimeout => exact execDrainTimeout_keeps
  case safeCauseClear => exact execSafeCauseClear_keeps
  case functionD0Entry => exact execFunctionD0Entry_keeps
  case portCfg => exact execPortCfg_keeps
  case portTrainingAttemptTimeout => exact execPortTrainingAttemptTimeout_keeps
  case linkUp => exact execLinkUp_keeps
  case linkDown => exact execLinkDown_keeps
  case frameReceive => exact execFrameReceive_keeps
  case batchTimeout => exact execBatchTimeout_keeps
  case silenceTimeout => exact execSilenceTimeout_keeps
  case noBufferGapClose => exact execNoBufferGapClose_keeps
  case capRearm => exact execCapRearm_keeps
  case streamCfg => exact execStreamCfg_keeps
  case streamRelease => exact execStreamRelease_keeps
  case portTxSelect => exact execPortTxSelect_keeps
  case launchDue => exact execLaunchDue_keeps
  case launchLate => exact execLaunchLate_keeps
  case txSettleDone => exact execTxSettleDone_keeps
  case tbCfg => exact execTbCfg_keeps
  case tbRelease => exact execTbRelease_keeps
  case tbOffset => exact execTbOffset_keeps
  case tbStepSlew => exact execTbStepSlew_keeps
  case tbStepRelative => exact execTbStepRelative_keeps
  case tbStepAbsolute => exact execTbStepAbsolute_keeps
  case tbStepMeasured => exact execTbStepMeasured_keeps
  case holdoverTimeout => exact execHoldoverTimeout_keeps
  case ptpSyncReceive => exact execPtpSyncReceive_keeps
  case ptpFollowUpReceive => exact execPtpFollowUpReceive_keeps
  case ptpDelayReqReceive => exact execPtpDelayReqReceive_keeps
  case ptpDelayRespReceive => exact execPtpDelayRespReceive_keeps
  case ptpPdelayReqReceive => exact execPtpPdelayReqReceive_keeps
  case ptpPdelayRespReceive => exact execPtpPdelayRespReceive_keeps
  case ptpAnnounceReceive => exact execPtpAnnounceReceive_keeps
  case ptpAnnounceTimeout => exact execPtpAnnounceTimeout_keeps
  case ptpSyncInterval => exact execPtpSyncInterval_keeps
  case ptpAnnounceInterval => exact execPtpAnnounceInterval_keeps
  case ptpDelayReqInterval => exact execPtpDelayReqInterval_keeps
  case ptpFollowUpSend => exact execPtpFollowUpSend_keeps
  case lane0LockLoss => exact execLane0LockLoss_keeps
  case refinLoss => exact execRefinLoss_keeps
  case pllRelock => exact execPllRelock_keeps
  case ppsinEdge => exact execPpsinEdge_keeps
  case ppsoutPulse => exact execPpsoutPulse_keeps
  case ppsoutPulseEnd => exact execPpsoutPulseEnd_keeps
  case synCommit => exact execSynCommit_keeps
  case synRelockDone => exact execSynRelockDone_keeps
  case synGateRelease => exact execSynGateRelease_keeps
  case launchFrame => exact execLaunchFrame_keeps
  case launchPulse => exact execLaunchPulse_keeps
  case taskStart => exact execTaskStart_keeps
  case taskKick => exact execTaskKick_keeps
  case taskCancel => exact execTaskCancel_keeps
  case taskPrio => exact execTaskPrio_keeps
  case wakeTimeFire => exact execWakeTimeFire_keeps
  case messageArrive => exact execMessageArrive_keeps
  case fenceComplete => exact execFenceComplete_keeps
  case fenceTimeout => exact execFenceTimeout_keeps
  case debugHalt => exact execDebugHalt_keeps
  case debugResume => exact execDebugResume_keeps
  case debugStep => exact execDebugStep_keeps
  case debugWrite => exact execDebugWrite_keeps
  case scrubPass => exact execScrubPass_keeps
  case microStep => exact execMicroStep_keeps
  case tpQueueRoom => exact execTpQueueRoom_keeps
  case sDup => exact execSDup_keeps
  case sDrop => exact execSDrop_keeps
  case sSwap => exact execSSwap_keeps
  case sOver => exact execSOver_keeps
  case sRot => exact execSRot_keeps
  case sNip => exact execSNip_keeps
  case sPick => exact execSPick_keeps
  case sLit8 => exact execSLit8_keeps
  case sLiti => exact execSLiti_keeps
  case sLitu => exact execSLitu_keeps
  case sLitw => exact execSLitw_keeps
  case sTag => exact execSTag_keeps
  case sOrigin => exact execSOrigin_keeps
  case sTageq => exact execSTageq_keeps
  case sToint => exact execSToint_keeps
  case sTouint => exact execSTouint_keeps
  case sTofix => exact execSTofix_keeps
  case sTodur => exact execSTodur_keeps
  case sTimeu => exact execSTimeu_keeps
  case sAddru => exact execSAddru_keeps
  case sMktime => exact execSMktime_keeps
  case sMkaddr => exact execSMkaddr_keeps
  case sMkclass => exact execSMkclass_keeps
  case sClassno => exact execSClassno_keeps
  case sScore => exact execSScore_keeps
  case sUnpk16 => exact execSUnpk16_keeps
  case sUnpk8 => exact execSUnpk8_keeps
  case sFlags => exact execSFlags_keeps
  case sPack16 => exact execSPack16_keeps
  case sPack8 => exact execSPack8_keeps
  case sMkpoison => exact execSMkpoison_keeps
  case sAdd => exact execSAdd_keeps
  case sSub => exact execSSub_keeps
  case sMul => exact execSMul_keeps
  case sDiv => exact execSDiv_keeps
  case sRem => exact execSRem_keeps
  case sNeg => exact execSNeg_keeps
  case sAbs => exact execSAbs_keeps
  case sMin => exact execSMin_keeps
  case sMax => exact execSMax_keeps
  case sAddw => exact execSAddw_keeps
  case sSubw => exact execSSubw_keeps
  case sSat16 => exact execSSat16_keeps
  case sSat8 => exact execSSat8_keeps
  case sAnd => exact execSAnd_keeps
  case sOr => exact execSOr_keeps
  case sXor => exact execSXor_keeps
  case sNot => exact execSNot_keeps
  case sShlv => exact execSShlv_keeps
  case sShrv => exact execSShrv_keeps
  case sShl => exact execSShl_keeps
  case sShr => exact execSShr_keeps
  case sAddi => exact execSAddi_keeps
  case sEq => exact execSEq_keeps
  case sNe => exact execSNe_keeps
  case sLt => exact execSLt_keeps
  case sLe => exact execSLe_keeps
  case sGt => exact execSGt_keeps
  case sGe => exact execSGe_keeps
  case sSel => exact execSSel_keeps
  case sLd => exact execSLd_keeps
  case sSt => exact execSSt_keeps
  case sLdm => exact execSLdm_keeps
  case sStm => exact execSStm_keeps
  case sXm => exact execSXm_keeps
  case sXlc => exact execSXlc_keeps
  case sXvls => exact execSXvls_keeps
  case sXvl => exact execSXvl_keeps
  case sNow => exact execSNow_keeps
  case cJmp => exact execCJmp_keeps
  case cBrt => exact execCBrt_keeps
  case cBrf => exact execCBrf_keeps
  case cCall => exact execCCall_keeps
  case cJmpl => exact execCJmpl_keeps
  case cBrtl => exact execCBrtl_keeps
  case cBrfl => exact execCBrfl_keeps
  case cLoopi1 => exact execCLoopi1_keeps
  case cLoopi2 => exact execCLoopi2_keeps
  case cLoops => exact execCLoops_keeps
  case cNop => exact execCNop_keeps
  case cEnd => exact execCEnd_keeps
  case cWait => exact execCWait_keeps
  case cYield => exact execCYield_keeps
  case cFence => exact execCFence_keeps
  case cRet => exact execCRet_keeps
  case cLeave => exact execCLeave_keeps
  case cJmps => exact execCJmps_keeps
  case cCalls => exact execCCalls_keeps
  case cRth => exact execCRth_keeps
  case cRthn => exact execCRthn_keeps
  case cWake => exact execCWake_keeps
  case cUnwake => exact execCUnwake_keeps
  case cWaker => exact execCWaker_keeps
  case cSetmask => exact execCSetmask_keeps
  case vDup => exact execVDup_keeps
  case vDrop => exact execVDrop_keeps
  case vSwap => exact execVSwap_keeps
  case vOver => exact execVOver_keeps
  case vRot => exact execVRot_keeps
  case vNip => exact execVNip_keeps
  case vLdv => exact execVLdv_keeps
  case vLda => exact execVLda_keeps
  case vStv => exact execVStv_keeps
  case vSta => exact execVSta_keeps
  case vLdb => exact execVLdb_keeps
  case vLdbw => exact execVLdbw_keeps
  case vLdq => exact execVLdq_keeps
  case vStq => exact execVStq_keeps
  case vSplat => exact execVSplat_keeps
  case vSplat16 => exact execVSplat16_keeps
  case vSplat8 => exact execVSplat8_keeps
  case vWlo => exact execVWlo_keeps
  case vWhi => exact execVWhi_keeps
  case vNarrow => exact execVNarrow_keeps
  case vToq => exact execVToq_keeps
  case vFromq => exact execVFromq_keeps
  case vAdd => exact execVAdd_keeps
  case vSub => exact execVSub_keeps
  case vMul => exact execVMul_keeps
  case vMulq => exact execVMulq_keeps
  case vAbs => exact execVAbs_keeps
  case vNeg => exact execVNeg_keeps
  case vMin => exact execVMin_keeps
  case vMax => exact execVMax_keeps
  case vAnd => exact execVAnd_keeps
  case vOr => exact execVOr_keeps
  case vXor => exact execVXor_keeps
  case vShr => exact execVShr_keeps
  case vShl => exact execVShl_keeps
  case vMag2 => exact execVMag2_keeps
  case vMacs => exact execVMacs_keeps
  case vMuls => exact execVMuls_keeps
  case vKeepge => exact execVKeepge_keeps
  case vKeepgev => exact execVKeepgev_keeps
  case vRsum => exact execVRsum_keeps
  case vRmax => exact execVRmax_keeps
  case vRmin => exact execVRmin_keeps
  case vRcnt => exact execVRcnt_keeps
  case vSld => exact execVSld_keeps
  case vSort => exact execVSort_keeps
  case mDup => exact execMDup_keeps
  case mDrop => exact execMDrop_keeps
  case mSwap => exact execMSwap_keeps
  case mOver => exact execMOver_keeps
  case mFroms => exact execMFroms_keeps
  case mInc => exact execMInc_keeps
  case mDec => exact execMDec_keeps
  case mAdv => exact execMAdv_keeps
  case mTake => exact execMTake_keeps
  case mTakeany => exact execMTakeany_keeps
  case mDone => exact execMDone_keeps
  case mStrm => exact execMStrm_keeps
  case mHdr => exact execMHdr_keeps
  case mAlloc => exact execMAlloc_keeps
  case mFree => exact execMFree_keeps
  case mGive => exact execMGive_keeps
  case mSend => exact execMSend_keeps
  case mRecv => exact execMRecv_keeps
  case mTp => exact execMTp_keeps
  case mEmit => exact execMEmit_keeps
  case mFence => exact execMFence_keeps
  case mGather => exact execMGather_keeps
  case mScatter => exact execMScatter_keeps
  case mHcopy => exact execMHcopy_keeps
  case tpArriveQcu => exact execTpArriveQcu_keeps
  case qcuRelease => exact execQcuRelease_keeps
  case releaseMark => exact execReleaseMark_keeps
  case castleHoldEnd => exact execCastleHoldEnd_keeps
  case ccuInput => exact execCcuInput_keeps
  case ccuDecide => exact execCcuDecide_keeps
  case stepShadowEnd => exact execStepShadowEnd_keeps
  case triginEdge => exact execTriginEdge_keeps
  case triginStuck => exact execTriginStuck_keeps
  case triginUnstuck => exact execTriginUnstuck_keeps
  case triginFifoPop => exact execTriginFifoPop_keeps
  case triginFifoFlush => exact execTriginFifoFlush_keeps
  case fastStretchEnd => exact execFastStretchEnd_keeps
  case fastOutputEnd => exact execFastOutputEnd_keeps
  case delayTrack => exact execDelayTrack_keeps
  case trigoutPulseEnd => exact execTrigoutPulseEnd_keeps
  case trigoutLaunchDue => exact execTrigoutLaunchDue_keeps
  case trigCondSet => exact execTrigCondSet_keeps
  case condRelease => exact execCondRelease_keeps
  case trigFastSet => exact execTrigFastSet_keeps
  case trigFastApply => exact execTrigFastApply_keeps
  case fastRelease => exact execFastRelease_keeps
  case lateCapRearm => exact execLateCapRearm_keeps
  case linkHelloTx => exact execLinkHelloTx_keeps
  case beaconTx => exact execBeaconTx_keeps
  case linkHelloTimeout => exact execLinkHelloTimeout_keeps
  case beaconTimeout => exact execBeaconTimeout_keeps
  case gcmTpReceive => exact execGcmTpReceive_keeps
  case gcmTaReceive => exact execGcmTaReceive_keeps
  case gcmRecallReceive => exact execGcmRecallReceive_keeps
  case gcmReplyReceive => exact execGcmReplyReceive_keeps
  case gcmHelloReceive => exact execGcmHelloReceive_keeps
  case gcmPackTimeout => exact execGcmPackTimeout_keeps
  case shedLevelUp => exact execShedLevelUp_keeps
  case shedLevelDown => exact execShedLevelDown_keeps
  case hbmRefresh => exact execHbmRefresh_keeps
  case streamQuota => exact execStreamQuota_keeps
  case bufRelease => exact execBufRelease_keeps
  case bufFaultRearm => exact execBufFaultRearm_keeps
  case evbTaTake => exact execEvbTaTake_keeps
  case eventBuildStart => exact execEventBuildStart_keeps
  case buildWaitTimeout => exact execBuildWaitTimeout_keeps
  case sizesComplete => exact execSizesComplete_keeps
  case evbRegionDone => exact execEvbRegionDone_keeps
  case recordDelivery => exact execRecordDelivery_keeps
  case recordHoldTimeout => exact execRecordHoldTimeout_keeps
  case attachHoldExpire => exact execAttachHoldExpire_keeps
  case recallLocal => exact execRecallLocal_keeps
  case recallDevice => exact execRecallDevice_keeps
  case recallAll => exact execRecallAll_keeps
  case evtRoute => exact execEvtRoute_keeps
  case profileRelease => exact execProfileRelease_keeps
  case quotaSet => exact execQuotaSet_keeps
  case doorbellPoll => exact execDoorbellPoll_keeps
  case doorbellInvalidate => exact execDoorbellInvalidate_keeps
  case nudge => exact execNudge_keeps
  case ringEnable => exact execRingEnable_keeps
  case ringDisable => exact execRingDisable_keeps
  case ringResume => exact execRingResume_keeps
  case freeEntry => exact execFreeEntry_keeps
  case coalTimeout => exact execCoalTimeout_keeps
  case msixUnmask => exact execMsixUnmask_keeps
  case flr => exact execFlr_keeps
  case dmaReadFault => exact execDmaReadFault_keeps
  case nop => exact execNop_keeps
  case echo => exact execEcho_keeps
  case fenceExec => exact execFenceExec_keeps
  case fenceFunc => exact execFenceFunc_keeps
  case fenceData => exact execFenceData_keeps
  case fenceTime => exact execFenceTime_keeps
  case fenceTimeReached => exact execFenceTimeReached_keeps
  case jrnlSync => exact execJrnlSync_keeps
  case statsSnap => exact execStatsSnap_keeps
  case counterReadStream => exact execCounterReadStream_keeps
  case counterReadFunction => exact execCounterReadFunction_keeps
  case engLoad => exact execEngLoad_keeps
  case castleEngine => exact execCastleEngine_keeps
  case castleSteward => exact execCastleSteward_keeps
  case castleSlice => exact execCastleSlice_keeps
  case castlePch => exact execCastlePch_keeps
  case repairCommit => exact execRepairCommit_keeps
  case flashWrite => exact execFlashWrite_keeps
  case flashErase => exact execFlashErase_keeps
  case fwStage => exact execFwStage_keeps
  case fwSwitchNextBoot => exact execFwSwitchNextBoot_keeps
  case fwSwitchLive => exact execFwSwitchLive_keeps
  case pacePeriod => exact execPacePeriod_keeps
  case paceEnable => exact execPaceEnable_keeps
  case railSet => exact execRailSet_keeps
  case wearAverage => exact execWearAverage_keeps
  case laneEyeMeasure => exact execLaneEyeMeasure_keeps
  case castleAutoStart => exact execCastleAutoStart_keeps
  case engineCastleFreeze => exact execEngineCastleFreeze_keeps
  case engineCastleResume => exact execEngineCastleResume_keeps
  case castleVerifyDone => exact execCastleVerifyDone_keeps
  case repairMapCommit => exact execRepairMapCommit_keeps
  case pchEvacDone => exact execPchEvacDone_keeps
  case bankCastleDone => exact execBankCastleDone_keeps
  case wireCastle => exact execWireCastle_keeps
  case powerWarning => exact execPowerWarning_keeps
  case powerWarningClear => exact execPowerWarningClear_keeps
  case powerOnReset => exact execPowerOnReset_keeps
  case brownOut => exact execBrownOut_keeps
  case sysrstAssert => exact execSysrstAssert_keeps
  case sysrstRelease => exact execSysrstRelease_keeps
  case perstAssert => exact execPerstAssert_keeps
  case perstRelease => exact execPerstRelease_keeps
  case hotReset => exact execHotReset_keeps
  case watchdogExpire => exact execWatchdogExpire_keeps
  case thermalTrip => exact execThermalTrip_keeps
  case thermalTripRelease => exact execThermalTripRelease_keeps
  case jtagDevrst => exact execJtagDevrst_keeps
  case rstSwL1 => exact execRstSwL1_keeps
  case rstSwL2 => exact execRstSwL2_keeps
  case rstSwL3 => exact execRstSwL3_keeps
  case rstSwL4 => exact execRstSwL4_keeps
  case bringupReleaseStep => exact execBringupReleaseStep_keeps
  case spiTransfer => exact execSpiTransfer_keeps
  case spiTransferDone => exact execSpiTransferDone_keeps
  case spiFifoResume => exact execSpiFifoResume_keeps
  case spiTxPush => exact execSpiTxPush_keeps
  case spiRxPop => exact execSpiRxPop_keeps
  case spiTxFlush => exact execSpiTxFlush_keeps
  case spiRxFlush => exact execSpiRxFlush_keeps
  case spiDisable => exact execSpiDisable_keeps
  case spiTargetSelect => exact execSpiTargetSelect_keeps
  case spiTargetWord => exact execSpiTargetWord_keeps
  case spiTargetDeselect => exact execSpiTargetDeselect_keeps
  case flashPageFlush => exact execFlashPageFlush_keeps
  case flashStatusPoll => exact execFlashStatusPoll_keeps
  case flashOpTimeout => exact execFlashOpTimeout_keeps
  case configRecordRewrite => exact execConfigRecordRewrite_keeps
  case tw0AddressMatch => exact execTw0AddressMatch_keeps
  case tw0Sleep => exact execTw0Sleep_keeps
  case tw0StretchExpire => exact execTw0StretchExpire_keeps
  case tw0Id => exact execTw0Id_keeps
  case tw0Status => exact execTw0Status_keeps
  case tw0Temp => exact execTw0Temp_keeps
  case tw0Rails => exact execTw0Rails_keeps
  case tw0Result => exact execTw0Result_keeps
  case tw0Reset => exact execTw0Reset_keeps
  case tw0Safe => exact execTw0Safe_keeps
  case tw0AttnClr => exact execTw0AttnClr_keeps
  case tw0RegRead => exact execTw0RegRead_keeps
  case attnRequest => exact execAttnRequest_keeps
  case attnRepeat => exact execAttnRepeat_keeps
  case attnCauseClear => exact execAttnCauseClear_keeps
  case twStuck => exact execTwStuck_keeps
  case timerEnable => exact execTimerEnable_keeps
  case timerMatch => exact execTimerMatch_keeps
  case timerReload => exact execTimerReload_keeps
  case timerCapture => exact execTimerCapture_keeps
  case timerTimeFire => exact execTimerTimeFire_keeps
  case timerPinLevel => exact execTimerPinLevel_keeps
  case timerReloadCommit => exact execTimerReloadCommit_keeps
  case timerCmpCommit => exact execTimerCmpCommit_keeps
  case registerWrite => exact execRegisterWrite_keeps
  case jtagRegacc => exact execJtagRegacc_keeps
  case setupFaultClear => exact execSetupFaultClear_keeps
  case powerFail => exact execPowerFail_keeps
  case hostLinkUp => exact execHostLinkUp_keeps
  case functionD3hotEntry => exact execFunctionD3hotEntry_keeps
  case thermalWarning => exact execThermalWarning_keeps
  case loReadLatch => exact execLoReadLatch_keeps
  case illegalChord => exact execIllegalChord_keeps
  case tw0InvalidTransfer => exact execTw0InvalidTransfer_keeps
  case reservedOpcode => exact execReservedOpcode_keeps

/-- A tick keeps all that a command keeps, from the moment the clock has moved. -/
theorem blockTick_keeps (s : State) : keeps { s with ticks := s.ticks + 1 } (blockTick s) := by
  unfold blockTick
  have h : keeps { s with ticks := s.ticks + 1 }
      ((List.range 4).foldl (fun t m => synTick s m t) (timeTick { s with ticks := s.ticks + 1 })) :=
    foldl_keeps (fun _ _ => synTick_keeps) _ (timeTick_keeps keeps.refl)
  dsimp only
  split
  · exact showHeld_keeps (paceTick_keeps (trigTick_keeps (foldl_keeps (fun _ _ => histTick_keeps) _ (tmrTick_keeps h))))
  · exact h

end Sys2Proof.Machine
end

