-- ==== Sys2Proof/Laws/Words.lean ====
section
/-! SUPPORT. Tagged words read back: the tag, payload check and value of each kind of word (R159, R163), and what a check of operands answers
when every operand is good (R160, R164, R200). -/

namespace Sys2Proof.Machine

/-! ### Results in sequence -/

@[simp] theorem tr_bind_ok {α β : Type} (a : α) (f : α → TR β) : ((Except.ok a : TR α) >>= f) = f a := rfl
@[simp] theorem tr_pure {α : Type} (a : α) : (pure a : TR α) = .ok a := rfl

theorem depthOk_ok {p q d cap : Nat} (h1 : p ≤ d) (h2 : d - p + q ≤ cap) : depthOk p q d cap true = .ok () := by
  unfold depthOk; rw [if_neg, if_neg] <;> simp <;> omega

theorem copyOk_ok {w : EWord} (h : copyable w) : copyOk w = .ok () := by
  unfold copyable at h; simp [copyOk, h]

/-! ### Any word -/

theorem tagCode_lt (t : Tag) : tagCode t < 16 := by cases t <;> decide

theorem mkW_toNat (t : Tag) (p : Nat) : (mkW t p).toNat = tagCode t * 2 ^ 36 + p % 2 ^ 36 := by
  have := tagCode_lt t
  have h2 : p % 2 ^ 36 < 2 ^ 36 := Nat.mod_lt _ (by decide)
  simp only [mkW, BitVec.toNat_ofNat]
  omega

@[simp] theorem tagNum_mkW (t : Tag) (p : Nat) : tagNum (mkW t p) = tagCode t := by
  rw [tagNum, mkW_toNat]
  have h2 : p % 2 ^ 36 < 2 ^ 36 := Nat.mod_lt _ (by decide)
  omega

@[simp] theorem tagOf_mkW (t : Tag) (p : Nat) : tagOf (mkW t p) = t := by
  rw [tagOf, tagNum_mkW]; cases t <;> rfl

@[simp] theorem pay_mkW (t : Tag) (p : Nat) : pay (mkW t p) = p % 2 ^ 36 := by
  rw [pay, mkW_toNat]; omega

@[simp] theorem pay32_mkW (t : Tag) (p : Nat) : pay32 (mkW t p) = p % 2 ^ 32 := by
  rw [pay32, mkW_toNat]; omega

theorem bit_eq_testBit (v n : Nat) : bit v n = v.testBit n := by
  rw [bit, Nat.testBit, Nat.and_comm, Nat.and_one_is_mod]
  rcases Nat.mod_two_eq_zero_or_one (v >>> n) with h | h <;> simp [h]

theorem bit_mkW (t : Tag) (p : Nat) {n : Nat} (h : n < 36) : bit (mkW t p).toNat n = bit p n := by
  have h2 : p % 2 ^ 36 < 2 ^ 36 := Nat.mod_lt _ (by decide)
  rw [bit_eq_testBit, bit_eq_testBit, mkW_toNat, Nat.mul_comm, Nat.testBit_two_pow_mul_add _ h2, if_pos h, Nat.testBit_mod_two_pow]
  simp [h]

/-! ### Signed fields -/

theorem wrapN_eq (n : Nat) (v : Int) : ((wrapN n v : Nat) : Int) = v % ((2 ^ n : Nat) : Int) := by
  have : (0 : Int) ≤ v % ((2 ^ n : Nat) : Int) := Int.emod_nonneg _ (by exact_mod_cast (Nat.two_pow_pos n).ne')
  rw [wrapN, Int.toNat_of_nonneg this]

theorem wrapN_lt (n : Nat) (v : Int) : wrapN n v < 2 ^ n := by
  have h := wrapN_eq n v
  have : v % ((2 ^ n : Nat) : Int) < ((2 ^ n : Nat) : Int) := Int.emod_lt_of_pos _ (by exact_mod_cast Nat.two_pow_pos n)
  omega

theorem sgn32_wrap36 {v : Int} (h : I32 v) : sgn 32 (wrapN 36 v % 2 ^ 32) = v := by
  have e := wrapN_eq 36 v
  obtain ⟨h1, h2⟩ := h
  simp only [sgn]
  norm_num at *
  split <;> omega

/-! ### The kinds of word -/

@[simp] theorem tagOf_wInt (v : Int) : tagOf (wInt v) = .int := tagOf_mkW _ _
@[simp] theorem tagOf_wUint (n : Nat) : tagOf (wUint n) = .uint := tagOf_mkW _ _
@[simp] theorem tagOf_wDur (v : Int) : tagOf (wDur v) = .dur := tagOf_mkW _ _
@[simp] theorem tagOf_wFix (v : Int) : tagOf (wFix v) = .fix := tagOf_mkW _ _
@[simp] theorem tagOf_wBool (b : Bool) : tagOf (wBool b) = .bool := tagOf_mkW _ _
@[simp] theorem tagOf_wAddr (sp off : Nat) : tagOf (wAddr sp off) = .addr := tagOf_mkW _ _
@[simp] theorem tagOf_wTime (v : Bool) (b n : Nat) : tagOf (wTime v b n) = .time := tagOf_mkW _ _
@[simp] theorem tagOf_wPoison (o l : Nat) : tagOf (wPoison o l) = .poison := tagOf_mkW _ _
@[simp] theorem tagOf_wHandle (k g : Nat) : tagOf (wHandle k g) = .handle := tagOf_mkW _ _

theorem iVal_wInt {v : Int} (h : I32 v) : iVal (wInt v) = v := by
  rw [iVal, wInt, pay32_mkW, sgn32_wrap36 h]

theorem iVal_wDur {v : Int} (h : I32 v) : iVal (wDur v) = v := by
  rw [iVal, wDur, pay32_mkW, sgn32_wrap36 h]

theorem fVal_wFix {v : Int} (h : F36 v) : fVal (wFix v) = v := by
  have e := wrapN_eq 36 v
  obtain ⟨h1, h2⟩ := h
  rw [fVal, wFix, pay_mkW]
  simp only [sgn]
  norm_num at *
  split <;> omega

@[simp] theorem pay32_wUint (n : Nat) : pay32 (wUint n) = n % 2 ^ 32 := by
  rw [wUint, pay32_mkW]; omega

theorem uVal_wUint {n : Nat} (h : U32 n) : uVal (wUint n) = n := by
  rw [uVal, pay32_wUint, Nat.mod_eq_of_lt h]

@[simp] theorem pay_wBool (b : Bool) : pay (wBool b) = b1 b := by
  rw [wBool, pay_mkW]; cases b <;> rfl

@[simp] theorem aSpace_wAddr {sp : Nat} (off : Nat) (h : sp < 16) : aSpace (wAddr sp off) = sp := by
  rw [aSpace, bits, wAddr, mkW_toNat, Nat.shiftRight_eq_div_pow]
  norm_num [tagCode]; omega

@[simp] theorem pay32_wAddr (sp off : Nat) : pay32 (wAddr sp off) = off % 2 ^ 32 := by
  rw [wAddr, pay32_mkW]; omega

@[simp] theorem pay32_wTime (v : Bool) (b n : Nat) : pay32 (wTime v b n) = n % 2 ^ 32 := by
  rw [wTime, pay32_mkW]; omega

@[simp] theorem tBase_wTime (v : Bool) (b n : Nat) : tBase (wTime v b n) = b % 8 := by
  rw [tBase, bits, wTime, mkW_toNat, Nat.shiftRight_eq_div_pow]
  have : b1 v ≤ 1 := by cases v <;> decide
  norm_num [tagCode]; omega

@[simp] theorem tValid_wTime (v : Bool) (b n : Nat) : tValid (wTime v b n) = v := by
  rw [tValid, bit, wTime, mkW_toNat, Nat.shiftRight_eq_div_pow]
  cases v <;> simp [tagCode, b1] <;> omega

/-! ### Payload checks -/

theorem payOk_int_of {w : EWord} {v : Int} (h : I32 v) (ht : tagOf w = .int ∨ tagOf w = .dur) (hp : pay w = wrapN 36 v)
    (hb : bit w.toNat 31 = bit (wrapN 36 v) 31) : payOk w = true := by
  have e := wrapN_eq 36 v
  obtain ⟨h1, h2⟩ := h
  have : (wrapN 36 v) / 2 ^ 32 = if bit (wrapN 36 v) 31 then 15 else 0 := by
    simp only [bit, Nat.shiftRight_eq_div_pow]
    norm_num at *
    split <;> omega
  unfold payOk
  rcases ht with ht | ht <;> rw [ht] <;> simp only [hp, hb, this, decide_true]

theorem payOk_wInt {v : Int} (h : I32 v) : payOk (wInt v) = true :=
  payOk_int_of h (.inl (by simp)) (by rw [wInt, pay_mkW, Nat.mod_eq_of_lt (wrapN_lt 36 v)]) (bit_mkW _ _ (by omega))

theorem payOk_wDur {v : Int} (h : I32 v) : payOk (wDur v) = true :=
  payOk_int_of h (.inr (by simp)) (by rw [wDur, pay_mkW, Nat.mod_eq_of_lt (wrapN_lt 36 v)]) (bit_mkW _ _ (by omega))

@[simp] theorem payOk_wUint (n : Nat) : payOk (wUint n) = true := by
  simp only [payOk, tagOf_wUint, decide_eq_true_eq]; rw [wUint, pay_mkW]; omega

@[simp] theorem payOk_wFix (v : Int) : payOk (wFix v) = true := by simp [payOk]

@[simp] theorem payOk_wBool (b : Bool) : payOk (wBool b) = true := by
  simp only [payOk, tagOf_wBool, pay_wBool]; cases b <;> decide

theorem payOk_addr {w : EWord} (h : tagOf w = .addr) : payOk w = decide (aSpace w ≤ 2) := by simp only [payOk, h]

theorem payOk_wAddr {sp : Nat} (off : Nat) (h : sp ≤ 2) : payOk (wAddr sp off) = true := by
  rw [payOk_addr (tagOf_wAddr _ _), aSpace_wAddr off (by omega), decide_eq_true_eq]; exact h

theorem payOk_time {w : EWord} (h : tagOf w = .time) : payOk w = true := by simp only [payOk, h]

@[simp] theorem payOk_wTime (v : Bool) (b n : Nat) : payOk (wTime v b n) = true := payOk_time (tagOf_wTime _ _ _)

/-! ### Checks of good operands -/

/-- A word that passes the checks of an interpreting operation: its payload is good and it is neither POISON nor reserved. -/
def goodWord (w : EWord) : Prop := payOk w = true ∧ tagOf w ≠ .poison ∧ tagOf w ≠ .reserved

theorem good_wInt {v : Int} (h : I32 v) : goodWord (wInt v) := ⟨payOk_wInt h, by simp, by simp⟩
theorem good_wDur {v : Int} (h : I32 v) : goodWord (wDur v) := ⟨payOk_wDur h, by simp, by simp⟩
theorem good_wUint (n : Nat) : goodWord (wUint n) := ⟨payOk_wUint n, by simp, by simp⟩
theorem good_wFix (v : Int) : goodWord (wFix v) := ⟨payOk_wFix v, by simp, by simp⟩
theorem good_wBool (b : Bool) : goodWord (wBool b) := ⟨payOk_wBool b, by simp, by simp⟩
theorem good_wTime (v : Bool) (b n : Nat) : goodWord (wTime v b n) := ⟨payOk_wTime v b n, by simp, by simp⟩
theorem good_wAddr {sp : Nat} (off : Nat) (h : sp ≤ 2) : goodWord (wAddr sp off) := ⟨payOk_wAddr off h, by simp, by simp⟩

theorem filter_good {ws : List EWord} {p : EWord → Bool} (h : ∀ w ∈ ws, p w = false) : ws.filter p = [] :=
  List.filter_eq_nil_iff.2 (fun w hw => by simp [h w hw])

/-- A propagating operation on good operands runs. -/
theorem propagate_good {ws : List EWord} {k : TR EWord} (h : ∀ w ∈ ws, goodWord w) : propagate ws k = k := by
  have h1 : ws.filter (fun w => decide (tagOf w = .reserved)) = [] := filter_good (fun w hw => by simp [(h w hw).2.2])
  have h2 : ws.find? (fun w => decide (tagOf w = .poison)) = none :=
    List.find?_eq_none.2 (fun w hw => by simp [(h w hw).2.1])
  have h3 : ws.filter (fun w => ! payOk w) = [] := filter_good (fun w hw => by simp [(h w hw).1])
  simp [propagate, h1, h2, h3, tagFault]

/-- A consuming operation on good operands that it accepts runs. -/
theorem consumes_good {α : Type} {ok : EWord → Bool} {ws : List EWord} {k : TR α} (h : ∀ w ∈ ws, goodWord w ∧ ok w = true) :
    consumes ok ws k = k := by
  have h1 : ws.filter (fun w => ! payOk w || (decide (tagOf w ≠ .poison) && ! ok w)) = [] :=
    filter_good (fun w hw => by simp [(h w hw).1.1, (h w hw).2])
  have h2 : ws.find? (fun w => decide (tagOf w = .poison)) = none :=
    List.find?_eq_none.2 (fun w hw => by simp [(h w hw).1.2.1])
  unfold consumes
  rw [h1, h2]; rfl

theorem wantTag_good {α : Type} {t : Tag} {w : EWord} {k : TR α} (h : goodWord w) (ht : tagOf w = t) : wantTag t w k = k :=
  consumes_good (fun x hx => by rw [List.mem_singleton.1 hx]; exact ⟨h, by simp [ht]⟩)

theorem wantAddr_good {α : Type} {sp bound off : Nat} {k : Nat → TR α} (hs : sp ≤ 2) (ho : off < bound) (hb : bound ≤ 2 ^ 32) :
    wantAddr sp bound (wAddr sp off) k = k off := by
  rw [wantAddr, wantTag_good (good_wAddr off hs) (by simp)]
  have : off % 2 ^ 32 = off := Nat.mod_eq_of_lt (by omega)
  rw [aSpace_wAddr off (by omega), pay32_wAddr, this, if_neg (by omega)]

/-- A POISON operand of a propagating operation is its result, the deepest first (R164). -/
theorem propagate_poison {ws : List EWord} {k : TR EWord} {p : EWord} (h : ∀ w ∈ ws, tagOf w ≠ .reserved)
    (hp : ws.find? (fun w => decide (tagOf w = .poison)) = some p) : propagate ws k = .ok (mkW .poison (pay p % 65536)) := by
  have h1 : ws.filter (fun w => decide (tagOf w = .reserved)) = [] := filter_good (fun w hw => by simp [h w hw])
  simp [propagate, h1, hp, tagFault]

end Sys2Proof.Machine
end

