-- ==== Sys2Proof/Tests/Slice0.lean ====
section
/-! SUPPORT. The model's own tests: what the well-formedness checks refuse, and one state for each statement that meets its hypotheses,
at the edges of their ranges. Expected values are worked out from the rules named. -/

namespace Sys2Proof.Tests
set_option Elab.async false

open Sys2Proof Sys2Proof.Machine

/-! ### States to start from -/

/-- A device after bring-up, in Acquire. -/
def up : State := { State.reset with rst := { State.reset.rst with cur := none }, mode := { State.reset.mode with current := .acquire } }

/-- A device in a mode. -/
def inMode (m : Mode) (s : State) : State := { s with mode := { s.mode with current := m } }

/-- The program words of one syllable with its stop bit: R194's syllable word, then extension words of 15 bits, high first (R195). -/
def syl (str op lit ext : Nat) : List Nat :=
  if ext = 0 then [0x8000 + str * 0x2000 + op]
  else (str * 0x2000 + op) :: (List.range ext).map (fun i => lit / 2 ^ (15 * (ext - 1 - i)) % 2 ^ 15 + (if i = ext - 1 then 0x8000 else 0))

/-- Engine slot 5 of quadrant 2 runs its task slot 3 at an address, with those program words there. -/
def engAt (pc : Nat) (ws : List Nat) (f : Task → Task) (s : State) : State :=
  setEng (ekey 2 5) (fun e => { e with
    prog := ws.zipIdx.foldl (fun m x => stPut 0 m (pc + x.2) x.1) e.prog, running := some 3, logical := some 103,
    tasks := mput e.tasks 3 (f { state := .running, pc := pc, waitMask := 1, batchThr := 1 }) }) s

/-- The same before one chord of one syllable, with stacks. -/
def atChord (str op lit ext : Nat) (sS : List EWord) (vS : List Vec) (mS : List EWord) (s : State := up) (f : Task → Task := id) : State :=
  engAt 0x123 (syl str op lit ext) (fun t => f { t with sStk := sS, vStk := vS, mStk := mS }) s

/-- All of a list of facts hold. -/
def allOf (l : List Bool) : Bool := l.all id

/-- A row of the S, V or M string is the engine's next chord, on those stacks, and it runs. -/
def sRuns (i : Fin 4 → Fin 52 → Instr) (op : Nat) (ins : List EWord) (ext : Nat := 0) (lit : Nat := 0) : Bool :=
  let s := atChord 1 op lit ext ins [] []
  nextIs 1 op lit (1 + ext) 2 5 3 s && decide (sStk 2 5 3 s = ins) && ran (exec (i 2 5) s)
def vRuns (i : Fin 4 → Fin 52 → Instr) (op : Nat) (ins : List Vec) (w : List EWord := []) (m : List EWord := []) : Bool :=
  let s := atChord 2 op 0 0 w ins m
  nextIs 2 op 0 1 2 5 3 s && decide (vStk 2 5 3 s = ins) && ran (exec (i 2 5) s)
def mRuns (i : Fin 4 → Fin 52 → Instr) (op : Nat) (ins : List EWord) (w : List EWord := []) : Bool :=
  let s := atChord 3 op 0 0 w [] ins
  nextIs 3 op 0 1 2 5 3 s && decide (mStk 2 5 3 s = ins) && ran (exec (i 2 5) s)
/-- A chord of the C string is next (with its length), and it runs. -/
def cRuns (i : Fin 4 → Fin 52 → Instr) (op lit ext : Nat) (sS : List EWord) (f : Task → Task := id) : Bool :=
  let s := atChord 0 op lit ext sS [] [] up f
  nextAt 0 op lit (1 + ext) 2 5 3 s && ran (exec (i 2 5) s)

/-- The state after a command. -/
def after (i : Instr) (s : State) : State := match exec i s with | .next t => t | _ => s

/-! ### Well-formedness refuses -/

/-- A PTP message with a sequence number. -/
def msg (n : Nat) : PtpMsg := { type := .sync, seq := n, sec := 0, nsec := 0, corr := 0, twoStep := false, sender := 1, domain := 0, sdo := 0 }
/-- How a message over Ethernet came. -/
def l2 : PtpFrom := ⟨0, 0⟩

/-- Just past the errors of R139, a sequence number above 16 bits, a word named twice or off its line, temperatures beyond a signed byte,
a link of no generation or width, a FLIT link below generation 6 turned off, an offset beyond BAR2, a run of no words. -/
theorem test_wf_refuses : allOf [
    ! Instr.wf (.frameReceive 0 ⟨[], true, 52429, 0, 0⟩), ! Instr.wf (.portTxSelect 0 (-52429)), ! Instr.wf (.launchDue 0 65537),
    ! Instr.wf (.ptpSyncReceive 0 (msg 65536) 0 l2), ! Instr.wf (.ptpSyncReceive 0 (msg 0) 52429 l2),
    ! Instr.wf (.ptpDelayReqReceive 0 (msg 65536) 0 l2), ! Instr.wf (.ptpPdelayReqReceive 0 (msg 0) (-52429) l2),
    ! Instr.wf (.ptpPdelayRespReceive 0 { msg 0 with nsec := 1000000000 } 0 l2), ! Instr.wf (.ptpFollowUpReceive 0 { msg 0 with sec := 2 ^ 48 } l2),
    ! Instr.wf (.ptpDelayRespReceive 0 { msg 0 with domain := 256 } l2), ! Instr.wf (.ptpAnnounceReceive 0 { msg 0 with sdo := 4096 } l2),
    ! Instr.wf (.ppsinEdge 32769), ! Instr.wf (.triginEdge 0 32769 ⟨true, 0⟩),
    ! Instr.wf (.trigoutLaunchDue 0 32769), ! Instr.wf (.doorbellPoll 0 [(3, 1), (3, 2)]),
    ! Instr.wf (.doorbellInvalidate 0 0 [(8, 1)]), ! Instr.wf (.nudge 0 [(192, 1), (192, 1)]), ! Instr.wf (.dmaReadFault 0 [4, 4]),
    ! Instr.wf (.thermalTrip 128), ! Instr.wf (.thermalTripRelease (-129)), ! Instr.wf (.thermalWarning [0, 0, 0, 0]),
    ! Instr.wf (.thermalWarning [0, 0, 0, 0, 128]), ! Instr.wf (.hostLinkUp 2 16 true false false 0 0),
    ! Instr.wf (.hostLinkUp 5 3 true false false 0 0), ! Instr.wf (.hostLinkUp 6 16 false false false 0 0),
    ! Instr.wf (.loReadLatch .steward false 0 0), ! Instr.wf (.loReadLatch .steward true 0xFFFC 2)] = true := by decide
/-- The words of a fence are distinct in each of its rows, and a register write stays in BAR2. -/
theorem test_wf_refuses_fences_and_writes :
    let d : Desc := ⟨0, 0, 0, 0, 0, 0⟩
    let w : List (Fin 193 × BitVec 64) := [(1, 0), (1, 0)]
    allOf [! Instr.wf (.fenceExec d w), ! Instr.wf (.fenceFunc d w), ! Instr.wf (.fenceData d w), ! Instr.wf (.fenceTime d w),
      ! Instr.wf (.registerWrite .steward true 0x10000 (.dw 0xF 0) [])] = true := by decide

/-! ### Engine statements (O1 to O29) -/

/-- StackAndLiteralOperations: three words deep, S.PICK at its least and greatest depth, M at the ends of its offsets. -/
theorem witness_StackAndLiteralOperations_stack : allOf [
    sRuns .sDup 0 [wInt (-2147483648)], sRuns .sDrop 1 [emptyWord], sRuns .sSwap 2 [wBool true, wUint 4294967295],
    sRuns .sOver 3 [wInt 1, wInt 2], sRuns .sRot 4 [wInt 1, wInt 2, wInt 3], sRuns .sNip 5 [wInt 1, wInt 2],
    sRuns .sPick 0x10 [wInt 9], sRuns .sPick 0x1F ((List.range 16).map (fun (i : Nat) => wInt i)), mRuns .mDup 0 [wAddr 0 9],
    mRuns .mDrop 1 [wHandle 5 4095], mRuns .mSwap 2 [wAddr 0 1, mkW .stream 7], mRuns .mOver 3 [wAddr 1 2, wAddr 2 3],
    mRuns .mFroms 0x100 [] [wAddr 0 3], mRuns .mInc 0x11F [wAddr 0 4294967279], mRuns .mDec 0x120 [wAddr 2 1], mRuns .mDec 0x12F [wAddr 2 16],
    mRuns .mAdv 0x130 [wAddr 1 2147483648] [wInt (-2147483648)], mRuns .mAdv 0x130 [wAddr 1 0] [wUint 4294967295],
    mRuns .mFence 0x600 []] = true := by decide
theorem witness_StackAndLiteralOperations_literals :
    let m := atChord 1 0x910 0 0 [] [] [wHandle 4 1]
    let v := mkVec 2 ((List.range 128).map (fun (i : Nat) => ((i : Int) - 64, i % 4)))
    let x := atChord 1 (0xA00 + 127) 0 0 [] [v] []
    let y := atChord 1 0x920 0 0 [wUint 127] [v] []
    allOf [sRuns .sLit8 0x100 [], sRuns .sLit8 0x1FF [], sRuns .sLiti 0x201 [] 1 0x7FFF, sRuns .sLiti 0x202 [] 2 5, sRuns .sLitu 0x211 [] 1 1,
      sRuns .sLitw 0x223 [] 3 (0x1 * 2 ^ 36 + 7), sRuns .sNow 0xB07 [], nextIs 1 0x910 0 1 2 5 3 m, ran (exec (.sXm 2 5) m),
      sRuns .sXlc 0x918 [], sRuns .sXlc 0x91B [], sRuns .sTag 0x300 [wInt 3], sRuns .sOrigin 0x301 [mkW .poison 0x1FFF],
      sRuns .sTageq 0x310 [wInt 3], sRuns .sTageq 0x31F [wInt 3], nextIs 1 0xA7F 0 1 2 5 3 x, ran (exec (.sXvl 2 5) x),
      nextIs 1 0x920 0 1 2 5 3 y, ran (exec (.sXvls 2 5) y)] = true := by decide
theorem witness_ScalarConversions : allOf [
    sRuns .sToint 0x320 [wInt (-2147483648)], sRuns .sToint 0x320 [wUint 4294967295], sRuns .sToint 0x320 [wFix (-34359738368)],
    sRuns .sToint 0x320 [wBool true], sRuns .sTouint 0x321 [wInt (-1)], sRuns .sTofix 0x322 [wInt 2147483647], sRuns .sTodur 0x323 [wDur (-5)],
    sRuns .sTimeu 0x324 [wTime false 7 4294967295], sRuns .sAddru 0x325 [wAddr 2 4294967295], sRuns .sMkaddr 0x332 [wUint 5],
    sRuns .sMkpoison 0x360 [wUint 4096], sRuns .sMkclass 0x340 [wUint 65536, wUint 255], sRuns .sClassno 0x341 [wClass 255 65535],
    sRuns .sScore 0x342 [wClass 0 0], sRuns .sMktime 0x32F [wUint 4294967295]] = true := by decide
theorem witness_ScalarSamples : allOf [
    sRuns .sUnpk16 0x350 [wS16x2 (-32768) 32767 3 0], sRuns .sFlags 0x352 [wS16x2 0 0 3 3], sRuns .sUnpk8 0x351 [wS8x4 (-128) 127 0 1 15],
    sRuns .sFlags 0x352 [wS8x4 0 0 0 0 15], sRuns .sPack16 0x353 [wInt 32768, wInt (-32769)],
    sRuns .sPack8 0x354 [wInt 127, wInt (-128), wInt 128, wInt 0]] = true := by decide
theorem witness_IntegerArithmeticAndLogic_signed :
    let b := wInt (-1)
    let a := wInt (-2147483648)
    allOf [sRuns .sAdd 0x400 [b, a], sRuns .sSub 0x401 [b, a], sRuns .sMul 0x402 [b, a], sRuns .sDiv 0x403 [b, a], sRuns .sDiv 0x403 [wInt 0, a],
      sRuns .sRem 0x404 [b, a], sRuns .sNeg 0x405 [a], sRuns .sAbs 0x406 [a], sRuns .sMin 0x407 [b, a], sRuns .sMax 0x408 [b, a],
      sRuns .sAddw 0x409 [b, a], sRuns .sSubw 0x40A [b, a], sRuns .sSat16 0x40B [a], sRuns .sSat8 0x40C [a], sRuns .sShl 0x51F [a],
      sRuns .sShr 0x600 [a], sRuns .sShlv 0x414 [wUint 4294967295, a], sRuns .sShrv 0x415 [wUint 32, a], sRuns .sAddi 0x7FF [a]] = true := by
  decide
theorem witness_IntegerArithmeticAndLogic_unsigned :
    let b := wUint 4294967295
    let a := wUint 0
    let p := wBool true
    allOf [sRuns .sAdd 0x400 [b, a], sRuns .sSub 0x401 [b, a], sRuns .sMul 0x402 [b, a], sRuns .sDiv 0x403 [a, b], sRuns .sRem 0x404 [a, b],
      sRuns .sMin 0x407 [b, a], sRuns .sMax 0x408 [b, a], sRuns .sAddw 0x409 [b, a], sRuns .sSubw 0x40A [b, a], sRuns .sAnd 0x410 [b, a],
      sRuns .sOr 0x411 [b, a], sRuns .sXor 0x412 [p, p], sRuns .sNot 0x413 [p], sRuns .sShl 0x51F [b], sRuns .sShr 0x61F [b],
      sRuns .sShlv 0x414 [wUint 32, b], sRuns .sShrv 0x415 [wUint 31, b], sRuns .sAddi 0x780 [a]] = true := by decide
theorem witness_FixedPointTimeAndAddressArithmetic :
    let f := wFix (-34359738368)
    let d := wDur (-2147483648)
    let t := wTime true 7 0
    allOf [sRuns .sAdd 0x400 [f, f], sRuns .sMul 0x402 [wInt (-1), f], sRuns .sMul 0x402 [f, wInt 3], sRuns .sAbs 0x406 [f], sRuns .sShl 0x51F [f],
      sRuns .sAdd 0x400 [d, d], sRuns .sMul 0x402 [d, wInt 2], sRuns .sDiv 0x403 [wDur (-1), d], sRuns .sDiv 0x403 [wInt 0, d], sRuns .sAddi 0x701 [d],
      sRuns .sAdd 0x400 [d, t], sRuns .sAdd 0x400 [t, d], sRuns .sSub 0x401 [d, t], sRuns .sSub 0x401 [wTime false 7 5, t],
      sRuns .sMin 0x407 [wTime true 7 2147483648, t], sRuns .sMax 0x408 [t, t], sRuns .sAdd 0x400 [wInt (-1), wAddr 0 0],
      sRuns .sAdd 0x400 [wAddr 2 4294967295, wUint 1], sRuns .sSub 0x401 [wUint 1, wAddr 1 0], sRuns .sAddi 0x7FF [wAddr 1 0]] = true := by decide
theorem witness_ScalarComparisons : allOf [
    sRuns .sEq 0x800 [wInt 1, wInt 1], sRuns .sNe 0x801 [wBool true, wBool false], sRuns .sLt 0x802 [wFix 3, wFix (-3)],
    sRuns .sLe 0x803 [wTime true 7 0, wTime true 7 2147483648], sRuns .sGt 0x804 [wClass 255 1, wClass 0 65535],
    sRuns .sGe 0x805 [wAddr 2 0, wAddr 2 4294967295], sRuns .sEq 0x800 [wHandle 3 1, wHandle 3 2], sRuns .sNe 0x801 [mkW .stream 4, mkW .stream 4],
    sRuns .sLt 0x802 [wUint 0, wUint 4294967295], sRuns .sLe 0x803 [wDur 1, wDur 1], sRuns .sSel 0x808 [wBool false, wInt 1, emptyWord]] = true := by
  decide
theorem witness_ScalarMemory :
    let l := atChord 1 0x908 0 0 [] [] [wAddr 0 65535]
    let w := atChord 1 0x909 0 0 [wInt 5] [] [wAddr 0 0]
    allOf [sRuns .sLd 0x900 [wAddr 0 65535], sRuns .sSt 0x901 [wAddr 0 0, wInt 7], nextIs 1 0x908 0 1 2 5 3 l, ran (exec (.sLdm 2 5) l),
      nextIs 1 0x909 0 1 2 5 3 w, ran (exec (.sStm 2 5) w)] = true := by decide
theorem witness_PoisonPropagates :
    let p := mkW .poison 65535
    allOf [sRuns .sAdd 0x400 [emptyWord, p], sRuns .sMul 0x402 [p, emptyWord], sRuns .sShlv 0x414 [p, wInt 1], sRuns .sPack16 0x353 [wInt 1, p],
      sRuns .sNeg 0x405 [p], sRuns .sToint 0x320 [p], sRuns .sMkpoison 0x360 [p]] = true := by decide

/-- JumpsAndBranches: to the ends of a chord's reach and of the store. -/
theorem witness_JumpsAndBranches : allOf [
    cRuns .cNop 0 0 0 [], cRuns .cJmp 0x2FF 0 0 [], cRuns .cJmp 0x300 0 0 [], cRuns .cBrt 0x4FF 0 0 [wBool true], cRuns .cBrt 0x400 0 0 [wBool false],
    cRuns .cBrf 0x700 0 0 [wBool false], cRuns .cBrf 0x600 0 0 [wBool true], cRuns .cJmpl 0xA01 32767 1 [], cRuns .cBrtl 0xC00 0 1 [wBool true],
    cRuns .cBrtl 0xC00 0 1 [wBool false], cRuns .cBrfl 0xE01 1 1 [wBool false], cRuns .cBrfl 0xE01 1 1 [wBool true],
    cRuns .cJmps 8 0 0 [wAddr 2 65535]] = true := by decide
theorem witness_CallsLoopsAndHandlers :
    let h (t : Task) : Task := { t with rets := [.handler 5 (some 9) 0] }
    let lv (t : Task) : Task := { t with loops := [⟨0x100, 0x180, 3⟩] }
    allOf [cRuns .cCall 0x801 32767 1 [], cRuns .cCall 0x800 0 1 [] (fun t => { t with rets := (List.range 4).map (fun i => .call i 0) }),
      cRuns .cCalls 9 0 0 [wAddr 2 0], cRuns .cRet 5 0 0 [] (fun t => { t with rets := [.call 65535 0] }), cRuns .cLoopi1 0x1001 1 1 [],
      cRuns .cLoopi1 0x11FF 0 1 [], cRuns .cLoopi2 0x1201 32768 2 [], cRuns .cLoops 0x1401 0 0 [wUint 1], cRuns .cLoops 0x1401 0 0 [wUint 0],
      cRuns .cLeave 6 0 0 [] lv, cRuns .cRth 0xA 0 0 [wAddr 2 7], cRuns .cRth 0xA 0 0 [wAddr 2 7] h, cRuns .cRthn 0xB 0 0 [] h] = true := by decide
theorem witness_TaskOperations :
    let v := setTb 0 (fun b => { b with valid := true }) up
    let wk := atChord 0 0x10 0 0 [wDur 5] [] [] v
    allOf [cRuns .cSetmask 0x21 0 0 [], cRuns .cSetmask 0x2F 0 0 [], cRuns .cUnwake 0xD 0 0 [], cRuns .cWake 0xC 0 0 [wTime true 7 1],
      cRuns .cWake 0xC 0 0 [wTime true 7 2147483648], cRuns .cWake 0xC 0 0 [wTime true 7 0], (tb 0 v).valid, nextAt 0 0x10 0 1 2 5 3 wk,
      ran (exec (.cWaker 2 5) wk), cRuns .cFence 4 0 0 [], cRuns .cWait 2 0 0 [], cRuns .cYield 3 0 0 [], cRuns .cEnd 1 0 0 []] = true := by decide

/-! #### The V string -/

/-- A vector of a tag with rising values and every flag. -/
def rise (tag : Nat) : Vec := mkVec tag ((List.range (laneCount tag)).map (fun (i : Nat) => ((i : Int) - 30, i % 4)))
theorem witness_VectorStackStoresAndFormats_stack :
    let s := setEng (ekey 2 5) (fun e => { e with vec := [(127, rise 1)] }) up
    let l := atChord 2 (0x100 + 127) 0 0 [] [] [] s
    let a := atChord 2 0x180 0 0 [] [] [wAddr 1 127] s
    allOf [vRuns .vDup 0 [rise 1], vRuns .vDrop 1 [{}], vRuns .vSwap 2 [rise 1, rise 4], vRuns .vOver 3 [rise 1, rise 4],
      vRuns .vRot 4 [{}, rise 2, rise 3], vRuns .vNip 5 [{}, {}], nextIs 2 0x17F 0 1 2 5 3 l, decide (vecAt 2 5 127 l = rise 1),
      ran (exec (.vLdv 2 5) l), nextIs 2 0x180 0 1 2 5 3 a, ran (exec (.vLda 2 5) a), vRuns .vStv 0x200 [rise 1],
      vRuns .vSta 0x280 [rise 4] [] [wAddr 1 0]] = true := by
  decide +kernel
theorem witness_VectorStackStoresAndFormats_formats : allOf [
    vRuns .vSplat 0x400 [] [wInt (-2147483648)], vRuns .vSplat16 0x401 [] [wInt 32768], vRuns .vSplat8 0x402 [] [wInt 127],
    vRuns .vSplat 0x400 [] [wFix (-34359738368)], vRuns .vSplat 0x400 [] [mkW .poison 65535], vRuns .vWlo 0x408 [rise 1],
    vRuns .vWhi 0x409 [rise 2], vRuns .vNarrow 0x40C [rise 3, rise 3], vRuns .vToq 0x410 [rise 3], vRuns .vFromq 0x411 [rise 4]] = true := by
  decide +kernel
theorem witness_VectorLaneArithmetic : allOf [
    vRuns .vAdd 0x500 [rise 1, rise 1], vRuns .vSub 0x501 [rise 4, rise 4], vRuns .vMul 0x502 [rise 4, rise 4], vRuns .vMulq 0x503 [rise 2, rise 2],
    vRuns .vAbs 0x504 [rise 1], vRuns .vNeg 0x505 [rise 3], vRuns .vMin 0x506 [rise 2, rise 2], vRuns .vMax 0x507 [rise 2, rise 2],
    vRuns .vKeepgev 0x601 [rise 1, rise 1], vRuns .vShr 0x51F [rise 1], vRuns .vShl 0x520 [rise 1], vRuns .vSld 0x83F [rise 3, rise 3],
    vRuns .vAnd 0x508 [rise 1, rise 1], vRuns .vOr 0x509 [rise 3, rise 3], vRuns .vXor 0x50A [rise 2, rise 2], vRuns .vMag2 0x530 [rise 2]] = true := by
  decide +kernel
theorem witness_VectorScalarOperations :
    let p := mkW .poison 0
    allOf [vRuns .vMacs 0x540 [rise 2, rise 2] [wInt 32768], vRuns .vMacs 0x540 [rise 3, rise 3] [wInt (-1)], vRuns .vMuls 0x541 [rise 2] [wInt 1],
      vRuns .vMuls 0x541 [rise 1] [wInt 1], vRuns .vMuls 0x541 [rise 4] [wInt 1], vRuns .vKeepge 0x600 [rise 4] [wInt (-2147483648)],
      vRuns .vMacs 0x540 [rise 2, rise 2] [p], vRuns .vMuls 0x541 [rise 1] [p], vRuns .vKeepge 0x600 [rise 3] [p]] = true := by
  decide +kernel
/-- VectorReductions: a vector with lanes to add, one of GAP lanes alone, and one with a POISON lane. -/
theorem witness_VectorReductions :
    let x := mkVec 3 ((List.range 64).map (fun (i : Nat) => ((i : Int), i % 3)))
    let g := mkVec 4 (List.replicate 64 (0, 2))
    allOf [(lanes x).all (fun l => decide (l.2 ≠ 3)), ! ((lanes x).filter (fun l => decide (l.2 ≠ 2))).isEmpty,
      ((lanes g).filter (fun l => decide (l.2 ≠ 2))).isEmpty, decide (((lanes (rise 1))[3]?).map (·.2) = some 3),
      vRuns .vRsum 0x700 [x], vRuns .vRmax 0x701 [x], vRuns .vRmin 0x702 [x], vRuns .vRcnt 0x703 [x], vRuns .vRsum 0x700 [g],
      vRuns .vRmax 0x701 [rise 1]] = true := by
  decide +kernel

/-! #### The M string -/

/-- Before a chord of the M string, with data words, buffers, and changes of the task. -/
def mAt (op : Nat) (sS mS : List EWord) (data : FMap EWord := []) (bufs : FMap Buf := []) (f : Task → Task := id) (vS : List Vec := [])
    (str : Nat := 3) : State :=
  setEng (ekey 2 5) (fun e => { e with data := data }) { atChord str op 0 0 sS vS mS up f with bufs := bufs }
/-- The chord is next and runs. -/
def mNext (i : Instr) (op : Nat) (s : State) (str : Nat := 3) : Bool := nextIs str op 0 1 2 5 3 s && ran (exec i s)
/-- A buffer's key in quadrant 2: pool 1 batches, pool 2 work buffers. -/
def bkey (pool i : Nat) : Nat := 2 * 2 ^ 22 + pool * 2 ^ 18 + i
/-- A handle names the live buffer. -/
def namesB (h : EWord) (pool key : Nat) (s : State) : Bool :=
  decide (h = wHandle key (buf key s).gen ∧ key < 2 ^ 24 ∧ hQuad key = 2 ∧ hPool key = pool ∧ (buf key s).gen < 4096 ∧ (buf key s).owner ≠ 0)
/-- A lent batch of 640 bytes: stream 9 of slot 40,000 of the table, 256 16-bit components. -/
def batch : FMap Buf :=
  [(bkey 1 0, { gen := 4095, owner := 0x4000, size := 640, stream := 40000, loans := 1, bytes := [(0, 9), (2, 0x80), (3, 3), (12, 1)] })]
def lent (used : Bool) (t : Task) : Task := { t with loans := [⟨bkey 1 0, 4095, 40000, false, false, used, 0⟩] }
/-- A work buffer of the task. -/
def work : FMap Buf := [(bkey 2 1, { gen := 0, owner := ownEngine 7 3, size := 1048576 })]

theorem witness_VectorBatchesAndRecords :
    let h := wHandle (bkey 1 0) 4095
    let g := wHandle (bkey 2 1) 0
    let a := mAt 0x300 [wUint 0] [h] [] batch (lent true) [] 2
    let b := mAt 0x301 [wInt 131071] [h] [] batch (lent true) [] 2
    let c := mAt 0x308 [wUint 320] [h] [] batch (lent true) [] 2
    let d := mAt 0x310 [wUint 1048256] [g] [] work id [rise 1] 2
    allOf [namesB h 1 (bkey 1 0) a, mNext (.vLdb 2 5) 0x300 a 2, mNext (.vLdbw 2 5) 0x301 b 2, mNext (.vLdq 2 5) 0x308 c 2,
      namesB g 2 (bkey 2 1) d, decide ((buf (bkey 2 1) d).owner = ownerCode 2 5 3 d), mNext (.vStq 2 5) 0x310 d 2] = true := by
  decide +kernel
theorem witness_LoansOfBatches :
    let h := wHandle (bkey 1 0) 4095
    let strm := mkW .stream (40000 / 16384 * 2 ^ 34 + 40000 % 16384 * 2 ^ 20 + 9)
    let a := mAt 0x201 [] [] [] batch (lent false)
    let c := mAt 0x200 [] [strm] [] batch (lent false)
    let d := mAt 0x202 [] [h] [] batch (lent true)
    let e := mAt 0x204 [wAddr 0 65525] [h] [] batch (lent true)
    allOf [mNext (.mTakeany 2 5) 0x201 a, mNext (.mTakeany 2 5) 0x201 (mAt 0x201 [] []), mNext (.mTake 2 5) 0x200 c,
      mNext (.mTake 2 5) 0x200 (mAt 0x200 [] [strm]), namesB h 1 (bkey 1 0) d, mNext (.mDone 2 5) 0x202 d,
      mNext (.mStrm 2 5) 0x203 (mAt 0x203 [] [h] [] batch (lent true)), mNext (.mHdr 2 5) 0x204 e] = true := by decide +kernel
theorem witness_WorkBuffers :
    let g := wHandle (bkey 2 1) 0
    let w := mAt 0x301 [] [g] [] work
    let e (a : EWord) := mAt 0x302 [a] [g] [] work
    allOf [mNext (.mAlloc 2 5) 0x300 (mAt 0x300 [wUint 63] []), mNext (.mAlloc 2 5) 0x300 (mAt 0x300 [wUint 1048576] []),
      mNext (.mAlloc 2 5) 0x300 (mAt 0x300 [wUint 64] [] [] work), decide (1048576 < workBytes 2 7 (mAt 0x300 [wUint 64] [] [] work) + 64),
      namesB g 2 (bkey 2 1) w, mNext (.mFree 2 5) 0x301 w, mNext (.mGive 2 5) 0x302 (e (wUint 0x2000)),
      mNext (.mGive 2 5) 0x302 (e (wUint (0x1000 + 47 * 64 + 15)))] = true := by decide +kernel
theorem witness_MessagesBetweenTasks :
    let d : FMap EWord := [(65534, wInt 1), (65535, wInt 2)]
    let m : List Msg := [⟨wInt 5, wInt 6, 0x3000⟩]
    allOf [mNext (.mSend 2 5) 0x400 (mAt 0x400 [wUint (0x1000 + 47 * 64 + 15)] [wAddr 0 65534] d),
      mNext (.mRecv 2 5) 0x401 (mAt 0x401 [] [wAddr 0 65533]),
      mNext (.mRecv 2 5) 0x401 (mAt 0x401 [] [wAddr 0 65533] [] [] (fun t => { t with inbox := m }))] = true := by decide +kernel
/-- A TP template at an address, its attachment handle last. -/
def template (a : Nat) (h : EWord) : FMap EWord :=
  [(a, wTime true 7 4294967295), (a + 1, mkW .stream (3 * 2 ^ 34 + 16383 * 2 ^ 20 + 1048575)), (a + 2, wClass 255 65535), (a + 3, wUint 15), (a + 4, h)]
theorem witness_TriggerPrimitiveFromTemplate :
    let g := wHandle (bkey 2 1) 0
    let null := wHandle (2 * 2 ^ 22) 4095
    let s := mAt 0x500 [] [wAddr 0 65531] (template 65531 null)
    let t := mAt 0x500 [] [wAddr 0 0] (template 0 g) work
    allOf [mNext (.mTp 2 5) 0x500 s, decide ((eng (ekey 2 5) s).logical = some 103), namesB g 2 (bkey 2 1) t, mNext (.mTp 2 5) 0x500 t,
      decide ((buf (bkey 2 1) t).owner = ownerCode 2 5 3 t)] = true := by decide +kernel
/-- SortAndEmitSteps: the first and the last step of V.SORT's first pass, an M.EMIT that emits one and one that emits none, a full TP queue. -/
theorem witness_SortAndEmitSteps :
    let two := setEng (ekey 2 5) (fun e => { e with vec := [(0, rise 1), (1, rise 1)] }) (atChord 2 0x900 0 0 [wUint 2] [] [wAddr 1 0])
    let mid := setTask (ekey 2 5) 3 (fun t =>
      { t with mrActive := true, mrp := 1, mr := { m0 := wAddr 1 0, s0 := wUint 2, v0 := { tag := 1 }, pc := 0x123, syl := 2 * 8192 + 0x900 } }) two
    let d := template 65529 (wHandle (2 * 2 ^ 22) 0) ++ [(65534, wFix 1), (65535, wUint 1)]
    let e (v : Vec) := mAt 0x501 [] [wAddr 0 65529] d [] id [v]
    let full := setEng (ekey 2 5) (fun e => { e with tpq := List.replicate 32 ⟨0, 3, 0⟩ }) (mAt 0x500 [] [wAddr 0 0] (template 0 (wHandle (2 * 2 ^ 22) 0)))
    allOf [nextIs 2 0x900 0 1 2 5 3 two, ran (exec (.vSort 2 5) two), midRoutine 2 0x900 1 2 5 3 mid, ran (exec (.microStep 2 5) mid),
      mNext (.mEmit 2 5) 0x501 (e (mkVec 1 ((0, 0) :: (5, 1) :: List.replicate 254 (0, 0)))), mNext (.mEmit 2 5) 0x501 (e (mkVec 3 [])),
      mNext (.mTp 2 5) 0x500 full] = true := by decide +kernel
/-- A descriptor of M.GATHER or M.SCATTER: offset, count, form, stride, address. -/
def moves (off count form stride dst : Nat) : FMap EWord :=
  [(0, wUint off), (1, wUint count), (2, wUint form), (3, wUint stride), (4, wAddr 0 dst)]
/-- GatherAndScatterSteps: the first step of a long gather, a later one, and a scatter of one element at the last place of its buffer. -/
theorem witness_GatherAndScatterSteps :
    let g := wHandle (bkey 2 1) 0
    let a := mAt 0x700 [] [wAddr 0 0, g] (moves 1048448 33 2 0 65503) work
    let mid := setTask (ekey 2 5) 3 (fun t => { t with mrActive := true, mrp := 32, mr := { m0 := wAddr 0 0, m1 := g, pc := 0x123, syl := 3 * 8192 + 0x700 } }) a
    let b := mAt 0x701 [] [wAddr 0 0, g] (moves 1048572 1 0 0 5 ++ [(5, wUint 4294967295)]) work
    allOf [namesB g 2 (bkey 2 1) a, mNext (.mGather 2 5) 0x700 a, midRoutine 3 0x700 1 2 5 3 mid, ran (exec (.microStep 2 5) mid),
      mNext (.mScatter 2 5) 0x701 b] = true := by decide +kernel
theorem witness_HistoryCopySteps :
    let g := wHandle (bkey 2 1) 0
    let s := mAt 0x702 [wAddr 0 65534] [mkW .stream 5, g] [(65534, wTime true 7 0), (65535, wDur 1)] work
    allOf [namesB g 2 (bkey 2 1) s, mNext (.mHcopy 2 5) 0x702 s,
      (hcopyPlan (chordCtx 2 5 3 s) (mkW .stream 5) (wTime true 7 0) (wDur 1) (buf (bkey 2 1) s).size).isNone] = true := by decide +kernel

/-! #### Traps, task commands and engine events -/

/-- TrapRecordsAndActions: a reserved op field, an uncorrectable program word, and traps of lone operations; with a handler and without. -/
theorem witness_TrapRecordsAndActions :
    let hd (t : Task) : Task := { t with handlerOn := true, handler := 9 }
    let ill := engAt 0x123 [0xA007] id up
    let bad := setEng (ekey 2 5) (fun e => { e with bad := [(0x2000123, false)] }) (atChord 1 0 0 0 [] [] [])
    let drop := atChord 1 1 0 0 [] [] [] up hd
    let ld := atChord 1 0x900 0 0 [wAddr 0 65536] [] []
    let jmp := atChord 0 8 0 0 [mkW .poison 65535] [] []
    allOf [atBoundary 2 5 3 ill, (match nextChord (ekey 2 5) 3 ill with | .illegal _ _ _ => true | _ => false), ran (exec (.illegalChord 2 5) ill),
      atBoundaryBad 2 5 3 bad, (match nextChord (ekey 2 5) 3 bad with | .ecc a => decide (a = 0x123) | _ => false), ran (exec (.illegalChord 2 5) bad),
      nextIs 1 1 0 1 2 5 3 drop, ran (exec (.sDrop 2 5) drop), nextIs 1 0x900 0 1 2 5 3 ld, ran (exec (.sLd 2 5) ld),
      nextAt 0 8 0 1 2 5 3 jmp, ran (exec (.cJmps 2 5) jmp), ! bit (reg (dbgCtl (ekey 2 5)) ill) 29] = true := by decide +kernel

/-! ##### A host function with a command ring -/

/-- Function f has enabled command ring 3 with four descriptors waiting, completion ring 2 and its journal ring; commands of every group
are permitted. -/
def hostS (f : Nat) (s : State) : State :=
  let s := setReg (ringBase f 3 + 8) (0x80000000 + 4 * 2 ^ 25 + 2 * 2 ^ 19) s
  let s := setReg (ringBase f 66 + 8) (0x80000000 + 4 * 2 ^ 25 + 7 * 2 ^ 11) s
  let s := setReg (ringBase f 192 + 8) (0x80000000 + 4 * 2 ^ 25) s
  let s := setReg (fnBase f + 0x1C) (64 * 2 ^ 25 + 32 * 2 ^ 19 + 32 * 2 ^ 13 + 256 * 2 ^ 4) s
  let s := setReg (fnBase f + 0x18) 0x3F s
  let s := setFn f (fun x => { x with msixEn := true, rings := [(3, { en := true, dev := 5, host := 9, shown := 1 }),
    (66, { en := true, dev := 2, host := 1, shown := 1 }), (192, { en := true, shown := 1 })] }) s
  { s with host := { s.host with linkUp := true, gen := 5, width := 16 }, jrnl := { s.jrnl with head := 41 } }
/-- A descriptor on ring 3, and a body field at a byte and bit. -/
def desc (f : Fin 8) (body : Nat) (flags : Nat := 0) : Desc := ⟨f, 3, BitVec.ofNat 24 flags, 0, 0x1234567890ABCDEF, BitVec.ofNat 384 body⟩
def fld (byte lo v : Nat) : Nat := v <<< (8 * (byte - 16) + lo)
/-- A command passes the common checks and runs. -/
def serve1 (i : Instr) (c : CmdSpec) (d : Desc) (s : State) : Bool := passes c d s && ran (exec i s)

theorem witness_TaskCommandEffects :
    let s := hostS 1 up
    let d := desc 1 (fld 16 0 191 + fld 16 8 15 + fld 16 12 15 + fld 16 16 64 + fld 16 23 7)
    let kick := desc 1 (fld 16 0 191 + fld 16 8 15 + fld 16 16 64 + fld 16 27 1)
    let c (d : Desc) : CmdSpec :=
      { op := 0x21, fields := [(16, 27, 0), (20, 31, 0), (24, 39, 0)], group := some 1,
        objs := [⟨4, 16 * bf d 16 7 0 + bf d 16 11 8⟩], config := true }
    let k : CmdSpec := { c kick with config := false, quiet := true }
    let n := desc 1 (fld 16 0 191 + fld 16 8 15)
    let cc : CmdSpec := { op := 0x22, fields := [(16, 11, 0)], group := some 1, objs := [⟨4, 16 * 191 + 15⟩], wait := .taskCancel 191 15 }
    let pc : CmdSpec := { op := 0x23, fields := [(16, 14, 0)], group := some 1, objs := [⟨4, 16 * 191 + 15⟩] }
    let st (x : TaskState) : State := setTask (engOf 191 s) 15 (fun t => { t with state := x }) s
    allOf [serve1 (.taskStart d) (c d) d s, ! engFrozen (engOf 191 s) s, ! engPaused (engOf 191 s) s, serve1 (.taskKick kick) k kick (st .waiting),
      serve1 (.taskKick kick) k kick (st .cancelling), serve1 (.taskKick kick) k kick s, serve1 (.taskKick kick) k kick (st .trapped),
      serve1 (.taskCancel n) cc n s, serve1 (.taskCancel n) cc n (st .running), serve1 (.taskPrio n) pc n (st .ready)] = true := by decide +kernel
/-- EngineLoad: the last program word, and a data and a vector load that end with a malformed unit. -/
theorem witness_EngineLoad :
    let s := hostS 1 up
    let c (data : List Byte) : CmdSpec :=
      { op := 0x20, fields := [(16, 31, 27), (16, 7, 0), (20, 31, 0), (24, 31, 0), (32, 63, 0)], group := some 1,
        objs := [⟨3, 191⟩], dataCrc := crc32c (data.map (·.toNat)) }
    let d (space off n : Nat) := desc 1 (fld 16 0 191 + fld 16 27 1 + fld 16 28 space + fld 20 0 off + fld 24 0 n)
    let p : List Byte := [1, 2]
    let w : List Byte := [1, 0, 0, 0, 0x10, 0, 0, 0, 0, 0, 0, 0, 0, 1, 0, 0]
    let v : List Byte := List.replicate 320 0 ++ [5] ++ List.replicate 63 0
    allOf [serve1 (.engLoad (d 2 65535 1) (some p)) (c p) (d 2 65535 1) s, serve1 (.engLoad (d 0 65534 2) (some w)) (c w) (d 0 65534 2) s,
      serve1 (.engLoad (d 1 127 1) (some v)) (c v) (d 1 127 1) s,
      serve1 (.engLoad (d 2 65535 1) (some p)) (c p) (d 2 65535 1) (inMode .safe s), serve1 (.engLoad (d 2 65535 1) (some p)) (c p) (d 2 65535 1) (inMode .vigil s),
      engPaused (engOf 191 s) (inMode .safe s), engFrozen (engOf 191 s) (inMode .vigil s)] = true := by decide +kernel
theorem witness_EngineEvents :
    let key := ekey 2 5
    let run (f : Task → Task) := atChord 0 0 0 0 [] [] [] up f
    let wake := run (fun t => { t with wake := some (wTime true 7 4294967295) })
    let msg : State := { up with msgs := [(103, 3, ⟨wInt 1, wInt 2, 0x3000⟩), (103, 3, ⟨wInt 1, wInt 2, 0x3001⟩)] }
    let toSt (st : TaskState) : State := setTask (engOf 103 up) 3 (fun t => { t with state := st }) msg
    let cxl := run (fun t => { t with wake := some (wTime true 7 0), state := .cancelling })
    let fence (str op : Nat) (f : Task → Task) : State :=
      let s := atChord str op 0 0 [] [] [] up f
      { s with ticks := 625 * rfld (engBase 2 5 + 8) 31 16 s }
    let held (str op : Nat) := fence str op (fun t => { t with mFence := some ⟨7, 0⟩ })
    let bad := fence 1 0x1FFF (fun t => { t with cFence := some ⟨7, 0⟩ })
    let soft : State := setEng key (fun e => { e with soft := [65535] }) (atChord 1 0x900 0 0 [wAddr 0 65535] [] [])
    let f := run (fun t => { t with cFence := some ⟨7, 0⟩ })
    let late : State := { f with ticks := 625 * rfld (engBase 2 5 + 8) 31 16 f }
    allOf [ran (exec (.wakeTimeFire 2 5 3) wake), ran (exec (.wakeTimeFire 2 5 3) cxl), ran (exec (.messageArrive 0) (toSt .free)), ran (exec (.messageArrive 0) (toSt .cancelling)),
      ran (exec (.messageArrive 0) (toSt .ready)), ran (exec (.fenceTimeout 2 5 3) (held 3 0x400)), (match nextChord key 3 (held 3 0x400) with | .ok l _ => l.any mHeld | _ => false),
      ran (exec (.fenceTimeout 2 5 3) bad), (match nextChord key 3 bad with | .illegal _ _ _ => true | _ => false), ran (exec (.sLd 2 5) soft),
      nextIs 1 0x900 0 1 2 5 3 (fixLoc key 65535 soft), ran (exec (.messageArrive 1) msg), ran (exec (.fenceComplete 2 5 3) f), engLive key late,
      ! engStopped key late, ran (exec (.fenceTimeout 2 5 3) late), (eng key late).powered, quadUp 2 late, ran (exec (.scrubPass 2 5 9 [] [] []) late),
      ran (exec (.scrubPass 2 5 0 [65535] [] []) late), ran (exec (.scrubPass 2 5 0 [] [0x100007F] []) late)] = true := by decide +kernel

/-! #### Modes, ports and streams -/

/-- In a transition; at a 625 MHz tick; in the time unit's state and the trigger's. -/
def moving (tr : Transit) (s : State) : State := { s with mode := { s.mode with transit := some tr } }
def atTick (n : Nat) (s : State) : State := { s with ticks := n }
def ta0 : Ta := ⟨5, 0, false, 77, 40000000000, 2 ^ 40, 40, 3, 1, 0⟩
/-- A record being built, number 6. -/
def building (b : Build) (s : State) : State := { s with evt := { s.evt with builds := [(6, b)], nextBuild := 7 } }
def build0 : Build := { ta := ta0, rcl := none, prof := {}, start := 0, stop := 1, collector := some 1 }

/-- ModeTransitions: the reserved boot target, a busy block, the mode in force, a hot Safe, and targets from every mode that may leave; a
transition that waits for its drain, one whose drain is over, and one without. -/
theorem witness_ModeTransitions :
    let d (n : Nat) := desc 1 (fld 16 0 n)
    let c : CmdSpec := { op := 0x60, fields := [(16, 2, 0)], group := some 5, objs := [⟨10, 0⟩], wait := .modeSet }
    let at_ (m : Mode) := hostS 1 (inMode m up)
    let hot : State := { at_ .safe with mode := { up.mode with current := .safe, cause := { therm := true } } }
    let drain := moving ⟨.acquire, some 0, false, (0, 0, 0)⟩ (inMode .retain up)
    let set (n : Nat) (s : State) := serve1 (.modeSet (d n)) c (d n) s
    allOf [set 0 (at_ .acquire), set 5 (moving ⟨.retain, none, false, (0, 0, 0)⟩ (at_ .acquire)), set 2 (at_ .acquire), decide (modeCode .acquire = 2),
      set 4 hot, set 3 (at_ .safe), decide (modeCode .retain = 3), set 2 (at_ .calibrate), set 1 (setReg 0x200C 1 (at_ .retain)),
      ! vigilBad (setReg 0x200C 1 (at_ .retain)), decide (modeCode .vigil = 1),
      drainPending (building build0 drain), ! castleBlocks (building build0 drain), ran (exec .modeTransitionDone (building build0 drain)),
      ! drainPending drain, ran (exec .modeTransitionDone drain), ! castleBlocks (moving ⟨.calibrate, none, false, (0, 0, 0)⟩ up),
      ran (exec .modeTransitionDone (moving ⟨.safe, none, false, (0, 0, 0)⟩ up))] = true := by decide +kernel
/-- AutomaticSafeEntry: each cause at the end of its time, sensors at the limit and above it, one cause cleared, a drain before and at its
limit. -/
theorem witness_AutomaticSafeEntry :
    let hot (m : Mode) (tr : Option Transit) : State :=
      { up with ticks := 625000 * rfld 0x2030 31 16 up, mode := { up.mode with current := m, hotSince := some 0, transit := tr } }
    let lim : Int := (rfld 0x2030 7 0 up : Nat)
    let drain := building build0 (moving ⟨.acquire, some 5, false, (0, 0, 0)⟩ (inMode .retain up))
    let late := atTick (5 + 625000 * rfld 0x2000 23 16 drain) drain
    allOf [ran (exec .safeEntryThermal (hot .acquire none)), ran (exec .safeEntryThermal (hot .safe none)),
      ran (exec .safeEntryThermal (hot .vigil (some ⟨.safe, none, true, (0, 0, 0)⟩))), ran (exec .safeEntryThermal (hot .vigil (some ⟨.acquire, none, false, (0, 0, 0)⟩))),
      (hot .vigil none).jrnl.inflight.all (fun p => decide (p.wait ≠ .modeSet)), ran (exec (.safeEntrySupply ⟨false, true⟩) up),
      ran (exec (.safeEntrySupply ⟨true, false⟩) (inMode .vigil up)), centralUp up, ran (exec (.thermalWarning [0, lim, -128, 1, 2]) up),
      ran (exec (.thermalWarning [lim + 1, 0, 0, 0, 0]) up), decide (up.mode.hotSince = none), ran (exec (.thermalWarning [0, 0, 0, 0, 127]) (hot .acquire none)),
      writesOk .steward 0x2004 1 up, ran (exec (.safeCauseClear .steward 1) up), mwf late.evt.builds, ran (exec .drainTimeout drain),
      ran (exec (.safeEntrySupply ⟨true, true⟩) (inMode .bringup up)), ran (exec (.safeEntrySupply ⟨true, true⟩) (inMode .safe up)),
      ran (exec (.safeEntrySupply ⟨true, true⟩) (hot .vigil (some ⟨.acquire, none, false, (0, 0, 0)⟩))), decide (drain.ticks < 5 + 625000 * rfld 0x2000 23 16 drain), ran (exec .drainTimeout late)] = true := by decide +kernel

/-- A GCM that waits. -/
def item (b : List Nat) : GcmItem := ⟨b, false, false, false⟩
/-- Port p is up at 100 Gb/s. -/
def portUp (p : Nat) (f : PortSt → PortSt) (s : State) : State := setPort p (fun x => f { x with linkUp := true, speed := 4 }) s

theorem witness_PortsAndLinks :
    let p : Fin 128 := 127
    let s := hostS 1 (setReg (portBase 127) 0x3450000 up)
    let d (o v : Nat) := desc 1 (fld 16 0 127 + fld 16 29 1 + fld 24 0 o + fld 28 0 v)
    let c (d : Desc) : CmdSpec := { op := 0x10, fields := cfgFields, group := some 0, objs := [⟨1, p⟩], badEnc := pairsBeyond d }
    let cfg (o v : Nat) := serve1 (.portCfg (d o v)) (c (d o v)) (d o v) s && decide (nPairs (d o v) = 1 ∧ pairOf (d o v) 0 = (o, v))
    let train : State := setPort 127 (fun x => { x with training := true, attempt := 3 }) (atTick 156250003 s)
    let q (l : List TxItem) := portUp 127 (fun x => { x with txQ := l }) s
    allOf [cfg 0x28 1518, cfg 0x28 9216, cfg 0x28 1517, cfg 0x28 9217, cfg 0x28 16383, cfg 0x28 16384, cfg 0x04 0, cfg 0 0x8000000, cfg 0 0, cfg 0 0x3450000, portStreams p s = [],
      ran (exec (.portTrainingAttemptTimeout p) train), portPowered p train, portsUp 3 train, ran (exec (.linkUp p) train),
      ran (exec (.linkDown p) (q [])), ran (exec (.portTxSelect p 52428) (q [.reply [1], .gcm (item [2])])), decide (txClass (.gcm (item [])) < txClass (.reply [])),
      decide (txClass (.reply []) < txClass (.event 0 [])), ran (exec (.portTxSelect p 0) (q [.event (bkey 3 0) [1]])),
      ran (exec (.portTxSelect p 0) (q [.event (bkey 3 0) [1], .event (bkey 3 0) [2]])), ran (exec (.portTxSelect p 0) (q [.ptp (msg 0), .reply [1]])), ran (exec (.txSettleDone p) s),
      writesOk (.fn 0) (portBase 127 + 0x400) 0xFFFE s, ran (exec (.capRearm (.fn 0) p 0xFFFE) s)] = true := by decide +kernel

/-- Quadrant 3's table holds a stream in slot 16,383. -/
def withStream (x : Stream) (s : State) : State := { s with streams := [(3 * 16384 + 16383, x)] }
/-- A STREAM_CFG parameter block that is in range. -/
def streamPb : BitVec 1024 :=
  BitVec.ofNat 1024 (0x80030001 + 5 <<< 32 + 100 <<< 96 + (3 <<< 25 + 1000) <<< 128 + 100 <<< 256 + 1000 <<< 288 + 2 <<< 240 + 0x80000031 <<< 576)
theorem witness_StreamsAndBatches :
    let o : ObjId := ⟨2, 1048575⟩
    let c (pb : BitVec 1024) : CmdSpec :=
      { op := 0x11, relOk := true, group := some 0, objs := [o], config := true, fields := [(16, 19, 0), (20, 6, 0), (24, 63, 0), (32, 31, 0)],
        badEnc := pbBad pb streamPbFields || decide (8 ≤ pbf pb 0 19 16), pb := some (leBytes 128 pb.toNat) }
    let b := fld 16 0 1048575 + fld 20 0 127 + fld 32 0 128
    let d := desc 1 b
    let r := desc 1 b 0x200000
    let s := hostS 1 up
    let has (x : Stream) := withStream x s
    let x : Stream := { id := 1048575, cfg := streamCfgOf 127 streamPb }
    let other : State := { s with streams := [(0, x)] }
    let set (pb : BitVec 1024) (s : State) := serve1 (.streamCfg d (some pb)) (c pb) d s
    let bt : Batch := ⟨false, false, true, 0, 9, 0, 0, false, false, false, false, false, 65536, 3, [], 0, 0⟩
    let run : Stream := { x with fresh := false }
    let at_ (n : Nat) (x : Stream) := atTick n (withStream x up)
    let e : GapEntry := ⟨7, false, false, true, 9, 0, 0, 0, 0, 0, 0, 0⟩
    let noBuf := { withStream { run with noBuf := some ⟨7, 4294967295, false, false⟩ } up with
                   gapLog := [(3 * 512 + 511, e)], gapHead := [(3, 4294967295)] }
    allOf [decide (bf d 32 31 0 = 128 ∧ bf d 24 5 0 = 0 ∧ dRelease d = false ∧ dRelease r = true), ! streamCfgOk (streamCfgOf 127 0x80000001) 0,
      set 0x80000001 s, streamCfgOk x.cfg (pbf streamPb 16 28 25), set streamPb s, decide (streamAny 1048575 s = none ∧ freeSlot 3 s = some 0),
      decide (streamAny 1048575 (has x) = some 65535), set streamPb (has x), decide (streamAny 1048575 other = some 0), set streamPb other,
      serve1 (.streamRelease r (some 0)) { c 0 with badEnc := false } r s, serve1 (.streamRelease r (some 0)) { c 0 with badEnc := false } r (has x),
      ran (exec (.batchTimeout 3 16383) (at_ (625 * x.cfg.batchUs) { run with open_ := some bt })), decide ((up.mode.current : Mode) ≠ .safe),
      ran (exec (.silenceTimeout 3 16383) (at_ (625 * x.cfg.gapUs) run)),
      canAllocBatch 3 (64 + x.cfg.batch * (if fmtComplex x.cfg.format then 2 else 1) * (if x.cfg.w8 then 1 else 2)) noBuf,
      ran (exec (.noBufferGapClose 3 16383) noBuf)] = true := by decide +kernel

/-- A GSF frame's header and a whole frame. -/
def gsf (fmt sid seq time n len per : Nat) : List Nat :=
  let b := beBytes 4 (2 ^ 28 + fmt * 2 ^ 24 + sid) ++ beBytes 4 seq ++ beBytes 8 time ++ beBytes 2 n ++ beBytes 2 len ++ beBytes 4 per ++ [0, 0, 0, 0]
  b ++ beBytes 4 (crc32c b)
def frame (dst et : Nat) (rest : List Nat) : RxFrame := ⟨(beBytes 6 dst ++ beBytes 6 5 ++ beBytes 2 et ++ rest).map (BitVec.ofNat 8), true, -52428, 7, 9⟩
theorem witness_FrameReception :
    let p : Fin 128 := 127
    let mac := 0x1122AABBCCDD
    let s0 := setTb 0 (fun t => { t with ns := 5000000 }) (portUp 127 id (setReg (portBase 127 + 0x28) 1518 (setReg (portBase 127 + 12) 0x1122 (setReg (portBase 127 + 8) 0xAABBCCDD up))))
    let cfg : StreamCfg := { en := true, port := 127, format := 3, w8 := true, latMin := -1000, latMax := 1000, drop := true, timeTol := 1000000 }
    let s := setReg (portBase 127 + 0x400) 0xFFFF (withStream { id := 9, cfg := cfg, fresh := false, exp := 17, lastArr := 0, expTime := 327679344640 } s0)
    let data (seq time : Nat) := frame mac 0x88B5 (gsf 3 9 seq time 24 48 100 ++ List.replicate 48 7)
    let short := frame mac 0x88B5 (List.replicate 45 0)
    let pads (n : Nat) := List.replicate n 0
    let h (f : RxFrame) := sliceB (f.bytes.map (·.toNat)) 14 32
    let chk (f : RxFrame) := headerCheck p (h f) (parseGsf (h f)) (f.bytes.length - 46) (decide (f.bytes.length = 60)) s
    let go (f : RxFrame) := ran (exec (.frameReceive p f) s)
    let long := s.mode.current
    allOf [(port p s).linkUp, go { data 17 4999990 with fcsOk := false }, ran (exec (.frameReceive p (data 17 1)) (inMode .safe s)),
      ran (exec (.frameReceive p (frame mac 0x88B5 (pads 60))) (inMode .safe s)), decide (streamKey 3 9 s = some 65535), go short,
      decide (short.bytes.length + 4 = 63 ∧ long ≠ .safe), decide (rfld (portBase 127 + 0x28) 13 0 s = 1518), go (frame mac 0x1234 (pads 1501)),
      go (frame 1 0x8808 ([0, 1, 255, 255] ++ pads 42)), go (frame 1 0x88B5 (pads 46)), addrOk p mac 0x88B5 [] s,
      go (frame mac 0x8100 ([0, 1, 0x88, 0xB5] ++ pads 46)), decide (rfld (portBase 127) 19 19 s = 0), go (frame mac 0x4321 (pads 46)),
      go (frame mac 0x88B5 (pads 46)), decide (chk (frame mac 0x88B5 (pads 46)) ≠ 0), decide (chk (data 17 4999990) = 0), go (data 17 4999990),
      go (data 16 4999990), go (data 17 4000000)] = true := by decide +kernel

/-- TimeBaseCommands: time base 5 in every source, offsets just inside and outside its limits; a change of count that borrows. -/
theorem witness_TimeBaseCommands :
    let x : TbSt := { ns := 1000000005, servo := .holdover, hist := [3, 4, 5], ofs := -5, ofsTick := 1, held := true }
    let base := tbBase 5
    let at_ (src : Nat) := hostS 1 (setReg base (src * 2 ^ 25) { up with time := { up.time with tbs := [(5, x)], pllLock := true, running := true } })
    let lim := reg (base + 0x20) (at_ 0)
    let d (b : Nat) := desc 1 (fld 16 0 5 + b)
    let cfgC (d : Desc) : CmdSpec :=
      { op := 0x40, fields := cfgFields, relOk := true, group := some 3, objs := [⟨7, 5⟩], config := true,
        badEnc := pairsBeyond d || decide (bf d 16 6 3 ≠ 0) }
    let ofsC : CmdSpec := { op := 0x42, group := some 3, fields := [(16, 2, 0), (20, 31, 16), (24, 63, 0), (32, 63, 0)] }
    let stepC (d : Desc) (mode : Nat) : CmdSpec :=
      { op := 0x41, group := some 3, objs := [⟨7, 5⟩], fields := [(16, 7, 4), (16, 2, 0), (20, 31, 16), (24, 63, 0)],
        badEnc := decide (4 ≤ bf d 16 6 4) || decide (mode = 3 ∧ (bf d 24 63 0 ≠ 0 ∨ bf d 20 31 16 ≠ 0)) }
    let one (v : Nat) := d (fld 16 29 1 + fld 28 0 v)
    let ofs (n t : Nat) := d (fld 24 0 n + fld 32 0 t)
    let rel := { one 0x6000000 with flags := 0x200000 }
    let o (n t src : Nat) := serve1 (.tbOffset (ofs n t)) ofsC (ofs n t) (at_ src)
    let st (i : Desc → Instr) (b mode src : Nat) := let e := d (b + fld 16 4 mode); serve1 (i e) (stepC e mode) e (at_ src)
    let f := fld 16 7 1
    allOf [serve1 (.tbCfg (one 0x60E0000)) (cfgC (one 0x60E0000)) (one 0x60E0000) (at_ 1), serve1 (.tbCfg (one 0)) (cfgC (one 0)) (one 0) (at_ 0),
      serve1 (.tbRelease rel) (cfgC rel) rel (at_ 4), o 0 1000000006 4, o 0 0 1, o (lim + 1) 1000000005 4, o lim 1000000005 4,
      o (2 ^ 64 - lim) 1000000004 4, st .tbStepSlew (fld 24 0 lim) 0 0, st .tbStepSlew (fld 24 0 (lim + 1)) 0 1, st .tbStepSlew (fld 24 0 lim) 0 3,
      st .tbStepRelative (f + fld 24 0 (2 ^ 64 - 1) + fld 20 16 65535) 1 0, st .tbStepAbsolute (f + fld 24 0 (2 ^ 64 - 1)) 2 1,
      st .tbStepMeasured f 3 0, st .tbStepSlew f 0 3, st .tbStepRelative 0 1 0, st .tbStepAbsolute 0 2 1,
      st .tbStepMeasured 0 3 0, ran (exec (.tbStepMeasured (d (f + fld 16 4 3))) (atTick 1250000002 (at_ 0))),
      ran (exec (.holdoverTimeout 5) (setTb 5 (fun t => { t with servo := .acquiring }) (atTick (625000 * rfld (base + 0x24) 15 0 up) up))),
      ran (exec (.holdoverTimeout 5) (setTb 5 (fun t => { t with servo := .locked, hist := [1, 3] }) (atTick (625000 * 65535) up))),
      decide (addCount (-1) { ns := 0, frac := 0, resid := 0 } = { ns := 2 ^ 64 - 1, frac := 2 ^ 32 - 1, resid := 65535 })] = true := by
  decide +kernel

/-! #### Time, launches and triggers -/

/-- The time unit and the trigger changed; the time unit runs. -/
def withTime (f : TimeSt → TimeSt) (s : State) : State := { s with time := f s.time }
def withTrig (f : TrigSt → TrigSt) (s : State) : State := { s with trig := f s.trig }
def timed (s : State) : State := withTime (fun t => { t with running := true, pllLock := true, refinPresent := true }) s
/-- Command rings of function 0 wait on nothing; a register page may be written. -/
def onBar : State := hostS 0 up

theorem witness_ReferencesAndSynthesizers :
    let l1 : Option Int := some (-5000)
    let s := timed (portUp 127 id (setReg (ptpBase 127) (2 ^ 30 + 5 * 2 ^ 27) up))
    let rec_ := withTime (fun t => { t with tbs := [(5, { l1 := l1, servo := .locked })], ptps := [(127, { state := .receiver })] }) s
    let off := withTime (fun t => { t with pllLock := false }) s
    let pps (n : Nat) (f : TimeSt → TimeSt) := withTime f (setReg (tbBase 7) (n * 2 ^ 25) (atTick 312500000 s))
    let in_ (k : Nat) (t : TimeSt) : TimeSt := { t with ppsIn := some k }
    let rise := setReg 0x12400 0xF0000001 (withTime (fun t => { t with ppsOut := false, ppsRise := some 0, tbs := [(7, { ns := 1 })] }) (atTick 312500000 s))
    let y : SynSt := { period := 655360, stage := .relock }
    let asked := withTime (fun t => { t with syns := [(3, { y with level := true })] }) off
    let syn_ (y : SynSt) := setReg 0x12B04 655360 (withTime (fun t => { t with syns := [(3, y)] }) (atTick 62500 (hostS 0 s)))
    let z := syn_ { y with stage := .gate }
    allOf [decide ((tb (ptpTb 127 s) s).l1 = none), ran (exec (.lane0LockLoss 127) s), decide ((tb (ptpTb 127 rec_) rec_).l1 = l1),
      decide (receiverPort (ptpTb 127 rec_) rec_ = some 127), ran (exec (.lane0LockLoss 127) rec_), ran (exec .refinLoss s), ran (exec .pllRelock off),
      ran (exec .pllRelock (setReg 0x12B00 0x80000000 asked)),
      ran (exec (.ppsinEdge 1) (pps 2 (in_ 1))), ran (exec (.ppsinEdge (-32768)) (pps 2 (in_ 0))), ran (exec (.ppsinEdge 32768) (pps 1 (in_ 0))),
      decide (tbSrc 7 (pps 2 id) = 2), (List.range 7).all (fun m => decide (tbSrc m (pps 2 id) ≠ 2)), bit (reg 0x12400 rise) 31,
      decide ((((tbNs (rfld 0x12400 30 28 rise) rise : Nat) : Int) + sgn 32 (reg 0x12408 rise)) % 1000000000 = 1), ran (exec .ppsoutPulse rise),
      ran (exec .ppsoutPulseEnd (withTime (fun t => { t with ppsOut := true }) rise)), decide (625 * rfld 0x12400 18 0 rise ≤ rise.ticks),
      writesOk (.fn 0) 0x12B00 0x80000000 (syn_ y), ran (exec (.synCommit (.fn 0) 3 0x80000000) (syn_ y)),
      ran (exec (.synCommit (.fn 0) 3 0x80000000) (syn_ { y with level := true })), writesOk (.fn 0) 0x12B00 0 (syn_ y),
      ran (exec (.synCommit (.fn 0) 3 0) (syn_ y)), ran (exec (.synCommit (.fn 0) 3 0) (syn_ { y with level := true })), ran (exec (.registerWrite (.fn 0) false 0x12B00 (.dw 15 0) []) (syn_ y)), ran (exec (.registerWrite (.fn 0) false 0x12B03 (.dw 15 0) []) (syn_ { y with level := true })),
      decide (ofsFor (.fn 0) 0x12B00 = some 0x12B00), ran (exec (.synRelockDone 3) (syn_ y)),
      decide (nsTicks (4 * 655360 / 65536) ≤ z.ticks ∧ ((tbPips (rfld 0x12B00 30 28 z) z : Int) - 0) % 655360 < 131072),
      ran (exec (.synGateRelease 3) z)] = true := by decide +kernel
/-- PtpMessages: a port of each role and state, end to end and peer to peer, over Ethernet and over UDP, with a first path delay sample and a
later one, messages of another domain and of another address, and every interval due and not due. -/
theorem witness_PtpMessages :
    let a : Announce := { priority1 := 1, clockClass := 2, accuracy := 3, variance := 4, priority2 := 5, gmId := 6, stepsRemoved := 7, sender := 8,
                          utcOffset := 9, leap61 := true, leap59 := false }
    let m (t : PtpType) : PtpMsg :=
      { type := t, seq := 65535, sec := 0, nsec := 50, corr := 2, twoStep := false, sender := 3, domain := 0, sdo := 0, req := ptpSelf 127, ann := some a }
    let x : PtpSt := { sync := some (65535, 70000, 3, 10), req := some (65535, 50), foreign := [⟨a, 0, none⟩], stamps := [(m .sync, 66)] }
    let two (t : PtpType) := { m t with twoStep := true }
    let cfg (tr p2p : Nat) (y : PtpSt) := timed (withTime (fun t => { t with ptps := [(127, y)] })
      (portUp 127 id (setReg (ptpBase 127 + 8) 7 (setReg (ptpBase 127) (2 ^ 30 + 5 * 2 ^ 27 + tr * 2 ^ 25 + p2p * 2 ^ 23 + 2 ^ 7) up))))
    let at_ (st : PtpState) (p2p : Nat) (fresh : Bool) := cfg 0 p2p { x with state := st, fresh := fresh }
    let r (i : Instr) (s : State) := ran (exec i s)
    let s := at_ .receiver 0 true
    let p := at_ .listening 1 false
    let udp := cfg 1 0 { x with state := .receiver }
    let late := atTick (3 * announceTicks 127 s) s
    let mute := atTick (3 * announceTicks 127 s) (cfg 0 0 { state := .listening })
    let own (y : PtpSt) (n : Nat) := atTick n (cfg 0 0 { y with state := .transmitter })
    let pd : Int := (tbPips 5 p : Nat) - 50 - 8
    let pf : PtpSt := { x with state := .receiver, fresh := false, presp := some (65535, 3276800 + 50 + 4, 0, 0) }
    allOf [decide (ptpRole 127 s ≠ 0 ∧ ptpTransport 127 s = 0 ∧ ptpTransport 127 udp = 1 ∧ ptpPeer 127 udp = 7 ∧ ptpDomain 5 s = 0 ∧ ptpSdo 5 s = 0),
      r (.ptpSyncReceive 127 (m .sync) 0 ⟨1, 7⟩) s, r (.ptpSyncReceive 127 (m .sync) 0 ⟨1, 8⟩) udp, r (.ptpFollowUpReceive 127 (m .followUp) ⟨1, 8⟩) udp,
      r (.ptpDelayReqReceive 127 (m .delayReq) 0 l2) udp, r (.ptpDelayRespReceive 127 (m .delayResp) l2) udp,
      r (.ptpPdelayReqReceive 127 (m .pdelayReq) 0 ⟨2, 7⟩) udp, r (.ptpPdelayRespReceive 127 (m .pdelayResp) 0 ⟨2, 7⟩) udp,
      r (.ptpAnnounceReceive 127 (m .announce) ⟨2, 7⟩) udp, r (.ptpSyncReceive 127 { m .sync with domain := 1 } 0 l2) s,
      r (.ptpAnnounceReceive 127 { m .announce with sdo := 1 } ⟨1, 7⟩) udp, fromParent (m .sync) (ptp 127 s), ! fromParent (m .sync) (ptp 127 p),
      r (.ptpSyncReceive 127 (two .sync) 52428 l2) s, r (.ptpSyncReceive 127 (m .sync) (-52428) l2) (at_ .uncalibrated 0 true),
      r (.ptpSyncReceive 127 (m .sync) 0 ⟨1, 7⟩) udp, r (.ptpSyncReceive 127 (m .sync) 0 l2) p, r (.ptpFollowUpReceive 127 (m .followUp) l2) s,
      r (.ptpDelayReqReceive 127 (m .delayReq) 0 l2) (at_ .transmitter 0 true), ! ptpP2p 127 s, ptpP2p 127 p,
      r (.ptpPdelayReqReceive 127 (m .pdelayReq) 0 l2) p, r (.ptpDelayRespReceive 127 (m .delayResp) l2) s,
      r (.ptpDelayRespReceive 127 (m .delayResp) l2) (at_ .receiver 0 false), decide (rfld (ptpBase 127) 9 7 s = 1),
      r (.ptpPdelayRespReceive 127 (two .pdelayResp) 0 l2) p, r (.ptpPdelayRespReceive 127 { m .pdelayResp with corr := pd } 0 l2) p,
      r (.ptpPdelayRespReceive 127 { m .pdelayResp with corr := pd } 0 l2) (at_ .listening 1 true),
      r (.ptpPdelayRespReceive 127 { m .pdelayRespFollowUp with corr := 0 } 0 l2) (cfg 0 1 pf),
      r (.ptpAnnounceReceive 127 { m .announce with ann := some { a with tlvs := [8] } } l2) s, r (.ptpAnnounceReceive 127 (m .announce) l2) s,
      r (.ptpAnnounceReceive 127 { m .announce with sender := ptpSelf 5 } l2) s, r (.ptpAnnounceTimeout 127) late, r (.ptpAnnounceTimeout 127) mute,
      r (.ptpAnnounceTimeout 127) s, r (.ptpSyncInterval 127) (own {} 0), r (.ptpSyncInterval 127) (own { syncAt := 5 } (5 + syncTicks 127 s)),
      r (.ptpSyncInterval 127) (own { syncAt := 5 } 6), r (.ptpAnnounceInterval 127) (own {} 0),
      r (.ptpAnnounceInterval 127) (own { annAt := 5 } (5 + announceTicks 127 s)),
      r (.ptpAnnounceInterval 127) (atTick ((announceOut 127 s).stepsRemoved * announceTicks 127 s + announceTicks 127 s) (cfg 0 0 { state := .preTransmitter })),
      r (.ptpDelayReqInterval 127) p, r (.ptpDelayReqInterval 127) s, r (.ptpFollowUpSend 127) (own {} 0), r (.ptpFollowUpSend 127) s] = true := by
  decide +kernel

/-- A journaled command's source. -/
def src7 : Src := ⟨0, 3, 0, 0, 7, 0x43, 0, false⟩
def inflight (w : Wait) (s : State) : State := { s with jrnl := { s.jrnl with inflight := [⟨src7, w⟩] } }
/-- A launch of time base 5 at a time in ns. -/
def launchAt (ns : Nat) (sendLate late : Bool) : Launch := ⟨⟨ns, 65535⟩, 5, sendLate, late, List.replicate 60 1, src7⟩
theorem witness_TimedLaunches :
    let data : List Byte := List.replicate 64 9
    let at_ (ns : Nat) := inflight .launch (hostS 1 (timed (withTime (fun t => { t with tbs := [(5, { ns := ns })] }) (portUp 127 id up))))
    let s := at_ 1000000
    let d (b : Nat) := desc 1 (fld 16 24 5 + fld 24 0 1000000 + b)
    let fr (n : Nat) := d (fld 16 0 127 + fld 40 0 n)
    let farD := desc 1 (fld 16 24 5 + fld 24 0 2148483648 + fld 16 0 127 + fld 40 0 60)
    let pd := d (fld 16 31 1 + fld 16 0 7)
    let c (kind n : Nat) (l : List Byte) : CmdSpec :=
      { op := 0x43, group := some 3, objs := [⟨11, n⟩]
        fields := [(16, 31, 31), (16, 29, 28), (16, 26, 24), (16, 6, 0), (20, 31, 16), (24, 63, 0), (32, 63, 0), (40, 13, 0)]
        dataCrc := crc32c (if kind = 0 then l.map (·.toNat) else []), wait := .launch }
    let f (e : Desc) (s : State) := serve1 (.launchFrame e (some data)) (c 0 127 data) e s
    let pu (s : State) := serve1 (.launchPulse pd) (c 1 135 []) pd s
    let l := launchAt 1000000 true false
    let full := portUp 127 (fun x => { x with launchQ := List.replicate 64 l }) s
    let q (l : List Launch) := portUp 127 (fun x => { x with launchQ := l }) s
    let timedOut := setReg (trigOutBase 7) 0x98000000 s
    let tx (m : PtpMsg) := portUp 127 (fun x => { x with txQ := [.ptp m] }) s
    let m : PtpMsg := msg 0
    let outQ (l : Launch) := setTrigOut 7 (fun x => { x with queue := [l] }) s
    allOf [f farD s, f (fr 60) full, f (fr 59) s, f (fr 9213) s, decide (rfld (portBase 127 + 0x28) 13 0 s = 9216), f (fr 60) s, portPowered 127 s,
      f (fr 60) (inMode .safe s), pu s, pu timedOut, decide (rfld (trigOutBase 7) 29 27 timedOut = 3),
      pu (setTrigOut 7 (fun x => { x with queue := List.replicate 16 l }) timedOut), canTx 127 (q [l]),
      decide (launchLeft l (q [l]) = 65535 ∧ launchLeft (launchAt 999998 true false) s = -65537), ran (exec (.launchDue 127 65536) (q [launchAt 999998 true false])),
      ran (exec (.launchDue 127 0) (q [launchAt 999990 true true])), ran (exec (.portTxSelect 127 (-52428)) (tx m)),
      ran (exec (.portTxSelect 127 0) (tx { m with twoStep := true })), ran (exec (.portTxSelect 127 0) (tx { m with type := .delayReq })),
      ran (exec (.portTxSelect 127 0) (tx { m with type := .pdelayReq })),
      ran (exec (.portTxSelect 127 0) (tx { m with type := .pdelayResp })), ran (exec (.portTxSelect 127 0) (setPtp 127 (fun y => { y with stamps := List.replicate 16 (m, 5) })
        (tx { m with twoStep := true }))),
      decide (launchLeft (launchAt 999996 true false) s < -131072), ran (exec (.launchLate 127) (q [l, launchAt 999996 true false])),
      ran (exec (.launchLate 127) (q [launchAt 999996 false false])), ran (exec (.launchLate 135) (outQ (launchAt 999996 true false))),
      ran (exec (.launchLate 135) (outQ (launchAt 999996 false false)))] = true := by decide +kernel

/-- A trigger primitive of time base 2 at a short time, class 7, score and stream. -/
def tp (t score stream : Nat) : TpWord := BitVec.ofNat 128 (t + (2 * 2 ^ 29 + stream) * 2 ^ 32 + (7 * 2 ^ 24 + 9 * 2 ^ 16 + score) * 2 ^ 64)
/-- Quadrant 3's QCU is on with all classes accepted and merged within 50 ns, at 1 ms of time base 2; a primitive waits in its engine 51. -/
def atQcu (w : TpWord) (buf : List TpWord) (s : State := up) : State :=
  let base := qcuBase 3
  let s := withTime (fun t => { t with tbs := [(2, { ns := 2 ^ 32 + 1000000 })] }) (withTrig (fun t => { t with qcus := [(3, { buffer := buf })] }) s)
  let s := setEng (ekey 3 51) (fun e => { e with tpq := [⟨w, 1, 0⟩] }) s
  setReg base 0x80000000 (setReg (base + 4) 3000 (setReg (base + 0x10) 0xFF (setReg (base + 0x30) 50 (setReg (base + 0x40) 0xFF
    (setReg (base + 0x60) 0x80000000 s)))))
/-- Condition 63 on TRIGIN edges at 1 ms of time base 2, with a veto term, a minimum gap, a prescale and a last accept, and one occurrence
that is due. -/
def condAt (vetoed : Bool) (gap pre : Nat) (last : Option Nat) (s : State := up) : State :=
  let x : CcuInput := ⟨4, 3, 0, 0, 0, 0, 2, 900000, 0, 0, 0⟩
  let cfg : CondCfg := { en := true, tb := 2, minGap := gap, prescale := pre, terms := [{ src := 4, sel := 3 }, { src := 4, veto := true }] }
  let d : CondDef := { cfg := cfg, hits := [[], if vetoed then [⟨900000, 0⟩] else []], pending := [⟨x, 1⟩], last := last }
  withTime (fun t => { t with tbs := [(2, { ns := 2 ^ 32 + 1000000 })] }) (withTrig (fun t => { t with conds := [(63, { cfg := cfg, defs := [d] })] }) s)
/-- A TRIG_COND_SET parameter block that is in range: time base 2, one TRIGIN term. -/
def condPb : BitVec 768 := BitVec.ofNat 768 (0xA0000000 + 1000 <<< 32 + 0x10000 <<< 160 + 0x80000301 <<< 256)
/-- CoincidenceUnits: each fate of a trigger primitive at its QCU, an input in each state of the CCU, each fate of an occurrence. -/
theorem witness_CoincidenceUnits :
    let t := 1000000
    let arr (w : TpWord) (buf : List TpWord) (f : State → State := id) := ran (exec (.tpArriveQcu 3 51) (f (atQcu w buf)))
    let s := atQcu (tp t 9 33) []
    let old := tp (t + 2 ^ 32 - 3001) 9 33
    let shadow := withTrig (fun t => { t with shadow := [(2, 9)] })
    let x : CcuInput := ⟨4, 3, 0, 0, 0, 0, 2, 900000, 0, 0, 0⟩
    let inp (f : State → State) := f (withTrig (fun t => { t with arrivals := [x] }) s)
    let on := setReg 0x80000 0x80000000
    let hold := withTrig (fun t => { t with qcus := [(3, { hold := true, holdEnd := some 7 })] }) (atTick 7 up)
    let dec (a : State) := decide (dueDef 63 (condRun a 63) = some 0) && ran (exec (.ccuDecide 63) a)
    let full := withTrig (fun t => { t with taQueue := List.replicate 256 ⟨ta0, false, [3], false⟩ })
    let sys := fun s : State => setReg 0x84000 0xE0000000 (setReg 0x84004 0x8000004D <| setReg 0x84008 0x80000000 { s with sys := { s.sys with primary := some 7 } })
    let h := hostS 1 up
    let d := desc 1 (fld 16 0 63 + fld 32 0 96)
    let c (pb : BitVec 768) : CmdSpec :=
      { op := 0x30, relOk := true, group := some 2, objs := [⟨5, 63⟩], config := true, fields := [(16, 5, 0), (24, 63, 0), (32, 31, 0)]
        badEnc := pbBad pb condPbFields || (List.range 8).any (fun j => decide ((termOf pb j).src = 7)), pb := some (leBytes 96 pb.toNat) }
    let set (d : Desc) (pb : BitVec 768) := serve1 (.trigCondSet d (some pb)) (c pb) d h
    let un (d : Desc) := let r := { d with flags := 0x200000 }; serve1 (.condRelease r (some 0)) (c 0) r h && dRelease r
    allOf [quadUp 3 s, ! quadGated 3 s, arr (tp t 9 33) (List.replicate 1024 (tp 5 1 1)), arr (tp t 9 33) [] (setReg (qcuBase 3) 0),
      qcuEn 3 s, arr (tp t 9 33) [] shadow, inShadow 2 (shadow s), arr (tp t 9 33) [] (setReg (qcuBase 3 + 0x10) 0), qcuClass 0x10 3 7 s,
      decide (0 < sdiff (markNow 3 2 s) (tpT old)), arr old [], arr (tp (t + 1000000001) 9 33) [],
      decide (sdiff (tbNs 2 s) (t + 1000000001) = -1000000001), arr (tp (t + 1000000000) 9 33) [], arr (tp (t - 3000) 9 33) [],
      (mergeInto 50 (tp (t + 50) 9 33) [tp t 900 33]).isSome, arr (tp (t + 50) 9 33) [tp t 900 33],
      (mergeInto 50 (tp (t + 51) 9 33) [tp t 900 33]).isNone, arr (tp (t + 51) 9 33) [tp t 900 33],
      (releaseNext 3 2 (atQcu 0 [tp (t - 3000) 9 33])).isSome, ran (exec (.qcuRelease 3 2) (atQcu 0 [tp (t - 3000) 9 33])), qcuIn 3 s,
      ! qcuHolding 3 s, ran (exec (.releaseMark 3) s), ran (exec (.castleHoldEnd 3) hold), ran (exec .ccuInput (inp shadow)),
      ran (exec .ccuInput (inp (setReg 0x80000 0))), ran (exec .ccuInput (inp on)), ccuEn (on s), ! ccuEn (setReg 0x80000 0 s),
      decide (dueDef 63 (condRun up 63) = none), ran (exec (.ccuDecide 63) up), dec (condAt true 0 0x10000 none), dec (condAt false 1 0x10000 (some 900000)),
      dec (condAt false 0 0x10001 (some 900000)), dec (full (condAt false 0 0x10000 none)), dec (condAt false 0 0x10000 none (inMode .safe up)),
      dec (condAt false 0 0x10000 none (sys up)), sysOn (sys up), isArbiter (sys up), suppressed (sys up), dec (condAt false 0 0x10000 none),
      ! suppressed up || ! sysOn up, ran (exec (.stepShadowEnd 2) (atTick 9 (shadow s))), set d condPb, condOk (condCfgOf condPb), set d 0,
      ! condOk (condCfgOf 0), set { d with body := 63 } condPb, decide (bf d 32 31 0 = 96 ∧ bf d 24 5 0 = 0), un d, un { d with body := 63 }] = true := by
  decide +kernel
theorem witness_TriggerLines :
    let base := trigInBase 7
    let lineAt (x : TrigIn) := setReg base 0x80000064 (setReg (base + 4) 9 (withTrig (fun t => { t with ins := [(7, x)] }) (atTick 1000000 onBar)))
    let edge (x : TrigIn) (b : Bool) (len : Nat := 20) := ran (exec (.triginEdge 7 32768 ⟨b, len⟩) (lineAt x))
    let wide (b : Bool) (len : Nat) := ran (exec (.triginEdge 7 32768 ⟨b, len⟩) (setReg base 0x84000064 (lineAt {})))
    let gap (k : Nat) (x : TrigIn) : Nat :=
      let a := fastEdges 7 (setTrigIn 7 (fun y => { y with level := true, since := 1000000 }) (lineAt { x with last := some k }))
      nsSince k a
    let full : TrigIn := { fifo := List.replicate 64 (2 ^ 80 - 1) }
    let fastS (f : FastSt) := setReg (fastBase 7 + 8) 0x10100A01 (withTrig (fun t => { t with fasts := [(7, f)] }) (atTick 1000 up))
    let l (ns : Nat) (late : Bool) := launchAt ns true late
    let outS (x : TrigOut) := setReg (trigOutBase 7) 0x80000032
      (withTime (fun t => { t with tbs := [(5, { ns := 1000000 })] }) (withTrig (fun t => { t with outs := [(7, x)] }) (atTick 1000 up)))
    let at_ (x : TrigOut) := ran (exec (.trigoutLaunchDue 7 32768) (outS x))
    allOf [edge { level := true } true, edge {} true 7, edge {} true 8, edge {} true 19, wide true 15, wide true 4, wide true 9, edge { level := true } false, edge { stuck := true } true, edge { last := some 999999 } true,
      decide (gap 999999 {} = 1), edge { last := some 999990 } true, decide (gap 999990 {} = 16), edge {} true, edge full true,
      decide (rfld base 15 0 (lineAt {}) = 100), ran (exec (.triginEdge 7 0 ⟨true, 0⟩) up), ! bit (reg base up) 31,
      ran (exec (.triginStuck 7) (lineAt { level := true, since := 1000000 - 625 * 9 })),
      ran (exec (.triginUnstuck 7) (lineAt { stuck := true, since := 1000000 - 625 })), reaches (.fn 0) (lineAt full), reaches .steward (lineAt full),
      reaches .regacc (lineAt full), ! blockHeld (base + 0xC) (lineAt full),
      decide (mfind (lineAt full).rdLatch (latchAt (.fn 0) (base + 0xC)) = none), ran (exec (.triginFifoPop (.fn 0) 7) (lineAt full)),
      ran (exec (.triginFifoPop .steward 7) (lineAt full)), ran (exec (.triginFifoPop .regacc 7) (lineAt full)),
      writesOk (.fn 0) base 0x400000 (lineAt full), ran (exec (.triginFifoFlush (.fn 0) 7 0x400000) (lineAt full)),
      ran (exec (.triginFifoFlush (.fn 0) 7 0x80400000) (lineAt full)), writesOk (.fn 0) base 0x80400000 (lineAt full),
      ran (exec (.fastStretchEnd 7 11 false) (fastS { req := [(11, 32000)] })), ran (exec (.fastStretchEnd 7 11 true) (fastS { veto := [(11, 32006)] })),
      ran (exec (.fastOutputEnd 7) (fastS { out := some 32009 })), ran (exec (.fastOutputEnd 7) (fastS { dead := some 32006 })),
      ran (exec (.fastOutputEnd 7) (setReg (fastBase 7 + 8) 0 (fastS { out := some 32005 }))), ran (exec (.delayTrack 7 0) (fastS {})),
      ran (exec (.delayTrack 7 2) (fastS { out := some 9 })), ran (exec (.trigoutPulseEnd 7) (outS { pulse := some 32025 })),
      outBusy 7 (outS { pulse := some 40000 }), ! outBusy 7 (outS {}), at_ { queue := [l 1000000 true] },
      decide (launchLeft (l 999998 false) (outS {}) = -65537), at_ { queue := [l 999998 false] }, at_ { queue := [l 1 true], pulse := some 40000 },
      at_ { queue := [l 999998 false], pulse := some 40000 }] = true := by decide +kernel
/-- FastPathChanges: a pair whose verdict is good, one that is not, a release, and a change that waits for a fast condition and one that need
not. -/
theorem witness_FastPathChanges :
    let s := hostS 1 up
    let d (o v : Nat) := desc 1 (fld 16 29 1 + fld 24 0 o + fld 28 0 v)
    let r := { d 0x4E0 0 with flags := 0x200000 }
    let c (d : Desc) : CmdSpec := { specFastSet d with wait := fastWait d }
    let lone (o : Nat) : Bool := match regAt (trigBase + o) with | some (r, _) => ! pairHi r.reg && ! pairLo r.reg | none => true
    let v (o v : Nat) := pairVerdict (.fn 1) trigBase 0x1000 s (o, v)
    let ch (f : FastSt) (src : Option Src) : State :=
      inflight (.fastApply [7] [7]) (withTrig (fun t =>
        { t with changes := [⟨[(fastBase 7 + 8, 0x20200C00)], [7], [7], src, [⟨6, 7⟩]⟩], fasts := [(7, f)] }) (hostS 0 up))
    allOf [decide (nPairs (d 0xE0 1) = 1 ∧ pairOf (d 0xE0 5) 0 = (0xE0, 5)), decide (v 0x1004 0 ≠ .ok), serve1 (.trigFastSet (d 0x1004 0)) (c (d 0x1004 0)) (d 0x1004 0) s,
      decide (v (fastBase 7 + 8 - trigBase) 0x10101000 = .ok),
      serve1 (.trigFastSet (d (fastBase 7 + 8 - trigBase) 0x10101000)) (c (d (fastBase 7 + 8 - trigBase) 0x10101000)) (d (fastBase 7 + 8 - trigBase) 0x10101000) s,
      decide (v 0x4E0 0 = .ok), lone 0x4E0, lone 0x1004, lone (fastBase 7 + 8 - trigBase), decide (trigCtlOf (trigObj 0x4E0) = trigBase + 0x4E0), ! notOff r, serve1 (.fastRelease r) (c r) r s,
      ran (exec .trigFastApply up), ran (exec .trigFastApply (ch { dead := some 9 } none)), ! outBusy 7 (ch {} none),
      ran (exec .trigFastApply (ch {} none)), ran (exec .trigFastApply (ch {} (some src7))), writesOk (.fn 0) (qcuBase 3 + 0x60) 0x80000000 onBar,
      ran (exec (.lateCapRearm (.fn 0) 3 0x80000000) onBar)] = true := by decide +kernel

/-! #### The joined system, buffers and events -/

/-- Time base 0 is valid at 41 s. -/
def tbValid (s : State) : State := withTime (fun t => { t with tbs := [(0, { valid := true, servo := .locked, ns := 41000000000 })] }) s
/-- Device 77, an arbiter, with link ports 3 and 9 up and in the tree; devices 55 and 88 lie behind port 9. -/
def joined : State :=
  let s := tbValid (atTick 1000000000 up)
  let s := portUp 3 id (portUp 9 id (setReg (portBase 3) 0x800000 (setReg (portBase 9) 0x800000 s)))
  let s := setReg 0x84000 0xC0050000 (setReg 0x84004 0x8000004D (setReg 0x8400C 0x3E801F4 (setReg 0x84010 100000 (setReg 0x84014 5 s))))
  let s := setReg 0x84020 0x80000058 (setReg (0x88000 + 220) 0x89000000 (setReg (0x88000 + 352) 0x89000000 (setReg 0x84080 0x208 s)))
  { s with sys := { s.sys with links := [(3, { up := true, last := 999999999 }), (9, { up := true, last := 999999999 })] } }
/-- A GCM of one record to device dst, sent now. -/
def gcm (kind src dst ttl : Nat) (bcast : Bool) (body : List Nat) : Gcm :=
  ⟨1, kind, 1, 2, ttl, src, bcast, dst, 41000000000 % 2 ^ 32, 4, false, body.map (BitVec.ofNat 8)⟩
def ask : RecallReq := ⟨7, true, false, 6, 0, 0, 40000000000, 41000000000, false, 0, 0, false⟩
/-- With these requests remembered, and these issued. -/
def askedS (l : List Asked) (i : List (Nat × Src)) (s : State) : State := { s with evt := { s.evt with asked := l, issued := i } }
theorem witness_JoinedSystem :
    let s := joined
    let r (i : Instr) (s : State) := ran (exec i s)
    let q (f : SysSt → SysSt) : State := { s with sys := f s.sys }
    let old (k : Nat) := q (fun x => { x with beacons := [(3, k)], primary := some k })
    let lone := setReg 0x84080 0 s
    let tp0 := beBytes 4 5000 ++ beBytes 4 33 ++ beBytes 4 7 ++ beBytes 4 4
    let tp2 := beBytes 4 5000 ++ beBytes 4 0x40000021 ++ beBytes 4 7 ++ beBytes 4 4
    let ta : Ta := { ta0 with system := true, device := 88, t := 41000000000 }
    let here (k : Nat) (b : List Nat) := gcm k 88 77 4 false b
    let lock := setReg 0x84000 0xD0050000 s
    let want := setReg 0x8406C 256 s
    let full : State := withTrig (fun t => { t with taQueue := List.replicate 256 ⟨ta0, false, [3], false⟩ }) want
    let known (x : Option ReplyRec) := askedS [⟨88, 7, x⟩] [] s
    let rep : ReplyRec := ⟨0, true, 3, 900, 41000000000⟩
    let free_ := askedS [] [] (inMode .retain { s with evt := { s.evt with profiles := [(6, { en := true })] } })
    allOf [linkPort 3 s, (port 3 s).linkUp, (link 9 s).up, r (.linkHelloTx 3) s, r (.linkHelloTx 3) (setLink 3 (fun l => { l with sent := some (1000000000 - usTicks (helloUs s)) }) s),
      r (.linkHelloTx 3) (setLink 3 (fun l => { l with sent := some (1000000001 - usTicks (helloUs s)) }) s), r .beaconTx (q (fun x => { x with beaconSent := some 1000000000 })),
      r (.gcmPackTimeout 0) (q (fun x => { x with pack := [(0, ⟨[7], 1000000000, false⟩)], beacons := [(0, 5)] })), r (.gcmPackTimeout 0) (q (fun x => { x with pack := [(0, ⟨[7], 1000000000, true⟩)], beacons := [(0, 5)] })),
      r (.gcmPackTimeout 0) (q (fun x => { x with pack := [(0, ⟨[7], 0, false⟩)], beacons := [] })), r (.linkHelloTimeout 9) s,
      r (.linkHelloTimeout 9) (atTick (999999999 + usTicks (4 * helloUs s)) s), activeArbiter s, decide (treePorts s = [3, 9]), r .beaconTx s,
      decide (treePorts lone = []), r .beaconTx lone, ! activeArbiter up, r .beaconTx up, r (.beaconTimeout 3) (old (1000000000 - usTicks (4 * beaconUs s))),
      r (.beaconTimeout 3) (old (1000000001 - usTicks (4 * beaconUs s))), r (.beaconTimeout 4) (old (1000000000 - usTicks (4 * beaconUs s))),
      decide (arbSlot 0 s = some 88), r (.gcmPackTimeout 0) (q (fun x => { x with pack := [(0, ⟨[7], 0, false⟩)] })), decide (rfld 0x84000 23 16 s = 5),
      badHeader (gcm 6 88 77 4 false []), ! badHeader (here 5 []), r (.gcmTpReceive 3 { here 1 tp0 with version := 2 } true) s,
      linkHello (here 5 []), r (.gcmHelloReceive 3 (here 5 []) true) s, r (.gcmHelloReceive 3 (here 5 []) false) s,
      r (.gcmTpReceive 3 (here 1 tp0) true) (q (fun x => { x with links := [] })), sysUp 3 s, r (.gcmTpReceive 3 (gcm 1 77 77 4 false tp0) true) s,
      ! inTree 3 lone, r (.gcmTpReceive 3 (gcm 1 88 0 4 true tp0) true) lone, decide (route 1 s = none), r (.gcmReplyReceive 3 (gcm 4 88 1 4 false []) true) s,
      decide (route 55 s = some 9), r (.gcmTaReceive 3 (gcm 2 88 55 1 false (taBytes ta)) true) s, r (.gcmTaReceive 3 (gcm 2 88 55 2 false (taBytes ta)) true) s,
      r (.gcmTaReceive 3 (gcm 2 88 55 2 false (taBytes ta)) false) s, r (.gcmTpReceive 3 (gcm 1 88 0 4 true tp0) true) s,
      r (.gcmTpReceive 3 (here 1 tp0) false) s, ageBad { here 1 tp0 with tSend := (41000000000 - 100001) % 2 ^ 32 } s,
      r (.gcmTpReceive 3 { here 1 tp0 with tSend := (41000000000 - 100001) % 2 ^ 32 } true) s, ! ageBad (here 1 tp0) s, r (.gcmTpReceive 3 (here 1 tp2) true) s,
      r (.gcmTpReceive 3 { here 1 tp0 with tb0 := 1 } true) lock, r (.gcmTpReceive 3 (here 1 tp0) true) s,
      r (.gcmTpReceive 3 { here 1 (tp0 ++ tp2) with count := 2 } true) s, r (.gcmTaReceive 3 (here 2 (taBytes { ta with tb := 1 })) true) s,
      r (.gcmTaReceive 3 { here 2 (taBytes ta) with tb0 := 1 } true) lock, r (.gcmTaReceive 3 (here 2 (taBytes ta)) true) s,
      decide ((taOf (gcmRec (here 2 (taBytes ta)) 0)).cond = 2 ^ 40), r (.gcmTaReceive 3 (here 2 (taBytes ta)) true) want,
      r (.gcmTaReceive 3 (here 2 (taBytes ta)) true) full, decide ((recallOf (gcmRec (here 3 (recallBytes ask)) 0)) = ask),
      r (.gcmRecallReceive 3 (here 3 (recallBytes ask)) true) (known none), r (.gcmRecallReceive 3 (here 3 (recallBytes ask)) true) (known (some rep)),
      decide (recallCheck 0 ask free_ = .ok), r (.gcmRecallReceive 3 (here 3 (recallBytes ask)) true) free_, decide (recallCheck 0 ask s = .range),
      decide (recallCheck 0 ask (inMode .safe s) = .mode), r (.gcmRecallReceive 3 (here 3 (recallBytes ask)) true) (inMode .safe s),
      r (.gcmRecallReceive 3 (here 3 (recallBytes ask)) true) s, r (.gcmRecallReceive 3 (here 3 (recallBytes { ask with reply := false })) true) s,
      r (.gcmReplyReceive 3 (here 4 (replyBytes 7 rep)) true) (askedS [] [(7, src7)] (hostS 0 s)), decide (statusOf 0 = some .ok),
      r (.gcmReplyReceive 3 (here 4 (replyBytes 7 rep)) true) s, r (.gcmHelloReceive 3 (gcm 5 88 0 4 true []) true) s] = true := by decide +kernel

theorem witness_BuffersQuotasAndProfiles :
    let sq (v sid : Nat) := desc 1 (fld 16 0 sid + fld 24 0 v)
    let sqC : CmdSpec := { op := 0x12, group := some 0, objs := [⟨2, 1048575⟩], fields := [(16, 19, 0), (24, 63, 0)] }
    let s := hostS 1 (withStream { id := 1048575, cfg := {} } up)
    let q (v : Nat) (s : State) := serve1 (.streamQuota (sq v 1048575)) sqC (sq v 1048575) s
    let held : State := { s with evt := { s.evt with quota := [(1, stackBlocks)] }, streams := (3 * 16384, { id := 1, cfg := {} }) :: s.streams }
    let br (key gen : Nat) := desc 1 (fld 16 0 key + fld 20 0 gen)
    let brC : CmdSpec := { op := 0x06, fields := [(16, 23, 0), (20, 11, 0)] }
    let b (o : Nat) : State := { s with bufs := [(bkey 4 1, { gen := 4095, owner := o })] }
    let rel (key gen o : Nat) := serve1 (.bufRelease (br key gen)) brC (br key gen) (b o)
    let qs (f : Fin 8) (t i v : Nat) (s : State) :=
      let d := desc f (fld 16 8 t + fld 16 0 i + fld 24 0 v)
      serve1 (.quotaSet d) { op := 0x52, group := some 4, objs := [⟨9, bf d 16 11 0⟩], fields := [(16, 11, 0), (24, 63, 0)] } d s
    let s0 := hostS 0 up
    let er (len flags : Nat) := desc 1 (fld 16 0 255 + fld 32 0 len) flags
    let pb (en pre : Nat) : BitVec 512 := BitVec.ofNat 512 (en <<< 31 + 5 <<< 32 + pre <<< 64 + 9 <<< 128 + 1000 <<< 480)
    let set (d : Desc) (pb : BitVec 512) := serve1 (.evtRoute d (some pb)) (specEvtRoute d (some pb)) d (hostS 1 up)
    let un (d : Desc) (pb : BitVec 512) := serve1 (.profileRelease d (some pb)) (specEvtRoute d (some pb)) d (hostS 1 up)
    allOf [decide (streamAny 1048575 up = none), serve1 (.streamQuota (sq 0 1048575)) sqC (sq 0 1048575) (hostS 1 up), q 65536 s, q 1 s, q 131072 held,
      decide (stackBlocks < reservedBlocks 3 held - quotaOf 1048575 held + 2), q 131072 s, q 0 s, q (stackBlocks * 65536) s, q ((stackBlocks + 1) * 65536) s,
      decide (hPool (bkey 4 1) = 4 ∧ hPool (bkey 0 1) = 0 ∧ hPool (bkey 5 1) = 5), rel (bkey 0 1) 0 1, rel (bkey 5 1) 0 1, rel (bkey 4 1) 0 0x3001,
      rel (bkey 4 1) 4095 0x3002, rel (bkey 4 1) 4095 0x3001, writesOk (.fn 0) (evbBase 3 + 0x1C) 0 s0,
      ran (exec (.bufFaultRearm (.fn 0) 3 0) s0), qs 1 1 0 0 s, qs 1 0 191 64 s, qs 1 0 191 65 s, qs 0 0 191 33554432 s0, qs 0 0 192 0 s0,
      qs 0 1 7 (2 ^ 40) s0, qs 0 2 7 1048576 s0, qs 0 2 8 0 s0, qs 0 2 7 1048577 s0, set (er 64 0) (pb 1 7), set (er 64 0) (pb 1 30000000001),
      set (er 65 0) (pb 1 7), un (er 64 0x200000) (pb 0 7), un (er 65 0x200000) (pb 0 7)] = true := by decide +kernel

theorem witness_Recalls :
    let s (b : Nat) := hostS 1 (inMode .retain (withTime (fun t => { t with tbs := [(b, { valid := true, ns := 41000000000 })] })
      (setReg 0x84000 0xC0000000 (setReg 0x84004 0x8000004D { up with evt := { up.evt with profiles := [(6, { en := true })] } }))))
    let d (scope b prof x start stop : Nat) :=
      desc 1 (fld 16 30 scope + fld 16 24 b + fld 16 16 prof + x + fld 20 0 7 + fld 32 0 start + fld 40 0 stop)
    let on (i : Desc → Instr) (d : Desc) (s : State) := serve1 (i d) (specRecall d) d s
    let l (b prof x start stop : Nat) (s : State) := on .recallLocal (d 0 b prof x start stop) s
    let t := 41000000000
    let short := fld 16 29 1
    let many : State := { s 0 with evt := { (s 0).evt with builds := (List.range 64).map (fun (n : Nat) => (n, { build0 with rcl := some ⟨.device 9 true, 4, false⟩ })) } }
    allOf [l 0 6 (fld 16 0 9) (t - 1) t (s 0), l 0 6 (fld 16 28 1) (t - 1) t (s 0), l 0 6 (fld 16 27 1) (t - 1) t (s 0), l 3 6 0 (t - 1) t (s 0),
      ! (tb 3 (s 0)).valid, (tb 3 (s 3)).valid, l 0 6 0 t t (s 0), l 0 6 0 (t - 30000000001) t (s 0), l 0 6 0 (t - 1) (t + 1000000001) (s 0),
      l 0 6 short (t % 2 ^ 32 + 1) (t % 2 ^ 32 + 5) (s 0), l 0 6 0 (t - 30000000000) (t + 1000000000) (inMode .safe (s 0)),
      recallMode 0 (t - 30000000000) (inMode .safe (s 0)), l 0 5 0 (t - 1) t (s 0), l 3 6 0 (t - 30000000000) (t + 1000000000) (s 3),
      l 0 6 short (t % 2 ^ 32 - 5) (t % 2 ^ 32) (s 0), ! recallMode 0 (t - 1) (s 0), l 0 6 0 (t - 1) t many, decide (recallsPending many = 64),
      on .recallDevice (d 1 1 6 0 (t - 1) t) (s 0), on .recallDevice (d 1 0 6 (fld 16 0 77) (t - 1) t) (s 0), decide (deviceNum (s 0) = 77),
      on .recallDevice (d 1 0 6 (fld 16 0 55) (t - 1) t) (s 3), ! (tb 0 (s 3)).valid, on .recallDevice (d 1 0 6 (fld 16 0 55) t t) (s 0),
      on .recallDevice (d 1 0 6 (fld 16 0 55) (t - 1) t) (s 0), on .recallAll (d 2 0 6 (fld 16 27 1) (t - 1) t) (s 0), sysOn (s 0),
      on .recallAll (d 2 0 5 (fld 16 27 1) (t - 1) t) (s 0), on .recallAll (d 2 0 6 short (t - 1) t) (s 0),
      on .recallAll (d 2 0 6 0 (t - 1) (t + 1000000001)) (s 0)] = true := by decide +kernel

/-- A fragment of a TP's attachment, and a post of one segment. -/
def frag (q n : Nat) : Frag := ⟨true, q, 8, false, false, 0, false, false, false, n, 7, 0, [], List.replicate n 5, 3, 2, 1⟩
def post (n : Nat) : Post := ⟨some (BitVec.ofNat 512 (0x10000 + 1 <<< 64 + 77 <<< 128)), some [BitVec.ofNat 128 (0x40000 + n <<< 64)]⟩
/-- Function 2 with its event ring 3 running and posts waiting, at 41 s, with ports 64 and 95 up. -/
def evHost : State :=
  let s := setReg (ringBase 2 131 + 8) (0x80000000 + 4 * 2 ^ 25 + 2 * 2 ^ 19) (hostS 2 (tbValid (atTick 1000000000 up)))
  portUp 64 id (setReg 0x84004 0x8000004D (setFn 2 (fun x => { x with rings := mput x.rings 131 { en := true, dev := 3, host := 8, shown := 1 } }) s))
/-- A record of two quadrants' parts, of a destination and a policy. -/
def record (dest policy : Nat) (stage : BuildStage) (p2 : Part) : Build :=
  { build0 with
    rcl := some ⟨.device 9 true, 4, false⟩, stage := stage, stop := 40000000000
    prof := { dest := dest, func := 2, ring := 3, policy := policy, hold := 100, ports := [some 3, none, some 0, none], maxUnits := 4 }
    parts := [(0, .out false), (1, .done [] true), (2, p2), (3, .done [frag 3 70] false)]
    posts := if dest = 0 ∧ stage = .moving false then [⟨77, [⟨0x40000, 65536⟩]⟩] else [], first := 3 }
theorem witness_EventBuilding :
    let hist (f : HistSt → HistSt) (s : State) := setHist 3 f s
    let t := atTick 1000000 up
    let r (i : Instr) (s : State) := ran (exec i s)
    let hbm (n : Nat) := hist (fun h => { h with wb := n }) (inMode .retain up)
    let q (p : List (Nat × Profile)) (left : List Nat) (m : Mode) : State :=
      inMode m (withTrig (fun x => { x with taQueue := [⟨{ ta0 with trig := 4 }, false, [3], true⟩, ⟨ta0, false, left, false⟩] })
        { evHost with evt := { evHost.evt with profiles := p, nextBuild := 7 } })
    let on : List (Nat × Profile) := [(3, { en := true, pre := 5, post := 9 })]
    let busy := building build0 (q on [1, 2] .acquire)
    let full : State := { up with evt := { up.evt with builds := (List.range 64).map (fun (n : Nat) => (n, { build0 with parts := [(0, .waiting)] })) } }
    let fullQ : State := { q on [0, 1, 2, 3] .acquire with evt := { full.evt with profiles := on } }
    let w := { build0 with parts := [(1, Part.waiting)], stop := 40999980000 }
    let later (n : Nat) := withTime (fun t => { t with tbs := [(0, { valid := true, ns := n })] }) (building w evHost)
    let at_ (d p : Nat) (st : BuildStage) (p2 : Part) := building (record d p st p2) evHost
    let sz := Part.sized [frag 2 100] false
    let dn := Part.done [frag 2 100] false
    let sc (s : State) (l : List Post) := r (.sizesComplete 6 l) s
    let asleep (s : State) := setFn 2 (fun x => { x with d3hot := true }) s
    let spill : Build := { record 2 0 (.moving false) dn with prof := { (record 2 0 .sizing dn).prof with ports := [some 3, some 0, some 0, none] } }
    let quota (s : State) : State := { s with evt := { s.evt with byteQuota := [(2, 10)] } }
    let hold : State := { up with evt := { up.evt with attach := [(3, [⟨bkey 2 1, 0, 0, 0, 0, 0, 0, 0⟩, ⟨bkey 2 2, 0, 0, 0, 0, 0, 0, 1⟩])] } }
    allOf [r (.shedLevelUp 3) (hist (fun h => { h with wb := 1572865, upTick := some 999375, shed := 7 }) t),
      r (.shedLevelUp 3) (hist (fun h => { h with wb := 1572864 }) t), r (.shedLevelDown 3) (hist (fun h => { h with lowSince := some 937500, shed := 1 }) t),
      r (.shedLevelDown 3) t, decide (histMode 3 (hbm 0) = .hbm), r (.hbmRefresh 3 410 true) (hbm 1572865), r (.hbmRefresh 3 0 true) (hbm 1572864),
      r (.hbmRefresh 3 410 false) (hbm 1572865), r (.evbTaTake 0) up, evbUp 0 (q on [0, 1, 2, 3] .acquire), r (.evbTaTake 0) (q [] [0, 1, 2, 3] .acquire),
      r (.evbTaTake 0) (q on [0, 1, 2, 3] .safe), r (.evbTaTake 0) (q on [0, 1, 2, 3] .acquire), (buildOfTa ta0 busy).isSome, r (.evbTaTake 1) busy,
      (buildOfTa ta0 (q on [0, 1, 2, 3] .acquire)).isNone, decide (buildsIn 0 fullQ = 64), r (.evbTaTake 0) fullQ, partReady 1 w (later 41000000000),
      covered 1 w (later 41000000000), r (.eventBuildStart 1 6) (later 40999990000), r (.eventBuildStart 1 6) (later 40999989999),
      r (.buildWaitTimeout 1 6) (later (40999990000 + rfld (evbBase 1) 15 0 up * 1000000)), r (.buildWaitTimeout 1 6) (later 40999990000),
      sizesIn (record 0 0 .sizing sz), decide ((layOut (record 0 0 .sizing sz)).stage = .sizing), sc (at_ 0 0 .sizing sz) [post 4096],
      sc (quota (at_ 0 0 .sizing sz)) [post 4096], sc (at_ 0 0 (.held 5) sz) [post 4096], sc (at_ 0 0 .sizing sz) [], sc (at_ 0 0 .sizing sz) [⟨some 0, none⟩],
      sc (at_ 0 0 .sizing sz) [⟨none, none⟩], decide (takePosts 800 5 16 [⟨some 0, none⟩] [] = .bad ∧ takePosts 800 5 16 [⟨none, none⟩] [] = .failed),
      decide (takePosts 800 5 0 [] [] = .never ∧ takePosts 800 5 16 [] [] = .few), sc (asleep (at_ 0 2 .sizing sz)) [post 4096],
      sc (at_ 1 0 .sizing .waiting) [], ! sizesIn (record 1 0 .sizing .waiting), sc (at_ 1 0 .sizing sz) [], r (.evbRegionDone 2 ⟨6, [(0, 1)]⟩) (at_ 0 0 (.moving false) sz),
      r (.evbRegionDone 2 ⟨6, [(0, 1)]⟩) (at_ 2 0 (.moving false) sz), r (.evbRegionDone 2 ⟨6, [(0, 1)]⟩) (at_ 1 0 (.moving true) (.sized [] false)),
      ! regionsDone (record 0 0 (.moving false) sz), r (.recordDelivery 6) (at_ 0 0 (.moving false) sz), regionsDone (record 0 0 (.moving false) dn),
      (deliverHost 1 (record 0 0 (.moving false) dn) (at_ 0 0 (.moving false) dn)).isSome, r (.recordDelivery 6) (at_ 0 0 (.moving false) dn),
      r (.recordDelivery 6) (asleep (at_ 0 0 (.moving false) dn)), r (.recordDelivery 6) (building spill evHost), regionsDone spill,
      r (.recordHoldTimeout 6) (at_ 0 1 (.held (1000000000 - 62500)) dn), r (.recordHoldTimeout 6) (at_ 0 1 (.held (1000000001 - 62500)) dn),
      r (.recordHoldTimeout 6) (asleep (at_ 0 1 (.held 0) dn)), r (.attachHoldExpire 3) (atTick (625 * reg (evbBase 3 + 8) up) hold)] = true := by decide +kernel

/-! #### The host's rings, repair and flash -/

/-- Function 2's free ring 3 and event ring 3 run too; slots 0 to 7 of its doorbell page may be read. -/
def ringsS : State :=
  let s := atTick 1000000000 (hostS 2 up)
  let s := setReg (ringBase 2 163 + 8) (0x80000000 + 4 * 2 ^ 25 + 2 * 2 ^ 19) s
  setFn 2 (fun x => { x with rings := mput x.rings 163 { en := true, dev := 2, host := 5, shown := 1 } }) (setReg (fnBase 2 + 4) 100 s)
theorem witness_HostRings :
    let r (i : Instr) (s : State) := ran (exec i s)
    let s := ringsS
    let bar := hostS 0 up
    let pend := setReg (pbaBase 2 + 28) 0x80000000 (setReg (msixBase 2 + 16 * 255 + 12) 1 s)
    let cxl : State := setFn 2 (fun x => { x with ats := true }) { s with host := { s.host with cxl := true, cxlCache := true } }
    let polled (k : Nat) := setFn 2 (fun x => { x with polled := some k }) s
    let every := nsTicks (pollNs 2 s * max 100000000 (pollDemand s) / 100000000)
    let ctl (slot v : Nat) (x : RingSt) := setRing 2 slot (fun _ => x) (setReg (ringBase 2 slot + 8) v s)
    let w : BitVec 32 := 0x88000000
    let ok (slot : Nat) (v : Word) (s : State) := writesOk (.fn 2) (ringBase 2 slot + 8) v s
    let off (slot : Fin 193) := let a := ctl slot 0x88000000 { en := true }; ok slot 0x8000000 a && r (.ringDisable (.fn 2) 2 slot 0x8000000) a
    let stop := ctl 3 0x88000000 { en := true, stopped := some .fault }
    let old (k : Nat) := setRing 2 3 (fun x => { x with oldest := some k }) (setReg (ringBase 2 3 + 12) 65535 s)
    let wait := nsTicks (250 * 65535)
    let free (o : Nat) (want : Nat) : State := setReg (ringBase 2 163 + 8) (0x88100000 + want) { s with bufs := [(bkey 4 1, { gen := 5, owner := o })] }
    let e (n : Nat) : BitVec 128 := BitVec.ofNat 128 (n + 5 <<< 32 + 0xABC <<< 64)
    let fr (n o want : Nat) := r (.freeEntry 2 3 (e n)) (free o want)
    allOf [hostUp 0 bar, r (.hostLinkUp 3 1 false false false 0 0) bar, r (.hostLinkUp 6 16 true true true 0xFF 0x81) bar, hostUp 2 s,
      r (.functionD3hotEntry 2 false) s, r (.functionD3hotEntry 2 true) s, r (.functionD0Entry 2) (setFn 2 (fun x => { x with d3hot := true }) s), r (.functionD0Entry 2) (after (.functionD3hotEntry 2 true) s), (after (.functionD3hotEntry 2 true) s).host.l12,
      ! hostUp 2 State.reset, r (.functionD3hotEntry 2 true) State.reset, r (.functionD0Entry 2) State.reset, writesOk (.fn 2) (msixBase 2 + 16 * 255 + 12) 0 pend,
      bit (reg (pbaBase 2 + 28) pend) 31, vecUsable 2 255 pend, fnAwake 2 pend, r (.msixUnmask 2 255) pend, r (.msixUnmask 2 255) s,
      writesOk (.fn 2) (msixBase 2 + 16 * 255 + 12) 0 s, r (.flr 2) s, canPoll 2 s, ringRuns 2 3 s, decide (ringSize 2 3 s = 16),
      r (.nudge 2 [(3, 21)]) s, r (.nudge 2 [(3, 22)]) s, r (.nudge 2 [(66, 2 ^ 64 - 14)]) s, r (.nudge 2 [(66, 2 ^ 64 - 15)]) s, r (.nudge 2 [(4, 9)]) s,
      ! ringRuns 2 4 s, r (.doorbellPoll 2 [(3, 21)]) (polled (1000000000 - every)), r (.doorbellPoll 2 [(3, 22)]) (polled 5), usesCxl 2 cxl,
      r (.doorbellInvalidate 2 24 [(192, 3)]) cxl, r (.doorbellInvalidate 2 0 [(3, 21)]) cxl, ! usesCxl 2 s, r (.doorbellInvalidate 2 0 [(3, 21)]) s,
      ok 3 w (ctl 3 0 {}), r (.ringEnable (.fn 2) 2 3 w) (ctl 3 0 {}), ok 3 0x8000000 (ctl 3 0 {}), r (.ringDisable (.fn 2) 2 3 0x8000000) (ctl 3 0 {}), off 0, off 63,
      off 64, off 127, off 128, off 159, off 160, off 191, off 192, ok 3 0xC8000000 stop, r (.ringResume (.fn 2) 2 3 ⟨0xC8000000, 9⟩) stop, r (.ringResume (.fn 2) 2 3 ⟨0xC8000000, 100⟩) stop,
      ok 3 0xC8100000 s, r (.ringResume (.fn 2) 2 3 ⟨0xC8100000, 9⟩) s, r (.coalTimeout 2 3) (old (1000000000 - wait)), r (.coalTimeout 2 3) (old (1000000001 - wait)),
      r (.coalTimeout 2 3) s, r (.dmaReadFault 2 [3]) s, r (.dmaReadFault 2 [4]) s, ! cqHolds 2 2 s, cqHolds 2 2 (setRing 2 66 (fun x => { x with dev := 100 }) s),
      r (.freeEntry 2 3 (e 0)) (setRing 2 66 (fun x => { x with dev := 100 }) s), fr 0x1000000 0x3002 0, fr 0 0x3002 0, fr (bkey 4 2) 0x3002 0,
      fr (bkey 4 1) 0x3001 0, fr (bkey 4 1) 0x3002 0, fr (bkey 4 1) 0x3002 1024] = true := by decide +kernel
/-- BasicCommands: fences of each kind alone and together, one that is too far ahead, snapshots just long enough and just too short. -/
theorem witness_BasicCommands :
    let s := hostS 2 (withStream { id := 1048575, cfg := {}, framesTaken := 8 } (tbValid up))
    let c (op : Nat) (f : List (Nat × Nat × Nat)) : CmdSpec := { op := op, fields := f }
    let d := desc 2 0
    let ec := desc 2 (2 ^ 64 - 1)
    let words : List (Fin 193 × BitVec 64) := [(3, 9), (66, 1)]
    let fd (m t : Nat) := desc 2 (fld 16 0 m + fld 24 0 t)
    let fc (m t : Nat) : CmdSpec := { op := 0x02, fields := [(16, 6, 0), (24, 63, 0)], wait := .fence m [] 0 t }
    let near := 41000000000 + 2147483647
    let f (i : Desc → List (Fin 193 × BitVec 64) → Instr) (m t : Nat) := serve1 (i (fd m t) words) (fc m t) (fd m t) s
    let p (w : Wait) : State := { s with jrnl := { s.jrnl with inflight := [⟨src7, w⟩] } }
    let two : State := { s with jrnl := { s.jrnl with inflight := [⟨src7, .other⟩, ⟨{ src7 with jseq := 8 }, .fence 1 [] 0 0⟩] } }
    let size (b : Nat) := 64 + 8 * (snapAddrs b).length
    let ss (b n : Nat) := let d := desc 2 (fld 16 0 b + fld 24 0 n); serve1 (.statsSnap d 100000) (c 4 [(16, 7, 0), (24, 31, 0), (32, 63, 0)]) d s
    let cr (i : Desc → Instr) (k o a : Nat) (s : State) := let d := desc 2 (fld 16 28 k + fld 16 0 o + fld 32 0 a)
      serve1 (i d) (c 5 [(16, 31, 28), (16, 19, 0), (32, 63, 0)]) d s
    let mine := setJrnl (fun j => { j with owners := [(objKey ⟨2, 1048575⟩, 2)] }) s
    allOf [serve1 (.nop d) (c 0 []) d s, serve1 (.echo ec) (c 1 [(16, 63, 0)]) ec s, serve1 (.jrnlSync d) (c 3 []) d s,
      serve1 (.jrnlSync d) (c 3 []) d { s with jrnl := { s.jrnl with head := 961 } }, canServe d s, decide ((7 : BitVec 8).toNat ∉ opcodes),
      ran (exec (.reservedOpcode 7 d) s), ran (exec (.reservedOpcode 255 d) s), f .fenceExec 0 0, f .fenceExec 1 0, f .fenceFunc 2 0, f .fenceData 4 0,
      f .fenceTime 8 near, f .fenceTime 8 (near + 1), f .fenceFunc 15 near, ran (exec .fenceTimeReached (p (.fence 8 [] 0 41000000000))),
      ran (exec .fenceTimeReached (p (.fence 8 [] 0 41000000001))), ran (exec .fenceTimeReached (p (.fence 1 [] 0 0))), ran (exec .fenceTimeReached two),
      ss 1 (size 1), ss 1 (size 1 - 1), cr .counterReadStream 0 1048575 64 mine, cr .counterReadStream 0 1048575 0 s, cr .counterReadStream 0 5 0 s,
      cr .counterReadStream 0 1048575 1 mine, cr .counterReadFunction 1 2 0 s, cr .counterReadFunction 1 7 0 s, cr .counterReadFunction 1 8 0 s] = true := by
  decide +kernel

/-- A castling of a kind in quadrant 1, at a step since a tick, by a command in flight; and the state it stands in. -/
def castle (kind unit old spare orig step since : Nat) : Castle := ⟨kind, 1, unit, old, spare, orig, step, since, some src7, false, false⟩
def castling (c : Castle) : State :=
  let s := inflight (.castle c.kind 1) (atTick 6250005 (hostS 0 up))
  { setReg 0x60000 0xF8000000 s with repair := { s.repair with castles := [c] } }
theorem witness_Castlings :
    let s := hostS 2 (setReg 0x60000 0xF8000000 up)
    let d (k unit sp now : Nat) := desc 2 (fld 16 0 unit + fld 16 16 sp + fld 16 27 now + fld 16 28 k)
    let go (i : Desc → Instr) (q k unit sp now : Nat) (s : State) := serve1 (i (d k unit sp now)) (specCastle q (d k unit sp now)) (d k unit sp now) s
    let has (k q : Nat) : State := { s with repair := { s.repair with castles := [⟨k, q, 9, 1, 0, 1, 1, 0, none, false, false⟩] } }
    let e (unit sp : Nat) (s : State) := go .castleEngine (unit / 48) 0 unit sp 0 s
    let none_ := (List.range 4).foldl (fun s k => setFld (engWear (156 + 48 + k)) 29 29 1 s) s
    let st (sp : Nat) (s : State) := go .castleSteward 0 1 0 sp 0 s
    let sl (sp now : Nat) (s : State) := go .castleSlice 3 2 511 sp now s
    let cal (b : BitVec 128) : State := { inMode .calibrate s with mode := { (inMode .calibrate s).mode with calSet := b } }
    let pc (sp : Nat) (s : State) := go .castlePch 3 3 (3 * 64 + 31) sp 0 s
    let r (i : Instr) (s : State) := ran (exec i s)
    let wear := setFld (engWear 207) 30 30 1 (setEng (ekey 3 51) (fun e => { e with logical := some 191 }) { s with engMap := [(191, 51)] })
    let again (a : CastleAsk) : State := { s with repair := { s.repair with again := [a] } }
    let eng_ (step since orig : Nat) := castling (castle 0 55 7 48 orig step since)
    let halt := setEng (ekey 1 7) (fun e => { e with halted := true }) (eng_ 1 5 7)
    let stw (step : Nat) : State := castling { castle 1 0 0 1 0 step 5 with quadrant := 0 }
    let com (k step : Nat) := castling (castle k 55 7 1 7 step 5)
    let home : State := castling { castle 1 0 1 0 0 7 5 with quadrant := 0 }
    let last := (List.range 4).foldl (fun s k => setFld (engWear (100 + k)) 29 29 1 s) (castling (castle 0 55 48 7 7 7 5))
    let full (s : State) : State := { s with repair := { s.repair with entries := List.replicate 512 0x10000000 } }
    let warned (k : Nat) (s : State) : State := { s with repair := { s.repair with warned := some k } }
    let susp : State := castling { castle 3 70 6 0 6 2 5 with suspended := true }
    let rc (n : Nat) (s : State) := let d := desc 2 (fld 16 0 n)
      serve1 (.repairCommit d) { op := 0x62, group := some 5, objs := [⟨12, 0⟩], fields := [(16, 8, 0)] } d s
    let one : State := { s with repair := { s.repair with entries := [0x10000000] } }
    let burnt : State := { one with fuses := { one.fuses with repair := List.replicate 64 0 } }
    let wire (l : Bool) : State := { s with repair := { s.repair with map := if l then [BitVec.ofNat 32 (6 * 2 ^ 28 + 0xFFFFF * 256 + 31)] else [] } }
    allOf [e 192 255 s, e 191 0 s, e 191 255 s, e 191 15 s, e 191 255 (inMode .safe s), e 191 255 none_, decide (freeSpares 3 none_ = []), e 191 255 (has 0 3),
      (castleOf 0 3 (has 0 3)).isSome, st 255 s, st 254 s, st 255 (inMode .safe s), st 255 (setReg 0x60400 0x80000000 s), st 255 (has 1 0),
      sl 254 1 s, sl 255 0 s, sl 255 1 s, sl 255 0 (cal (BitVec.allOnes 128)), sl 255 0 (cal 1), sl 255 1 (setReg (sliceReg 3 7) 0x80000000 s),
      sl 255 1 (has 2 3), pc 254 s, pc 255 s, pc 7 s, pc 255 (inMode .safe s), pc 255 (setReg (pchReg 3) 0xC0000000 s), pc 255 (has 3 3), centralUp s,
      castleRuns 3 51 wear, decide (engOf 191 wear % 64 = 51), r (.castleAutoStart false 0 207) wear, r (.castleAutoStart false 4 0) (setReg 0x60000 0 s),
      r (.castleAutoStart false 1 208) (setFld (engWear 208) 30 30 1 s), st 255 (setFld (engWear 209) 29 29 1 s), r (.castleAutoStart false 3 0) s, decide (wearUnit 3 0 s = none), (autoStart ⟨1, 0, 0, none⟩ s).isSome, r (.castleAutoStart true 0 0) (again ⟨1, 0, 0, none⟩),
      r (.castleAutoStart true 4 0) s, r (.engineCastleFreeze 1 2 9) (eng_ 2 5 7), castleRuns 1 7 (eng_ 2 5 7), r (.engineCastleFreeze 1 2 9) halt,
      r (.engineCastleFreeze 1 2 9) (eng_ 3 5 7), r (.engineCastleResume 1) (eng_ 3 5 7), r (.engineCastleResume 1) (eng_ 6 5 7), r (.engineCastleResume 1) (eng_ 2 5 7),
      r (.engineCastleResume 1) (eng_ 7 5 7), r (.castleVerifyDone 1 true) (eng_ 7 6 7), r (.castleVerifyDone 1 true) (eng_ 7 5 7),
      r (.castleVerifyDone 1 true) (eng_ 7 5 48), r (.castleVerifyDone 1 false) (eng_ 7 5 7), r (.castleVerifyDone 1 true) (eng_ 8 5 7),
      r (.engineCastleFreeze 4 0 0) (stw 2), r (.engineCastleResume 4) (stw 6), r (.castleVerifyDone 4 true) (stw 7), r (.castleVerifyDone 4 false) (stw 7),
      r (.castleVerifyDone 4 true) home, r (.castleVerifyDone 4 false) home, r (.castleVerifyDone 1 false) last, decide (freeSpares 1 last = []), r (.repairMapCommit 0 1 true) (com 0 8),
      r (.repairMapCommit 0 1 false) (com 0 8), r (.repairMapCommit 0 1 true) (com 0 7), r (.repairMapCommit 0 1 true) (full (com 0 8)),
      r (.repairMapCommit 0 1 true) (warned 0 (com 0 8)), r (.repairMapCommit 3 1 true) (com 3 3), sliceUp (castle 2 55 7 1 7 3 5) (com 2 3),
      r (.repairMapCommit 2 1 true) (com 2 3), r (.pchEvacDone 1) (com 3 2), r (.pchEvacDone 1) susp, r (.bankCastleDone 1) (com 4 1),
      r (.wireCastle 3 0xFFFFF 31) (wire true), r (.wireCastle 3 0xFFFFF 31) (wire false), r (.wireCastle 3 0xFFFFF 31) (has 5 3), rc 0 s, rc 0 one, rc 0 burnt,
      rc 1 one, r .powerWarning s, r .powerWarning (warned 0 s), r .powerWarningClear (warned 5 (castling (castle 5 0 0 0 0 8 0))),
      r .powerWarningClear (warned 4 (castling (castle 5 0 0 0 0 8 0))), r .powerWarningClear s, r (.wearAverage []) s, slotMeasures 209 s,
      r (.wearAverage [.slot 209 65535]) s, slotMeasures 207 s, r (.wearAverage [.store 207 501 false]) s, r (.wearAverage [.store 207 500 true]) s,
      r (.wearAverage [.bank 305 65536 true]) s, r (.wearAverage [.wire 81]) s, r (.wearAverage [.wire 80]) s, ! quadGated 3 s, r (.laneEyeMeasure 543 0) s, r (.laneEyeMeasure 543 255) s] = true := by decide +kernel
theorem witness_PaceLoop :
    let s := hostS 0 up
    let due := setReg 0x50000 0x80000064 (atTick 62500 s)
    let rl (e : Option Int) := setRail 4 (fun x => { x with exp := e }) (setReg (railBase 4 + 0x14) 0x4001 (setReg (railBase 4) (900 * 2 ^ 16 + 600) s))
    let bus : List TwTry := List.replicate 6 (.done 0)
    let fast := setReg (fastBase 0) 0x80000000 s
    let loop (m : Mode) (mv r : Nat) : State := setRail r (fun x => { x with exp := some (-9) }) (setReg (railBase r + 0xC) (mv * 2 ^ 16) (setReg (railBase r + 0x14) 0x4001
      (setReg (railBase r) (2 ^ 31 + 900 * 2 ^ 16 + 600) (setReg 0x50000 0x80000064 (inMode m s)))))
    allOf [paceEn due, decide (due.pace.last + 625 * rfld 0x50000 15 0 due = due.ticks), ran (exec (.pacePeriod 31 []) due), ran (exec (.pacePeriod 0 bus) s),
      decide (railDecide 700 3 5001 5 2 false false = (720, 0, some 0)), decide (railDecide 700 3 1999 5 2 false false = (690, 0, some 1)),
      decide (railDecide 700 2 1999 5 2 false false = (700, 3, none)), decide (railDecide 700 2 5000 5 2 false false = (700, 0, none)),
      decide ((railBounds 3 s).2 = railVmax 3 s), anyFast fast, decide (railFloor 4 650 fast = 700), decide (700 ≤ (railBounds 4 fast).1),
      decide (railCur 4 (railMode (loop .safe 699 4) 4) = 700), decide (railMode (loop .safe 700 4) 4 = loop .safe 700 4), decide (railCur 3 (railMode (loop .vigil 601 3) 3) = 600),
      decide (railMode (loop .vigil 600 3) 3 = loop .vigil 600 3), decide (railMode (loop .acquire 601 3) 3 = loop .acquire 601 3), writesOk (.fn 0) 0x50000 0x80000064 s, ran (exec (.paceEnable (.fn 0) 0x80000064 bus) s),
      writesOk (.fn 0) 0x50000 0x80000065 due, ran (exec (.paceEnable (.fn 0) 0x80000065 bus) due), writesOk (.fn 0) (railBase 4 + 8) 650 (rl none),
      ran (exec (.railSet (.fn 0) 4 650 bus) (rl none)), (railTrans 4 0x21 (some (linOf (-9) 650)) bus (rl (some (-9)))).1.isSome,
      ran (exec (.railSet (.fn 0) 4 650 bus) (rl (some (-9)))), (railTrans 4 0x21 (some (linOf (-9) 650)) (List.replicate 9 .nack) (rl (some (-9)))).1.isNone,
      ran (exec (.railSet (.fn 0) 4 650 (List.replicate 9 .nack)) (rl (some (-9))))] = true := by decide +kernel
theorem witness_FlashAndFirmware :
    let s := setReg 0x40100 0x2000000 (setReg 0x40104 (25 * 2 ^ 24 + 8 * 2 ^ 16) (setReg 0x40108 0x20520000 (setReg 0x4010C (5 * 2 ^ 20 + 6400)
      (atTick 6250000000 (hostS 2 up)))))
    let jobs (j : List FlashJob) (w : Option Nat) : State := { s with flash := { s.flash with jobs := j, wip := w } }
    let raw (s : State) : State := setSpi 0 (fun x => { x with xfer := some ⟨0, 8, false, true, true, 5⟩ }) s
    let waits (s : State) : State := setSpi 0 (fun x => { x with waits := some 0xF0000000 }) (setReg (spiBase 0) 0x80000000 s)
    let soon (s : State) : State := { s with flash := { s.flash with polled := 6249993751 } }
    let own : FlashJob := ⟨.erase, [.erase 0 0x1100000 4096], none⟩
    let pr : FlashJob := ⟨.write, [.program 1 5 [1, 2]], none⟩
    let stg : FlashJob := ⟨.stage 1 600, [.erase 0 0x800000 4096, .program 0 0x800000 [1]], some src7⟩
    let warned (s : State) : State := { s with repair := { s.repair with warned := some 5 } }
    let l : List Byte := [1, 2, 3]
    let wr (cs off n : Nat) (s : State) := let d := desc 2 (fld 16 0 cs + fld 20 0 off + fld 24 0 n)
      serve1 (.flashWrite d (some l)) { op := 0x63, group := some 5, objs := [⟨13, cs⟩], dataCrc := crc32c [1, 2, 3], wait := .flash
                                        fields := [(16, 1, 0), (20, 31, 0), (24, 31, 0), (32, 63, 0)] } d s
    let er (cs off size : Nat) (s : State) := let d := desc 2 (fld 16 0 cs + fld 16 8 size + fld 20 0 off)
      serve1 (.flashErase d) { op := 0x64, group := some 5, objs := [⟨13, cs⟩], wait := .flash, fields := [(16, 9, 8), (16, 1, 0), (20, 31, 0)] } d s
    let fw (n : Nat) (s : State) := let d := desc 2 (fld 24 0 n)
      serve1 (.fwStage d (some l)) { op := 0x65, group := some 5, objs := [⟨14, 0⟩], dataCrc := crc32c [1, 2, 3], wait := .flash
                                     fields := [(24, 31, 0), (32, 63, 0)] } d s
    let sw (n : Nat) (s : State) := [true, false].all (fun g => serve1 (if n = 0 then .fwSwitchNextBoot ⟨desc 2 n, g⟩ else .fwSwitchLive ⟨desc 2 n, g⟩) specFwSwitch (desc 2 n) s)
    let staged : State := { s with flash := { s.flash with staged := some 1 } }
    let r (i : Instr) (s : State) := ran (exec i s)
    let ms (j : FlashJob) (late : Nat) := jobs [j] (some (6250000000 + late - 625000 * (if j.work = .write then 5 else 400)))
    let dirty (k : Nat) : State := { s with flash := { s.flash with dirty := some k } }
    let ep (s : State) : State := { s with flash := { s.flash with epochWait := true } }
    let all := 2 ^ 25
    allOf [wr 0 0x1100000 1 s, wr 3 (all - 3) 3 s, wr 0 0x10FFFFF 1 s, wr 3 (all - 3) 4 s, wr 3 0 0 s, wr 3 0 3 (jobs [pr] none),
      decide (rfld 0x40104 31 24 s = 25), er 0 0x1100000 0 s, er 0 0x10FF000 0 s, er 3 (all - 4096) 0 s, er 3 1 0 s, er 3 0 1 s, er 3 0 2 s, er 3 0 0 (jobs [pr] none),
      fw 575 s, fw 576 s, fw 6291968 s, fw 6291969 s, fw 576 (jobs [stg] none), sw 0 s, sw 1 s, sw 0 staged, sw 1 staged, centralUp s,
      r .flashPageFlush (jobs [pr] none), r .flashPageFlush (warned (jobs [pr] none)), r .flashPageFlush (jobs [pr] (some 5)),
      r .flashPageFlush (raw (jobs [pr] none)), r (.flashStatusPoll true) (soon (jobs [pr] (some 5))),
      decide (flashBegin (raw (jobs [own] none)) = flashShow (raw (jobs [own] none))), (flashBegin (jobs [own] none)).flash.wip.isSome, (spi 0 (flashFree (waits (jobs [own] none)))).xfer.isSome,
      (flashFree (jobs [own] none)).flash.wip.isSome, r (.flashStatusPoll false) (jobs [own] (some 5)), r (.flashStatusPoll true) (jobs [pr] (some 5)), r (.flashStatusPoll false) (jobs [pr] (some 5)), r (.flashStatusPoll false) (jobs [stg] (some 5)),
      r (.flashStatusPoll false) (inflight .flash (jobs [{ pr with src := some src7 }] (some 5))),
      r (.flashStatusPoll false) (inflight .flash (jobs [{ stg with steps := [.erase 0 0x800000 4096] }] (some 5))), r .flashOpTimeout (ms pr 0),
      r .flashOpTimeout (ms pr 1), r .flashOpTimeout (ms stg 0), r .flashOpTimeout (ms stg 1), r (.configRecordRewrite true) (warned (dirty 0)),
      r (.configRecordRewrite true) (dirty 0), r (.configRecordRewrite false) (dirty 0), r (.configRecordRewrite true) (dirty 1), r (.configRecordRewrite true) s,
      r (.configRecordRewrite true) (ep s), r (.configRecordRewrite false) (ep s), r (.configRecordRewrite true) (ep (setReg 0x40104 0x18080000 s))] = true := by
  decide +kernel
/-- A device whose reset state is a given one. -/
def inReset (f : RstSt → RstSt) (s : State) : State := { s with rst := f s.rst }

theorem witness_ResetsAndBringUp :
    let s := inReset (fun r => { r with powered := true }) (atTick 10000000000 up)
    let cur (c : Reset) := inReset (fun r => { r with cur := some c }) s
    let rel (h : Option HoldBy) (todo : List Nat) (since : Nat) : State := cur ⟨1, 0, 2, h, todo, since, 5⟩
    let all := domains 1 0
    let dark := inReset (fun r => { r with powered := false }) s
    let wdog (n : Nat) := inReset (fun r => { r with wdogOn := true, wdogFrom := n }) s
    let low := inReset (fun r => { r with sysrstLow := true, perstLow := true }) s
    let r (i : Instr) (s : State) := ran (exec i s)
    let gap := 625 * 100
    let step : Instr := .bringupReleaseStep none []
    allOf [r .brownOut s, r .hotReset { (hostS 0 s) with host := { (hostS 0 s).host with linkUp := true } }, (hostS 0 s).host.linkUp,
      decide (filterUs s = 10), r (.sysrstAssert 10) s, r (.perstAssert 8) s, r (.perstAssert 9) s,
      r .brownOut dark, r (.sysrstAssert 10) dark, r .watchdogExpire (wdog (10000000000 - 625000000)),
      r .watchdogExpire (wdog (10000000001 - 625000000)), writesOk .steward 0x1008 0x10000000 s, writesOk .steward 0x1008 0x20000000 s,
      writesOk .steward 0x1008 (BitVec.ofNat 32 (0x30000000 + 3)) s, writesOk .steward 0x1008 (BitVec.ofNat 32 (0x40000000 + 63)) s,
      contained 3 2 1 0, ! contained 3 2 2 0, contained 4 49 3 2, ! contained 2 3 3 3,
      r .powerOnReset (cur ⟨0, 0, 0, some .power, domains 0 0, 7, 7⟩), r .powerOnReset (rel none all 7), r (.sysrstRelease 9) (rel (some .sysrst) all 7),
      r (.sysrstRelease 10) (rel (some .sysrst) all 7), r (.perstRelease 10) (rel (some .perst) all 7), r (.perstRelease 10) (rel (some .sysrst) all 7),
      decide ((1 : Nat) ≤ mapLevel 1 5 false low), decide ((1 : Nat) ≤ mapLevel 2 4 false low),
      r step (rel (some .minimum) all (10000000000 - 6250)), r step (rel (some .minimum) all (10000000001 - 6250)), r step (rel (some .perst) all 7),
      r step (inReset (fun r => { r with bootFail := true }) (rel none [3] 7)), r step (rel none [] 7), decide (s.fuses.rstTiming / 256 % 4096 = 0),
      r step (rel none [5, 6] (10000000001 - gap)), r step (rel none [5, 6] (10000000000 - gap)), r step (rel none [11] (10000000000 - gap)), r step (rel none all 10000000000)] = true := by
  decide +kernel
/-- The temperatures at which the trip and its release take their two ways: the trip's own value is open. -/
theorem witness_ResetsAndBringUp_thermal :
    let trip := (Config.tripTemp : Int)
    (trip ≤ trip) ∧ trip - 10 < trip - 9 ∧ trip - 10 ≤ trip - 10 ∧ (inReset (fun r => { r with powered := true }) up).rst.powered = true := by
  refine ⟨Int.le_refl _, by omega, Int.le_refl _, by decide +kernel⟩
/-- At reset every pin's block is not yet configured. -/
theorem witness_ResetsAndBringUp_pins :
    let s := State.reset
    s.rst.powered = false ∧ bit (reg (spiBase 1) s) 31 = false ∧ bit (reg 0x44004 s) 8 = false ∧ bit (reg (trigOutBase 0) s) 31 = false
      ∧ bit (reg (synBase 0) s) 31 = false ∧ bit (reg 0x12400 s) 31 = false ∧ portsUp 0 s = false ∧ s.mode.current = .bringup := by
  decide +kernel
theorem witness_SerialPorts :
    let base := spiBase 1
    let s := atTick 10000 (hostS 0 up)
    let c (ctl len : Nat) (f : SpiSt → SpiSt) : State := setSpi 1 f (setReg (base + 8) len (setReg base ctl s))
    let on := c 0x80000000 68 id
    let busy0 : State := setReg (spiBase 0) 0x80000000 { s with flash := { s.flash with wip := some 5 } }
    let who : Requester := .steward
    let w : Requester → Word → State → Bool := fun q v s => writesOk q (base + 0x10) v s
    let xf (left : Nat) (rx tx : Bool) (stop : Nat) (l : List Nat) (full : Nat) : State := c 0x80000000 68 (fun p => { p with
      tx := l, rx := List.replicate full ⟨0, false, false, 32⟩, xfer := some ⟨0, left, true, rx, tx, stop⟩ })
    let can (s : State) (x : SpiXfer) : Nat :=
      let words := (x.left + 31) / 32
      min words (min (if x.txEn then (spi 1 s).tx.length else words) (if x.rxEn then 64 - (spi 1 s).rx.length else words))
    let has (s : State) (k : Nat) : Bool := match (spi 1 s).xfer with | some x => can s x == k | none => false
    let t (f : SpiSt → SpiSt) : State := c 0xC0000000 16 f
    let sel (rx : List SpiWord) (tx : List Nat) : State := t (fun p => { p with selected := true, rx := rx, tx := tx })
    let r (i : Instr) (s : State) := ran (exec i s)
    let done : Instr := .spiTransferDone 1 5
    let more : Instr := .spiFifoResume 1 5
    let head (code n : Nat) : List Nat := [code, n]
    let fr (l : List Nat) : State := setSpi 1 (fun p => { p with frame := l }) s
    let boot (s : State) : State := inReset (fun r => { r with powered := true }) { s with mode := { s.mode with current := .bringup } }
    allOf [w who 0x70000000 on, r (.spiTransfer who 1 0x70000000) on, w who 0xF0000000 on, spiEn 1 on, ! spiTarget 1 on, r (.spiTransfer who 1 0xF0000000) on, r (.spiTransfer who 0 0xF0000000) busy0, ! spiEn 1 s,
      writesOk who (base + 0x18) 0xFFFFFFFF on, r (.spiTxPush who 1 7) (c 0x80000000 68 (fun p => { p with tx := List.replicate 64 0 })), r (.spiTxPush who 1 7) on,
      writesOk who base 0x06000000 on, r (.spiTxFlush who 1 0x86000000) on, r (.spiRxFlush who 1 0x82000000) on, r (.spiDisable who 1 0) on, r (.spiDisable who 1 0x80000000) on,
      (ofsFor who (base + 0x1C)).isSome, reaches who s, ! blockHeld (base + 0x1C) s, decide (mfind s.rdLatch (latchAt who (base + 0x1C)) = none),
      r (.spiRxPop who 1) (c 0x80000000 68 (fun p => { p with rx := [⟨0x1234ABCD, true, true, 63⟩] })), r (.spiRxPop who 1) on,
      r (.spiRxPop who 1) (c 0x80000000 68 (fun p => { p with rx := [⟨1, true, true, 1⟩], flushed := true })), r done s, has (xf 68 true true 10000 [1, 2, 3] 0) 3,
      r done (xf 68 true true 10000 [1, 2, 3] 0), r done (xf 68 true true 10001 [1, 2, 3] 0), has (xf 68 true true 0 [1] 0) 1, r done (xf 68 true true 0 [1] 0),
      r more (xf 68 true true 0 [1] 0), has (xf 68 true false 0 [] 64) 0, r more (xf 68 true false 0 [] 64), has (xf 33 true false 0 [] 63) 1,
      tgtOn (t id), ! tgtOn s, r (.spiTargetSelect true 3) (t id), r (.spiTargetSelect true 3) s, tgtBoot (boot s), ! tgtBoot (sel [] []), 
      r (.spiTargetWord 0x12345 3) (boot s), r (.spiTargetWord 0x12345 3) (sel [] [5]),
      r (.spiTargetWord 0x12345 0) (sel (List.replicate 64 ⟨0, false, false, 16⟩) []), r (.spiTargetWord 5 0) (t id), r (.spiTargetDeselect 16 7 0) (sel [] []),
      r (.spiTargetDeselect 15 7 0) (sel [] [5]), r (.spiTargetDeselect 31 7 1) (sel [] []), r (.spiTargetDeselect 0 7 0) (sel [⟨3, false, false, 16⟩] []),
      r (.spiTargetDeselect 0 7 0) (t id), decide (frameRead 1 (sel [⟨3, false, true, 16⟩] []) ≠ sel [⟨3, false, true, 16⟩] []), (spi 1 (frameByte (fr [1]) 0)).frame == [1, 0],
      (spi 1 (frameByte (fr [1, 0]) (pec (head 1 0)))).frame == [], decide (frameEnd (fr [0x10]) ≠ fr []), decide (frameEnd (fr [0x20]) ≠ fr []),
      decide (0x77 ∉ mgmtCodes), decide (0x20 ∈ mgmtCodes), decide ((spi 1 (frameReply .ok [7] (t (fun p => { p with tx := List.replicate 60 0 })))).tx.length = 62),
      decide ((spi 1 (frameReply .ok [] (c 0xC0000000 8 (fun p => { p with tx := List.replicate 61 0 })))).tx.length = 64)] = true := by
  decide +kernel
theorem witness_TwoWire :
    let base := setReg 0x42000 0x80000000 (setReg 0x42004 0xFFD0B0CC (setReg 0x42008 0x7F (inReset (fun r => { r with powered := true }) (atTick 10000000000 (hostS 0 up)))))
    let tw (aw : Bool) (st : Option (Nat × Bool)) (act : Bool) (idle : Nat) (stuck : Bool) (want : Bool := false) (k : Nat := 0) (s : State := base) : State :=
      { s with tw := ⟨aw, st, act, 0x4C, idle, k, want, stuck⟩ }
    let boot (s : State) : State := { s with mode := { s.mode with current := .bringup } }
    let now := 10000000000
    let act := tw true none true 0 false
    let mode (m : Nat) : State := setReg 0x42000 (2 ^ 31 + m * 2 ^ 28) act
    let hit (a : Nat) (s : State) : Bool := s.rst.powered && ! domHeld 1 s && tw0Matches a s && s.tw.stretch.isNone
    let r (i : Instr) (s : State) := ran (exec i s)
    let most := 625 * rfld 0x42010 14 0 base
    let good (code : Nat) (w : Word) : Byte := BitVec.ofNat 8 (pec ([2 * 0x4C, code] ++ leBytes 4 w.toNat))
    let attn (c v : Nat) (s : State) : State := setReg 0x42018 c (setReg 0x42014 v s)
    let rest := tw true none false (now - 62500) false true
    let back (k : Nat) := attn 1 0x80010001 (tw true none false 0 false false k)
    allOf [! tw0Matches 7 base, ! tw0Matches 0x78 base, tw0Matches 0x4C (boot (setReg 0x3050 5 base)), tw0Matches 0x77 (boot (setReg 0x3050 0x77 base)), tw0Matches 0x4C base,
      tw0Matches 0x30 base, tw0Matches 0x4F (setReg 0x42008 0x80000070 base), ! tw0Matches 0x5F (setReg 0x42008 0x80000070 base), ! tw0Matches 0x4C (setReg 0x42000 0 base),
      hit 0x4C (tw true none false 0 false), r (.tw0AddressMatch 0x4C) (tw true none false 0 false), r (.tw0AddressMatch 0x4C) (boot (tw true none false 0 false)),
      r (.tw0AddressMatch 0x4C) (tw false none false 0 false), r (.tw0AddressMatch 0x4C) (tw true none false (now - 62500) true), r (.tw0AddressMatch 0x4C) (tw true none false (now - 62499) true),
      r .tw0Sleep (setReg 0x42000 0xC0000000 (tw true none false (now - 625000) false)), r .tw0Sleep (setReg 0x42000 0xC0000000 (tw true none false (now - 624999) false)),
      r (.tw0StretchExpire true) (tw true (some (now - most, true)) false 0 false), r (.tw0StretchExpire true) (tw true (some (now + 1 - most, false)) false 0 false),
      r (.tw0StretchExpire false) act, r (.tw0StretchExpire true) (tw true none false 0 false), centralUp act, r .tw0Id act, r .tw0Id (boot act), r .tw0Rails (mode 1),
      r .tw0Result (tw true (some (now - 1, true)) false 0 false), r .tw0Temp (tw true none false 0 false), r (.tw0RegRead 0x20) (mode 2), r (.tw0RegRead 0x123) act,
      r (.tw0Reset 0x3CC30001 none) act, r (.tw0Safe 0x45464153 none) (mode 2), r (.tw0AttnClr 0x85 (some 0)) act, r (.tw0AttnClr 0x85 (some (good 0x15 0x85))) (mode 1),
      r (.tw0Reset 0x3CC30303 (some (good 0x10 0x3CC30303))) (mode 2), r (.tw0Reset 0x3CC30303 (some (good 0x10 0x3CC30303 + 1))) (mode 2),
      r (.tw0InvalidTransfer 0x77 false) act, r (.tw0InvalidTransfer 0x20 true) act, r (.tw0InvalidTransfer 0x15 false) act, r (.tw0InvalidTransfer 0x0F false) act, r (.tw0InvalidTransfer 0x0F true) base,
      (mgmtWrite 0x11 0x45464153 base).1 == .ok, (mgmtWrite 0x15 256 base).1 == .range, writesOk .steward 0x42018 0xFF base, r (.attnCauseClear .steward 0xFF) (attn 0x8081 0 base),
      r (.attnRequest false) (attn 1 0x80010001 rest), r (.attnRequest true) (attn 1 0x80010001 rest), r (.attnRequest true) (attn 2 0x80010001 rest), r .attnRepeat (back (now - 62500000)),
      r .attnRepeat (back (now - 62499999)), (attnRaise 7 (attn 0 0x80000080 base)).tw.attnWant, ! (attnRaise 7 (attn 0x80 0x80000080 base)).tw.attnWant, ! centralUp State.reset,
      r (.twStuck false false none none) State.reset, r (.twStuck false false (some 0x20) none) act, r (.twStuck false true none none) act, r (.twStuck true true none none) act,
      r (.twStuck true false none none) act, r (.twStuck true false none (some 8)) act] = true := by decide +kernel
theorem witness_Timers :
    let base := tmrBase 5
    let t (ctl st : Nat) (x : TmrSt) (s : State) : State := setTmr 5 (fun _ => x) (setReg base ctl (setReg (base + 0x28) st (setReg (base + 4) 0x10000 s)))
    let s := hostS 0 up
    let x (count cmp due : Nat) (armed : Bool := false) : TmrSt := ⟨0, count, cmp, due, 0, armed⟩
    let cmpAt (lo : Nat) (valid : Bool) (s : State) : State :=
      { (setReg (base + 0x10) lo (setReg (base + 0x14) 0 s)) with time := { s.time with tbs := mput s.time.tbs 0 { tb 0 s with valid := valid } } }
    let slept (s : State) : State := { s with tmr := { s.tmr with slept := some 5 } }
    let r (i : Instr) (s : State) := ran (exec i s)
    let pin2 (k : Nat) : State := setTmr 6 (fun _ => { x 0 3 1 with dueAt := k }) (setReg (tmrBase 6) 0x80008000 (t 0x80008000 0 { x 5 4 1 with dueAt := 6 } s))
    let en : Instr := .timerEnable .steward 5 0xC0000000
    let left (s : State) : Int := sdiff (reg (base + 0x10) s) (tbNs 0 s % 2 ^ 32)
    let m := 2147483648
    let lit (o : Nat) (w : Option Word) (s : State) := r (if o = 8 then .timerReloadCommit .steward 5 w 7 else .timerCmpCommit .steward 5 w 7) s
    allOf [decide (prescale 0 0x10000 1 = (1, 0)), decide (prescale 0xFFFF 0x10001 3 = (3, 0xFFFC)), decide ((takePlain (x 5 4 9)).due = 9), decide ((takePlain (x 9 4 9)).count = 5),
      decide ((takePlain (x 3 9 9)).count = 0), decide (tmrFlag 5 31 (t 0 (2 ^ 31) (x 0 0 0) s) = t 0 (2 ^ 31) (x 0 0 0) s), bit (reg (base + 0x28) (tmrFlag 5 31 (t 0x80000 0 (x 0 0 0) s))) 31,
      decide (tmrPinDo 5 (pinAct 1) (t 0x70000 0 (x 0 0 0) s) = t 0x70000 0 (x 0 0 0) s),
      decide (tmrPinDo 5 (pinAct 3) (setReg 0x44004 0xFF00 (t 0x78000 0 (x 0 0 0) s)) ≠ setReg 0x44004 0xFF00 (t 0x78000 0 (x 0 0 0) s)), decide ((tmr 5 (tmrEdges 5 3 (t 0x80000000 0 (x 9 4 0) s))).count = 6),
      writesOk .steward base 0xC0000000 s, r en (t 0x80000000 0 (x 0 0 0) s), r en (slept s), decide (left (cmpAt m true s) = -2147483648), r en (cmpAt m true s), decide (left (cmpAt 0 true s) = 0),
      r en (cmpAt 0 true s), r en (cmpAt 1 false s), decide (left (cmpAt 1 true s) = 1), r en (cmpAt 1 true s), decide (left (cmpAt (m - 1) true s) = 2147483647), r (.timerEnable .steward 5 0x80000000) s,
      r (.timerMatch 5) (t 0x80000000 0 (x 1 0 1) s), r (.timerMatch 5) (t 0x80000000 0 (x 2 0 1) s), r (.timerReload 5) (t 0x80000000 0 (x 0 3 1) s), r (.timerReload 5) (t 0xA0000000 0 (x 0 3 1) s),
      r (.timerMatch 5) (pin2 7), r (.timerMatch 5) (pin2 6), r (.timerMatch 5) (pin2 5), tmrTurn 5 (pin2 7), tmrTurn 5 (pin2 6), ! tmrTurn 5 (pin2 5),
      r (.timerReload 5) (t 0x80000000 0 (x 0 3 0) s), r (.timerReload 5) (slept (t 0x80000000 0 (x 0 3 1) s)), r (.timerCapture 7 true) (t 0x400 0 (x 9 3 0) s), r (.timerCapture 7 false) (t 0x420 (2 ^ 28) (x 9 3 0) s),
      bit (reg (base + 0x28) (tmrCapture 7 false (t 0x420 (2 ^ 28) (x 9 3 0) s) 5)) 27, bit (reg (base + 0x28) (tmrCapture 7 true (t 0x440 0 (x 9 3 0) s) 5)) 28, r (.timerCapture 0 true) (slept s), r (.timerCapture 0 true) State.reset,
      r (.timerTimeFire 5) (t 0xC0000000 0 (x 9 3 0 true) (cmpAt 0 true s)), r (.timerTimeFire 5) (t 0xC0000000 0 (x 9 3 0 true) (cmpAt 1 true s)), writesOk .steward (base + 8) 7 s, lit 8 none s,
      decide (heldHi .steward (base + 8) (holdHi .steward (base + 0xC) 9 s) = some 9), lit 8 none (holdHi .steward (base + 0xC) 9 s), writesOk .steward (base + 0x14) 0xFFFF s,
      writesOk .steward (base + 0x10) 7 (holdHi .steward (base + 0x14) 0xFFFF s), lit 0x10 (some 0xFFFF) s, writesOk .steward 0x44004 0xFFFF s, r (.timerPinLevel .steward 0xFFFF) (setReg 0x44004 0x0F0F s),
      decide ((tmrSleepUpdate (setReg 0x44000 0x80000000 { s with mode := { s.mode with current := .vigil } })).tmr.slept = some s.ticks), decide (tmrSleepUpdate s = s)] = true := by decide +kernel
theorem witness_RegisterRequests :
    let s := setReg 0x20 0x40000000 (hostS 3 (hostS 0 up))
    let rw (who : Requester) (bar2 : Bool) (o : BitVec 24) (w : WriteShape) (s : State := s) := ran (exec (.registerWrite who bar2 o w []) s)
    let rd (who : Requester) (bar2 : Bool) (o : BitVec 24) (n : Fin 1025) := ran (exec (.loReadLatch who bar2 o n) s)
    let full (v : Word) : WriteShape := .dw 15 v
    let why (who : Requester) (a v : Nat) (s : State) := lowest (reasonsDw who a v s)
    let kind (a : Nat) (p : Reg → Bool) : Bool := match regAt a with | some (x, _) => p x.reg | none => false
    let two (a : Nat) : Bool := match regAt a with | some (x, _) => pairAt x | none => false
    let latch := setLatch .steward 0x2C 77 s
    let key := ekey 1 7
    let db (f : EngSt → EngSt) : State := setEng key f (hostS 0 up)
    let halt := db (fun e => { e with halted := true })
    let go := setEng (ekey 2 5) (fun e => { e with halted := true }) (atChord 1 6 0 0 [] [] [] (hostS 0 up))
    let dg (a : Nat) (s : State) : State := setReg (dbgCtl key + 0x14) a s
    let dw (a : Nat) := ran (exec (.debugWrite .steward 1 7 (some 0x12) 0x34) (dg a (setTask key 3 (fun t => { t with sStk := [wInt 1, wInt 2], mStk := [wInt 1] }) halt)))
    allOf [rw .tw0 false 0 (full 0), ! hostUp 0 State.reset, rw (.fn 0) false 0 (full 0) State.reset, rw .steward true 0 (full 0), hostUp 3 s, rw (.fn 0) true 0 (full 0), rw (.fn 0) true 0x1000 (full 0), rw (.fn 0) true 0xFFFC (full 0),
      rw (.fn 0) true 0xFFC (full 0), rw (.fn 3) true 0x1000 (full 0), rw (.fn 0) true 0 (.pair 1 2), rw (.fn 0) true 0x2000 (.dw 14 2), rw (.fn 0) true 0x10000 (.long 2), (placeOf (.fn 3) 0x10000).isNone,
      rw (.fn 3) false 0x10003 (full 0), rw (.fn 0) false 0xFFFFFF (full 0), rw (.fn 3) false 0x10000 (.pair 0 0), decide (placeOf .steward 0x20 = some 0x20), decide (why .steward 0x20 0xC0000000 s = none), rw .steward false 0x20 (full 0xC0000000),
      decide (why .steward 0x44004 0x10000 s ≠ none), rw .steward false 0x44007 (full 0x10000), rw .steward false 0x20 (.dw 7 1), rw .steward false 0x20 (.long 1), kind 0x44108 pairLo, kind 0x4410C pairHi,
      decide (why .steward 0x4410C 0xFFFF s = none), decide (why .steward 0x44108 5 (holdHi .steward 0x4410C 0xFFFF s) = none), rw .steward false 0x44108 (.pair 5 0xFFFF), decide (why .steward 0x4410C 0x10000 s ≠ none),
      rw .steward false 0x44108 (.pair 5 0x10000), kind 0x20 (fun r => ! pairLo r), ! two 0x20, rw .steward false 0x20 (.pair 5 5), lowest [6, 2, 5] == some 2, lowest [] == none,
      bit (reg 0x20 (logRefusal .steward true 0xFFFFFC 5 7 s)) 30, decide (reg (fnBase 3 + 0x24) (logRefusal (.fn 3) false 0x1234 5 1 s) = 0x1234), writesOk .steward 0x20 0xC0000000 s,
      ran (exec (.setupFaultClear .steward 0xC0000000) s), decide (journaled 0x44108 = none), kind 0x44110 pairLo, ran (exec (.loReadLatch (.fn 0) false 0 1) State.reset), rd (.fn 0) true 0 4, rd .steward true 0 1, rd .steward false 0x28 1024,
      decide (readDw .steward false 0x2C latch = (77, latch)), ! gapLogAt 0x2C, blockHeld 0x44000 (inReset (fun r => { r with cur := some ⟨1, 0, 2, none, [3], 0, 0⟩ }) s),
      kind 0x28 (fun r => latchesOf r == [4]), kind 0x24 (fun r => latchesOf r == []), ran (exec (.jtagRegacc 0x20 (some 0xC0000000)) s), ran (exec (.jtagRegacc 0x20 none) s),
      writesOk .steward (dbgCtl key) 0x80000000 halt, ran (exec (.debugResume .steward 1 7 0) halt), ran (exec (.debugResume .steward 1 7 0) (db id)), ran (exec (.debugHalt .steward 1 7 0x80000000) halt),
      ran (exec (.debugHalt .steward 1 7 0x80000000) (db id)), writesOk .steward (dbgCtl key) 0xC0000000 halt, ran (exec (.debugStep .steward 1 7 0xC0000000) (db id)), ran (exec (.debugStep .steward 1 7 0xC0000000) halt),
      writesOk .steward (dbgCtl (ekey 2 5)) 0xC0000000 go, (boundary (ekey 2 5) (setEng (ekey 2 5) (fun e => { e with halted := false }) go)).isSome, ran (exec (.debugStep .steward 2 5 0xC0000000) go),
      writesOk .steward (engBase 1 7 + 0x28) 0x12 halt, writesOk .steward (engBase 1 7 + 0x24) 0x34 (holdHi .steward (engBase 1 7 + 0x28) 0x12 halt), dw 0, dw 0x20000123, dw 0x33000001, dw 0x43000000,
      decide ((dbgAddr key (dg 0x20000123 halt)).1 = 2), decide (dbgAddr key (dg 0x33000001 halt) = (3, 3, 1)), decide (dbgAddr key (dg 0x43000000 halt) = (4, 3, 0))] = true := by decide +kernel
/-- FrontCommandRuns: a queue of two; an idle block. -/
theorem witness_FrontCommandRuns :
    let s := { up with pending := [.tw0Sleep, .brownOut] }
    (match step s with | .next t => decide (t.pending = [.brownOut]) | _ => false) = true
    ∧ (match step up with | .next t => decide (t.ticks = up.ticks + 1) | _ => false) = true := by decide +kernel
/-- EveryStepKeeps: a state in form that no run starts from, with a command in front and with none. -/
theorem witness_EveryStepKeeps :
    let s := setReg 0x44004 0xFF00 (bump faultCnt (hostS 0 up))
    allOf [regsWf s, cntsWf s, ran (step s), ran (step { s with pending := [.timerPinLevel .steward 0xFFFF] })] = true := by decide +kernel
/-- DescriptorLife: a ring that the device may not read, a held ring, a parameter block that failed, an accepted and a rejected descriptor. -/
theorem witness_DescriptorLife :
    let d := desc 3 (fld 16 0 5)
    let s := hostS 3 up
    let c : CmdSpec := { op := 0x31, fields := [(16, 63, 0)], objs := [⟨5, 3⟩], config := true }
    let own : State → Status := fun _ => .ok
    allOf [! canReach d up, canReach d s, canServe d s, ! canServe d (setFn 3 (fun x => { x with rings := mput x.rings (192 : Nat) { en := true, dev := 16, host := 0, shown := 1 } }) s),
      decide (judge c d own s = .ok), decide (judge c d (fun _ => .busy) s = .busy), decide (c.pb ≠ none), ownable ⟨5, 3⟩] = true := by decide +kernel
/-- JournalSync: with the window not yet full, just full and rolling. -/
theorem witness_JournalSync :
    let d := desc 3 0
    let c : CmdSpec := { op := 3, fields := [] }
    let s (h : Nat) : State := { hostS 3 up with jrnl := { (hostS 3 up).jrnl with head := h } }
    allOf ([0, 959, 960, 5000].map (fun h => canServe d (s h) && decide (judge c d (fun _ => .ok) (s h) = .ok) && ran (exec (.jrnlSync d) (s h)))) = true := by decide +kernel
/-- TimerFlags: each event with its flag down and up, the vector's way free. -/
theorem witness_TimerFlags :
    let base := tmrBase 5
    let t (ctl st : Nat) (x : TmrSt) : State := setTmr 5 (fun _ => x) (setReg base ctl (setReg (base + 0x28) st (setReg 0x44000 9 (setReg (msixBase 0 + 16 * 9 + 12) 0 (hostS 0 up)))))
    let x (count cmp due : Nat) : TmrSt := ⟨0, count, cmp, due, 0, true⟩
    let s := t 0x80080000 0 (x 5 4 1)
    let r (i : Instr) (s : State) := ran (exec i s)
    allOf [vecUsable 0 9 s, fnAwake 0 s, ! bit (reg (msixBase 0 + 16 * 9 + 12) s) 0, r (.timerMatch 5) s, r (.timerReload 5) (t 0xA0080000 (2 ^ 29) (x 0 4 1)),
      r (.timerCapture 7 true) (t 0x80440 (2 ^ 28) (x 0 4 1)), r (.timerTimeFire 5) (t 0xC0080000 0 (x 0 4 1)), decide (sdiff (reg (base + 0x10) s) (tbNs 0 s % 2 ^ 32) ≤ 0),
      bit (peek 0x44008 (t 0 (2 ^ 23) (x 0 0 0))) 5, bit (peek 0x44008 (t 0 (2 ^ 30) (x 0 0 0))) 5, ! bit (peek 0x44008 (t 0 (2 ^ 31) (x 0 0 0))) 5] = true := by decide +kernel
/-- UndecodedAddresses: the edges of spans, a gap inside one, a block in reset. -/
theorem witness_UndecodedAddresses :
    let s := hostS 3 (hostS 0 up)
    let held := inReset (fun r => { r with cur := some ⟨1, 0, 2, none, [3], 0, 0⟩ }) s
    let none_ (a : Nat) : Bool := (regAt a).isNone && ! gapLogAt a
    let at_ (who : Requester) (o : BitVec 24) (s : State) : Bool := reaches who s && (match placeOf who o.toNat with | some a => none_ a | none => false)
      && ran (exec (.loReadLatch who false o 1) s) && ran (exec (.registerWrite who false o (.dw 15 1) []) s)
    allOf [none_ 0x4000, none_ 0x16000, none_ 0x8C000, none_ 0x500000, none_ 0x120000, none_ 0x1FFFFC, none_ 0xFFFFFC, at_ (.fn 0) 0x1C s, at_ (.fn 3) 0x3C s,
      at_ .steward 0xFFFFFC s, at_ .regacc 0x44FFC s, at_ .regacc 0x44FFC held, blockHeld 0x44FFC held, ! blockHeld 0x44FFC s] = true := by decide +kernel

end Sys2Proof.Tests
end

section
/-! The frame of the block's answers to the host: what interrupts, ring entries, completions and journal entries leave unchanged while the
functions named exist. -/

namespace Sys2Proof.HostFrame

open Sys2Proof Sys2Proof.Machine

variable {s t u : State}

/-! ### Functions and rings after a write -/

theorem fn_setFn_same (f : Nat) (g : FnSt → FnSt) (s : State) : fn f (setFn f g s) = g (fn f s) := by simp [fn]

theorem fn_setFn_ne {f f' : Nat} (g : FnSt → FnSt) (s : State) (h : f' ≠ f) : fn f' (setFn f g s) = fn f' s := by
  simp [fn, mget_mmod_ne _ _ _ _ h]

theorem ring_setRing_same (f r : Nat) (g : RingSt → RingSt) (s : State) : ring f r (setRing f r g s) = g (ring f r s) := by
  simp [ring, setRing, fn_setFn_same]

theorem ring_setRing_ne {f f' r r' : Nat} (g : RingSt → RingSt) (s : State) (h : ¬ (f' = f ∧ r' = r)) :
    ring f' r' (setRing f r g s) = ring f' r' s := by
  by_cases hf : f' = f
  · subst hf
    simp only [ring, setRing, fn_setFn_same]
    exact mget_mmod_ne _ _ _ _ fun hr => h ⟨rfl, hr⟩
  · simp only [ring, setRing, fn_setFn_ne _ _ hf]

@[simp] theorem fn_setJrnl (f : Nat) (g : JrnlSt → JrnlSt) (s : State) : fn f (setJrnl g s) = fn f s := rfl
@[simp] theorem ring_setJrnl (f r : Nat) (g : JrnlSt → JrnlSt) (s : State) : ring f r (setJrnl g s) = ring f r s := rfl
@[simp] theorem ring_bump (f r a : Nat) (s : State) : ring f r (bump a s) = ring f r s := rfl
@[simp] theorem ring_emit (f r : Nat) (o : Output) (s : State) : ring f r (emit o s) = ring f r s := rfl

/-! ### Pending bits (R371) -/

theorem isPba_pbaBase {f k : Nat} (hf : f < 8) (hk : k < 64) : isPba (pbaBase f + k) = true := by
  simp only [isPba, List.any_eq_true, List.mem_range, decide_eq_true_eq]
  exact ⟨f, hf, by omega, by omega⟩

/-- The ring table, below the pending bits of the virtual functions and above the physical function's, holds none of them. -/
theorem isPba_ringBase {f slot k : Nat} (hf : f < 8) (hs : slot < 256) (hk : k < 16) : isPba (ringBase f slot + k) = false := by
  rw [isPba, List.any_eq_false]
  intro g hg
  rw [List.mem_range] at hg
  rw [decide_eq_true_eq]
  unfold ringBase pbaBase
  split <;> omega

theorem rfld_lt (a hi lo : Nat) (s : State) : rfld a hi lo s < 2 ^ (hi + 1 - lo) := Nat.mod_lt _ (Nat.two_pow_pos _)

/-! ### The rest of the block -/

theorem settledTo.refl (s : State) : settledTo s s := ⟨rfl, fun _ _ => rfl, fun _ _ => rfl⟩

theorem settledTo.trans (h : settledTo s t) (h' : settledTo t u) : settledTo s u := by
  obtain ⟨e, c, r⟩ := h
  obtain ⟨e', c', r'⟩ := h'
  refine ⟨e'.trans ?_, fun a ha => (c' a ha).trans (c a ha), fun a ha => (r' a ha).trans (r a ha)⟩
  rw [e]

theorem setJrnl_settled (g : JrnlSt → JrnlSt) (s : State) : settledTo s (setJrnl g s) := ⟨rfl, fun _ _ => rfl, fun _ _ => rfl⟩

theorem setFn_settled (f : Nat) (g : FnSt → FnSt) (s : State) : settledTo s (setFn f g s) := ⟨rfl, fun _ _ => rfl, fun _ _ => rfl⟩

theorem bump_fnCnt_settled (f i : Nat) (s : State) : settledTo s (bump (fnCnt f i) s) :=
  ⟨rfl, fun a ha => cnt_bump_ne s (by simp only [fnCnt]; omega), fun _ _ => rfl⟩

/-! ### Sending to the host -/

/-- What a ring slot's state is but for the status word last written. -/
def ringCore (r : RingSt) : RingSt := { r with shown := 0 }

section
variable {r r' : RingSt} (h : ringCore r = ringCore r')
include h
theorem en_of_ringCore : r.en = r'.en := (congrArg RingSt.en h :)
theorem stopped_of_ringCore : r.stopped = r'.stopped := (congrArg RingSt.stopped h :)
theorem host_of_ringCore : r.host = r'.host := (congrArg RingSt.host h :)
theorem dev_of_ringCore : r.dev = r'.dev := (congrArg RingSt.dev h :)
end

/-- What a function's state is but for its rings, its round robin and its wake request. -/
def fnCore (x : FnSt) : FnSt := { x with rings := [], turn := 0, wake := false }

section
variable {x y : FnSt} (h : fnCore x = fnCore y)
include h
theorem epoch_of_fnCore : x.epoch = y.epoch := (congrArg FnSt.epoch h :)
theorem cqWait_of_fnCore : x.cqWait = y.cqWait := (congrArg FnSt.cqWait h :)
theorem jrnlWait_of_fnCore : x.jrnlWait = y.jrnlWait := (congrArg FnSt.jrnlWait h :)
end

/-- From s to t the block only sent to the host, and moved on no ring but a slot. -/
structure Sends (slot : Nat) (s t : State) : Prop where
  settled : settledTo s t
  out : s.out <+: t.out
  jrnl : t.jrnl = s.jrnl
  fns : ∀ f, fnCore (fn f t) = fnCore (fn f s)
  rings : ∀ f r, r ≠ slot → ringCore (ring f r t) = ringCore (ring f r s)

namespace Sends

variable {slot : Nat}

theorem refl (s : State) : Sends slot s s := ⟨settledTo.refl s, List.prefix_refl _, rfl, fun _ => rfl, fun _ _ _ => rfl⟩

theorem trans (h : Sends slot s t) (h' : Sends slot t u) : Sends slot s u :=
  ⟨settledTo.trans h.settled h'.settled, h.out.trans h'.out, h'.jrnl.trans h.jrnl, fun f => (h'.fns f).trans (h.fns f),
    fun f r hr => (h'.rings f r hr).trans (h.rings f r hr)⟩

theorem emit (o : Output) (s : State) : Sends slot s (emit o s) :=
  ⟨⟨rfl, fun _ _ => rfl, fun _ _ => rfl⟩, List.prefix_append _ _, rfl, fun _ => rfl, fun _ _ _ => rfl⟩

theorem bump_fnCnt (f i : Nat) (s : State) : Sends slot s (bump (fnCnt f i) s) :=
  ⟨bump_fnCnt_settled f i s, List.prefix_refl _, rfl, fun _ => rfl, fun _ _ _ => rfl⟩

theorem setFn {f : Nat} {g : FnSt → FnSt} (hg : ∀ x, fnCore (g x) = fnCore x ∧ (g x).rings = x.rings) (s : State) :
    Sends slot s (setFn f g s) := by
  have hfn : ∀ f', fnCore (fn f' (Machine.setFn f g s)) = fnCore (fn f' s) ∧ (fn f' (Machine.setFn f g s)).rings = (fn f' s).rings := by
    intro f'
    by_cases h : f' = f
    · subst h; rw [fn_setFn_same]; exact hg _
    · rw [fn_setFn_ne _ _ h]; exact ⟨rfl, rfl⟩
  exact ⟨setFn_settled f g s, List.prefix_refl _, rfl, fun f' => (hfn f').1, fun f' r _ => by simp only [ring, (hfn f').2]⟩

theorem setRing {f r : Nat} {g : RingSt → RingSt} (hg : r ≠ slot → ∀ x, ringCore (g x) = ringCore x) (s : State) :
    Sends slot s (setRing f r g s) := by
  refine ⟨setFn_settled f _ s, List.prefix_refl _, rfl, fun f' => ?_, fun f' r' hr => ?_⟩
  · by_cases h : f' = f
    · subst h; rw [Machine.setRing, fn_setFn_same]; rfl
    · rw [Machine.setRing, fn_setFn_ne _ _ h]
  · by_cases h : f' = f ∧ r' = r
    · obtain ⟨rfl, rfl⟩ := h
      rw [ring_setRing_same, hg hr]
    · rw [ring_setRing_ne _ _ h]

theorem nextTurn (f r : Nat) (s : State) : Sends slot s (nextTurn f r s) := by
  have h1 : Sends slot s (Machine.setFn f (fun x => { x with turn := (r + 1) % 64 }) s) := setFn (by intro; exact ⟨rfl, rfl⟩) s
  exact h1.trans ⟨⟨rfl, fun _ _ => rfl, fun _ _ => rfl⟩, List.prefix_refl _, rfl, fun _ => rfl, fun _ _ _ => rfl⟩

/-! ### Interrupts (R369, R371) -/

theorem setPba {f v : Nat} (hf : f < 8) (hv : v < 256) (b : Bool) (s : State) : Sends slot s (setPba f v b s) := by
  refine ⟨⟨rfl, fun _ _ => rfl, fun a ha => reg_setFld_ne _ _ _ _ ?_⟩, List.prefix_refl _, rfl, fun _ => rfl, fun _ _ _ => rfl⟩
  rintro rfl
  rw [isPba_pbaBase hf (by omega)] at ha
  cases ha

theorem wakeFn (f : Nat) (s : State) : Sends slot s (wakeFn f s) := by
  unfold Machine.wakeFn
  split
  · exact refl s
  · exact (setFn (by intro; exact ⟨rfl, rfl⟩) s).trans (emit _ _)

theorem sendVec {f v : Nat} (hf : f < 8) (hv : v < 256) (s : State) : Sends slot s (sendVec f v s) := by
  unfold Machine.sendVec
  split
  · split
    · split
      · exact setPba hf hv _ s
      · exact emit _ s
    · exact (setPba hf hv _ s).trans (wakeFn f _)
  · exact refl s

theorem errVec {f : Nat} (hf : f < 8) (s : State) : Sends slot s (errVec f s) := sendVec hf (rfld_lt _ 31 24 s) s

/-! ### Rings (R355, R358, R370) -/

theorem showRing (f r st : Nat) (s : State) : Sends slot s (showRing f r st s) := by
  unfold Machine.showRing
  split
  · exact refl s
  · exact (setRing (by intros; rfl) s).trans (emit _ _)

theorem coalesce {f : Nat} (hf : f < 8) (s : State) : Sends slot s (coalesce f slot s) := by
  unfold Machine.coalesce
  split
  · exact (setRing (fun h => absurd rfl h) s).trans (sendVec hf (rfld_lt _ 18 11 s) _)
  · exact refl s

theorem produced {f : Nat} (hf : f < 8) (s : State) : Sends slot s (produced f slot s) :=
  ((setRing (fun h => absurd rfl h) s).trans (emit _ _)).trans (coalesce hf _)

theorem showFull (f : Nat) (s : State) : Sends slot s (showFull f s) := by
  unfold Machine.showFull
  generalize (fn f s).rings = l
  induction l generalizing s with
  | nil => exact refl s
  | cons x l ih =>
    rw [List.foldl_cons]
    refine trans ?_ (ih _)
    split
    · exact showRing f x.1 3 s
    · exact refl s

/-- A descriptor is consumed: only its own ring moves on (R352, R355). -/
theorem consume (d : Desc) (s : State) : Sends d.ring s (consume d s) :=
  ((((nextTurn d.func d.ring s).trans (showRing d.func d.ring 1 _)).trans (setRing (fun h => absurd rfl h) _)).trans
    (emit _ _)).trans (bump_fnCnt d.func 0 _)

/-- An entry goes to a journal ring that has room (R364, R402). -/
theorem jrnlRingPut_room {f : Nat} (hf : f < 8) (e : JEntry) (s : State)
    (h : (ring f 192 s).en = true → (ringFree f 192 s && ringRuns f 192 s && (fn f s).jrnlWait.isEmpty) = true) :
    Sends 192 s (jrnlRingPut f e s) := by
  unfold Machine.jrnlRingPut
  split
  · rename_i hen
    rw [if_pos (h hen)]
    have hput := (((emit (.jentry f (ring f 192 s).dev (ringAddr f 192 (ring f 192 s).dev s) e (jentryAll e)) s).trans
      (produced hf _)).trans (setRing (slot := 192) (f := f) (r := 192) (g := fun r => { r with fullSent := false })
        (fun h => absurd rfl h) _))
    dsimp only
    split
    · exact hput
    · exact ((hput.trans (setRing (fun h => absurd rfl h) _)).trans (showFull f _)).trans (errVec hf _)
  · exact refl s

theorem jrnlRingPut_room_setJrnl {f : Nat} (hf : f < 8) (e : JEntry) (g : JrnlSt → JrnlSt) (s : State)
    (h : (ring f 192 s).en = true → (ringFree f 192 s && ringRuns f 192 s && (fn f s).jrnlWait.isEmpty) = true) :
    Sends 192 (setJrnl g s) (jrnlRingPut f e (setJrnl g s)) := jrnlRingPut_room hf e _ h

end Sends

/-! ### Answering the host -/

/-- From s to t the block only answered the host: nothing else changed, no journal entry or version, no command ring moved on, and no
command came into flight. -/
structure Answers (s t : State) : Prop where
  settled : settledTo s t
  out : s.out <+: t.out
  head : t.jrnl.head = s.jrnl.head
  entries : t.jrnl.entries = s.jrnl.entries
  vers : t.jrnl.vers = s.jrnl.vers
  inflight : t.jrnl.inflight ⊆ s.jrnl.inflight
  dev : ∀ f r, r < 64 → (ring f r t).dev = (ring f r s).dev

theorem Sends.answers {slot : Nat} (hs : 64 ≤ slot) (h : Sends slot s t) : Answers s t := by
  refine ⟨h.settled, h.out, ?_, ?_, ?_, ?_, fun f r hr => ?_⟩
  · rw [h.jrnl]
  · rw [h.jrnl]
  · rw [h.jrnl]
  · rw [h.jrnl]; exact List.Subset.refl _
  · exact dev_of_ringCore (h.rings f r (by omega))

namespace Answers

theorem refl (s : State) : Answers s s := (Sends.refl (slot := 64) s).answers (by omega)

theorem trans (h : Answers s t) (h' : Answers t u) : Answers s u :=
  ⟨settledTo.trans h.settled h'.settled, h.out.trans h'.out, h'.head.trans h.head, h'.entries.trans h.entries, h'.vers.trans h.vers,
    fun _ hp => h.inflight (h'.inflight hp), fun f r hr => (h'.dev f r hr).trans (h.dev f r hr)⟩

/-- Entries that wait change no ring. -/
theorem setFn_waits {f : Nat} {g : FnSt → FnSt} (hg : ∀ x, (g x).rings = x.rings) (s : State) : Answers s (setFn f g s) := by
  refine ⟨setFn_settled f g s, List.prefix_refl _, rfl, rfl, rfl, List.Subset.refl _, fun f' r _ => ?_⟩
  by_cases h : f' = f
  · subst h; simp only [ring, fn_setFn_same, hg]
  · simp only [ring, fn_setFn_ne _ _ h]

theorem jrnlRingPut {f : Nat} (hf : f < 8) (e : JEntry) (s : State) : Answers s (jrnlRingPut f e s) := by
  by_cases h : (ring f 192 s).en = true → (ringFree f 192 s && ringRuns f 192 s && (fn f s).jrnlWait.isEmpty) = true
  · exact (Sends.jrnlRingPut_room hf e s h).answers (by omega)
  · obtain ⟨hen, hroom⟩ := Classical.not_imp.1 h
    rw [Machine.jrnlRingPut, if_pos hen, if_neg hroom]
    exact setFn_waits (by intro; rfl) s

theorem writeCompl {f : Nat} (hf : f < 8) (cq : Nat) (e : Compl) (s : State) : Answers s (writeCompl f cq e s) := by
  unfold Machine.writeCompl
  split
  · split
    · exact (((Sends.emit _ s).trans (Sends.produced hf _)).trans (Sends.bump_fnCnt f 3 _)).answers (Nat.le_add_right 64 cq)
    · exact setFn_waits (by intro; rfl) s
  · exact refl s

theorem complEntry {src : Src} (hf : src.func < 8) (e : Compl) (s : State) : Answers s (complEntry src e s) := by
  unfold Machine.complEntry
  split
  · exact refl s
  · exact writeCompl hf _ e s

theorem completeOnly {src : Src} (hf : src.func < 8) (st : Status) (result aux : Nat) (late partialFlag : Bool) (s : State) :
    Answers s (completeOnly src st result aux late partialFlag s) :=
  trans ⟨setJrnl_settled _ s, List.prefix_refl _, rfl, rfl, rfl, List.filter_subset_self _, fun _ _ _ => rfl⟩ (complEntry hf _ _)

theorem fencesRun (n : Nat) (s : State) (hf : ∀ p ∈ s.jrnl.inflight, p.src.func < 8) : Answers s (fencesRun n s) := by
  induction n generalizing s with
  | zero => exact refl s
  | succ n ih =>
    unfold Machine.fencesRun
    split
    · rename_i p hp
      have hone := completeOnly (hf p (List.mem_of_find?_eq_some hp)) .ok 0 0 false false s
      exact hone.trans (ih _ fun p hp => hf p (hone.inflight hp))
    · exact refl s

theorem fences (s : State) (hf : ∀ p ∈ s.jrnl.inflight, p.src.func < 8) : Answers s (fences s) := fencesRun _ s hf

theorem complete {src : Src} (hf : src.func < 8) (st : Status) (result : Nat) (s : State)
    (hall : ∀ p ∈ s.jrnl.inflight, p.src.func < 8) : Answers s (complete src st result s) := by
  have hone := completeOnly hf st result 0 false false s
  exact hone.trans (fences _ fun p hp => hall p (hone.inflight hp))

end Answers

/-! ### A descriptor taken up: consumed and journaled (R352, R355, R402) -/

/-- The descriptor consumed and journaled with an outcome. -/
def takeUp (c : CmdSpec) (d : Desc) (st : Status) (s : State) : State := journalDesc c d st (srcOf c.op d s) (consume d s)

/-- A journal entry enters the journal's state. -/
def enter (e : JEntry) (j : JrnlSt) : JrnlSt := { j with head := e.seq, entries := (e :: j.entries).take 4096 }

/-- The entry that stands for a descriptor, and where it goes. -/
theorem takeUp_eq (c : CmdSpec) (d : Desc) (st : Status) (s : State) :
    ∃ e, takeUp c d st s = jrnlRingPut d.func e (setJrnl (enter e) (consume d s)) ∧ e.seq = (consume d s).jrnl.head + 1
      ∧ e.outcome = st ∧ e.opcode = c.op ∧ e.func = d.func.val ∧ e.ring = d.ring.val ∧ e.reg = false
      ∧ e.index = (ring d.func d.ring s).dev % 65536 ∧ e.cookie = d.cookie :=
  ⟨_, rfl, rfl, rfl, rfl, rfl, rfl, rfl, rfl, rfl⟩

theorem mem_outSince {o : Output} (h : s.out <+: u.out) (h' : u.out ++ [o] <+: t.out) : o ∈ outSince s t := by
  obtain ⟨l, hl⟩ := h
  obtain ⟨m, hm⟩ := h'
  simp [outSince, ← hm, ← hl]

theorem showRing_regs (f r st : Nat) (s : State) : (showRing f r st s).regs = s.regs := by
  unfold showRing
  split <;> rfl

theorem shadowAddr_congr (f slot : Nat) (h : t.regs = s.regs) : shadowAddr f slot t = shadowAddr f slot s := by
  simp only [shadowAddr, rfld, reg, h]

/-- The state in which the device index moves: the turn has gone on, and the ring shows RUNNING. -/
def turned (d : Desc) (s : State) : State := showRing d.func d.ring 1 (nextTurn d.func d.ring s)

theorem turned_sends (slot : Nat) (d : Desc) (s : State) : Sends slot s (turned d s) :=
  (Sends.nextTurn _ _ s).trans (Sends.showRing _ _ 1 _)

theorem turned_regs (d : Desc) (s : State) : (turned d s).regs = s.regs := showRing_regs _ _ _ _

theorem consume_eq (d : Desc) (s : State) : consume d s
    = bump (fnCnt d.func 0) (emit (.shadow d.func d.ring (shadowAddr d.func d.ring (turned d s)) ((ring d.func d.ring s).dev + 1))
        (setRing d.func d.ring (fun r => { r with dev := r.dev + 1, ordered := false }) (turned d s))) := rfl

theorem consume_consumed (d : Desc) (s : State) : consumed d s (consume d s) := by
  have hdev := dev_of_ringCore ((turned_sends 64 d s).rings d.func d.ring (by omega))
  refine ⟨?_, (Sends.consume d s).out, mem_outSince (turned_sends 64 d s).out ?_⟩
  · rw [consume_eq, ring_bump, ring_emit, ring_setRing_same, hdev]
  · rw [consume_eq, shadowAddr_congr d.func d.ring (turned_regs d s), bump_out, emit_out, setRing_out]

theorem Answers.outSince (h : Answers t u) (hs : s.out <+: t.out) {o : Output} (ho : o ∈ outSince s t) : o ∈ outSince s u := by
  obtain ⟨l, hl⟩ := h.out
  rw [Machine.outSince, ← hl, List.drop_append_of_le_length hs.length_le]
  exact List.mem_append_left _ ho

theorem Answers.consumed {d : Desc} (h : Answers t u) (hc : consumed d s t) : consumed d s u := by
  obtain ⟨hdev, hout, hsh⟩ := hc
  exact ⟨(h.dev _ _ d.ring.isLt).trans hdev, hout.trans h.out, h.outSince hout hsh⟩

theorem Answers.entered {c : CmdSpec} {d : Desc} {st : Status} (h : Answers t u) (he : entered c d st s t) : entered c d st s u := by
  simpa only [Machine.entered, h.head, h.entries] using he

theorem setJrnl_consumed {d : Desc} (g : JrnlSt → JrnlSt) (h : consumed d s t) : consumed d s (setJrnl g t) := h

theorem setJrnl_enter_entered {c : CmdSpec} {d : Desc} {st : Status} {e : JEntry} (hhead : t.jrnl.head = s.jrnl.head)
    (he : e.seq = t.jrnl.head + 1 ∧ e.outcome = st ∧ e.opcode = c.op ∧ e.func = d.func.val ∧ e.ring = d.ring.val ∧ e.reg = false
      ∧ e.index = (ring d.func d.ring s).dev % 65536 ∧ e.cookie = d.cookie) : entered c d st s (setJrnl (enter e) t) := by
  obtain ⟨hseq, hrest⟩ := he
  rw [hhead] at hseq
  exact ⟨hseq, e, _, rfl, hseq, hrest⟩

theorem takeUp_consumed (c : CmdSpec) (d : Desc) (st : Status) (s : State) : consumed d s (takeUp c d st s) := by
  obtain ⟨e, heq, -⟩ := takeUp_eq c d st s
  rw [heq]
  exact (Answers.jrnlRingPut d.func.isLt e _).consumed (setJrnl_consumed _ (consume_consumed d s))

theorem takeUp_entered (c : CmdSpec) (d : Desc) (st : Status) (s : State) : entered c d st s (takeUp c d st s) := by
  obtain ⟨e, heq, he⟩ := takeUp_eq c d st s
  have hhead : (consume d s).jrnl.head = s.jrnl.head := by rw [(Sends.consume d s).jrnl]
  rw [heq]
  exact (Answers.jrnlRingPut d.func.isLt e _).entered (setJrnl_enter_entered hhead he)

theorem takeUp_settled (c : CmdSpec) (d : Desc) (st : Status) (s : State) : settledTo s (takeUp c d st s) := by
  obtain ⟨e, heq, -⟩ := takeUp_eq c d st s
  rw [heq]
  exact settledTo.trans (settledTo.trans (Sends.consume d s).settled (setJrnl_settled _ _)) (Answers.jrnlRingPut d.func.isLt e _).settled

theorem takeUp_vers (c : CmdSpec) (d : Desc) (st : Status) (s : State) : (takeUp c d st s).jrnl.vers = s.jrnl.vers := by
  obtain ⟨e, heq, -⟩ := takeUp_eq c d st s
  rw [heq, (Answers.jrnlRingPut d.func.isLt e _).vers, ← (Sends.consume d s).jrnl]
  rfl

theorem takeUp_inflight (c : CmdSpec) (d : Desc) (st : Status) (s : State) : (takeUp c d st s).jrnl.inflight ⊆ s.jrnl.inflight := by
  obtain ⟨e, heq, -⟩ := takeUp_eq c d st s
  rw [heq, ← (Sends.consume d s).jrnl]
  exact (Answers.jrnlRingPut d.func.isLt e _).inflight

/-! ### The completion of a descriptor taken up (R358, R394, R398) -/

theorem ringSize_settled {f slot : Nat} (h : settledTo s t) (hf : f < 8) (hs : slot < 256) : ringSize f slot t = ringSize f slot s := by
  obtain ⟨-, -, hreg⟩ := h
  simp only [ringSize, rfld, hreg _ (isPba_ringBase hf hs (k := 8) (by omega))]

theorem cqOf_settled {f slot : Nat} (h : settledTo s t) (hf : f < 8) (hs : slot < 256) : cqOf f slot t = cqOf f slot s := by
  obtain ⟨-, -, hreg⟩ := h
  simp only [cqOf, rfld, hreg _ (isPba_ringBase hf hs (k := 8) (by omega))]

theorem ringAddr_settled {f slot : Nat} (i : Nat) (h : settledTo s t) (hf : f < 8) (hs : slot < 256) :
    ringAddr f slot i t = ringAddr f slot i s := by
  have hsize := ringSize_settled h hf hs
  obtain ⟨-, -, hreg⟩ := h
  have hlo : reg (ringBase f slot) t = reg (ringBase f slot) s := hreg _ (isPba_ringBase hf hs (k := 0) (by omega))
  simp only [ringAddr, rfld, hsize, hlo, hreg _ (isPba_ringBase hf hs (k := 4) (by omega))]

theorem cqOf_lt (f slot : Nat) (s : State) : cqOf f slot s < 64 := rfld_lt _ 24 19 s

theorem ringFree_congr {f slot : Nat} (h : settledTo s t) (hf : f < 8) (hs : slot < 256)
    (hr : ringCore (ring f slot t) = ringCore (ring f slot s)) : ringFree f slot t = ringFree f slot s := by
  simp only [ringFree, dev_of_ringCore hr, host_of_ringCore hr, ringSize_settled h hf hs]

theorem ringRuns_congr {f slot : Nat} (hr : ringCore (ring f slot t) = ringCore (ring f slot s)) :
    ringRuns f slot t = ringRuns f slot s := by
  simp only [ringRuns, en_of_ringCore hr, stopped_of_ringCore hr]

/-- An entry of a completion ring that runs and has room, with nothing waiting before it, is written. -/
theorem writeCompl_room {f cq : Nat} (hf : f < 8) (e : Compl) (s : State) (hfree : ringFree f (64 + cq) s = true)
    (hruns : ringRuns f (64 + cq) s = true) (hcq : (fn f s).cqWait.any (fun x => x.1 == cq) = false) (hj : (fn f s).jrnlWait = []) :
    s.out ++ [complOut f cq (ring f (64 + cq) s).dev e s] <+: (writeCompl f cq e s).out := by
  have hen : (ring f (64 + cq) s).en = true := (Bool.and_eq_true_iff.1 hruns).1
  simp only [writeCompl, hen, hfree, hruns, hcq, hj, List.any_nil, Bool.not_false, Bool.and_self, if_true]
  exact (Sends.produced hf (emit (complOut f cq (ring f (64 + cq) s).dev e s) s)).out

/-- From s to t a descriptor of function f was taken up: what a completion waits for and where it goes are as before. -/
structure Awaits (f cq : Nat) (s t : State) : Prop where
  settled : settledTo s t
  out : s.out <+: t.out
  fns : fnCore (fn f t) = fnCore (fn f s)
  ring : ringCore (ring f (64 + cq) t) = ringCore (ring f (64 + cq) s)

/-- A ring that is not held, and that can be answered, leaves the journal ring room for its entry (R358). -/
theorem journalRoom_of_canServe {d : Desc} (hs : canServe d s = true) (ha : canAnswer d s = true)
    (hen : (ring d.func 192 s).en = true) :
    ringFree d.func 192 s = true ∧ ringRuns d.func 192 s = true ∧ (fn d.func s).jrnlWait.isEmpty = true := by
  simp only [canServe, ringHeld, ringStuck, Bool.and_eq_true, Bool.not_eq_true', Bool.or_eq_false_iff, hen, Bool.true_and,
    Bool.not_eq_false'] at hs
  simp only [canAnswer, Bool.and_eq_true, hen, Bool.not_true, Bool.or_false] at ha
  simp only [ringRuns, hen, Bool.true_and]
  tauto

/-- A ring that is not held leaves its completion ring room, with nothing waiting for it (R358). -/
theorem complRoom_of_canServe {d : Desc} (hs : canServe d s = true) (ha : canAnswer d s = true) :
    ringFree d.func (64 + cqOf d.func d.ring s) s = true ∧ ringRuns d.func (64 + cqOf d.func d.ring s) s = true
      ∧ (fn d.func s).cqWait.any (fun x => x.1 == cqOf d.func d.ring s) = false ∧ (fn d.func s).jrnlWait = [] := by
  simp only [canAnswer, Bool.and_eq_true, List.isEmpty_iff] at ha
  obtain ⟨⟨hruns, -⟩, hj⟩ := ha
  have hen := (Bool.and_eq_true_iff.1 hruns).1
  simp only [canServe, ringHeld, ringStuck, cqHolds, Bool.and_eq_true, Bool.not_eq_true', Bool.or_eq_false_iff, hen, Bool.true_and,
    Bool.not_eq_false'] at hs
  tauto

/-- That room is still there when the descriptor is consumed. -/
theorem journalRoom_consume {d : Desc} (hs : canServe d s = true) (ha : canAnswer d s = true) :
    (ring d.func 192 (consume d s)).en = true →
      (ringFree d.func 192 (consume d s) && ringRuns d.func 192 (consume d s) && (fn d.func (consume d s)).jrnlWait.isEmpty) = true := by
  intro hen
  have hcons := Sends.consume d s
  have hcore : ringCore (ring d.func 192 (consume d s)) = ringCore (ring d.func 192 s) := hcons.rings _ _ (by omega)
  rw [en_of_ringCore hcore] at hen
  obtain ⟨hfree, hruns, hnone⟩ := journalRoom_of_canServe hs ha hen
  rw [ringFree_congr hcons.settled d.func.isLt (by omega) hcore, ringRuns_congr hcore, jrnlWait_of_fnCore (hcons.fns d.func), hfree, hruns,
    hnone]
  rfl

theorem takeUp_awaits {d : Desc} (c : CmdSpec) (st : Status) (hs : canServe d s = true) (ha : canAnswer d s = true) :
    Awaits d.func (cqOf d.func d.ring s) s (takeUp c d st s) := by
  obtain ⟨e, heq, -⟩ := takeUp_eq c d st s
  have hcons := Sends.consume d s
  have hcq := cqOf_lt d.func d.ring s
  have hput := Sends.jrnlRingPut_room_setJrnl d.func.isLt e (enter e) (consume d s) (journalRoom_consume hs ha)
  have hout := hput.out
  rw [setJrnl_out] at hout
  refine ⟨takeUp_settled c d st s, ?_, ?_, ?_⟩ <;> rw [heq]
  · exact hcons.out.trans hout
  · rw [hput.fns, fn_setJrnl, hcons.fns]
  · rw [hput.rings _ _ (by omega), ring_setJrnl, hcons.rings _ _ (by omega)]

/-- The completion of a descriptor taken up is written at once when it can be. -/
theorem complEntry_out {d : Desc} {src : Src} (hs : canServe d s = true) (ha : canAnswer d s = true)
    (hu : Awaits d.func (cqOf d.func d.ring s) s u) (hf : src.func = d.func) (hr : src.ring = d.ring) (hreg : src.reg = false)
    (he : src.epoch = (fn d.func s).epoch) (e : Compl) :
    complOut d.func (cqOf d.func d.ring s) (ring d.func (64 + cqOf d.func d.ring s) s).dev e s ∈ outSince s (complEntry src e u) := by
  obtain ⟨hfree, hruns, hcq, hj⟩ := complRoom_of_canServe hs ha
  have hlt := cqOf_lt d.func d.ring s
  have hout := writeCompl_room d.func.isLt e u ((ringFree_congr hu.settled d.func.isLt (by omega) hu.ring).trans hfree)
    ((ringRuns_congr hu.ring).trans hruns) (cqWait_of_fnCore hu.fns ▸ hcq) ((jrnlWait_of_fnCore hu.fns).trans hj)
  have hcqOf : cqOf d.func d.ring u = cqOf d.func d.ring s := cqOf_settled hu.settled d.func.isLt (by omega)
  have heq : complEntry src e u = writeCompl d.func (cqOf d.func d.ring s) e u := by
    simp [complEntry, hreg, hf, hr, he, epoch_of_fnCore hu.fns, hcqOf]
  rw [dev_of_ringCore hu.ring, complOut, ringAddr_settled _ hu.settled d.func.isLt (by omega)] at hout
  rw [heq]
  exact mem_outSince hu.out hout

theorem complete_answered {d : Desc} (c : CmdSpec) (st : Status) (result : Nat) (hs : canServe d s = true)
    (hu : canAnswer d s = true → Awaits d.func (cqOf d.func d.ring s) s u) (hall : ∀ p ∈ u.jrnl.inflight, p.src.func < 8) :
    answered c d st result s (complete (srcOf c.op d s) st result u) := by
  intro ha
  obtain ⟨hset, hout, hfns, hring⟩ := hu ha
  have hleft : ∀ g, Awaits d.func (cqOf d.func d.ring s) s (setJrnl g u) := fun g =>
    ⟨settledTo.trans hset (setJrnl_settled g u), hout, hfns, hring⟩
  have hone := Answers.completeOnly (src := srcOf c.op d s) d.func.isLt st result 0 false false u
  refine ⟨cmdEntry (srcOf c.op d s) st result 0 false false, ?_, rfl, rfl, rfl, rfl, rfl, rfl, rfl, rfl⟩
  refine (Answers.fences _ fun p hp => hall p (hone.inflight hp)).outSince (hout.trans hone.out) ?_
  exact complEntry_out hs ha (hleft _) rfl rfl rfl rfl _

/-! ### Acceptance of a command that names no object (R383, R402) -/

/-- An accepted command is counted and in flight. -/
def putInFlight (f : Nat) (p : Pend) (s : State) : State :=
  bump (fnCnt f 1) (setJrnl (fun j => { j with inflight := j.inflight ++ [p] }) s)

theorem putInFlight_head (f : Nat) (p : Pend) (s : State) : (putInFlight f p s).jrnl.head = s.jrnl.head := rfl

theorem putInFlight_vers (f : Nat) (p : Pend) (s : State) : (putInFlight f p s).jrnl.vers = s.jrnl.vers := rfl

theorem mem_putInFlight {f : Nat} {p x : Pend} {s : State} (h : x ∈ (putInFlight f p s).jrnl.inflight) : x ∈ s.jrnl.inflight ∨ x = p := by
  simpa [putInFlight] using h

theorem putInFlight_consumed {d : Desc} (f : Nat) (p : Pend) (h : consumed d s t) : consumed d s (putInFlight f p t) := h

theorem putInFlight_entered {c : CmdSpec} {d : Desc} {st : Status} (f : Nat) (p : Pend) (h : entered c d st s t) :
    entered c d st s (putInFlight f p t) := h

theorem putInFlight_settled (f : Nat) (p : Pend) (s : State) : settledTo s (putInFlight f p s) :=
  settledTo.trans (setJrnl_settled _ s) (bump_fnCnt_settled f 1 _)

theorem putInFlight_awaits {f cq : Nat} (g : Nat) (p : Pend) (h : Awaits f cq s t) : Awaits f cq s (putInFlight g p t) :=
  ⟨settledTo.trans h.settled (putInFlight_settled g p t), h.out, h.fns, h.ring⟩

theorem accept_noObjs {c : CmdSpec} (ho : c.objs = []) (d : Desc) (s : State) :
    accept c d (srcOf c.op d s) s = putInFlight d.func ⟨srcOf c.op d s, c.wait⟩ (takeUp c d .ok s) := by
  simp only [accept, ho, List.filter_nil, List.foldl_nil, ite_self]
  rfl

/-- A descriptor whose command names no object, accepted and completed at once, while the functions of the commands in flight exist. -/
theorem accept_complete_noObjs {c : CmdSpec} {d : Desc} (ho : c.objs = []) (hs : canServe d s = true)
    (hfl : ∀ p ∈ s.jrnl.inflight, p.src.func < 8) (result : State → Nat) :
    let a := accept c d (srcOf c.op d s) s
    let u := complete (srcOf c.op d s) .ok (result a) a
    consumed d s u ∧ entered c d .ok s u ∧ answered c d .ok (result a) s u ∧ versioned [] s u ∧ settledTo s u := by
  intro a u
  have ha : a = putInFlight d.func ⟨srcOf c.op d s, c.wait⟩ (takeUp c d .ok s) := accept_noObjs ho d s
  have hall : ∀ p ∈ a.jrnl.inflight, p.src.func < 8 := by
    intro p hp
    rw [ha] at hp
    rcases mem_putInFlight hp with hp | rfl
    · exact hfl p (takeUp_inflight c d .ok s hp)
    · exact d.func.isLt
  have hvers : a.jrnl.vers = s.jrnl.vers := by rw [ha, putInFlight_vers, takeUp_vers]
  have hdone : Answers a u := Answers.complete d.func.isLt .ok _ a hall
  refine ⟨hdone.consumed ?_, hdone.entered ?_, complete_answered c .ok _ hs (fun hans => ?_) hall, ?_, settledTo.trans ?_ hdone.settled⟩
  · rw [ha]; exact putInFlight_consumed _ _ (takeUp_consumed c d .ok s)
  · rw [ha]; exact putInFlight_entered _ _ (takeUp_entered c d .ok s)
  · rw [ha]; exact putInFlight_awaits _ _ (takeUp_awaits c .ok hs hans)
  · exact ⟨by simp, fun k _ => by rw [hdone.vers, hvers]⟩
  · rw [ha]; exact settledTo.trans (takeUp_settled c d .ok s) (putInFlight_settled _ _ _)

end Sys2Proof.HostFrame
end

section
/-! JRNL_SYNC (R404): what it does where the functions of the commands in flight exist, and why JournalSync, which takes any state, fails: a
fence in flight whose source names a function that does not exist. -/

namespace Sys2Proof.JournalSync

open Sys2Proof Sys2Proof.Machine Sys2Proof.HostFrame

/-! ### JRNL_SYNC served -/

/-- What the checks of R383 need to know of JRNL_SYNC. -/
def syncSpec : CmdSpec := { op := 3, fields := [] }

/-- The state with JRNL_SYNC accepted, its completion not yet written. -/
def syncAccepted (d : Desc) (s : State) : State := accept syncSpec d (srcOf syncSpec.op d s) s

/-- The state after JRNL_SYNC. -/
def syncDone (d : Desc) (s : State) : State :=
  complete (srcOf syncSpec.op d s) .ok (oldestSeq (syncAccepted d s)) (syncAccepted d s)

theorem exec_jrnlSync_served {d : Desc} {s : State} (hs : canServe d s = true)
    (hj : judge syncSpec d (fun _ => .ok) s = .ok) : exec (.jrnlSync d) s = .next (syncDone d s) := by
  have hx : exec (.jrnlSync d) s = .next (serve syncSpec d (fun _ => .ok) (fun src a => complete src .ok (oldestSeq a) a) s) := rfl
  have hp : syncSpec.pb.isNone = false := rfl
  rw [hx, serve]
  simp only [hs, hp, hj, if_true, Bool.false_eq_true, if_false]
  rfl

/-! ### R404 where the functions of the commands in flight exist -/

/-- The oldest of the latest 960 sequence numbers up to a head (R403). -/
def windowOldest (head : Nat) : Nat := if head ≤ 960 then 1 else head - 959

theorem oldestSeq_eq_windowOldest {s : State} (h : 0 < s.jrnl.head) : oldestSeq s = windowOldest s.jrnl.head := by
  unfold oldestSeq windowOldest
  split <;> omega

theorem windowOldest_bounds {head : Nat} (h : 0 < head) :
    windowOldest head ≤ head ∧ head < windowOldest head + 960 ∧ (1 < windowOldest head → head + 1 = windowOldest head + 960) := by
  unfold windowOldest
  split <;> omega

theorem syncAccepted_head (d : Desc) (s : State) : (syncAccepted d s).jrnl.head = s.jrnl.head + 1 := by
  obtain ⟨hhead, -⟩ := takeUp_entered syncSpec d .ok s
  rw [syncAccepted, accept_noObjs rfl, putInFlight_head, hhead]

/-- R404 in the states whose commands in flight come from the eight functions: every conclusion of JournalSync holds. -/
theorem exec_jrnlSync_of_inflight_functions {d : Desc} {s : State} (hfl : ∀ p ∈ s.jrnl.inflight, p.src.func < 8)
    (hs : canServe d s = true) (hj : judge syncSpec d (fun _ => .ok) s = .ok) :
    ∃ t, exec (.jrnlSync d) s = .next t ∧ consumed d s t ∧ entered syncSpec d .ok s t ∧ (srcOf 3 d s).jseq = s.jrnl.head + 1
      ∧ t.jrnl.head = s.jrnl.head + 1 ∧ answered syncSpec d .ok (windowOldest (s.jrnl.head + 1)) s t ∧ versioned [] s t ∧ settledTo s t
      ∧ windowOldest (s.jrnl.head + 1) ≤ s.jrnl.head + 1 ∧ s.jrnl.head + 1 < windowOldest (s.jrnl.head + 1) + 960
      ∧ (1 < windowOldest (s.jrnl.head + 1) → s.jrnl.head + 1 + 1 = windowOldest (s.jrnl.head + 1) + 960) := by
  have hhead := syncAccepted_head d s
  have hold : oldestSeq (syncAccepted d s) = windowOldest (s.jrnl.head + 1) := by
    rw [oldestSeq_eq_windowOldest (by omega), hhead]
  obtain ⟨hcons, hent, hans, hvers, hset⟩ : consumed d s (syncDone d s) ∧ entered syncSpec d .ok s (syncDone d s)
      ∧ answered syncSpec d .ok (oldestSeq (syncAccepted d s)) s (syncDone d s) ∧ versioned [] s (syncDone d s) ∧ settledTo s (syncDone d s) :=
    accept_complete_noObjs rfl hs hfl oldestSeq
  rw [hold] at hans
  obtain ⟨hle, hlt, hfull⟩ := windowOldest_bounds (Nat.succ_pos s.jrnl.head)
  refine ⟨syncDone d s, exec_jrnlSync_served hs hj, hcons, hent, rfl, ?_, hans, hvers, hset, hle, hlt, hfull⟩
  obtain ⟨hnow, -⟩ := hent
  exact hnow

/-! ### The refutation

The statement takes any state, and the source of a command in flight names its function by a Nat that nothing bounds. A fence from function 8
that is satisfied completes with JRNL_SYNC; its interrupt sets a pending bit of function 8, which stands in none of the eight functions' pending
bits (R371), so `settledTo` fails. By exec_jrnlSync_of_inflight_functions the bound on that Nat is all that the statement lacks. -/

/-- Ring 0 of function 0 holds a descriptor; a fence of "function 8" is in flight and satisfied, and that function sleeps. -/
def strayFence : State :=
  { rst := { cur := none }, mode := { current := .acquire }
    regs := [(fnBase 8 + 0x1C, 16)]
    host := { fns := [(0, { rings := [(0, { en := true, host := 1 })] }),
      (8, { d3hot := true, msixEn := true, rings := [(64, { en := true })] })] }
    jrnl := { inflight := [{ src := { func := 8, ring := 0, index := 0, cookie := 0, jseq := 0, opcode := 2, epoch := 0 }
                             wait := .fence 0 [] 0 0 }] } }

/-- JRNL_SYNC on ring 0 of function 0. -/
def syncDesc : Desc := { func := 0, ring := 0, flags := 0, expVersion := 0, cookie := 0, body := 0 }

theorem canServe_strayFence : canServe syncDesc strayFence = true := by decide +kernel

theorem judge_strayFence : judge syncSpec syncDesc (fun _ => .ok) strayFence = .ok := by decide +kernel

theorem pba8_strayFence_before : reg (pbaBase 8) strayFence = 0 := by decide +kernel

theorem pba8_strayFence_after : reg (pbaBase 8) (syncDone syncDesc strayFence) = 1 := by decide +kernel

/-- Refutes O46: in `strayFence`, JRNL_SYNC changes a register outside the functions' pending bits. -/
theorem not_journalSync : ¬ Obligations.JournalSync := by
  unfold Obligations.JournalSync
  intro h
  obtain ⟨t, ht, -, -, -, -, -, -, ⟨-, -, hreg⟩, -⟩ := h syncDesc strayFence canServe_strayFence judge_strayFence
  have htd : syncDone syncDesc strayFence = t :=
    Host.Outcome.next.inj ((exec_jrnlSync_served canServe_strayFence judge_strayFence).symm.trans ht)
  have hpba : isPba (pbaBase 8) = false := by decide
  have hsame := hreg (pbaBase 8) hpba
  rw [← htd, pba8_strayFence_after, pba8_strayFence_before] at hsame
  exact absurd hsame (by decide)

/-- The hypotheses of exec_jrnlSync_of_inflight_functions are met: the same ring, with no command in flight. -/
theorem exec_jrnlSync_noneInFlight : ∃ t, exec (.jrnlSync syncDesc) { strayFence with jrnl := {} } = .next t
    ∧ answered syncSpec syncDesc .ok 1 { strayFence with jrnl := {} } t := by
  obtain ⟨t, ht, -, -, -, -, hans, -⟩ := exec_jrnlSync_of_inflight_functions (d := syncDesc) (s := { strayFence with jrnl := {} })
    (fun _ hp => absurd hp List.not_mem_nil) (by decide +kernel) (by decide +kernel)
  exact ⟨t, ht, hans⟩

end Sys2Proof.JournalSync
end

section
/-! The timers' event flags and the vector they send (R532): each event's own effects leave what the flag and the vector depend on, so that
what `tmrFlag` does with it holds of the whole event; and TMR_STATUS_ALL as the bits of the sum it is read as. -/

namespace Sys2Proof.TimerFlags

open Sys2Proof Sys2Proof.Machine Sys2Proof.HostFrame

variable {s t u : State} {n : Nat}

/-! ### Fields and bits -/

theorem bit_add_two_pow {v b : Nat} (h : bit v b = false) (hb : b < 32) : bit ((v + 2 ^ b) % 2 ^ 32) b = true := by
  rw [bit_eq_testBit] at h ⊢
  rw [Nat.testBit_mod_two_pow, Nat.add_comm, Nat.testBit_two_pow_add_eq, h]
  simpa using hb

theorem putBits_one {v b : Nat} (h : bit v b = false) : putBits v b b 1 = v + 2 ^ b := by
  have hzero : (v >>> b) % 2 = 0 := by simpa [bit] using h
  simp [putBits, bits, hzero]

/-- The bits below the enable: the fields of TMRn_CTL that clearing `en` leaves. -/
theorem putBits_en_mod (v : Nat) : putBits v 31 31 0 % 2 ^ 32 % 2 ^ 31 = v % 2 ^ 31 := by
  simp only [putBits, bits, Nat.shiftRight_eq_div_pow]
  omega

/-- Noting an overrun leaves the capture flag. -/
theorem bit_capture_putBits_overrun {v : Nat} (h : bit v 28 = true) : bit (putBits v 27 27 1 % 2 ^ 32) 28 = true := by
  simp only [bit, putBits, bits, Nat.shiftRight_eq_div_pow, beq_iff_eq] at h ⊢
  omega

section
variable {v w : Nat} (h : v % 2 ^ 31 = w % 2 ^ 31)
include h
theorem bit_irq_congr : bit v 19 = bit w 19 := by
  simp only [bit, Nat.shiftRight_eq_div_pow]
  congr 1
  omega

theorem bits_capSrc_congr : bits v 10 7 = bits w 10 7 := by
  simp only [bits, Nat.shiftRight_eq_div_pow]
  omega

theorem bits_capEdge_congr : bits v 6 5 = bits w 6 5 := by
  simp only [bits, Nat.shiftRight_eq_div_pow]
  omega
end

/-! ### What was driven since -/

theorem outSince_append (h : s.out <+: u.out) (h' : u.out <+: t.out) : outSince s t = outSince s u ++ outSince u t := by
  obtain ⟨l, hl⟩ := h
  obtain ⟨m, hm⟩ := h'
  simp [outSince, ← hm, ← hl]

theorem mem_outSince_widen {s' : State} {o : Output} (h : s.out <+: u.out) (h' : t.out <+: s'.out) (ho : o ∈ outSince u t) :
    o ∈ outSince s s' :=
  (List.drop_sublist_drop_left _ h.length_le).subset ((h'.drop _).subset ho)

/-! ### The vector (R369, R371) -/

/-- The vector that the timers send. -/
def glbVec (s : State) : Nat := rfld 0x44000 7 0 s

/-- The vector goes out when it is sent: allocated, the physical function awake, and not masked. -/
def VecReady (s : State) : Prop :=
  vecUsable 0 (glbVec s) s = true ∧ fnAwake 0 s = true ∧ bit (reg (msixBase 0 + 16 * glbVec s + 12) s) 0 = false

theorem glbVec_lt (s : State) : glbVec s < 256 := rfld_lt _ _ _ s

/-- The vector's readiness is read from these alone. -/
theorem VecReady.congr (hl : ∀ a < 0x25000, reg a u = reg a s) (hv : glbVec u = glbVec s) (hf : fnCore (fn 0 u) = fnCore (fn 0 s))
    (hp : u.host.l12 = s.host.l12) (h : VecReady s) : VecReady u := by
  obtain ⟨husable, hawake, hmask⟩ := h
  have hen : (fn 0 u).msixEn = (fn 0 s).msixEn := (congrArg FnSt.msixEn hf :)
  have hd3 : (fn 0 u).d3hot = (fn 0 s).d3hot := (congrArg FnSt.d3hot hf :)
  have hentry : msixBase 0 + 16 * glbVec s + 12 < 0x25000 := by
    have := glbVec_lt s
    simp only [msixBase, if_true]
    omega
  have hsize : reg (fnBase 0 + 0x1C) u = reg (fnBase 0 + 0x1C) s := hl _ (by decide)
  refine ⟨?_, by simpa [fnAwake, hd3, hp] using hawake, by rw [hv, hl _ hentry]; exact hmask⟩
  unfold vecUsable rfld at *
  rw [hv, hsize, hen]
  exact husable

theorem sendVec_glbVec (h : VecReady s) : sendVec 0 (glbVec s) s = emit (.msix 0 (glbVec s)) s := by
  obtain ⟨husable, hawake, hmask⟩ := h
  simp [sendVec, husable, hawake, hmask]

@[simp] theorem sendVec_l12 (f v : Nat) (s : State) : (sendVec f v s).host.l12 = s.host.l12 := by
  unfold sendVec wakeFn
  split_ifs <;> rfl

/-- The registers below and above the physical function's pending bits hold no pending bits. -/
theorem isPba_eq_false {a : Nat} (h : a < 0x25000 ∨ 0x25040 ≤ a ∧ a < 0x1000000) : isPba a = false := by
  rw [isPba, List.any_eq_false]
  intro f _
  rw [decide_eq_true_eq]
  unfold pbaBase
  split <;> omega

/-- Every other register keeps its value when a vector of the physical function is sent. -/
theorem reg_sendVec {a v : Nat} (hv : v < 256) (ha : a < 0x25000 ∨ 0x25040 ≤ a ∧ a < 0x1000000) (s : State) :
    reg a (sendVec 0 v s) = reg a s := by
  obtain ⟨-, -, hreg⟩ := (Sends.sendVec (slot := 0) (f := 0) (by decide) hv s).settled
  exact hreg a (isPba_eq_false ha)

/-! ### What an event of a timer depends on -/

/-- From s to u the flags of timer n, its control fields but `en`, and the way of the vector are as they were; nothing driven is undone. -/
structure KeepsTimer (n : Nat) (s u : State) : Prop where
  status : reg (tmrBase n + 0x28) u = reg (tmrBase n + 0x28) s
  ctl : reg (tmrBase n) u % 2 ^ 31 = reg (tmrBase n) s % 2 ^ 31
  vec : glbVec u = glbVec s
  ready : VecReady s → VecReady u
  out : s.out <+: u.out

namespace KeepsTimer

theorem refl (s : State) : KeepsTimer n s s := ⟨rfl, rfl, rfl, id, List.prefix_refl _⟩

theorem trans (h : KeepsTimer n s t) (h' : KeepsTimer n t u) : KeepsTimer n s u :=
  ⟨h'.status.trans h.status, h'.ctl.trans h.ctl, h'.vec.trans h.vec, h'.ready ∘ h.ready, h.out.trans h'.out⟩

theorem ite {c : Prop} [Decidable c] (h : KeepsTimer n s t) (h' : KeepsTimer n s u) : KeepsTimer n s (if c then t else u) := by
  split
  · exact h
  · exact h'

theorem foldl {f : State → Nat → State} {l : List Nat} (h : ∀ k ∈ l, ∀ s, KeepsTimer n s (f s k)) (s : State) :
    KeepsTimer n s (l.foldl f s) := by
  induction l generalizing s with
  | nil => exact refl s
  | cons k l ih =>
    obtain ⟨hfirst, hrest⟩ := List.forall_mem_cons.1 h
    exact (hfirst s).trans (ih hrest (f s k))

theorem emit (o : Output) (s : State) : KeepsTimer n s (emit o s) := ⟨rfl, rfl, rfl, id, List.prefix_append _ _⟩

theorem setTmr (k : Nat) (f : TmrSt → TmrSt) (s : State) : KeepsTimer n s (setTmr k f s) :=
  ⟨rfl, rfl, rfl, id, List.prefix_refl _⟩

/-- A register past TMR_GLB changes, and of timer n's own at most `en`. -/
theorem setReg_of_ctl {a v : Nat} (ha : 0x44000 < a) (hs : a ≠ tmrBase n + 0x28)
    (hc : reg (tmrBase n) (setReg a v s) % 2 ^ 31 = reg (tmrBase n) s % 2 ^ 31) : KeepsTimer n s (setReg a v s) := by
  have hlow : ∀ b ≤ 0x44000, reg b (Machine.setReg a v s) = reg b s := fun b hb => reg_setReg_ne v s (by omega)
  have hvec : glbVec (Machine.setReg a v s) = glbVec s := by simp only [glbVec, rfld, hlow _ (Nat.le_refl _)]
  exact ⟨reg_setReg_ne v s hs.symm, hc, hvec, VecReady.congr (fun b hb => hlow b (by omega)) hvec rfl rfl, List.prefix_refl _⟩

theorem setReg {a : Nat} (v : Nat) (s : State) (ha : 0x44000 < a) (hs : a ≠ tmrBase n + 0x28) (hc : a ≠ tmrBase n) :
    KeepsTimer n s (setReg a v s) :=
  setReg_of_ctl ha hs (by rw [reg_setReg_ne v s hc.symm])

theorem clearEn (n : Nat) (s : State) : KeepsTimer n s (setFld (tmrBase n) 31 31 0 s) :=
  setReg_of_ctl (by unfold tmrBase; omega) (by omega) (by rw [reg_setReg_same, putBits_en_mod])

theorem tmrPinDo (k : Nat) (f : Bool → Bool) (s : State) : KeepsTimer n s (tmrPinDo k f s) :=
  ite ((setReg _ s (by omega) (by unfold tmrBase; omega) (by unfold tmrBase; omega)).trans (emit _ _)) (refl s)

theorem tmrEdges (k e : Nat) (s : State) : KeepsTimer n s (tmrEdges k e s) := ite (refl s) (setTmr k _ s)

theorem sendVec (hn : n < 16) {v : Nat} (hv : v < 256) (s : State) : KeepsTimer n s (sendVec 0 v s) := by
  have hsent : Sends 0 s (Machine.sendVec 0 v s) := Sends.sendVec (by decide) hv s
  have hvec : glbVec (Machine.sendVec 0 v s) = glbVec s := by rw [glbVec, glbVec, rfld, rfld, reg_sendVec hv (by omega)]
  refine ⟨reg_sendVec hv ?_ s, congrArg (· % 2 ^ 31) (reg_sendVec hv ?_ s), hvec,
    VecReady.congr (fun a ha => reg_sendVec hv (.inl ha) s) hvec (hsent.fns 0) (sendVec_l12 0 v s), hsent.out⟩ <;>
  · unfold tmrBase
    omega

/-- A flag of another timer. -/
theorem tmrFlag {k : Nat} (hn : n < 16) (hk : k ≠ n) (b : Nat) (s : State) : KeepsTimer n s (tmrFlag k b s) := by
  have hset : KeepsTimer n s (setFld (tmrBase k + 0x28) b b 1 s) :=
    setReg _ s (by unfold tmrBase; omega) (by unfold tmrBase; omega) (by unfold tmrBase; omega)
  exact ite (refl s) (ite (hset.trans (sendVec hn (rfld_lt _ 7 0 s) _)) hset)

/-- The capture of another timer. -/
theorem tmrCapture {k : Nat} (hn : n < 16) (hk : k ≠ n) (p : Nat) (rising : Bool) (s : State) :
    KeepsTimer n s (tmrCapture p rising s k) := by
  have hput : ∀ o < 0x40, ∀ v s, KeepsTimer n s (Machine.setReg (tmrBase k + o) v s) := fun o ho v s =>
    setReg v s (by unfold tmrBase; omega) (by unfold tmrBase; omega) (by unfold tmrBase; omega)
  have hlatch := fun lo hi s => (hput 0x20 (by decide) lo s).trans (hput 0x24 (by decide) hi _)
  exact ite (ite ((hlatch _ _ s).trans (hput 0x28 (by decide) _ _)) ((hlatch _ _ s).trans (tmrFlag hn hk 28 _))) (refl s)

end KeepsTimer

/-! ### Setting a flag -/

/-- A flag of TMRn_STATUS. -/
def flag (n b : Nat) (s : State) : Bool := bit (reg (tmrBase n + 0x28) s) b

theorem flag_congr (h : KeepsTimer n s u) (b : Nat) : flag n b u = flag n b s := congrArg (bit · b) h.status

theorem reg_tmrNote_ne {a : Nat} (h : a ≠ tmrBase n + 0x28) (b : Nat) (s : State) : reg a (tmrNote n b s) = reg a s := reg_setFld_ne _ _ _ s h

theorem glbVec_tmrNote (n b : Nat) (s : State) : glbVec (tmrNote n b s) = glbVec s :=
  congrArg (bits · 7 0) (reg_tmrNote_ne (by unfold tmrBase; omega) b s)

theorem VecReady.tmrNote (b : Nat) (h : VecReady s) : VecReady (tmrNote n b s) :=
  h.congr (fun _ ha => reg_tmrNote_ne (by unfold tmrBase; omega) b s) (glbVec_tmrNote n b s) rfl rfl

theorem flag_tmrNote {b : Nat} (h : flag n b s = false) (hb : b < 32) : flag n b (tmrNote n b s) = true := by
  unfold flag tmrNote setFld
  rw [reg_setReg_same, putBits_one h, bit_add_two_pow h hb]

theorem tmrFlag_of_set {b : Nat} (h : flag n b s = true) : tmrFlag n b s = s := if_pos h

theorem tmrFlag_of_clear {b : Nat} (h : flag n b s = false) :
    tmrFlag n b s = if bit (reg (tmrBase n) s) 19 then sendVec 0 (glbVec s) (tmrNote n b s) else tmrNote n b s := by
  have hclear : ¬ bit (reg (tmrBase n + 0x28) s) b = true := by simpa [flag] using h
  rw [tmrFlag, if_neg hclear, ← reg_tmrNote_ne (a := tmrBase n) (n := n) (by omega) b s]
  rfl

theorem tmrFlag_out (n b : Nat) (s : State) : s.out <+: (tmrFlag n b s).out := by
  cases h : flag n b s
  · rw [tmrFlag_of_clear h]
    split
    · exact (Sends.sendVec (slot := 0) (by decide) (glbVec_lt s) (tmrNote n b s)).out
    · exact List.prefix_refl _
  · rw [tmrFlag_of_set h]

/-! ### An event and its vector (R532) -/

/-- The event sets the flag; the vector goes out when the flag rises and may, and not otherwise. -/
def Event (n b : Nat) (s t : State) : Prop :=
  flag n b t = true
    ∧ (flag n b s = false → bit (reg (tmrBase n) s) 19 = true → VecReady s → .msix 0 (glbVec s) ∈ outSince s t)
    ∧ (flag n b s = true ∨ bit (reg (tmrBase n) s) 19 = false → ∀ w, .msix 0 w ∉ outSince s t)

theorem tmrFlag_event (hn : n < 16) {b : Nat} (hb : b < 32) (s : State) : Event n b s (tmrFlag n b s) := by
  cases hflag : flag n b s
  case true =>
    rw [tmrFlag_of_set hflag]
    exact ⟨hflag, by simp [hflag], fun _ w => by simp [outSince]⟩
  case false =>
    rw [tmrFlag_of_clear hflag]
    cases hirq : bit (reg (tmrBase n) s) 19
    case false => exact ⟨flag_tmrNote hflag hb, by simp [hirq], fun _ w => by simp [outSince, tmrNote]⟩
    case true =>
      refine ⟨?_, fun _ _ hready => ?_, by simp [hflag, hirq]⟩
      · rw [if_pos rfl, flag, reg_sendVec (glbVec_lt s) (by unfold tmrBase; omega)]
        exact flag_tmrNote hflag hb
      · rw [if_pos rfl, ← glbVec_tmrNote n b s, sendVec_glbVec (hready.tmrNote b)]
        simp [outSince, tmrNote]

/-- Steps before the flag is set that keep the timer's flags and send no message belong to the event. -/
theorem Event.after {b : Nat} (hk : KeepsTimer n s u) (hq : ∀ w, .msix 0 w ∉ outSince s u) (ht : u.out <+: t.out) (h : Event n b u t) :
    Event n b s t := by
  obtain ⟨hset, hsent, hnot⟩ := h
  have hflag : flag n b u = flag n b s := flag_congr hk b
  have hirq : bit (reg (tmrBase n) u) 19 = bit (reg (tmrBase n) s) 19 := bit_irq_congr hk.ctl
  rw [hflag, hirq] at hsent hnot
  rw [hk.vec] at hsent
  rw [Event, outSince_append hk.out ht]
  exact ⟨hset, fun hf hi hr => List.mem_append_right _ (hsent hf hi (hk.ready hr)),
    fun hc w => by simpa [hq w] using hnot hc w⟩

theorem tmrPinDo_noMessage (k : Nat) (f : Bool → Bool) (h : u.out = s.out) (w : Nat) : .msix 0 w ∉ outSince s (tmrPinDo k f u) := by
  unfold tmrPinDo pinSet
  dsimp only
  split <;> simp [outSince, h]

/-- A timer's action on its pin and then its flag (R531, R532). -/
theorem pinAndFlag_event (hn : n < 16) {b : Nat} (hb : b < 32) (f : Bool → Bool) (hk : KeepsTimer n s u) (hu : u.out = s.out) :
    Event n b s (tmrFlag n b (tmrPinDo n f u)) :=
  (tmrFlag_event hn hb _).after (hk.trans (KeepsTimer.tmrPinDo n f u)) (tmrPinDo_noMessage n f hu) (tmrFlag_out n b _)

theorem tmrMatch_event (hn : n < 16) (s : State) : Event n 30 s (tmrMatch n s) :=
  pinAndFlag_event hn (by decide) _ (KeepsTimer.setTmr n _ s) rfl

theorem tmrReloadTick_event (hn : n < 16) (s : State) : Event n 29 s (tmrReloadTick n s) := by
  unfold tmrReloadTick
  refine pinAndFlag_event hn (by decide) _ ?_ ?_
  · exact KeepsTimer.ite ((KeepsTimer.setTmr n _ s).trans (KeepsTimer.clearEn n _)) (KeepsTimer.setTmr n _ s)
  · split
    · rw [setFld_out, setTmr_out]
    · rw [setTmr_out]

theorem tmrFire_event (hn : n < 16) (s : State) : Event n 26 s (tmrFire n false s) := by
  simp only [tmrFire, Bool.false_eq_true, if_false]
  exact pinAndFlag_event hn (by decide) _ ((KeepsTimer.setTmr n _ s).trans (KeepsTimer.clearEn n _)) (by rw [setFld_out, setTmr_out])

/-! ### Capture (R533) -/

/-- The timer takes its capture at this edge. -/
def Captures (n p : Nat) (rising : Bool) (s : State) : Prop :=
  bits (reg (tmrBase n) s) 10 7 = p + 1
    ∧ (bits (reg (tmrBase n) s) 6 5 = 2 ∨ (bits (reg (tmrBase n) s) 6 5 = 0 ∧ rising = true) ∨ (bits (reg (tmrBase n) s) 6 5 = 1 ∧ rising = false))

/-- The count in TMRn_CAP. -/
def latchCap (n : Nat) (s : State) : State :=
  let c := if tmrMode n s = 2 then 0 else (tmr n s).count
  setReg (tmrBase n + 0x24) (c / 2 ^ 32) (setReg (tmrBase n + 0x20) (c % 2 ^ 32) s)

theorem latchCap_keepsTimer (n : Nat) (s : State) : KeepsTimer n s (latchCap n s) := by
  unfold latchCap
  refine KeepsTimer.trans (KeepsTimer.setReg _ s ?_ ?_ ?_) (KeepsTimer.setReg _ _ ?_ ?_ ?_) <;>
  · unfold tmrBase
    omega

theorem tmrCapture_of_captures {p : Nat} {rising : Bool} (h : Captures n p rising s) :
    tmrCapture p rising s n = if flag n 28 s then tmrNote n 27 (latchCap n s) else tmrFlag n 28 (latchCap n s) :=
  if_pos (by simpa [Captures] using h)

theorem flag_tmrNote_overrun (h : flag n 28 s = true) : flag n 28 (tmrNote n 27 s) = true := by
  unfold flag tmrNote setFld
  rw [reg_setReg_same]
  exact bit_capture_putBits_overrun h

theorem tmrCapture_event (hn : n < 16) {p : Nat} {rising : Bool} (h : Captures n p rising s) :
    Event n 28 s (tmrCapture p rising s n) := by
  have hk := latchCap_keepsTimer n s
  have hflag : flag n 28 (latchCap n s) = flag n 28 s := flag_congr hk 28
  have hquiet : ∀ w, .msix 0 w ∉ outSince s (latchCap n s) := by simp [outSince, latchCap]
  rw [tmrCapture_of_captures h]
  split
  next hset =>
    exact Event.after hk hquiet (List.prefix_refl _)
      ⟨flag_tmrNote_overrun (hflag.trans hset), by simp [hflag, hset], fun _ w => by simp [outSince, tmrNote]⟩
  next => exact (tmrFlag_event hn (by decide) _).after hk hquiet (tmrFlag_out n 28 _)

theorem Captures.congr {p : Nat} {rising : Bool} (hk : KeepsTimer n s u) (h : Captures n p rising s) : Captures n p rising u := by
  rw [Captures, bits_capSrc_congr hk.ctl, bits_capEdge_congr hk.ctl]
  exact h

/-- The timers visited before and after a timer are others. -/
theorem timers_split (hn : n < 16) : ∃ before after, List.range 16 = before ++ n :: after ∧ (∀ k ∈ before, k ≠ n) ∧ ∀ k ∈ after, k ≠ n := by
  obtain ⟨before, after, hsplit⟩ := List.append_of_mem (List.mem_range.2 hn)
  have hnodup := List.nodup_range (n := 16)
  rw [hsplit, List.nodup_append, List.nodup_cons] at hnodup
  obtain ⟨-, ⟨hafter, -⟩, hdisj⟩ := hnodup
  exact ⟨before, after, hsplit, fun k hk => hdisj k hk n List.mem_cons_self, fun k hk => ne_of_mem_of_not_mem hk hafter⟩

/-- A source edge of a timer that counts the pin (R526). -/
def pinEdge (p : Nat) (rising : Bool) (s : State) (k : Nat) : State := if rising ∧ tmrSrc k s = 12 + p then tmrEdges k 1 s else s

theorem pinEdge_keepsTimer (p : Nat) (rising : Bool) (k : Nat) (s : State) : KeepsTimer n s (pinEdge p rising s k) :=
  KeepsTimer.ite (KeepsTimer.tmrEdges k 1 s) (KeepsTimer.refl s)

theorem exec_timerCapture_awake (p : Fin 8) (rising : Bool) (hs : s.tmr.slept = none) (hc : centralUp s = true) :
    exec (.timerCapture p rising) s
      = .next ((List.range 16).foldl (pinEdge p rising) ((List.range 16).foldl (tmrCapture p rising) s)) := by
  have hexec : exec (.timerCapture p rising) s = execTimerCapture p rising s := rfl
  rw [hexec, execTimerCapture, if_neg (by simp [tmrAsleep, hs, hc])]
  rfl

/-- Among the captures of all timers, a timer's own stands between steps that keep its flags. -/
theorem captures_around (hn : n < 16) (p : Nat) (rising : Bool) (s : State) :
    ∃ u, KeepsTimer n s u ∧ KeepsTimer n (tmrCapture p rising u n) ((List.range 16).foldl (tmrCapture p rising) s) := by
  obtain ⟨before, after, hsplit, hbefore, hafter⟩ := timers_split hn
  refine ⟨before.foldl (tmrCapture p rising) s, KeepsTimer.foldl (fun k hk => KeepsTimer.tmrCapture hn (hbefore k hk) p rising) s, ?_⟩
  rw [hsplit, List.foldl_append, List.foldl_cons]
  exact KeepsTimer.foldl (fun k hk => KeepsTimer.tmrCapture hn (hafter k hk) p rising) _

/-- TIMER_CAPTURE holds the event of each timer that captures (R532, R533). -/
theorem exec_timerCapture_event (hn : n < 16) {p : Fin 8} {rising : Bool} (h : Captures n p rising s) (hs : s.tmr.slept = none)
    (hc : centralUp s = true) : ∃ t, exec (.timerCapture p rising) s = .next t ∧ flag n 28 t = true
      ∧ (flag n 28 s = false → bit (reg (tmrBase n) s) 19 = true → VecReady s → .msix 0 (glbVec s) ∈ outSince s t) := by
  obtain ⟨u, hbefore, hcaps⟩ := captures_around hn p rising s
  have hedges : KeepsTimer n (tmrCapture p rising u n) _ := hcaps.trans (KeepsTimer.foldl (l := List.range 16) (fun k _ => pinEdge_keepsTimer p rising k) _)
  obtain ⟨hset, hsent, -⟩ := tmrCapture_event hn (h.congr hbefore)
  refine ⟨_, exec_timerCapture_awake p rising hs hc, (flag_congr hedges 28).trans hset, fun hf hi hr => ?_⟩
  rw [flag_congr hbefore, bit_irq_congr hbefore.ctl, hbefore.vec] at hsent
  exact mem_outSince_widen hbefore.out hedges.out (hsent hf hi (hbefore.ready hr))

/-! ### TMR_STATUS_ALL (R539) -/

theorem bits_ne_zero_iff (v hi lo : Nat) : bits v hi lo ≠ 0 ↔ ∃ b, lo ≤ b ∧ b ≤ hi ∧ bit v b = true := by
  have hbit : ∀ i, (bits v hi lo).testBit i = (decide (i < hi + 1 - lo) && bit v (lo + i)) := fun i => by
    rw [bits, Nat.testBit_mod_two_pow, Nat.testBit_shiftRight, bit_eq_testBit]
  constructor
  · intro h
    obtain ⟨i, hset⟩ := Nat.exists_testBit_of_ne_zero h
    rw [hbit, Bool.and_eq_true, decide_eq_true_eq] at hset
    obtain ⟨hi', hone⟩ := hset
    exact ⟨lo + i, by omega, by omega, hone⟩
  · rintro ⟨b, hlo, hhi, hb⟩ hzero
    have hclear := hbit (b - lo)
    rw [hzero, Nat.zero_testBit, Nat.add_sub_cancel' hlo, hb, Bool.and_true, eq_comm, decide_eq_false_iff_not] at hclear
    omega

section
variable (p : Nat → Prop) [DecidablePred p]

theorem sum_two_pow_lt (m : Nat) : ((List.range m).map (fun k => if p k then 2 ^ k else 0)).sum < 2 ^ m := by
  induction m with
  | zero => simp
  | succ m ih =>
    rw [List.range_succ, List.map_append, List.sum_append, Nat.pow_succ]
    simp only [List.map_cons, List.map_nil, List.sum_cons, List.sum_nil]
    split <;> omega

/-- A sum of distinct powers of two has the bits of its powers. -/
theorem testBit_sum_two_pow {m i : Nat} (h : i < m) :
    (((List.range m).map (fun k => if p k then 2 ^ k else 0)).sum).testBit i = decide (p i) := by
  induction m with
  | zero => omega
  | succ m ih =>
    have hlt := sum_two_pow_lt p m
    rw [List.range_succ, List.map_append, List.sum_append, Nat.add_comm]
    simp only [List.map_cons, List.map_nil, List.sum_cons, List.sum_nil, Nat.add_zero]
    rcases Nat.lt_succ_iff_lt_or_eq.1 h with hi | rfl
    · split
      · rw [Nat.testBit_two_pow_add_gt hi, ih hi]
      · rw [Nat.zero_add, ih hi]
    · have htop := Nat.testBit_eq_false_of_lt hlt
      split
      · rw [Nat.testBit_two_pow_add_eq, htop]; simpa
      · rw [Nat.zero_add, htop]; simpa
end

theorem view_statusAll {r : RegRow} (h : r.reg = .tmrStatusAll) (ix : List Nat) (a : Nat) (s : State) :
    view r ix a s = ((List.range 16).map (fun k => if rfld (tmrBase k + 0x28) 30 23 s ≠ 0 then 2 ^ k else 0)).sum := by
  obtain ⟨_, _, _, _⟩ := r
  subst h
  rfl

theorem peek_statusAll (s : State) :
    peek 0x44008 s = ((List.range 16).map (fun k => if rfld (tmrBase k + 0x28) 30 23 s ≠ 0 then 2 ^ k else 0)).sum := by
  have hgap : gapLogAt 0x44008 = false := by decide
  have hrow : (regAt 0x44008).map (·.1.reg) = some .tmrStatusAll := by decide +kernel
  obtain ⟨⟨r, ix⟩, hat, hreg⟩ := Option.map_eq_some_iff.1 hrow
  rw [peek, hgap, hat]
  exact view_statusAll hreg ix _ s

theorem bit_statusAll (hn : n < 16) (s : State) : bit (peek 0x44008 s) n = true ↔ ∃ b, 23 ≤ b ∧ b ≤ 30 ∧ flag n b s = true := by
  rw [bit_eq_testBit, peek_statusAll, testBit_sum_two_pow _ hn, decide_eq_true_eq]
  exact bits_ne_zero_iff _ 30 23

/-! ### The events' steps -/

theorem exec_timerMatch_eq {n : Fin 16} (hen : bit (reg (tmrBase n) s) 31 = true) (hmode : bits (reg (tmrBase n) s) 30 29 < 2)
    (hturn : tmrTurn n s = true) (hs : s.tmr.slept = none) (hdue : 0 < (tmr n s).due) (hpos : 0 < (tmr n s).count)
    (hcmp : (tmr n s).count - 1 = (tmr n s).cmp) : exec (.timerMatch n) s = .next (tmrMatch n s) := by
  have hexec : exec (.timerMatch n) s = execTimerMatch n s := rfl
  have hmatch : tmrMatches (tmr n s) = true := decide_eq_true ⟨hdue, hpos, hcmp⟩
  rw [hexec, execTimerMatch, if_pos ⟨hen, hmode, hmatch, by simp [tmrAsleep, hs], hturn⟩]

theorem exec_timerReload_eq {n : Fin 16} (hen : bit (reg (tmrBase n) s) 31 = true) (hmode : bits (reg (tmrBase n) s) 30 29 < 2)
    (hturn : tmrTurn n s = true) (hs : s.tmr.slept = none) (hdue : 0 < (tmr n s).due) (hzero : (tmr n s).count = 0) :
    exec (.timerReload n) s = .next (tmrReloadTick n s) := by
  have hexec : exec (.timerReload n) s = execTimerReload n s := rfl
  rw [hexec, execTimerReload, if_pos ⟨hen, hmode, hdue, hzero, by simp [tmrAsleep, hs], hturn⟩]

theorem exec_timerTimeFire_eq {n : Fin 16} (harmed : (tmr n s).armed = true) (hen : bit (reg (tmrBase n) s) 31 = true)
    (hleft : tmrLeft n s ≤ 0) (hs : s.tmr.slept = none) : exec (.timerTimeFire n) s = .next (tmrFire n false s) := by
  have hexec : exec (.timerTimeFire n) s = execTimerTimeFire n s := rfl
  rw [hexec, execTimerTimeFire, if_pos ⟨harmed, hen, hleft, by simp [tmrAsleep, hs]⟩]

/-- Settles O54: each event is steps that keep the timer's flags and send no message, then `tmrFlag`. -/
theorem timerFlags : Obligations.TimerFlags := by
  unfold Obligations.TimerFlags
  intro n s base ctl x counts flagOf v ready sent event
  refine ⟨?_, ?_, fun p rising hsrc hedge => ⟨tmrCapture_event n.isLt ⟨hsrc, hedge⟩, ?_⟩, ?_, bit_statusAll n.isLt s⟩
  · rintro ⟨hen, hmode, hdue, hs, hturn⟩ hpos hcmp
    exact ⟨_, exec_timerMatch_eq hen hmode hturn hs hdue hpos hcmp, tmrMatch_event n.isLt s⟩
  · rintro ⟨hen, hmode, hdue, hs, hturn⟩ hzero
    exact ⟨_, exec_timerReload_eq hen hmode hturn hs hdue hzero, tmrReloadTick_event n.isLt s⟩
  · exact exec_timerCapture_event n.isLt ⟨hsrc, hedge⟩
  · intro harmed hen hleft hs
    exact ⟨_, exec_timerTimeFire_eq harmed hen hleft hs, tmrFire_event n.isLt s⟩

end Sys2Proof.TimerFlags
end

section
/-! Undecoded addresses (R542): what holds of the 16 MiB of BAR0 (R540), and why UndecodedAddresses, which takes any number as an address,
fails: beyond BAR0 the model keeps the MSI-X tables of the virtual functions. -/

namespace Sys2Proof.UndecodedAddresses

open Sys2Proof Sys2Proof.Machine

/-! ### Where a row of the register map lies -/

/-- How many addresses a family takes, from its base to its last register. -/
def dimsSpan : List RegDim → Nat
  | [] => 1
  | d :: ds => (d.first + d.count - 1) * d.stride + dimsSpan ds

/-- An offset of a family is its index in the outermost dimension and an offset of the rest. -/
theorem dimIdx_cons_eq_some {d : RegDim} {ds : List RegDim} {o : Nat} {ix : List Nat} (h : dimIdx (d :: ds) o = some ix) :
    ∃ n jx, d.first ≤ n ∧ n < d.first + d.count ∧ o = n * d.stride + o % d.stride ∧ dimIdx ds (o % d.stride) = some jx := by
  simp only [dimIdx] at h
  split at h
  case isTrue hn =>
    obtain ⟨jx, hjx, -⟩ := Option.map_eq_some_iff.mp h
    exact ⟨_, jx, hn.1, hn.2, (Nat.div_add_mod' o d.stride).symm, hjx⟩
  case isFalse => cases h

theorem lt_dimsSpan : ∀ {ds : List RegDim} {o : Nat} {ix : List Nat}, dimIdx ds o = some ix → o < dimsSpan ds
  | [], o, ix, h => by
    by_cases ho : o = 0
    · simp [ho, dimsSpan]
    · simp [dimIdx, ho] at h
  | d :: ds, o, ix, h => by
    obtain ⟨n, jx, -, hn, ho, hrest⟩ := dimIdx_cons_eq_some h
    have hle : n * d.stride ≤ (d.first + d.count - 1) * d.stride := Nat.mul_le_mul_right _ (by omega)
    have hlt := lt_dimsSpan hrest
    simp only [dimsSpan]
    omega

/-- What regFind finds is a row of the list, at an offset that its dimensions name. -/
theorem regFind_eq_some {r : RegRow} {ix : List Nat} {a : Nat} :
    ∀ {rows : List RegRow}, regFind rows a = some (r, ix) → r ∈ rows ∧ r.base ≤ a ∧ dimIdx r.dims (a - r.base) = some ix
  | [], h => by cases h
  | x :: rows, h => by
    have later (h : regFind rows a = some (r, ix)) := (regFind_eq_some h).imp_left (List.mem_cons_of_mem x)
    simp only [regFind] at h
    split at h
    case isFalse => exact later h
    case isTrue hbase =>
      split at h
      case h_2 => exact later h
      case h_1 jx hdim =>
        cases h
        exact ⟨List.mem_cons_self, hbase, hdim⟩

/-! ### The spans of R541 -/

/-- The blocks of BAR0 outside the quadrants, by base and span. -/
def centralSpans : List (Nat × Nat) :=
  [(0, 0x1000), (0x1000, 0x1000), (0x2000, 0x1000), (0x3000, 0x1000), (0x10000, 0x6000), (0x20000, 0x10000), (0x30000, 0x1000),
    (0x40000, 0x1000), (0x41000, 0x1000), (0x42000, 0x1000), (0x43000, 0x1000), (0x44000, 0x1000), (0x50000, 0x1000), (0x60000, 0x4000),
    (0x70000, 0x1000), (0x80000, 0xC000)]

/-- The blocks of a quadrant, by offset and span. -/
def quadSpans : List (Nat × Nat) :=
  [(0, 0x10000), (0x10000, 0x10000), (0x40000, 0x40000), (0x80000, 0xD000), (0xC0000, 0x1000), (0xD0000, 0x1000), (0xE0000, 0x1000)]

/-- An address lies in one of the spans. -/
def inSpans (l : List (Nat × Nat)) (a : Nat) : Bool := l.any (fun e => decide (e.1 ≤ a ∧ a < e.1 + e.2))

/-- Every block of BAR0, the quadrants' at their own bases. -/
def blockSpans : List (Nat × Nat) :=
  centralSpans ++ (List.range 4).flatMap (fun q => quadSpans.map (fun e => (0x100000 * (q + 1) + e.1, e.2)))

theorem inSpans_eq_true {l : List (Nat × Nat)} {a : Nat} : inSpans l a = true ↔ ∃ e ∈ l, e.1 ≤ a ∧ a < e.1 + e.2 := by
  simp only [inSpans, List.any_eq_true, decide_eq_true_eq]

theorem inSpans_blockSpans {a : Nat} (h : inSpans blockSpans a = true) :
    inSpans centralSpans a = true ∨ (0x100000 ≤ a ∧ a < 0x500000 ∧ inSpans quadSpans (a % 0x100000) = true) := by
  simp only [inSpans_eq_true] at h ⊢
  obtain ⟨e, he, hlo, hhi⟩ := h
  rcases List.mem_append.mp he with hc | hquad
  · exact .inl ⟨e, hc, hlo, hhi⟩
  · obtain ⟨q, hq, he⟩ := List.mem_flatMap.mp hquad
    obtain ⟨b, hb, rfl⟩ := List.mem_map.mp he
    have hq4 : q < 4 := List.mem_range.mp hq
    have hend : b.1 + b.2 ≤ 0x100000 := (by decide : ∀ e ∈ quadSpans, e.1 + e.2 ≤ 0x100000) b hb
    refine .inr ⟨?_, ?_, b, hb, ?_, ?_⟩ <;> omega

/-- The n addresses from lo on lie in one block. -/
def oneBlock (lo n : Nat) : Bool := blockSpans.any (fun e => decide (e.1 ≤ lo ∧ lo + n ≤ e.1 + e.2))

theorem inSpans_of_oneBlock {lo n a : Nat} (h : oneBlock lo n = true) (hlo : lo ≤ a) (hn : a < lo + n) : inSpans blockSpans a = true := by
  simp only [oneBlock, List.any_eq_true, decide_eq_true_eq] at h
  obtain ⟨e, he, hbase, hend⟩ := h
  exact inSpans_eq_true.mpr ⟨e, he, by omega, by omega⟩

/-- A family lies in one block, or each member of its outermost dimension does. -/
def rowInBlocks (r : RegRow) : Bool :=
  oneBlock r.base (dimsSpan r.dims) || match r.dims with
    | [] => false
    | d :: ds => (List.range (d.first + d.count)).all (fun n => oneBlock (r.base + n * d.stride) (dimsSpan ds))

theorem inSpans_of_rowInBlocks {r : RegRow} {ix : List Nat} {a : Nat} (h : rowInBlocks r = true) (hbase : r.base ≤ a)
    (hdim : dimIdx r.dims (a - r.base) = some ix) : inSpans blockSpans a = true := by
  rcases Bool.or_eq_true_iff.mp h with hone | heach
  · have hlt := lt_dimsSpan hdim
    exact inSpans_of_oneBlock hone hbase (by omega)
  · split at heach
    case h_1 => cases heach
    case h_2 d ds hcons =>
      rw [hcons] at hdim
      obtain ⟨n, jx, -, hn, ho, hrest⟩ := dimIdx_cons_eq_some hdim
      have hlt := lt_dimsSpan hrest
      exact inSpans_of_oneBlock (List.all_eq_true.mp heach n (List.mem_range.mpr hn)) (by omega) (by omega)

/-- R541 of the register table: every row that starts in BAR0 lies in the blocks. -/
theorem regRows_inBlocks : regRows.all (fun r => decide (0x1000000 ≤ r.base) || rowInBlocks r) = true := by decide +kernel

/-! ### R542 for the addresses of BAR0 -/

theorem inSpans_of_regAt {a : Nat} {r : RegRow} {ix : List Nat} (ha : a < 0x1000000) (h : regAt a = some (r, ix)) :
    inSpans blockSpans a = true := by
  obtain ⟨hr, hbase, hdim⟩ := regFind_eq_some h
  have hrow := List.all_eq_true.mp regRows_inBlocks r hr
  rw [Bool.or_eq_true, decide_eq_true_eq] at hrow
  exact inSpans_of_rowInBlocks (hrow.resolve_left (by omega)) hbase hdim

/-- The gap log and its head stand in a quadrant's QCTL block. -/
theorem quadrant_of_gapLogAt {a : Nat} (h : gapLogAt a = true) :
    0x100000 ≤ a ∧ a < 0x500000 ∧ inSpans quadSpans (a % 0x100000) = true := by
  obtain ⟨hlo, hhi, hofs⟩ := of_decide_eq_true h
  exact ⟨hlo, hhi, inSpans_eq_true.mpr ⟨(0, 0x10000), List.mem_cons_self, by omega, by omega⟩⟩

/-- Outside the spans of R541 no address of BAR0 is decoded. -/
theorem undecoded_outside_spans {a : Nat} (ha : a < 0x1000000) (hc : inSpans centralSpans a = false)
    (hq : a < 0x100000 ∨ 0x500000 ≤ a ∨ inSpans quadSpans (a % 0x100000) = false) : regAt a = none ∧ gapLogAt a = false := by
  have noQuad : ¬ (0x100000 ≤ a ∧ a < 0x500000 ∧ inSpans quadSpans (a % 0x100000) = true) := by
    rintro ⟨hlo, hhi, hin⟩
    rcases hq with hq | hq | hq
    · omega
    · omega
    · exact Bool.false_ne_true (hq.symm.trans hin)
  constructor
  · by_contra hsome
    obtain ⟨⟨r, ix⟩, hreg⟩ := Option.ne_none_iff_exists'.mp hsome
    rcases inSpans_blockSpans (inSpans_of_regAt ha hreg) with hin | hin
    · exact Bool.false_ne_true (hc.symm.trans hin)
    · exact noQuad hin
  · exact Bool.eq_false_iff.mpr fun hgap => noQuad (quadrant_of_gapLogAt hgap)

theorem undecoded_above_quadrants {a : Nat} (ha : a < 0x1000000) (hlo : 0x500000 ≤ a) : regAt a = none ∧ gapLogAt a = false := by
  refine undecoded_outside_spans ha (Bool.eq_false_iff.mpr fun hin => ?_) (.inr (.inl hlo))
  obtain ⟨e, he, -, hhi⟩ := inSpans_eq_true.mp hin
  have hend : e.1 + e.2 ≤ 0x500000 := (by decide : ∀ e ∈ centralSpans, e.1 + e.2 ≤ 0x500000) e he
  omega

/-! ### An undecoded address read and written -/

section
variable {who : Requester} {a : Nat} {ofs : BitVec 24} {s : State}

theorem readReg_undecoded (who : Requester) (s : State) (hreg : regAt a = none) (hgap : gapLogAt a = false) : readReg who a s = (0, s) := by
  simp [readReg, peek, hreg, hgap]

theorem placeReasons_undecoded (who : Requester) (s : State) (hreg : regAt a = none) (hgap : gapLogAt a = false) :
    placeReasons who a s = if who = .regacc ∧ blockHeld a s = true then [5, 4] else [5] := by
  by_cases hheld : who = .regacc ∧ blockHeld a s = true <;> simp [placeReasons, why, hreg, hgap, hheld]

/-- No write to an undecoded address is journaled, and no latch belongs to it. -/
theorem refuseWrite_undecoded (who : Requester) (o v reason : Nat) (first : Nat) (s : State) (hreg : regAt a = none) :
    refuseWrite who o a v reason (a, first) s = logRefusal who false o v reason s := by
  simp [refuseWrite, journalWrite, journaled, dropLatch, hreg]

theorem writeDw_undecoded (who : Requester) (o v : Nat) (bus : List TwTry) (s : State) (hreg : regAt a = none) (hgap : gapLogAt a = false) :
    writeDw who o a v bus s = logRefusal who false o v (if who = .regacc ∧ blockHeld a s = true then 4 else 5) s := by
  have hreasons : lowest (reasonsDw who a v s) = some (if who = .regacc ∧ blockHeld a s = true then 4 else 5) := by
    rw [reasonsDw, placeReasons_undecoded who s hreg hgap, hreg, List.append_nil]
    split <;> rfl
  rw [writeDw, hreasons]
  exact refuseWrite_undecoded who o v _ v s hreg

/-- A requester that reaches the block reads one DW of BAR0. -/
theorem exec_loReadLatch_reaches (hs : reaches who s = true) :
    exec (.loReadLatch who false ofs 1) s = .next (readRun who false 1 (ofs.toNat / 4 * 4) s) := by
  have hexec : exec (.loReadLatch who false ofs 1) s = execLoReadLatch who false ofs 1 s := rfl
  rw [hexec]
  cases who with
  | fn f => exact congrArg Host.Outcome.next (if_pos hs)
  | regacc | tw0 | steward => rfl

/-- A requester that reaches the block and may write it writes to BAR0. -/
theorem exec_registerWrite_reaches {shape : WriteShape} {bus : List TwTry} (hw : who ≠ .tw0) (hs : reaches who s = true) :
    exec (.registerWrite who false ofs shape bus) s = .next (writeBar0 who (ofs.toNat / 4 * 4) shape bus s) := by
  have hexec : exec (.registerWrite who false ofs shape bus) s = execRegisterWrite who false ofs shape bus s := rfl
  rw [hexec, execRegisterWrite]
  cases who with
  | fn f =>
    have hup : hostUp f s = true := hs
    simp [regWrite, hup]
  | tw0 => exact absurd rfl hw
  | regacc | steward => rfl

/-- R542: an undecoded address reads 0, and the read changes nothing. -/
theorem exec_loReadLatch_undecoded (hs : reaches who s = true) (hp : placeOf who (ofs.toNat / 4 * 4) = some a) (hreg : regAt a = none)
    (hgap : gapLogAt a = false) :
    exec (.loReadLatch who false ofs 1) s = .next (emit (.readData who (ofs.toNat / 4 * 4) 0) s) := by
  rw [exec_loReadLatch_reaches hs]
  simp [readRun, readDw, hp, readReg_undecoded who s hreg hgap]

/-- R542, with R540's lower reason for REGACC at a block held in reset (R547). -/
theorem exec_registerWrite_undecoded (v : Word) (bus : List TwTry) (hw : who ≠ .tw0) (hs : reaches who s = true)
    (hp : placeOf who (ofs.toNat / 4 * 4) = some a) (hreg : regAt a = none) (hgap : gapLogAt a = false) :
    exec (.registerWrite who false ofs (.dw 15 v) bus) s = .next (logRefusal who false (ofs.toNat / 4 * 4) v.toNat
      (if who = .regacc ∧ blockHeld a s = true then 4 else 5) s) := by
  rw [exec_registerWrite_reaches hw hs, writeBar0, hp]
  exact congrArg Host.Outcome.next (writeDw_undecoded who _ v.toNat bus s hreg hgap)

end

/-- The hypotheses of the read and the write are met: REGACC at an offset in the gap after the timers, whose block power-on holds in reset. -/
theorem exec_regacc_gap_reset :
    exec (.loReadLatch .regacc false 0x44FFC 1) State.reset = .next (emit (.readData .regacc 0x44FFC 0) State.reset)
    ∧ exec (.registerWrite .regacc false 0x44FFC (.dw 15 1) []) State.reset = .next (logRefusal .regacc false 0x44FFC 1 4 State.reset) := by
  have hreg : regAt 0x44FFC = none := by decide +kernel
  have hgap : gapLogAt 0x44FFC = false := by decide
  have hheld : blockHeld 0x44FFC State.reset = true := by decide +kernel
  refine ⟨exec_loReadLatch_undecoded rfl rfl hreg hgap, ?_⟩
  rw [exec_registerWrite_undecoded 1 [] (by decide) rfl rfl hreg hgap, if_pos ⟨rfl, hheld⟩]
  rfl

/-- The same of the spans: the last DW of BAR0 is undecoded. -/
theorem undecoded_last_dw : regAt 0xFFFFFC = none ∧ gapLogAt 0xFFFFFC = false :=
  undecoded_above_quadrants (by decide) (by decide)

/-! ### The refutation

The statement's first part takes any number from 0x500000 on, where R542 ends at 0xFFFFFF. The register table goes on beyond BAR0: the MSI-X
tables of the virtual functions stand there (`msixBase`), so a row holds the first entry of function 1's. By undecoded_outside_spans,
undecoded_above_quadrants, exec_loReadLatch_undecoded and exec_registerWrite_undecoded the bound 0x1000000 is all that the statement lacks. -/

/-- The first entry of function 1's MSI-X table, at 0x1002000. -/
theorem regAt_msixBase_one : (regAt (msixBase 1)).map (·.1.reg) = some .msixAddrLo := by decide +kernel

/-- Refutes O56: at 0x1002000, beyond BAR0, a register stands. -/
theorem not_undecodedAddresses : ¬ Obligations.UndecodedAddresses := by
  unfold Obligations.UndecodedAddresses
  rintro ⟨hspans, -⟩
  obtain ⟨-, habove⟩ := hspans (msixBase 1)
  obtain ⟨hnone, -⟩ := habove (by decide)
  have hrow := regAt_msixBase_one
  rw [hnone] at hrow
  cases hrow

end Sys2Proof.UndecodedAddresses
end
